-- ==== Sys2Proof/Word.lean ====
section
/-!
DEFINITION. The word types of the device: bytes, register words, doublewords.
-/
namespace Sys2Proof

/-- One byte of memory. -/
abbrev Byte := BitVec 8

/-- A register of register space (R14). -/
abbrev Word := BitVec 32

/-- A Rachis scalar register (R259). -/
abbrev DWord := BitVec 64

end Sys2Proof
end

