-- ==== Sys2Proof/Syntax.lean ====
section
/-!
DEFINITION. The commands of the block: one constructor of Instr for each row of the opcode table, with the operands its event
carries. Wall cycles are core cycles (R6) counted from reset; a word of the schedule carries its stamp.
-/
namespace Sys2Proof

/-- A schedule word (R85) as it issues: its die, its place in its die's word stream, UNIT, STAMP and ARGS; the KIND and OP are those of
its command. -/
structure SWord where
  die : Fin 4
  idx : BitVec 16
  unit : BitVec 8
  stamp : BitVec 20
  args : BitVec 88
  deriving DecidableEq, Repr

/-- One further word of a chain: OP and ARGS (R230). -/
structure ChainWord where
  op : BitVec 8
  args : BitVec 88
  deriving DecidableEq, Repr

/-- What a stack burst meets (R299 to R302). -/
inductive BurstErr
  /-- A corrected on-die error. -/
  | onDie
  /-- A corrected link error on a connection. -/
  | link (conn : Fin 272)
  /-- An uncorrectable error, of the link code or of the on-die code. -/
  | ue (link : Bool)
  /-- Wrong bits in a flit of the burst on its die's link: the flit slot, and the physical lanes whose bit of it is wrong beside those that have failed
  (R359, R362). -/
  | flit (slot : Fin 48) (lanes : List (Fin 1632))
  deriving DecidableEq, Repr

/-- An error met by one burst of an operation, by its number. -/
structure BurstEvent where
  burst : Nat
  err : BurstErr
  deriving DecidableEq, Repr

/-- An error met by an access that a command makes (R299): the address of the access, whether it writes, and what it meets. -/
structure AccessErr where
  addr : Nat
  write : Bool
  err : BurstErr
  deriving DecidableEq, Repr

/-- A transaction of a fenced die that the firewall rejects (R374, R379): its firewall ID, the KIND of its log entry and the address that it names. -/
structure FenceTry where
  id : Nat
  kind : Fin 4
  addr : Option Nat
  deriving DecidableEq, Repr

/-- What the host sets in a port's configuration space as the link comes up (R383, R386): Bus Master Enable, the code of the maximum payload (128 << n) and of
the maximum read request, the size of BAR2 (1 GiB << n), and MSI-X with its function mask. -/
structure HostConfig where
  master : Bool
  mps : Fin 3
  mrrs : Fin 6
  bar2 : Fin 11
  msix : Bool
  mask : Bool
  deriving DecidableEq, Repr

/-- What a host access names (R384, R386, R391). -/
inductive HostSpace
  | bar2 | bar4 | config
  deriving DecidableEq, Repr

/-- A leg of a collective instance (R476, R477). -/
inductive LegName
  | parent
  | child (p : Fin 24)
  | next
  | prev
  deriving DecidableEq, Repr

/-- An error met by a burst of a switch frame's copies (R523): of the save step or the restore step, by region. -/
structure CarryEvent where
  restore : Bool
  region : Nat
  event : BurstEvent
  deriving DecidableEq, Repr

/-- A disagreement that a test frame finds (R228, R513, R584). -/
inductive TestEvent
  /-- A Tiller gets an element of the tile of one of its chains wrong: the bits of the result that are flipped (R223). -/
  | spikelet (die : Fin 4) (logical : Fin 80) (chain : Nat) (row col : Fin 128) (flip : BitVec 32)
  /-- The adder test of R513 disagrees. -/
  | adder
  /-- A Seed set pattern's output digest differs from EXPECT on a unit; the first 16 bytes found. -/
  | seed (pattern : Nat) (die : Fin 4) (unit : BitVec 8) (digest : List Byte)
  deriving DecidableEq, Repr

/-- What bring-up finds in the module (R639, R640, R251, R344, R369, R543). -/
structure BootFinds where
  /-- The certificate chain verifies; some die's replay-protected copy authenticates. -/
  chain : Bool
  rpa : Bool
  /-- Cause (the codes of FAIL_A) with which an image fails its reading, layout, signature or hash, 0 when it passes: stage 1 and 2 of A and of B. -/
  a1 : Fin 6
  a2 : Fin 6
  b1 : Fin 6
  b2 : Fin 6
  /-- The signature of each repair map copy verifies as read. -/
  mapA : Bool
  mapB : Bool
  /-- Lanes that fail the training's test: link, downward, lane. -/
  lanes : List (Fin 4 × Bool × Fin 1632)
  /-- Engines that fail the known answers: a Culm or an Awn, die, unit. -/
  kat : List (Bool × Fin 4 × Fin 16)
  /-- Flash dies that fail the controller's test. -/
  flash : List (Fin 8)
  /-- Temperature sensors that fail their self-test (R296): stack, sensor. -/
  sensors : List (Fin 12 × Fin 17)
  deriving DecidableEq, Repr

/-- The commands of the block, in the order of the opcode table. -/
inductive Instr
  /-- POWER_UP: R670: the straps as sampled, whether MOD_RESET_N is high, and whether the PUF response yields the device seed. -/
  | powerUp (t : Nat) (settle : Fin 8) (nodeboot : Bool) (release : Bool) (puf : Bool)
  /-- MOD_RESET_ASSERT: R669. -/
  | modResetAssert (t : Nat)
  /-- MOD_RESET_RELEASE: R669: the straps as sampled. -/
  | modResetRelease (t : Nat) (settle : Fin 8) (nodeboot : Bool)
  /-- SETTLE_DELAY_EXPIRY: R594. -/
  | settleDelayExpiry (t : Nat)
  /-- RAIL_SEQUENCE: R670: VIN in units of 10 mV, and FLOW_OK. -/
  | railSequence (t : Nat) (vin : Nat) (flow : Bool)
  /-- BOOT: R639, R670 steps 4 to 7. -/
  | boot (t : Nat) (finds : BootFinds)
  /-- WARM_RESET: R377: the write of WARM_RESET by a port or by REGACC, and the bring-up that follows. -/
  | warmReset (t : Nat) (port : Fin 2) (tap : Bool) (finds : BootFinds)
  /-- VIN_LOW: R661. -/
  | vinLow (t : Nat)
  /-- REF_LOST: R598: the PLL that lost lock, none for the reference itself. -/
  | refLost (t : Nat) (pll : Option (Fin 27))
  /-- REFERENCE_RELOCK: R599. -/
  | referenceRelock (t : Nat)
  /-- RAIL_FAULT: R624: the input index of the rail and its value. -/
  | railFault (t : Nat) (input : Fin 41) (mv : BitVec 16)
  /-- PERST_ASSERT: R385. -/
  | perstAssert (t : Nat) (port : Fin 2)
  /-- PCIE_LINK_DOWN: R385. -/
  | pcieLinkDown (t : Nat) (port : Fin 2)
  /-- FRAME_BOUNDARY: R113: errors that the switch frame it ends met, and what the test frame it ends found. -/
  | frameBoundary (carry : List CarryEvent) (tests : List TestEvent)
  /-- LOCAL_IDLE_INSERT: R109: the boundary at which a follower inserts a local idle frame, with what the frame it ends met. -/
  | localIdleInsert (carry : List CarryEvent) (tests : List TestEvent)
  /-- TICK_LOST: R105: the boundary that ends the 16th frame without a tick, with what that frame met. -/
  | tickLost (carry : List CarryEvent) (tests : List TestEvent)
  /-- STRETCH_EXCEEDED: R115. -/
  | stretchExceeded (t : Nat)
  /-- FETCH_COMPLETE: R83: the errors that the fetch reads met. -/
  | fetchComplete (t : Nat) (die : Fin 4) (errs : List AccessErr)
  /-- NO_OPERATION_WORD: R86, a KIND 0x0 word. -/
  | noOperationWord (w : SWord)
  /-- PASS: R151; dis is the first row at which a Guarded pair disagrees. -/
  | pass (w : SWord) (dis : Option (Fin 256))
  /-- PASS_INIT: R151; dis is the first row at which a Guarded pair disagrees. -/
  | passInit (w : SWord) (dis : Option (Fin 256))
  /-- PASS_MAX: R151; dis is the first row at which a Guarded pair disagrees. -/
  | passMax (w : SWord) (dis : Option (Fin 256))
  /-- PASS_MIN: R151; dis is the first row at which a Guarded pair disagrees. -/
  | passMin (w : SWord) (dis : Option (Fin 256))
  /-- PASS_MAX_INIT: R151; dis is the first row at which a Guarded pair disagrees. -/
  | passMaxInit (w : SWord) (dis : Option (Fin 256))
  /-- PASS_MIN_INIT: R151; dis is the first row at which a Guarded pair disagrees. -/
  | passMinInit (w : SWord) (dis : Option (Fin 256))
  /-- PASS_ADOPT: R151; dis is the first row at which a Guarded pair disagrees. -/
  | passAdopt (w : SWord) (dis : Option (Fin 256))
  /-- LOAD_B: R153. -/
  | loadB (w : SWord)
  /-- PASS_COMMIT: R159: the oldest pass in flight of a logical Tiller reaches its commit. -/
  | passCommit (die : Fin 4) (logical : Fin 80)
  /-- CHAIN: R230: head word and the further words; dis is the chunk and output at which a Guarded pair disagrees. -/
  | chain (w : SWord) (more : List ChainWord) (dis : Option (Nat × Nat))
  /-- MOVI: R263. -/
  | movi (w : SWord)
  /-- ADD: R263. -/
  | add (w : SWord)
  /-- ADDI: R263. -/
  | addi (w : SWord)
  /-- SUB: R263. -/
  | sub (w : SWord)
  /-- MUL: R263. -/
  | mul (w : SWord)
  /-- AND: R263. -/
  | and (w : SWord)
  /-- OR: R263. -/
  | or (w : SWord)
  /-- XOR: R263. -/
  | xor (w : SWord)
  /-- SHLI: R263. -/
  | shli (w : SWord)
  /-- SHRI: R263. -/
  | shri (w : SWord)
  /-- FADD: R263. -/
  | fadd (w : SWord)
  /-- FSUB: R263. -/
  | fsub (w : SWord)
  /-- FMUL: R263. -/
  | fmul (w : SWord)
  /-- FDIV: R263. -/
  | fdiv (w : SWord)
  /-- FMAX: R263. -/
  | fmax (w : SWord)
  /-- FMIN: R263. -/
  | fmin (w : SWord)
  /-- I2F: R263. -/
  | i2f (w : SWord)
  /-- F2I: R263. -/
  | f2i (w : SWord)
  /-- LD32: R263. -/
  | ld32 (w : SWord)
  /-- LD64: R263. -/
  | ld64 (w : SWord)
  /-- ST32: R263. -/
  | st32 (w : SWord)
  /-- ST64: R263. -/
  | st64 (w : SWord)
  /-- LDSCALE: R263. -/
  | ldscale (w : SWord)
  /-- COPY: R283. -/
  | copy (w : SWord)
  /-- STREAD: R279; ecc lists the bursts that met an error. -/
  | stread (w : SWord) (ecc : List BurstEvent)
  /-- STWRITE: R279; ecc lists the bursts that met a link error. -/
  | stwrite (w : SWord) (ecc : List BurstEvent)
  /-- XFER: R284. -/
  | xfer (w : SWord)
  /-- XFER_COMPLETE: R284: the transfer by its number; ecc lists the bursts still to move that meet an error. -/
  | xferComplete (t : Nat) (id : Nat) (ecc : List BurstEvent)
  /-- OPT: R331; dis is the first element at which the paired lanes disagree, ecc the reads that met an error. -/
  | opt (w : SWord) (dis : Option Nat) (ecc : List BurstEvent)
  /-- AMAX: R331; dis is the first element at which the paired lanes disagree, ecc the reads that met an error. -/
  | amax (w : SWord) (dis : Option Nat) (ecc : List BurstEvent)
  /-- COUNT: R331; dis is the first element at which the paired lanes disagree, ecc the reads that met an error. -/
  | count (w : SWord) (dis : Option Nat) (ecc : List BurstEvent)
  /-- CULM_ADD: R331; dis is the first element at which the paired lanes disagree, ecc the reads that met an error. -/
  | culmAdd (w : SWord) (dis : Option Nat) (ecc : List BurstEvent)
  /-- QUANT: R331; dis is the first element at which the paired lanes disagree, ecc the reads that met an error. -/
  | quant (w : SWord) (dis : Option Nat) (ecc : List BurstEvent)
  /-- DEQUANT: R331; dis is the first element at which the paired lanes disagree, ecc the reads that met an error. -/
  | dequant (w : SWord) (dis : Option Nat) (ecc : List BurstEvent)
  /-- RECORD_DELIVERY: R220: the oldest waiting record of a die; ecc holds the errors of its ring accesses. -/
  | recordDelivery (die : Fin 4) (ecc : List BurstEvent)
  /-- SEND: R450. -/
  | send (w : SWord)
  /-- RECV: R454. -/
  | recv (w : SWord)
  /-- CSTART: R486. -/
  | cstart (w : SWord)
  /-- CWAIT: R487. -/
  | cwait (w : SWord)
  /-- EVENT_WAIT: R412. -/
  | eventWait (w : SWord)
  /-- EVENT_SIGNAL: R412. -/
  | eventSignal (w : SWord)
  /-- STACK_TEMP_SAMPLE: R291: the 17 readings in units of 0.25 C, none for a failed self-test. -/
  | stackTempSample (t : Nat) (stack : Fin 12) (readings : List (Option Int))
  /-- WATCH_AGE_HALVING: R303. -/
  | watchAgeHalving (stack : Fin 12)
  /-- UNSCHEDULED_BURST: R288: a transfer by its number, whose request is served; what its read and its write meet. -/
  | unscheduledBurst (t : Nat) (id : Nat) (read : Option BurstErr) (write : Option BurstErr)
  /-- REMAP_COPY_DONE: R304: what copy k, counted from the first that is still due, meets: event 2k on its read, 2k + 1 on its write. -/
  | remapCopyDone (t : Nat) (stack : Fin 12) (ecc : List BurstEvent)
  /-- DRAS_CTRL_WRITE: R311. -/
  | drasCtrlWrite (t : Nat) (port : Fin 2) (die : Fin 4) (v : BitVec 32)
  /-- READ_ROW: R312: the bits of the row that read wrong. -/
  | readRow (t : Nat) (port : Fin 2) (die : Fin 4) (site : Fin 4) (raw : Bool) (wrong : List (Fin 65536))
  /-- WRITE_ROW: R312. -/
  | writeRow (t : Nat) (port : Fin 2) (die : Fin 4) (site : Fin 4)
  /-- MAP_ROW: R312. -/
  | mapRow (t : Nat) (port : Fin 2) (die : Fin 4) (site : Fin 4)
  /-- MAP_BANK: R312. -/
  | mapBank (t : Nat) (port : Fin 2) (die : Fin 4) (site : Fin 4)
  /-- MAP_CONN: R312. -/
  | mapConn (t : Nat) (port : Fin 2) (die : Fin 4) (site : Fin 4)
  /-- CONN_TEST: R312: the connections that fail. -/
  | connTest (t : Nat) (port : Fin 2) (die : Fin 4) (site : Fin 4) (bad : List (Fin 280))
  /-- ROW_TEST: R312: the failing bits. -/
  | rowTest (t : Nat) (port : Fin 2) (die : Fin 4) (site : Fin 4) (bad : BitVec 16)
  /-- DRAS_RESTORE: R312. -/
  | drasRestore (t : Nat) (port : Fin 2) (die : Fin 4) (site : Fin 4)
  /-- LANE_FAIL: R360: in wall cycle t a physical lane of a link loses bit lock, or has had some corrected bits more. -/
  | laneFail (t : Nat) (link : Fin 4) (down : Bool) (lane : Fin 1632) (bits : Option Nat)
  /-- D2D_RETRAIN_COMPLETE: R363: a fallen link carries flits again. -/
  | d2dRetrainComplete (link : Fin 4)
  /-- D2D_UE: R362: in wall cycle t a flit in a slot is wrong in the bits of these lanes, beside those that have failed; transfer names the unscheduled transfer it belongs to, none for a scheduled one. -/
  | d2dUe (t : Nat) (link : Fin 4) (down : Bool) (slot : Fin 48) (lanes : List (Fin 1632)) (addr : Option Nat) (transfer : Option Nat)
  /-- FENCE_REJECT: R374: the transactions that the firewall rejects in one cycle. -/
  | fenceReject (t : Nat) (tries : List FenceTry)
  /-- HOST_WINDOW_ACCESS: R387: a read of len bytes, or a write of data, in BAR2, in BAR4 or in configuration space; ecc lists the bursts that meet an error. -/
  | hostWindowAccess (t : Nat) (port : Fin 2) (space : HostSpace) (off : BitVec 40) (len : Nat) (data : Option (List Byte)) (ecc : List BurstEvent)
  /-- SQ_TAIL_WRITE: R399. -/
  | sqTailWrite (t : Nat) (port : Fin 2) (ring : Fin 16) (v : BitVec 32)
  /-- DESCRIPTOR_FETCH: R399: the entry as read from host memory. -/
  | descriptorFetch (t : Nat) (port : Fin 2) (ring : Fin 16) (bytes : Vector Byte 64)
  /-- RING_ENABLE: R398. -/
  | ringEnable (t : Nat) (port : Fin 2) (ring : Fin 16) (cq : Bool) (v : BitVec 32)
  /-- CQ_HEAD_WRITE: R401. -/
  | cqHeadWrite (t : Nat) (port : Fin 2) (ring : Fin 16) (v : BitVec 32)
  /-- COMPLETION_WRITE: R401. -/
  | completionWrite (t : Nat) (port : Fin 2) (ring : Fin 16)
  /-- NOP: R408: the front descriptor of the ring comes to start. -/
  | nop (t : Nat) (port : Fin 2) (ring : Fin 16)
  /-- FRAME_RUN: R406: the front descriptor of the ring comes to start. -/
  | frameRun (t : Nat) (port : Fin 2) (ring : Fin 16)
  /-- LOAD: R519: the front descriptor of the ring comes to start; errs lists the errors that reads of the image meet. -/
  | load (t : Nat) (port : Fin 2) (ring : Fin 16) (errs : List AccessErr)
  /-- SWITCH: R520: the front descriptor of the ring comes to start. -/
  | switch (t : Nat) (port : Fin 2) (ring : Fin 16)
  /-- UNLOAD: R519: the front descriptor of the ring comes to start. -/
  | unload (t : Nat) (port : Fin 2) (ring : Fin 16)
  /-- DMA: R408: the front descriptor of the ring comes to start. -/
  | dma (t : Nat) (port : Fin 2) (ring : Fin 16)
  /-- DMA_COMPLETE: R408: the transfer by its number; ecc lists the bursts still to move that meet an error. -/
  | dmaComplete (t : Nat) (id : Nat) (ecc : List BurstEvent)
  /-- COLLECTIVE: R483: the front descriptor of the ring comes to start; errs lists the errors that reads of the source meet. -/
  | collective (t : Nat) (port : Fin 2) (ring : Fin 16) (errs : List AccessErr)
  /-- CHECKPOINT: R549: the front descriptor of the ring comes to start; errs lists the errors that reads of its region list meet. -/
  | checkpoint (t : Nat) (port : Fin 2) (ring : Fin 16) (errs : List AccessErr)
  /-- CHECKPOINT_COMPLETE: R549: ecc lists the bursts still to read that meet an error. -/
  | checkpointComplete (t : Nat) (ecc : List BurstEvent)
  /-- RESTORE: R552: the front descriptor of the ring comes to start; whether the manifest passes its check. -/
  | restore (t : Nat) (port : Fin 2) (ring : Fin 16) (manifest : Bool)
  /-- RESTORE_COMPLETE: R542, R553: the chunk that cannot be read (true) or fails its hash; how many pages were rebuilt from their stripes; ecc lists the bursts still to write that meet an error. -/
  | restoreComplete (t : Nat) (bad : Option (Nat × Bool)) (rebuilt : Nat) (ecc : List BurstEvent)
  /-- BARRIER: R408: the front descriptor of the ring comes to start. -/
  | barrier (t : Nat) (port : Fin 2) (ring : Fin 16)
  /-- EVENT_COUNTER_WRITE: R411. -/
  | eventCounterWrite (t : Nat) (port : Fin 2) (ctr : Fin 4096) (v : BitVec 32)
  /-- EVENT_COUNTER_ADD: R411. -/
  | eventCounterAdd (t : Nat) (port : Fin 2) (ctr : Fin 4096) (v : BitVec 32)
  /-- HANDOVER_GO: R392. -/
  | handoverGo (t : Nat) (port : Fin 2) (v : BitVec 32)
  /-- HANDOVER_VERIFY_DONE: R392. -/
  | handoverVerifyDone (t : Nat) (port : Fin 2)
  /-- TICK: R102: the oldest tick cell delivered here. -/
  | tick (t : Nat)
  /-- IDLE_REQ: R111: the oldest idle request delivered here. -/
  | idleReq (t : Nat)
  /-- BLOCK_RECEIVE: R426: a block comes in: whether it was sent under the new wavelength map, the symbol errors of each lane, its control field, and the 80 bytes of each valid slot. -/
  | blockReceive (t : Nat) (port : Fin 24) (moved : Bool) (errs : List Nat) (ctrl : BitVec 160) (cells : List (List Byte))
  /-- WL_FAIL: R427: a received wavelength is declared failed, by loss of lock or else by its corrected symbols. -/
  | wlFail (t : Nat) (port : Fin 24) (wl : Fin 9) (lock : Bool)
  /-- LASER_LOW: R421. -/
  | laserLow (t : Nat) (source : Fin 2)
  /-- PORT_TRAINING: R430: the wavelengths that lock, those that the far end finds good, and the measured credit round trip. -/
  | portTraining (t : Nat) (port : Fin 24) (lock : BitVec 9) (far : BitVec 9) (rtt : BitVec 16)
  /-- LINK: R431: the oldest LINK cell that came in by the port. -/
  | link (t : Nat) (port : Fin 24)
  /-- LINK_CELL_TIMER: R431. -/
  | linkCellTimer (t : Nat) (port : Fin 24)
  /-- CELL_FORWARD: R438: the oldest cell at the switch. -/
  | cellForward (t : Nat)
  /-- CELL_AGE_DROP: R441. -/
  | cellAgeDrop (t : Nat)
  /-- CREDIT_STALL: R448. -/
  | creditStall (t : Nat) (port : Fin 24)
  /-- DATA: R455: the oldest DATA cell delivered here; errs lists the errors that its writes meet. -/
  | data (t : Nat) (errs : List AccessErr)
  /-- ACK_TIMER: R456. -/
  | ackTimer (t : Nat) (stream : Fin 256)
  /-- ACK: R457: the oldest ACK delivered here. -/
  | ack (t : Nat)
  /-- RESEND_TIMEOUT: R458. -/
  | resendTimeout (t : Nat) (stream : Fin 256)
  /-- ECHO_GO: R463. -/
  | echoGo (t : Nat) (port : Fin 2) (v : BitVec 32)
  /-- ECHO_REQ: R463: the oldest ECHO_REQ delivered here. -/
  | echoReq (t : Nat)
  /-- ECHO_RSP: R463: the oldest ECHO_RSP delivered here. -/
  | echoRsp (t : Nat)
  /-- ECHO_TIMEOUT: R463. -/
  | echoTimeout (t : Nat)
  /-- MGMT_GO: R465. -/
  | mgmtGo (t : Nat) (port : Fin 2) (v : BitVec 32)
  /-- MGMT: R465: the oldest MGMT cell delivered here. -/
  | mgmt (t : Nat)
  /-- MGMT_POP: R465. -/
  | mgmtPop (t : Nat) (port : Fin 2) (v : BitVec 32)
  /-- CFPR: R493: the oldest fingerprint cell delivered here. -/
  | cfpr (t : Nat)
  /-- FINGERPRINT_ACCEPT: R496; errs lists the errors that reads of the source meet. -/
  | fingerprintAccept (t : Nat) (entry : Fin 4096) (errs : List AccessErr)
  /-- CUP: R497: the oldest CUP delivered here; dis says that the two datapaths of a Guarded adder disagree on the segment it completes; errs lists the errors that reads of the source meet. -/
  | cup (t : Nat) (dis : Bool) (errs : List AccessErr)
  /-- CDN: R500: the oldest CDN delivered here; errs lists the errors that reads of the source meet. -/
  | cdn (t : Nat) (errs : List AccessErr)
  /-- CACK: R502: the oldest CACK delivered here; errs lists the errors that reads of the source meet. -/
  | cack (t : Nat) (errs : List AccessErr)
  /-- CACK_TIMER: R502. -/
  | cackTimer (t : Nat) (entry : Fin 4096) (leg : LegName)
  /-- LEG_RESEND_TIMEOUT: R503. -/
  | legResendTimeout (t : Nat) (entry : Fin 4096) (leg : LegName)
  /-- COLL_TIMEOUT: R504. -/
  | collTimeout (t : Nat) (entry : Fin 4096)
  /-- CABT: R505: the oldest CABT delivered here. -/
  | cabt (t : Nat)
  /-- CABT_RESEND: R505. -/
  | cabtResend (t : Nat)
  /-- SEGMENT_WRITTEN: R501; errs lists the errors that its accesses meet. -/
  | segmentWritten (t : Nat) (entry : Fin 4096) (seg : Fin 32768) (errs : List AccessErr)
  /-- FENCE_DRAIN: R510; errs lists the errors that reads of the descriptor that then starts meet. -/
  | fenceDrain (t : Nat) (errs : List AccessErr)
  /-- STUBBLE_ANALOG_SAMPLE: R615: the values of inputs 0x00 to 0x23, none for a sensor that does not answer. -/
  | stubbleAnalogSample (t : Nat) (vals : List (Option Int))
  /-- STUBBLE_DIGITAL_SAMPLE: R615: WAKE_N low, and FLOW_OK high. -/
  | stubbleDigitalSample (t : Nat) (wake : Bool) (flow : Bool)
  /-- INPUT_STUCK: R618. -/
  | inputStuck (t : Nat) (cond : Fin 64)
  /-- HOLDOFF_EXPIRY: R619. -/
  | holdoffExpiry (t : Nat) (cond : Fin 64)
  /-- CONDITION_STATUS_READ: R619. -/
  | conditionStatusRead (t : Nat) (port : Fin 2) (cond : Fin 64)
  /-- PWR_REQ: R603. -/
  | pwrReq (t : Nat) (port : Fin 2) (dom : Fin 211) (req : Fin 4)
  /-- POWER_ENTRY_COMPLETE: R605. -/
  | powerEntryComplete (t : Nat) (dom : Fin 211)
  /-- POWER_EXIT_COMPLETE: R605: ecc says that the restore met an uncorrectable error, kat that the known answers fail; lanes that fail the link training. -/
  | powerExitComplete (t : Nat) (dom : Fin 211) (ecc : Bool) (kat : Bool) (lanes : List (Bool × Fin 1632))
  /-- CTLR_BEAT: R378. -/
  | ctlrBeat (t : Nat)
  /-- RETIRE: R171. -/
  | retire (t : Nat) (port : Fin 2) (die : Fin 4) (tiller : Fin 84)
  /-- RETRAIN: R430. -/
  | retrain (t : Nat) (port : Fin 2) (p : Fin 24)
  /-- LINK_WAKE_SEND: R616. -/
  | linkWakeSend (t : Nat) (port : Fin 2) (mask : BitVec 24)
  /-- TEST_REQ: R577. -/
  | testReq (t : Nat) (port : Fin 2)
  /-- COUNTER_CLEAR: R538. -/
  | counterClear (t : Nat) (port : Fin 2)
  /-- STAT_RING_ENABLE: R350. -/
  | statRingEnable (t : Nat) (port : Fin 2) (die : Fin 4) (v : BitVec 32)
  /-- ERR_REARM: R25: off is the offset of an ERR_STAT register. -/
  | errRearm (t : Nat) (port : Fin 2) (off : BitVec 26)
  /-- LOCK: R31: off is the offset of a LOCK register. -/
  | lock (t : Nat) (port : Fin 2) (off : BitVec 26)
  /-- FRAME_LEN_WRITE: R71. -/
  | frameLenWrite (t : Nat) (port : Fin 2) (v : BitVec 32)
  /-- TICK_DELAY_WRITE: R101. -/
  | tickDelayWrite (t : Nat) (port : Fin 2) (v : BitVec 32)
  /-- NODE_ID_WRITE: R442. -/
  | nodeIdWrite (t : Nat) (port : Fin 2) (v : BitVec 32)
  /-- CREDIT_ALLOCATION_WRITE: R443. -/
  | creditAllocationWrite (t : Nat) (port : Fin 2) (p : Fin 24) (vc : Fin 4) (v : BitVec 32)
  /-- ROUTE_TABLE_WRITE: R439. -/
  | routeTableWrite (t : Nat) (port : Fin 2) (dst : BitVec 16) (v : BitVec 32)
  /-- COLL_TABLE_WRITE: R478. -/
  | collTableWrite (t : Nat) (port : Fin 2) (entry : Fin 4096) (word : Fin 16) (v : BitVec 32)
  /-- TRADE_MODE_WRITE: R588. -/
  | tradeModeWrite (t : Nat) (port : Fin 2) (v : BitVec 32)
  /-- STOP_CLEAR: R575. -/
  | stopClear (t : Nat) (port : Fin 2)
  /-- REF_LOST_CLEAR: R599. -/
  | refLostClear (t : Nat) (port : Fin 2)
  /-- REGISTER_WRITE: R18: n is the size in bytes of the access (R14), whose value is the lowest n bytes of v. -/
  | registerWrite (t : Nat) (port : Fin 2) (off : BitVec 26) (v : BitVec 64) (n : Nat)
  /-- COUNTER_LO_READ: R15: n is the size in bytes of the access (R14). -/
  | counterLoRead (t : Nat) (port : Fin 2) (off : BitVec 26) (n : Nat)
  /-- SEED_LOAD: R583; errs lists the errors that reads of the package meet. -/
  | seedLoad (t : Nat) (port : Fin 2) (len : BitVec 21) (errs : List AccessErr)
  /-- SEED_VERIFY_DONE: R583. -/
  | seedVerifyDone (t : Nat)
  /-- SEED_CANCEL: R583. -/
  | seedCancel (t : Nat) (port : Fin 2)
  /-- PIN: R567: of the generation that GRN_CMD_GEN names. -/
  | pin (t : Nat) (port : Fin 2)
  /-- UNPIN: R567: of the generation that GRN_CMD_GEN names. -/
  | unpin (t : Nat) (port : Fin 2)
  /-- DELETE: R567: of the generation that GRN_CMD_GEN names. -/
  | delete (t : Nat) (port : Fin 2)
  /-- SCRUB: R558: whether the block is rewritten, how many of its pages were rebuilt, and whether it ends a complete pass. -/
  | scrub (t : Nat) (die : Fin 8) (rewrite : Bool) (rebuilt : Nat) (last : Bool)
  /-- SCRUB_LATE: R558. -/
  | scrubLate (t : Nat)
  /-- BLOCK_BAD: R557. -/
  | blockBad (t : Nat) (die : Fin 8)
  /-- WEAR_MOVE: R556: the erase counts before the move. -/
  | wearMove (t : Nat) (die : Fin 8) (hi : BitVec 16) (lo : BitVec 16)
  /-- FW_UPDATE: R642. -/
  | fwUpdate (t : Nat) (port : Fin 2) (len : BitVec 25)
  /-- COMMIT: R643. -/
  | commit (t : Nat) (port : Fin 2)
  /-- KEY: R647. -/
  | key (t : Nat) (port : Fin 2)
  /-- DEBUG_UNLOCK: R649. -/
  | debugUnlock (t : Nat) (port : Fin 2)
  /-- DEBUG_CANCEL: R649. -/
  | debugCancel (t : Nat) (port : Fin 2)
  /-- ENTROPY_TEST_FAIL: R655. -/
  | entropyTestFail (t : Nat)
  /-- GET_REPORT: R653: the DOE mailbox of port 0 or 1, or MCTP (2). -/
  | getReport (t : Nat) (src : Fin 3) (nonce : Vector Byte 32)
  /-- GET_CERTS: R654. -/
  | getCerts (src : Fin 3) (off : BitVec 32) (len : BitVec 32)
  /-- READ32: R676. -/
  | read32 (t : Nat) (off : BitVec 32) (count : BitVec 16)
  /-- I3C_ENTDAA: R675. -/
  | i3cEntdaa (addr : BitVec 7)
  /-- I3C_SETDASA: R675. -/
  | i3cSetdasa (static : BitVec 7) (addr : BitVec 7)
  /-- MCTP_CONTROL: R675. -/
  | mctpControl (command : BitVec 8) (data : List Byte)
  /-- TRST: R677. -/
  | trst
  /-- EXTEST: R680. -/
  | extest
  /-- SAMPLE_PRELOAD: R678. -/
  | samplePreload
  /-- IDCODE: R677. -/
  | idcode
  /-- CLAMP: R680. -/
  | clamp
  /-- HIGHZ: R680. -/
  | highz
  /-- EXTEST_PULSE: R680. -/
  | extestPulse
  /-- EXTEST_TRAIN: R680. -/
  | extestTrain
  /-- REGACC: R679: Update-DR with this data register. -/
  | regacc (t : Nat) (dr : BitVec 64)
  /-- HUBDBG: R678. -/
  | hubdbg
  /-- BYPASS: R678. -/
  | bypass
  /-- PERST_DEASSERT: R671. -/
  | perstDeassert (t : Nat) (port : Fin 2)
  /-- PCIE_LINK_UP: R671: rate code minus 1; 1, 4, 8 or 16 lanes; the configuration that the host sets. -/
  | pcieLinkUp (t : Nat) (port : Fin 2) (speed : Fin 6) (width : Fin 4) (cfg : HostConfig)
  /-- PCIE_LINK_POWER_STATE: R383. -/
  | pcieLinkPowerState (t : Nat) (port : Fin 2) (l1 : Bool) (l0p : Bool)
  /-- VIN_REMOVAL: R661. -/
  | vinRemoval (t : Nat)
  /-- LASER_RETURN: R432. -/
  | laserReturn (t : Nat) (source : Fin 2)
  /-- BLOCK_TRANSMIT: R445. -/
  | blockTransmit (t : Nat) (port : Fin 24)
  /-- DIVIDER_HOLD_INTERVAL: R600. -/
  | dividerHoldInterval (t : Nat)
  /-- ENTROPY_TEST_PASS: R655. -/
  | entropyTestPass (t : Nat)
  /-- ENGINE_SIDEBAND_WRITE: R467. -/
  | engineSidebandWrite (port : Fin 24) (off : BitVec 12) (v : BitVec 32)
  /-- DOE_DISCOVERY: R654. -/
  | doeDiscovery (port : Fin 2) (index : BitVec 8)
  /-- REPORT_READY: R653. -/
  | reportReady (t : Nat)
  /-- SNAPSHOT_TIMEOUT: R653. -/
  | snapshotTimeout (t : Nat)
  /-- SEC_COMMAND_END: R650; errs lists the errors that reads of a firmware bundle meet. -/
  | secCommandEnd (t : Nat) (errs : List AccessErr)
  /-- GRN_COMMAND_END: R567. -/
  | grnCommandEnd (t : Nat)
  /-- DRAS_COMMAND_END: R312. -/
  | drasCommandEnd (t : Nat) (die : Fin 4)
  deriving DecidableEq, Repr

end Sys2Proof
end

