-- ==== Sys2Proof/Decode.lean ====
section
/-!
DEFINITION. The command that a word of the opcode table's bits spells. No row of this table gives its command bits: commands are events, accesses and
schedule words whose UNIT, STAMP and ARGS are operands, so that no word spells one.
-/
namespace Sys2Proof

/-- The command that an nbits-bit word spells by the table: none, for no row gives bits. -/
def decodeTableWord (_nbits _w : Nat) : Option Instr := none

end Sys2Proof
end

