-- ==== Sys2Proof/Machine/Bits.lean ====
section
/-!
DEFINITION. Bit fields, two's complement, little-endian byte lists and saturating counters, on plain numbers.
-/
namespace Sys2Proof.Machine

/-- The field [hi:lo] of a number (R12). -/
def bits (n hi lo : Nat) : Nat := n / 2 ^ lo % 2 ^ (hi + 1 - lo)

/-- One bit of a number. -/
def bit (n i : Nat) : Bool := n.testBit i

/-- The number with its field [hi:lo] replaced by the low bits of v. -/
def setBits (n hi lo v : Nat) : Nat :=
  let m := 2 ^ (hi + 1 - lo)
  n - n / 2 ^ lo % m * 2 ^ lo + v % m * 2 ^ lo

/-- The field [hi:lo] of a register word. -/
def fld (w : Word) (hi lo : Nat) : Nat := bits w.toNat hi lo

/-- A register word with its field [hi:lo] replaced. -/
def setFld (w : Word) (hi lo v : Nat) : Word := BitVec.ofNat 32 (setBits w.toNat hi lo v)

/-- Two's complement reading of the low w bits. -/
def signed (w n : Nat) : Int :=
  let v := n % 2 ^ w
  if 2 ^ w ≤ 2 * v then (v : Int) - 2 ^ w else v

/-- Two's complement encoding in w bits. -/
def unsigned (w : Nat) (i : Int) : Nat := (i % 2 ^ w).toNat

/-- An integer clamped to the two's complement range of w bits. -/
def clampSigned (w : Nat) (i : Int) : Int :=
  let hi : Int := 2 ^ (w - 1) - 1
  let lo : Int := -(2 ^ (w - 1))
  if hi < i then hi else if i < lo then lo else i

/-- The ceiling of a quotient. -/
def ceilDiv (a b : Nat) : Nat := (a + b - 1) / b

/-- An amount added to a 32-bit counter that saturates at 0xFFFF_FFFF. -/
def satAdd (w : Word) (n : Nat) : Word := BitVec.ofNat 32 (min (w.toNat + n) 0xFFFFFFFF)

/-- The little-endian value of bytes (R12). -/
def leNat : List Byte → Nat
  | [] => 0
  | b :: r => b.toNat + 256 * leNat r

/-- The n little-endian bytes of a value. -/
def leBytes : Nat → Nat → List Byte
  | 0, _ => []
  | k + 1, v => BitVec.ofNat 8 v :: leBytes k (v / 256)

/-- Bytes o to o + n - 1 of a byte list, as a little-endian number. -/
def leAt (l : List Byte) (o n : Nat) : Nat := leNat ((l.drop o).take n)

/-- 1 for true. -/
def b2n (b : Bool) : Nat := if b then 1 else 0

/-- Whether a byte list is all zero. -/
def allZero (l : List Byte) : Bool := l.all (fun b => b == 0)

/-- Floor of the base 2 logarithm, 0 for 0. -/
def log2 (n : Nat) : Nat := Nat.log2 n

/-- Replaces entry i of a list. -/
def setAt {α : Type} (l : List α) (i : Nat) (v : α) : List α := l.set i v

/-- One step of the reflected CRC-32C register over a byte (polynomial 0x1EDC_6F41, reflected 0x82F6_3B78). -/
def crcByte (c : Nat) (b : Byte) : Nat :=
  let x := Nat.xor c b.toNat
  let f := fun (y : Nat) => if y % 2 = 1 then Nat.xor (y / 2) 0x82F63B78 else y / 2
  f (f (f (f (f (f (f (f x)))))))

/-- CRC-32C of a byte string: initial value and final exclusive-or all ones, the usual Castagnoli convention. -/
def crc32c (l : List Byte) : Nat := Nat.xor (l.foldl crcByte 0xFFFFFFFF) 0xFFFFFFFF

end Sys2Proof.Machine
end

