-- ==== Sys2Proof/Machine/Numeric.lean ====
section
/-!
DEFINITION. Number formats and exact arithmetic: the encodings of R181 to R187, the roundings of R198 to R207, the ranking of
R148, and the correctly rounded operations of R243 and R244. Every finite value is a dyadic number held exactly.
-/
namespace Sys2Proof.Machine

/-- An extended value: NaN, an infinity, or (-1)^neg * mant * 2^exp. -/
inductive Ext
  | nan
  | inf (neg : Bool)
  | fin (neg : Bool) (mant : Nat) (exp : Int)
  deriving DecidableEq, Repr

/-- Format codes of R181, the reserved codes 0xD to 0xF left out. -/
inductive Fmt
  | fp32 | bf16 | fp16 | e4m3 | e5m2 | e2m1 | int32 | int8 | int4 | mxE4m3 | mxE5m2 | mxFp4 | mxInt8
  deriving DecidableEq, Repr

/-- R181: the format of a code. -/
def Fmt.ofCode : Nat → Option Fmt
  | 0 => some .fp32 | 1 => some .bf16 | 2 => some .fp16 | 3 => some .e4m3 | 4 => some .e5m2 | 5 => some .e2m1
  | 6 => some .int32 | 7 => some .int8 | 8 => some .int4 | 9 => some .mxE4m3 | 10 => some .mxE5m2 | 11 => some .mxFp4
  | 12 => some .mxInt8 | _ => none

/-- R181: the code of a format. -/
def Fmt.code : Fmt → Nat
  | .fp32 => 0 | .bf16 => 1 | .fp16 => 2 | .e4m3 => 3 | .e5m2 => 4 | .e2m1 => 5 | .int32 => 6 | .int8 => 7 | .int4 => 8
  | .mxE4m3 => 9 | .mxE5m2 => 10 | .mxFp4 => 11 | .mxInt8 => 12

/-- R181: the element width in bits. -/
def Fmt.width : Fmt → Nat
  | .fp32 | .int32 => 32
  | .bf16 | .fp16 => 16
  | .e2m1 | .int4 | .mxFp4 => 4
  | _ => 8

/-- Whether the format has block scales. -/
def Fmt.isMx : Fmt → Bool
  | .mxE4m3 | .mxE5m2 | .mxFp4 | .mxInt8 => true
  | _ => false

/-- The element format inside an MX format. -/
def Fmt.element : Fmt → Fmt
  | .mxE4m3 => .e4m3 | .mxE5m2 => .e5m2 | .mxFp4 => .e2m1 | f => f

/-- Whether the format is one of two's complement integers (R183). -/
def Fmt.isInt : Fmt → Bool
  | .int32 | .int8 | .int4 => true
  | _ => false

/-- Exponent bits, mantissa bits and bias of R182. -/
def Fmt.params : Fmt → Nat × Nat × Nat
  | .fp32 => (8, 23, 127) | .bf16 => (8, 7, 127) | .fp16 => (5, 10, 15)
  | .e5m2 | .mxE5m2 => (5, 2, 15) | .e4m3 | .mxE4m3 => (4, 3, 7) | _ => (2, 1, 1)

/-- The encoding of the largest finite magnitude (R182, R183, R185). -/
def Fmt.maxFinite : Fmt → Nat
  | .fp32 => 0x7F7FFFFF | .bf16 => 0x7F7F | .fp16 => 0x7BFF | .e5m2 | .mxE5m2 => 0x7B | .e4m3 | .mxE4m3 => 0x7E
  | .e2m1 | .mxFp4 => 7 | .int32 => 0x7FFFFFFF | .int8 => 0x7F | .int4 => 7 | .mxInt8 => 0x7F

/-- The canonical NaN of R182; formats without one give +0 or 0 (R206). -/
def Fmt.canonicalNan : Fmt → Nat
  | .fp32 => 0x7FC00000 | .bf16 => 0x7FC0 | .fp16 => 0x7E00 | .e5m2 | .mxE5m2 => 0x7E | .e4m3 | .mxE4m3 => 0x7F | _ => 0

/-- The value of an encoding (R182 to R185), before any block scale. -/
def Fmt.value (f : Fmt) (n : Nat) : Ext :=
  match f with
  | .int32 => let v := signed 32 n; .fin (decide (v < 0)) v.natAbs 0
  | .int8 => let v := signed 8 n; .fin (decide (v < 0)) v.natAbs 0
  | .int4 => let v := signed 4 n; .fin (decide (v < 0)) v.natAbs 0
  | .mxInt8 => let v := signed 8 n; .fin (decide (v < 0)) v.natAbs (-6)
  | f =>
    let (eb, mb, bias) := f.params
    let m := n % 2 ^ mb
    let e := n / 2 ^ mb % 2 ^ eb
    let s := decide (n / 2 ^ (mb + eb) % 2 = 1)
    let hasInf := match f with | .fp32 | .bf16 | .fp16 | .e5m2 | .mxE5m2 => true | _ => false
    let isE4 := match f with | .e4m3 | .mxE4m3 => true | _ => false
    if hasInf && e == 2 ^ eb - 1 then (if m = 0 then .inf s else .nan)
    else if isE4 && e == 15 && m == 7 then .nan
    else if e = 0 then .fin s m (1 - bias - mb : Int)
    else .fin s (2 ^ mb + m) ((e : Int) - bias - mb)

/-- R184, R187: a value times the E8M0 scale X. -/
def Ext.scaleE8 (x : Ext) (e8 : Nat) : Ext :=
  if e8 = 0xFF then .nan
  else match x with
    | .fin s m e => .fin s m (e + (e8 : Int) - 127)
    | y => y

/-- A value times a power of two. -/
def Ext.mulPow (x : Ext) (k : Int) : Ext :=
  match x with
  | .fin s m e => .fin s m (e + k)
  | y => y

def Ext.isFinite : Ext → Bool
  | .fin _ _ _ => true
  | _ => false

def Ext.isNan : Ext → Bool
  | .nan => true
  | _ => false

def Ext.isZero : Ext → Bool
  | .fin _ m _ => m == 0
  | _ => false

def Ext.neg : Ext → Ext
  | .nan => .nan
  | .inf s => .inf (!s)
  | .fin s m e => .fin (!s) m e

def Ext.abs : Ext → Ext
  | .nan => .nan
  | .inf _ => .inf false
  | .fin _ m e => .fin false m e

/-- +0. -/
def Ext.zero : Ext := .fin false 0 0

/-- A signed mantissa as an exact number; zero is +0 (R186). -/
def Ext.ofInt (i : Int) (e : Int) : Ext := .fin (decide (i < 0)) i.natAbs e

/-- The signed mantissa of a finite value at a smaller or equal exponent. -/
def Ext.mantAt (x : Ext) (e0 : Int) : Int :=
  match x with
  | .fin s m e => let v : Int := (m : Int) * 2 ^ (e - e0).toNat; if s then -v else v
  | _ => 0

/-- The exponent of a finite value. -/
def Ext.exponent : Ext → Int
  | .fin _ _ e => e
  | _ => 0

/-- Exact comparison of finite values, zeros equal whatever their sign. -/
def Ext.lt (x y : Ext) : Bool :=
  match x, y with
  | .fin _ _ e, .fin _ _ f => let m := min e f; decide (x.mantAt m < y.mantAt m)
  | .inf s, .inf t => s && !t
  | .inf s, .fin _ _ _ => s
  | .fin _ _ _, .inf t => !t
  | _, _ => false

/-- Exact equality as numbers. -/
def Ext.eqv (x y : Ext) : Bool :=
  match x, y with
  | .fin _ _ e, .fin _ _ f => let m := min e f; decide (x.mantAt m = y.mantAt m)
  | .inf s, .inf t => s == t
  | _, _ => false

/-- Exact sum; opposite infinities give NaN and an exact zero is +0 (R138, R186). -/
def Ext.add (x y : Ext) : Ext :=
  match x, y with
  | .nan, _ => .nan
  | _, .nan => .nan
  | .inf s, .inf t => if s == t then .inf s else .nan
  | .inf s, _ => .inf s
  | _, .inf t => .inf t
  | .fin _ _ e, .fin _ _ f => let m := min e f; Ext.ofInt (x.mantAt m + y.mantAt m) m

/-- Exact product; infinity by zero gives NaN, and an exact zero is +0. -/
def Ext.mul (x y : Ext) : Ext :=
  match x, y with
  | .nan, _ => .nan
  | _, .nan => .nan
  | .inf s, .inf t => .inf (s != t)
  | .inf s, .fin t m _ => if m = 0 then .nan else .inf (s != t)
  | .fin s m _, .inf t => if m = 0 then .nan else .inf (s != t)
  | .fin s m e, .fin t n f => if m * n = 0 then .zero else .fin (s != t) (m * n) (e + f)

/-- Rounding modes of R200. -/
inductive RMode
  | rne | rtz | rdn | rup | stoch
  deriving DecidableEq, Repr

def RMode.ofCode : Nat → Option RMode
  | 0 => some .rne | 1 => some .rtz | 2 => some .rdn | 3 => some .rup | 4 => some .stoch | _ => none

/-- Whether n plus the fraction rem / 2^d rounds away from zero. For the stochastic mode u is the draw's low 16 bits (R203). -/
def roundAway (mode : RMode) (neg : Bool) (n rem d u : Nat) : Bool :=
  if rem = 0 then false
  else match mode with
    | .rne => let h := 2 ^ d; decide (h < 2 * rem) || (decide (2 * rem = h) && n % 2 == 1)
    | .rtz => false
    | .rdn => neg
    | .rup => !neg
    | .stoch => decide (u < rem * 65536 / 2 ^ d)

/-- m * 2^e rounded to a multiple of 2^q: the multiple and whether it was rounded away from zero. -/
def roundAt (mode : RMode) (neg : Bool) (m : Nat) (e q : Int) (u : Nat) : Nat × Bool :=
  if q ≤ e then (m * 2 ^ (e - q).toNat, false)
  else
    let d := (q - e).toNat
    let n := m / 2 ^ d
    let up := roundAway mode neg n (m % 2 ^ d) d u
    (if up then n + 1 else n, up)

/-- The result of narrowing one finite value into a floating-point format, with the exponent range unbounded above (R201, R203):
the kept mantissa, its exponent and the decision bit of R204. -/
def roundFloat (f : Fmt) (mode : RMode) (neg : Bool) (m : Nat) (e : Int) (u : Nat) : Nat × Int × Bool :=
  let (_, mb, bias) := f.params
  if m = 0 then (0, 0, false)
  else
    let q := max ((Nat.log2 m : Int) + e - mb) (1 - (bias : Int) - mb)
    let (n, up) := roundAt mode neg m e q u
    (n, q, up)

/-- The encoding of a mantissa and exponent that a rounding has made representable. -/
def packFloat (f : Fmt) (neg : Bool) (n : Nat) (q : Int) : Nat :=
  let (eb, mb, bias) := f.params
  let sgn := if neg then 2 ^ (eb + mb) else 0
  if n = 0 then sgn
  else
    let emin : Int := 1 - (bias : Int) - mb
    let (n, q) := if 2 ^ (mb + 1) ≤ n then (n / 2, q + 1) else (n, q)
    if n < 2 ^ mb then sgn + n
    else sgn + ((q - emin).toNat + 1) * 2 ^ mb + (n - 2 ^ mb)

/-- The finite overflow test of R201. -/
def overflows (f : Fmt) (n : Nat) (q : Int) : Bool := Ext.lt (f.value f.maxFinite) (.fin false n q)

/-- R206: what a finite overflow becomes. -/
def overflowResult (f : Fmt) (neg sat : Bool) : Nat :=
  let (eb, mb, _) := f.params
  let sgn := if neg then 2 ^ (eb + mb) else 0
  match f with
  | .fp32 | .bf16 | .fp16 | .e5m2 =>
    if sat then sgn + f.maxFinite else sgn + (2 ^ eb - 1) * 2 ^ mb
  | .e4m3 => if sat then sgn + f.maxFinite else 0x7F
  | _ => sgn + f.maxFinite

/-- R206: what an infinity becomes. -/
def infinityResult (f : Fmt) (neg sat : Bool) : Nat :=
  let (eb, mb, _) := f.params
  let sgn := if neg then 2 ^ (eb + mb) else 0
  match f with
  | .fp32 | .bf16 | .fp16 | .e5m2 => sgn + (2 ^ eb - 1) * 2 ^ mb
  | .e4m3 => if sat then sgn + f.maxFinite else 0x7F
  | _ => sgn + f.maxFinite

/-- The integer conversions of R203 and R206: nearest integer by mode, clamped to the range. -/
def convertInt (f : Fmt) (mode : RMode) (x : Ext) (u : Nat) : Nat × Bool :=
  let w := f.width
  match x with
  | .nan => (0, false)
  | .inf s => (if s then 2 ^ (w - 1) else 2 ^ (w - 1) - 1, false)
  | .fin s m e =>
    let (n, up) := roundAt mode s m e 0 u
    let v : Int := if s then -(n : Int) else n
    (unsigned w (clampSigned w v), up)

/-- R201: a rounding towards zero never overflows. -/
def towardsZero (mode : RMode) (neg : Bool) : Bool :=
  match mode with
  | .rtz => true
  | .rdn => !neg
  | .rup => neg
  | _ => false

/-- The encoding of a magnitude that a rounding has chosen: R206 where it lies beyond the largest finite one. -/
def encodeChosen (f : Fmt) (neg sat : Bool) (n : Nat) (q : Int) : Nat :=
  if overflows f n q then overflowResult f neg sat else packFloat f neg n q

/-- R199: whether a target cannot represent every value of a source exactly. A floating-point element of 8 or 4 bits fits FP32, BF16 and FP16; with block
scales none of the three holds every value. -/
def narrowing (src dst : Fmt) : Bool :=
  src != dst && match src with
    | .bf16 | .fp16 => dst != .fp32
    | .e4m3 | .e5m2 | .e2m1 => dst != .fp32 && dst != .bf16 && dst != .fp16
    | _ => true

/-- One conversion without block scales (R199 to R207): encoding and decision bit. -/
def convert (f : Fmt) (mode : RMode) (sat : Bool) (x : Ext) (u : Nat) : Nat × Bool :=
  if f.isInt then convertInt f mode x u
  else match x with
    | .nan => (f.canonicalNan, false)
    | .inf s => (infinityResult f s sat, false)
    | .fin s m e =>
      let (n, q, up) := roundFloat f mode s m e u
      (encodeChosen f s (sat || towardsZero mode s) n q, up)

/-- A replayed stochastic conversion (R204): hi for a recorded bit of 1, lo for 0, with no draw. -/
def convertReplay (f : Fmt) (sat : Bool) (x : Ext) (decision : Bool) : Nat :=
  match x with
  | .fin s m e =>
    let mode : RMode := if !decision then .rtz else if s then .rdn else .rup
    if f.isInt then (convertInt f mode x 0).1
    else
      let (n, q, _) := roundFloat f mode s m e 0
      encodeChosen f s sat n q
  | _ => (convert f .rtz sat x 0).1

/-- Correct rounding to FP32, nearest even, with overflow to infinity: the arithmetic of R243. -/
def toFp32 (x : Ext) : Nat := (convert .fp32 .rne false x 0).1

/-- FP32 bits as a value. -/
def ofFp32 (n : Nat) : Ext := Fmt.fp32.value n

/-- FP32 rounding of a value towards +infinity, for AMAX (R191, R214) and the Spikelet sums (R226). -/
def toFp32Up (x : Ext) : Nat := (convert .fp32 .rup false x 0).1

/-- The ranking of R148 as a key: NaN first or last by `nanHigh`, then infinities, numbers, and -0 below +0. True when x ranks
strictly below y. -/
def rankLt (nanHigh : Bool) (x y : Ext) : Bool :=
  match x, y with
  | .nan, .nan => false
  | .nan, _ => !nanHigh
  | _, .nan => nanHigh
  | _, _ =>
    if x.lt y then true
    else if y.lt x then false
    else match x, y with
      | .fin true 0 _, .fin false 0 _ => true
      | _, _ => false

/-- MAX of R243: the higher under R148, a NaN above every number. -/
def numMax (x y : Ext) : Ext := if rankLt true x y then y else x

/-- MIN of R243: the lower under R148, a NaN below every number. -/
def numMin (x y : Ext) : Ext := if rankLt false y x then y else x

/-- rne_shr of R140: an integer divided by 2^n, nearest even. -/
def rneShr (x : Int) (n : Nat) : Int :=
  let (q, _) := roundAt .rne (decide (x < 0)) x.natAbs 0 n 0
  if x < 0 then -(q : Int) else q

/-- Integer square root, by bits from the top: `k` bits of result remain. -/
def isqrtBits : Nat → Nat → Nat → Nat
  | 0, _, r => r
  | k + 1, n, r => let t := r + 2 ^ k; isqrtBits k n (if t * t ≤ n then t else r)

/-- Integer square root, rounded down. -/
def isqrt (n : Nat) : Nat := isqrtBits (Nat.log2 n / 2 + 1) n 0

/-- A quotient as an exact number plus a sticky low bit, with `k` extra bits: enough for one later rounding. -/
def divSticky (a b k : Nat) : Nat :=
  let q := a * 2 ^ k / b
  2 * q + (if a * 2 ^ k % b = 0 then 0 else 1)

/-- Exact-to-rounding quotient of two values (x / y). -/
def numDiv (x y : Ext) : Ext :=
  match x, y with
  | .nan, _ => .nan
  | _, .nan => .nan
  | .inf _, .inf _ => .nan
  | .inf s, .fin t _ _ => .inf (s != t)
  | .fin _ _ _, .inf _ => .zero
  | .fin s m e, .fin t n f =>
    if n = 0 then (if m = 0 then .nan else .inf (s != t))
    else if m = 0 then .zero
    else
      let k := Nat.log2 n + 64
      .fin (s != t) (divSticky m n k) (e - f - k - 1)

/-- Square root (R243, R244). -/
def numSqrt (x : Ext) : Ext :=
  match x with
  | .nan => .nan
  | .inf s => if s then .nan else .inf false
  | .fin s m e =>
    if m = 0 then .zero
    else if s then .nan
    else
      let (m, e) := if e % 2 = 0 then (m, e) else (2 * m, e - 1)
      let n := m * 2 ^ 128
      let r := isqrt n
      .fin false (2 * r + (if r * r = n then 0 else 1)) (e / 2 - 64 - 1)

/-- Reciprocal square root (R243, R244). -/
def numRsqrt (x : Ext) : Ext :=
  match x with
  | .nan => .nan
  | .inf s => if s then .nan else .zero
  | .fin s m e =>
    if m = 0 then .inf s
    else if s then .nan
    else
      let (m, e) := if e % 2 = 0 then (m, e) else (2 * m, e - 1)
      let k := Nat.log2 m + 64
      let n := 2 ^ (2 * k) / m
      let r := isqrt n
      .fin false (2 * r + (if r * r * m = 2 ^ (2 * k) then 0 else 1)) (-(e / 2) - k - 1)

/-! Fixed-point series for the transcendental operations of R243: 256 fractional bits, more than any FP32 operand needs for
one correct rounding (a logged choice). -/

/-- Fractional bits of the series. -/
def fxBits : Nat := 256

/-- Partial sums of atanh(a/b) in fixed point: `t` is the present power term. -/
def atanhSum : Nat → Nat → Nat → Nat → Nat → Nat → Nat
  | 0, _, _, _, _, acc => acc
  | k + 1, i, t, a2, b2, acc => atanhSum k (i + 2) (t * a2 / b2) a2 b2 (acc + t / i)

/-- atanh(a / b) for a/b at most 1/3. -/
def fxAtanh (a b : Nat) : Nat := atanhSum 90 1 (2 ^ fxBits * a / b) (a * a) (b * b) 0

/-- ln 2. -/
def fxLn2 : Nat := 2 * fxAtanh 1 3

/-- Partial sums of exp(y), 0 ≤ y < 1 in fixed point. -/
def expSum : Nat → Nat → Nat → Nat → Nat → Nat
  | 0, _, _, _, acc => acc
  | k + 1, i, t, y, acc => let t' := t * y / 2 ^ fxBits / i; expSum k (i + 1) t' y (acc + t')

/-- exp(y) in fixed point. -/
def fxExp (y : Nat) : Nat := expSum 70 1 (2 ^ fxBits) y (2 ^ fxBits)

/-- Partial sums of arctan(1/n), alternating. -/
def atanSum : Nat → Nat → Nat → Nat → Int → Int
  | 0, _, _, _, acc => acc
  | k + 1, i, t, n2, acc =>
    atanSum k (i + 2) (t / n2) n2 (if i % 4 = 1 then acc + (t / i : Nat) else acc - (t / i : Nat))

/-- pi by Machin's formula. -/
def fxPi : Nat := (16 * atanSum 120 1 (2 ^ fxBits / 5) 25 0 - 4 * atanSum 60 1 (2 ^ fxBits / 239) 57121 0).toNat

/-- The sum of (-1)^n z^n / (n! (2n+1)) for z = x^2. -/
def erfSum : Nat → Nat → Nat → Nat → Int → Int
  | 0, _, _, _, acc => acc
  | k + 1, n, t, z, acc =>
    let acc := if n % 2 = 0 then acc + (t / (2 * n + 1) : Nat) else acc - (t / (2 * n + 1) : Nat)
    erfSum k (n + 1) (t * z / 2 ^ fxBits / (n + 1)) z acc

/-- A finite non-negative value in fixed point, low bits dropped. -/
def fxOf (m : Nat) (e : Int) : Nat :=
  let k := e + fxBits
  if 0 ≤ k then m * 2 ^ k.toNat else m / 2 ^ (-k).toNat

/-- EXP2 (R243): 2^a. -/
def numExp2 (x : Ext) : Ext :=
  match x with
  | .nan => .nan
  | .inf s => if s then .zero else .inf false
  | .fin s m e =>
    if m = 0 then .fin false 1 0
    else if Ext.lt (.fin false 200 0) x then .fin false 1 400
    else if Ext.lt x (.fin true 200 0) then .fin false 1 (-400)
    else if (Nat.log2 m : Int) + e < -40 then
      -- |a| below 2^-39: 2^a is 1 plus less than half a unit in the last place, never a tie
      .fin false (if s then 2 ^ 60 - 1 else 2 ^ 60 + 1) (-60)
    else
      let i0 : Int := if 0 ≤ e then (m : Int) * 2 ^ e.toNat else (m / 2 ^ (-e).toNat : Nat)
      let fr := if 0 ≤ e then 0 else m % 2 ^ (-e).toNat
      let (i, f) : Int × Nat :=
        if s then (if fr = 0 then (-i0, 0) else (-i0 - 1, 2 ^ (-e).toNat - fr)) else (i0, fr)
      if f = 0 then .fin false 1 i
      else
        let y := fxOf f e * fxLn2 / 2 ^ fxBits
        .fin false (2 * fxExp y + 1) (i - fxBits - 1)

/-- LOG2 (R243, R244). -/
def numLog2 (x : Ext) : Ext :=
  match x with
  | .nan => .nan
  | .inf s => if s then .nan else .inf false
  | .fin s m e =>
    if m = 0 then .inf true
    else if s then .nan
    else
      let l := Nat.log2 m
      let k : Int := e + l
      if m = 2 ^ l then Ext.ofInt k 0
      else
        -- log2 z = 2 atanh((z-1)/(z+1)) / ln 2 for z = m / 2^l in (1, 2)
        let a := fxAtanh (m - 2 ^ l) (m + 2 ^ l)
        let frac := 2 * a * 2 ^ fxBits / fxLn2
        Ext.ofInt (2 * (k * 2 ^ fxBits + frac) + 1) (-fxBits - 1)

/-- e^t for 0 ≤ t < 32, in fixed point. -/
def fxExpBig (t : Nat) : Nat :=
  let n := t / fxLn2
  fxExp (t - n * fxLn2) * 2 ^ n

/-- TANH (R243). -/
def numTanh (x : Ext) : Ext :=
  match x with
  | .nan => .nan
  | .inf s => .fin s 1 0
  | .fin s m e =>
    if m = 0 then .zero
    else if (Nat.log2 m : Int) + e < -13 then .fin s m e
    else if Ext.lt (.fin false 10 0) (.fin false m e) then .fin s 1 0
    else
      let t := fxExpBig (2 * fxOf m e)
      .fin s (2 * ((t - 2 ^ fxBits) * 2 ^ fxBits / (t + 2 ^ fxBits)) + 1) (-fxBits - 1)

/-- ERF (R243). -/
def numErf (x : Ext) : Ext :=
  match x with
  | .nan => .nan
  | .inf s => .fin s 1 0
  | .fin s m e =>
    if m = 0 then .zero
    else if Ext.lt (.fin false 4 0) (.fin false m e) then .fin s 1 0
    else
      let z := let f := fxOf m e; f * f / 2 ^ fxBits
      let sum := (erfSum 180 0 (2 ^ fxBits) z 0).toNat
      let rootPi := isqrt (fxPi * 2 ^ fxBits)
      let c := 2 * sum * 2 ^ fxBits / rootPi
      .fin s (2 * (m * c) + 1) (e - fxBits - 1)

/-- FLOOR (R243, R244): the sign of a zero result is the operand's. -/
def numFloor (x : Ext) : Ext :=
  match x with
  | .fin s m e => let (n, _) := roundAt .rdn s m e 0 0; .fin s n 0
  | y => y

/-- RINT (R243, R244). -/
def numRint (x : Ext) : Ext :=
  match x with
  | .fin s m e => let (n, _) := roundAt .rne s m e 0 0; .fin s n 0
  | y => y

/-- 1.0 or +0. -/
def numBool (b : Bool) : Ext := if b then .fin false 1 0 else .zero

/-! MX block conversion. -/

/-- emax of R189. -/
def mxEmax : Fmt → Int
  | .mxFp4 => 2 | .mxE4m3 => 8 | .mxE5m2 => 15 | _ => 0

/-- The largest finite magnitude of a list of values. -/
def maxMag (l : List Ext) : Ext :=
  l.foldl (fun a x => if x.isFinite && a.lt x.abs then x.abs else a) .zero

/-- One MX element (R189): saturating whatever SATM says; MXINT8 saturates to 0x7F or 0x80 (R185). -/
def mxElement (f : Fmt) (mode : RMode) (x : Ext) (u : Nat) : Nat × Bool :=
  match f with
  | .mxInt8 =>
    (match x with
     | .fin s m e =>
       let (n, up) := roundAt mode s m e (-6) u
       let v : Int := if s then -(n : Int) else n
       (unsigned 8 (clampSigned 8 v), up)
     | _ => (0, false))
  | _ => convert f.element mode true x u

/-- The scale byte of one block (R189). -/
def mxScale (f : Fmt) (l : List Ext) : Nat :=
  if l.any (fun x => !x.isFinite) then 0xFF
  else match maxMag l with
    | .fin _ m e => if m = 0 then 127 else (max 0 (min 254 ((Nat.log2 m : Int) + e - mxEmax f + 127))).toNat
    | _ => 0xFF

/-- One block into an MX format: the scale, the elements and the decision bits. A non-finite block and an all-zero one hold +0. -/
def mxBlock (f : Fmt) (mode : RMode) (l : List (Ext × Nat)) : Nat × List (Nat × Bool) :=
  let x := mxScale f (l.map (·.1))
  if x = 0xFF then (x, l.map fun _ => (0, false))
  else (x, l.map fun p => if p.1.isZero && (maxMag (l.map (·.1))).isZero then (0, false)
    else mxElement f mode (p.1.mulPow (127 - (x : Int))) p.2)

/-! Packed elements (R131). -/

/-- Element i of a packed array, as an encoding. -/
def elemAt (w : Nat) (l : List Byte) (i : Nat) : Nat :=
  if w = 4 then (let b := (l.getD (i / 2) 0).toNat; if i % 2 = 0 then b % 16 else b / 16)
  else leAt l (i * (w / 8)) (w / 8)

/-- The elements of a packed array. -/
def unpack (w : Nat) (l : List Byte) (n : Nat) : List Nat := (List.range n).map (elemAt w l)

/-- Pairs of 4-bit elements into bytes, low element first. -/
def packNibbles : List Nat → List Byte
  | [] => []
  | [a] => [BitVec.ofNat 8 (a % 16)]
  | a :: b :: r => BitVec.ofNat 8 (a % 16 + 16 * (b % 16)) :: packNibbles r

/-- Packs elements (R131); a last odd 4-bit element leaves the high nibble 0. -/
def pack (w : Nat) (l : List Nat) : List Byte :=
  if w = 4 then packNibbles l else l.flatMap (leBytes (w / 8))

end Sys2Proof.Machine
end

