-- ==== Sys2Proof/Config.lean ====
section
/-!
DEFINITION. What an implementation fixes and what the spec leaves open: free values. Each is an opaque constant with no
body; a statement about it holds for every value. Most are applied to the counter `State.free`, which the meaning that
draws a value advances.
-/
namespace Sys2Proof

/-- A byte whose contents the spec leaves undefined or unspecified: by the tag of the event that left it so, and its address. -/
opaque Config.freeByte : Nat → Nat → Byte

/-- A 32-bit value that the spec does not fix. -/
opaque Config.freeWord : Nat → Word

/-- A natural number that the spec does not fix. -/
opaque Config.freeNat : Nat → Nat

/-- A choice between two outcomes that the spec leaves to the implementation. -/
opaque Config.freeBool : Nat → Bool

/-- A byte of host memory as a device read finds it: by the read's number, the port and the host address. -/
opaque Config.hostByte : Nat → Nat → Nat → Byte

/-- Bytes drawn from the security controller's entropy source (R655), by draw number and byte index. -/
opaque Config.entropyByte : Nat → Nat → Byte

/-- The xoshiro128 starting state of one lane's generator, by seeding number and lane (R250, R344). -/
opaque Config.seedState : Nat → Nat → BitVec 128

/-- The seed that replaces an all-zero one, by seeding number and lane: one less than its value, modulo 2^128 - 1 (R250, R344). -/
opaque Config.freshSeed : Nat → Nat → Nat

/-- How many cycles after it is read a chunk passes a random consumer, taken modulo the pipeline delay of R240: by the chain's stages and the consumer's place
among them. -/
opaque Config.passDelay : Nat → Nat → Nat

/-- Cycles that a Culm lane lets pass before one of its draws: by operation, lane and the draw's place on that lane (R345 fixes no cycle). -/
opaque Config.drawGap : Nat → Nat → Nat → Nat

/-- SHA-384 of a byte string (FIPS 180-4); the spec names the function and the model does not compute it. -/
opaque Config.sha384 : List Byte → BitVec 384

/-- Whether an ECDSA brainpoolP384r1 signature over a message verifies under a key (R393, R638, R647, R648). -/
opaque Config.ecdsaOk : (key msg sig : List Byte) → Bool

/-- The device's own ECDSA signature over a message (R651). -/
opaque Config.deviceSign : List Byte → List Byte

/-- The public keys of Saoth's slots (R635), PUB_X then PUB_Y, by key slot. -/
opaque Config.saothKey : Nat → List Byte

/-- The bytes of the identity certificate chain (R654), by offset. -/
opaque Config.certByte : Nat → Byte

/-- Length of the identity certificate chain (R654). -/
opaque Config.chainLen : Nat

/-- The 128-bit device serial (R645). -/
opaque Config.serial : BitVec 128

/-- Body hashes of the firmware images with which the module left manufacture: stage 1 and 2 of copy A, then of copy B. -/
opaque Config.fwHash : Nat → BitVec 384

end Sys2Proof
end

