-- ==== Sys2Proof/Machine/RegMap.lean ====
section
/-!
DEFINITION. The register space of R14 to R32, R60 to R63: the names and offsets of the registers, the description of
each register (its reset value and the bits of each access code of R18), the pages and the table windows.
The rows follow the register tables of the spec's chapters one by one.
-/
namespace Sys2Proof.Machine

/-- One row of a register table: the offset in its page, up to two strides with their counts, the reset value and,
bit by bit, the access codes of R18: `rw` (plain writes, RW, RWS, RL and WO), `w1c`, `w1s`, `rl` (kept while LOCK is set),
`wo` (reads 0), and `keep` (the bits that keep their value across warm reset, R4). -/
structure RegRow where
  off : Nat
  s1 : Nat
  c1 : Nat
  s2 : Nat
  c2 : Nat
  reset : Nat
  rw : Nat
  w1c : Nat
  w1s : Nat
  rl : Nat
  wo : Nat
  keep : Nat
  deriving DecidableEq, Repr

/-- Whether a page offset is one of the offsets a row names. -/
def RegRow.covers (r : RegRow) (o : Nat) : Bool :=
  decide (r.off ≤ o) &&
  (let d := o - r.off
   let i := if r.s1 = 0 then 0 else d / r.s1
   let i := if i < r.c1 then i else r.c1 - 1
   let e := d - i * r.s1
   let j := if r.s2 = 0 then 0 else e / r.s2
   decide (j < r.c2) && decide (e = j * r.s2))

/-- The kinds of block page of R60 and R61. -/
inductive PageKind
  | hub | sec | stb | clk | pwr | pcie | fab | rte | coll | grn | d2d | trade | idle
  | rch | tlr | awn | spd | memc | culm | dras
  deriving DecidableEq, Repr

/-- Block codes of R35. -/
def PageKind.code : PageKind → Nat
  | .hub => 0x01 | .sec => 0x02 | .stb => 0x03 | .clk => 0x04 | .pwr => 0x05
  | .pcie => 0x06 | .fab => 0x07 | .rte => 0x08 | .coll => 0x09 | .grn => 0x0A
  | .d2d => 0x0B | .trade => 0x0C | .idle => 0x0D | .rch => 0x10 | .tlr => 0x11
  | .awn => 0x12 | .spd => 0x13 | .memc => 0x14 | .culm => 0x15 | .dras => 0x16

/-- One block page: its kind, its die (4 for the Sheaf) and its instance number. -/
structure Page where
  kind : PageKind
  die : Nat
  inst : Nat
  deriving DecidableEq, Repr

/-- The register space offset of a page (R60, R61). -/
def Page.base (p : Page) : Nat :=
  let d := 0x1000000 + p.die * 0x800000
  match p.kind with
  | .hub => 0 | .sec => 0x100000 | .stb => 0x200000 | .clk => 0x300000 | .pwr => 0x308000
  | .pcie => 0x400000 + p.inst * 0x1000
  | .fab => 0x500000 + p.inst * 0x1000
  | .rte => 0x520000 | .coll => 0x600000 | .grn => 0x800000
  | .d2d => 0x900000 + p.inst * 0x1000
  | .trade => 0xA00000 | .idle => 0xB00000
  | .rch => d
  | .tlr => d + 0x10000 + p.inst * 0x1000
  | .awn => d + 0x80000 + p.inst * 0x1000
  | .spd => d + 0xA0000
  | .memc => d + 0xB0000 + p.inst * 0x1000
  | .culm => d + 0xC0000 + p.inst * 0x1000
  | .dras => d + 0xD0000

/-- The compact identity of R20, BLK_ID[15:0]. -/
def Page.ident (p : Page) : Nat := p.die * 0x2000 + p.kind.code * 0x80 + p.inst

namespace Pg
/-- The single pages of the Sheaf. -/
def hub : Page := ⟨.hub, 4, 0⟩
def sec : Page := ⟨.sec, 4, 0⟩
def stb : Page := ⟨.stb, 4, 0⟩
def clk : Page := ⟨.clk, 4, 0⟩
def pwr : Page := ⟨.pwr, 4, 0⟩
def pcie (n : Nat) : Page := ⟨.pcie, 4, n⟩
def fab (p : Nat) : Page := ⟨.fab, 4, p⟩
def rte : Page := ⟨.rte, 4, 0⟩
def coll : Page := ⟨.coll, 4, 0⟩
def grn : Page := ⟨.grn, 4, 0⟩
def d2d (n : Nat) : Page := ⟨.d2d, 4, n⟩
def trade : Page := ⟨.trade, 4, 0⟩
def idle : Page := ⟨.idle, 4, 0⟩
/-- The pages of a compute die. -/
def rch (d : Nat) : Page := ⟨.rch, d, 0⟩
def tlr (d n : Nat) : Page := ⟨.tlr, d, n⟩
def awn (d n : Nat) : Page := ⟨.awn, d, n⟩
def spd (d : Nat) : Page := ⟨.spd, d, 0⟩
def memc (d i : Nat) : Page := ⟨.memc, d, i⟩
def culm (d i : Nat) : Page := ⟨.culm, d, i⟩
def dras (d : Nat) : Page := ⟨.dras, d, 0⟩
/-- The memory controller page of stack s (R40). -/
def stack (s : Nat) : Page := ⟨.memc, s / 3, s % 3⟩
end Pg

/-! Header offsets of R19. -/
namespace Reg
def BLK_ID : Nat := 0x000
def BLK_VER : Nat := 0x004
def BLK_CTRL : Nat := 0x008
def BLK_STAT : Nat := 0x00C
def ERR_STAT : Nat := 0x010
def ERR_CODE : Nat := 0x014
def ERR_ADDR_LO : Nat := 0x018
def ERR_ADDR_HI : Nat := 0x01C
def ERR_INFO : Nat := 0x020
def ERR_CNT : Nat := 0x024
def INT_EN : Nat := 0x028
def INT_STAT : Nat := 0x02C
def PWR_STATE : Nat := 0x030
def PWR_REQ : Nat := 0x034
def PWR_REFUSE_CNT : Nat := 0x038
def LOCK : Nat := 0x03C
end Reg

/-- R378. 0x0000_0000 while BLK_STAT.CTLR_RUN is 0; from the cycle in which CTLR_RUN sets, the VERSION of the running stage-2 image of R638. -/
def Reg.HUB_CTLR_VER : Nat := 0x040
/-- R378. Increments every 25,000 Stubble cycles while CTLR_RUN is 1; wraps. -/
def Reg.HUB_CTLR_BEAT : Nat := 0x044
/-- R378. Isolation limit. -/
def Reg.HUB_FENCE_CFG : Nat := 0x050
/-- R378. Fence rejections, saturating at 0xFFFF_FFFF. -/
def Reg.HUB_FENCE_REJ_CNT : Nat := 0x054
/-- R378. Bits 23:0: engines of P00–P23 isolated; bits 31:24: FL0–FL7 isolated. -/
def Reg.HUB_FENCE_ISO : Nat := 0x058
/-- R378. Bits 2:0 hold NEXT, the next log entry written; bits 31:3 reserved. -/
def Reg.HUB_FENCE_PTR : Nat := 0x05C
/-- R378. Source of log entry n. -/
def Reg.HUB_FENCEn_SRC : Nat := 0x080
/-- R378. Named address, bits 31:0. -/
def Reg.HUB_FENCEn_ADDR_LO : Nat := 0x084
/-- R378. Bit 31 ADDR_VALID; bits 15:0 hold address bits 47:32; bits 30:16 reserved. -/
def Reg.HUB_FENCEn_ADDR_HI : Nat := 0x088
/-- R378. Bits 31:0 of HUB_FRAME_NUM at the rejection. -/
def Reg.HUB_FENCEn_FRAME : Nat := 0x08C
/-- R119. Frame length. -/
def Reg.HUB_FRAME_CFG : Nat := 0x100
/-- R119. Stretch budget. -/
def Reg.HUB_STRETCH_MAX : Nat := 0x104
/-- R119. Frame status and flags. -/
def Reg.HUB_FRAME_STAT : Nat := 0x108
/-- R119. Host idle frames. -/
def Reg.HUB_IDLE_REQ : Nat := 0x10C
/-- R119. Frames started since cold reset, bits 31:0. -/
def Reg.HUB_FRAME_NUM_LO : Nat := 0x110
/-- R119. Bits 63:32. -/
def Reg.HUB_FRAME_NUM_HI : Nat := 0x114
/-- R119. Refresh idle frames. -/
def Reg.HUB_INS_REFRESH_CNT : Nat := 0x118
/-- R119. Thermal idle frames. -/
def Reg.HUB_INS_THERM_CNT : Nat := 0x11C
/-- R119. Power idle frames. -/
def Reg.HUB_INS_POWER_CNT : Nat := 0x120
/-- R119. Host idle frames. -/
def Reg.HUB_INS_HOST_CNT : Nat := 0x124
/-- R119. Fleet idle frames requested by others. -/
def Reg.HUB_INS_FLEET_CNT : Nat := 0x128
/-- R119. Bits 20:0 hold the debt of R107. -/
def Reg.HUB_REFRESH_DEBT : Nat := 0x12C
/-- R119. Bits 20:0 hold the slip of the last completed frame. -/
def Reg.HUB_LAST_SLIP : Nat := 0x130
/-- R119. Bits 20:0 hold the stretch of the last completed frame. -/
def Reg.HUB_LAST_STRETCH : Nat := 0x134
/-- R119. Bits 20:0 hold the largest stretch since written; write 0 to restart. -/
def Reg.HUB_MAX_STRETCH : Nat := 0x138
/-- R119. Frames with stretch above 0. -/
def Reg.HUB_STRETCH_FRAMES : Nat := 0x13C
/-- R119. Tick role. -/
def Reg.HUB_TICK_CFG : Nat := 0x140
/-- R119. Path delay from the master. -/
def Reg.HUB_TICK_DELAY : Nat := 0x144
/-- R119. Last tick error and trim. -/
def Reg.HUB_TICK_ERR : Nat := 0x148
/-- R119. Ticks with an error above 16. -/
def Reg.HUB_TICK_BIG_CNT : Nat := 0x14C
/-- R119. Frames ended without a tick. -/
def Reg.HUB_TICK_MISS_CNT : Nat := 0x150
/-- R656. Identity, entropy and copy status. -/
def Reg.SEC_STAT : Nat := 0x040
/-- R656. Boot progress and causes. -/
def Reg.SEC_BOOT_STAT : Nat := 0x044
/-- R656. Command. -/
def Reg.SEC_CMD : Nat := 0x048
/-- R656. Command status. -/
def Reg.SEC_CMD_STAT : Nat := 0x04C
/-- R656. Bundle address, bits 31:0; bits 7:0 reserved. -/
def Reg.SEC_ARG_LO : Nat := 0x050
/-- R656. Bits 15:0: address bits 47:32. -/
def Reg.SEC_ARG_HI : Nat := 0x054
/-- R656. Bits 31:16 stage-2 counter; bits 15:0 stage-1 counter. -/
def Reg.SEC_CTR : Nat := 0x058
/-- R656. Debug unlock state. -/
def Reg.SEC_DBG_STAT : Nat := 0x05C
/-- R656. Boots since manufacture, kept in the replay-protected area. -/
def Reg.SEC_BOOT_CNT : Nat := 0x060
/-- R656. Signed objects refused, saturating at 0xFFFF_FFFF. -/
def Reg.SEC_AUTH_FAIL_CNT : Nat := 0x064
/-- R656. Reports signed, saturating at 0xFFFF_FFFF. -/
def Reg.SEC_REPORT_CNT : Nat := 0x068
/-- R656. Device serial bytes 4n to 4n + 3. -/
def Reg.SEC_SERIALn : Nat := 0x070
/-- R656. Nonce bytes 4n to 4n + 3, under R650. -/
def Reg.SEC_NONCEn : Nat := 0x080
/-- R656. Bit 31 VALID; bits 4:0 usage of R635; other bits reserved. -/
def Reg.SEC_KEYk : Nat := 0x0A0
/-- R656. Record window for key records and debug tokens. -/
def Reg.SEC_REC : Nat := 0x800
/-- R631. Bit 0 RULES_EN in force; bit 1 ALERT_N asserted; bit 2 a CAP override in force; other bits reserved. -/
def Reg.STB_STAT : Nat := 0x040
/-- R631. Bit 0 RULES_EN; other bits reserved. -/
def Reg.STB_CTRL : Nat := 0x044
/-- R631. Bit r: rule r's ALERT, rules 0–31. -/
def Reg.STB_ALERT_LO : Nat := 0x048
/-- R631. Rules 32–63. -/
def Reg.STB_ALERT_HI : Nat := 0x04C
/-- R631. Bits 12:0: override in W under R622; 0 when none. -/
def Reg.STB_CAP_OVR : Nat := 0x050
/-- R631. Bits 12:0: mean input power of the last 16 frames, W. -/
def Reg.STB_PIN_AVG : Nat := 0x054
/-- R631. Latest trip. -/
def Reg.STB_LAST_TRIP : Nat := 0x058
/-- R631. Bits 23:0: send link-wake on Pp under R616. -/
def Reg.STB_LINK_WAKE : Nat := 0x05C
/-- R631. Bits 23:0: link-wake received on Pp. -/
def Reg.STB_LWAKE_SRC : Nat := 0x060
/-- R626. Reference and PLL status. -/
def Reg.CLK_STAT : Nat := 0x040
/-- R626. Divider ramp. -/
def Reg.CLK_CFG : Nat := 0x044
/-- R626. Reference losses, saturating at 0xFFFF_FFFF. -/
def Reg.CLK_REF_LOST_CNT : Nat := 0x048
/-- R626. Microseconds spent coasting, saturating at 0xFFFF_FFFF. -/
def Reg.CLK_COAST_US : Nat := 0x04C
/-- R626. HUB_FRAME_NUM at the latest loss, bits 31:0. -/
def Reg.CLK_LOST_FRAME_LO : Nat := 0x050
/-- R626. Bits 63:32. -/
def Reg.CLK_LOST_FRAME_HI : Nat := 0x054
/-- R626. Bit 31 LOCKED; bit 30 COAST; bits 7:0 losses of lock, saturating at 0xFF; other bits reserved. -/
def Reg.CLK_PLLn_STAT : Nat := 0x080
/-- R628. Bits 7:0 domains in transition; bits 15:8 domains with PEND_ON set; other bits reserved. -/
def Reg.PWR_STAT : Nat := 0x040
/-- R628. Pending-on exits under R608. -/
def Reg.PWR_PEND_ON_CNT : Nat := 0x044
/-- R628. Edge wakes lost under R609. -/
def Reg.PWR_LOST_WAKE_CNT : Nat := 0x048
/-- R628. Restores that met an uncorrectable error. -/
def Reg.PWR_RESTORE_ERR_CNT : Nat := 0x04C
/-- R628. Bits 31:24 input index of the rail; bits 15:0 its value in mV at the latest RAIL_FAULT. -/
def Reg.PWR_RAIL_LAST : Nat := 0x050
/-- R628. Bias and assist of kind k, under R611. -/
def Reg.PWR_BIASk : Nat := 0x080
/-- R417. Link state. -/
def Reg.PCIE_LINK_STAT : Nat := 0x040
/-- R417. Ownership. -/
def Reg.PCIE_OWN : Nat := 0x044
/-- R417. Handover command. -/
def Reg.PCIE_HO_CMD : Nat := 0x048
/-- R417. Handover status. -/
def Reg.PCIE_HO_STAT : Nat := 0x04C
/-- R417. BAR2 window base, bits 31:0; bits 29:0 reserved. -/
def Reg.PCIE_WIN_BASE_LO : Nat := 0x050
/-- R417. Bits 15:0 hold base bits 47:32. -/
def Reg.PCIE_WIN_BASE_HI : Nat := 0x054
/-- R417. Outbound base, bits 31:0; bits 11:0 reserved. -/
def Reg.PCIE_OB_BASE_LO : Nat := 0x058
/-- R417. Outbound base, bits 63:32. -/
def Reg.PCIE_OB_BASE_HI : Nat := 0x05C
/-- R417. Duplicates under R413. -/
def Reg.PCIE_DUP_CNT : Nat := 0x060
/-- R417. Completions dropped under R385. -/
def Reg.PCIE_CPL_DROP_CNT : Nat := 0x064
/-- R417. Writes refused under R391. -/
def Reg.PCIE_STANDBY_REJ_CNT : Nat := 0x068
/-- R417. Ring address, bits 31:12 in bits 31:12; bits 11:0 reserved. -/
def Reg.PCIE_SQq_BASE_LO : Nat := 0x100
/-- R417. Ring address, bits 63:32. -/
def Reg.PCIE_SQq_BASE_HI : Nat := 0x104
/-- R417. Ring enable and size. -/
def Reg.PCIE_SQq_CFG : Nat := 0x108
/-- R417. Bits 15:0: tail index, under R399. -/
def Reg.PCIE_SQq_TAIL : Nat := 0x10C
/-- R417. Bits 15:0: head index. -/
def Reg.PCIE_SQq_HEAD : Nat := 0x110
/-- R417. As SQq_BASE_LO. -/
def Reg.PCIE_CQq_BASE_LO : Nat := 0x114
/-- R417. As SQq_BASE_HI. -/
def Reg.PCIE_CQq_BASE_HI : Nat := 0x118
/-- R417. Ring enable, interrupt and size. -/
def Reg.PCIE_CQq_CFG : Nat := 0x11C
/-- R417. Bits 15:0: head index, written by the host. -/
def Reg.PCIE_CQq_HEAD : Nat := 0x120
/-- R417. Bits 15:0: next entry written; bit 16: current phase. -/
def Reg.PCIE_CQq_TAIL : Nat := 0x124
/-- R417. Nonce bytes 4n to 4n + 3. -/
def Reg.PCIE_HO_NONCEn : Nat := 0x800
/-- R417. Handover record window, under R393. -/
def Reg.PCIE_HO_REC : Nat := 0x900
/-- R467. Port settings. -/
def Reg.FAB_CFG : Nat := 0x040
/-- R467. Port state. -/
def Reg.FAB_STAT : Nat := 0x044
/-- R467. Wavelength map. -/
def Reg.FAB_WL : Nat := 0x048
/-- R467. Far end, from its latest LINK cell. -/
def Reg.FAB_NBR : Nat := 0x04C
/-- R467. Bits 28:16 class 2v + 1, bits 12:0 class 2v; other bits reserved. -/
def Reg.FAB_CREDv : Nat := 0x050
/-- R467. Bits 15:0 hold the credit round trip in cycles. -/
def Reg.FAB_LINK_RTT : Nat := 0x060
/-- R467. Corrected symbols, bits 31:0. -/
def Reg.FAB_FEC_CSYM_LO : Nat := 0x064
/-- R467. Bits 63:32. -/
def Reg.FAB_FEC_CSYM_HI : Nat := 0x068
/-- R467. Spoiled blocks. -/
def Reg.FAB_FEC_UBLK_CNT : Nat := 0x06C
/-- R467. Cells sent, bits 31:0. -/
def Reg.FAB_TX_CELL_LO : Nat := 0x070
/-- R467. Bits 63:32. -/
def Reg.FAB_TX_CELL_HI : Nat := 0x074
/-- R467. Cells received in unspoiled blocks, bits 31:0. -/
def Reg.FAB_RX_CELL_LO : Nat := 0x078
/-- R467. Bits 63:32. -/
def Reg.FAB_RX_CELL_HI : Nat := 0x07C
/-- R467. Cells dropped under R441. -/
def Reg.FAB_AGE_DROP_CNT : Nat := 0x080
/-- R467. Cells dropped for this port being down. -/
def Reg.FAB_DOWN_DROP_CNT : Nat := 0x084
/-- R467. Wavelengths declared failed in operation. -/
def Reg.FAB_WL_FAIL_CNT : Nat := 0x088
/-- R467. Corrected symbols on physical wavelength λ. -/
def Reg.FAB_WL_CSYMW : Nat := 0x090
/-- R467. Engine temperature, two's complement in bits 15:0, units of 0.25 °C. -/
def Reg.FAB_SB_TEMP : Nat := 0x800
/-- R467. Received optical power, two's complement in bits 15:0, units of 0.01 dBm. -/
def Reg.FAB_SB_RXPWRW : Nat := 0x810
/-- R470. Node identity and hop limit. -/
def Reg.RTE_CFG : Nat := 0x040
/-- R470. Bits 15:0 hold HOLD_MAX of R441, 64 to 65,535; a write below 64 is stored as 64. -/
def Reg.RTE_HOLD : Nat := 0x044
/-- R470. Bits 4:0 hold STALL_LOG2 of R448, 10 to 30; other values are stored as 20. -/
def Reg.RTE_STALL : Nat := 0x048
/-- R470. Bits 23:0: least RTO in cycles. -/
def Reg.RTE_RTO_MIN : Nat := 0x04C
/-- R470. Bits 23:0: greatest RTO in cycles; when below RTE_RTO_MIN, RTE_RTO_MIN serves as both bounds. -/
def Reg.RTE_RTO_MAX : Nat := 0x050
/-- R470. Bits 23:0: RTO before the first sample. -/
def Reg.RTE_RTO_INIT : Nat := 0x054
/-- R470. Bits 15:8 BURST, 1 to 255; bits 3:0 MAX, 1 to 15; a write of 0 to either field stores 1. -/
def Reg.RTE_RETRY : Nat := 0x058
/-- R470. Bits 11:0 hold GROUP of R460. -/
def Reg.RTE_TICK : Nat := 0x05C
/-- R470. Bit 31 GO; bit 30 SET_DELAY; bits 15:0 TARGET. -/
def Reg.RTE_ECHO_CMD : Nat := 0x060
/-- R470. Bit 31 VALID; bit 30 TIMEOUT; bits 23:0 RTT_FIX. -/
def Reg.RTE_ECHO_RES : Nat := 0x064
/-- R470. Bits 19:0 hold the store's free cells. -/
def Reg.RTE_POOL : Nat := 0x068
/-- R470. Cells with no route or group. -/
def Reg.RTE_NOROUTE_CNT : Nat := 0x080
/-- R470. Cells dropped at HOPS = 0. -/
def Reg.RTE_HOPS_DROP_CNT : Nat := 0x084
/-- R470. Cells that failed R437. -/
def Reg.RTE_CRC_DROP_CNT : Nat := 0x088
/-- R470. Cells dropped under R436, R460 and R462. -/
def Reg.RTE_BAD_TYPE_CNT : Nat := 0x08C
/-- R470. DATA cells for an unbound receive stream. -/
def Reg.RTE_UNBOUND_DROP_CNT : Nat := 0x090
/-- R470. Duplicates discarded. -/
def Reg.RTE_DUP_CNT : Nat := 0x094
/-- R470. Cells beyond a receive window. -/
def Reg.RTE_WIN_DROP_CNT : Nat := 0x098
/-- R470. Cells re-sent. -/
def Reg.RTE_RESEND_CNT : Nat := 0x09C
/-- R470. Cells discarded under R459. -/
def Reg.RTE_ABANDON_CNT : Nat := 0x0A0
/-- R470. Management messages dropped. -/
def Reg.RTE_MGMT_DROP_CNT : Nat := 0x0A4
/-- R470. Outgoing message payload. -/
def Reg.RTE_MGMT_TX : Nat := 0x100
/-- R470. Bit 31 GO; bit 30 MC; bits 15:0 DST. -/
def Reg.RTE_MGMT_CMD : Nat := 0x140
/-- R470. Bits 3:0 entries waiting; bits 6:4 oldest entry. -/
def Reg.RTE_MGMT_STAT : Nat := 0x144
/-- R470. Writing 1 to bit 0 frees the oldest entry. -/
def Reg.RTE_MGMT_POP : Nat := 0x148
/-- R470. Bytes 0x00–0x3F payload; 0x40 bits 15:0 SRC. -/
def Reg.RTE_MGMT_RXn : Nat := 0x400
/-- R514. Timeout. -/
def Reg.COLL_CFG : Nat := 0x040
/-- R514. Layout epoch and fence. -/
def Reg.COLL_EPOCH : Nat := 0x044
/-- R514. Bits 13:0 hold the free segment slots. -/
def Reg.COLL_SLOTS : Nat := 0x048
/-- R514. Bits 12:0 hold the active instances. -/
def Reg.COLL_ACTIVE : Nat := 0x04C
/-- R514. Instances ended without abort, bits 31:0. -/
def Reg.COLL_INST_CNT_LO : Nat := 0x050
/-- R514. Bits 63:32. -/
def Reg.COLL_INST_CNT_HI : Nat := 0x054
/-- R514. Instances aborted. -/
def Reg.COLL_ABORT_CNT : Nat := 0x058
/-- R514. FP_MISMATCH found here. -/
def Reg.COLL_FP_MISMATCH_CNT : Nat := 0x05C
/-- R514. Cells discarded under R497. -/
def Reg.COLL_DUP_CELL_CNT : Nat := 0x060
/-- R514. Cells sent again under R503. -/
def Reg.COLL_RESEND_CNT : Nat := 0x064
/-- R514. Cells dropped as behind. -/
def Reg.COLL_STALE_EPOCH_CNT : Nat := 0x068
/-- R514. Cells dropped under R496 or as ahead. -/
def Reg.COLL_EARLY_CNT : Nat := 0x06C
/-- R514. Collective cells with no matching entry. -/
def Reg.COLL_BAD_CELL_CNT : Nat := 0x070
/-- R514. Fingerprints that waited for slots. -/
def Reg.COLL_SLOT_WAIT_CNT : Nat := 0x074
/-- R514. Delivered cells carrying FLAG. -/
def Reg.COLL_FLAG_CNT : Nat := 0x078
/-- R514. Bits 31:16 CAUSE; bits 15:0 ID. -/
def Reg.COLL_ABT_INFO : Nat := 0x080
/-- R514. Bits 31:16 DETECTOR; bits 15:0 SUSPECT. -/
def Reg.COLL_ABT_NODE : Nat := 0x084
/-- R514. CSEQ of the logged abort. -/
def Reg.COLL_ABT_CSEQ : Nat := 0x088
/-- R514. Abort log status. -/
def Reg.COLL_ABT_STAT : Nat := 0x08C
/-- R514. Bytes 4n to 4n + 3 of the suspect's fingerprint. -/
def Reg.COLL_ABT_FPn : Nat := 0x090
/-- R565. Scrub settings. -/
def Reg.GRN_CFG : Nat := 0x040
/-- R565. State. -/
def Reg.GRN_STAT : Nat := 0x044
/-- R565. Generation command. -/
def Reg.GRN_CMD : Nat := 0x048
/-- R565. Command status. -/
def Reg.GRN_CMD_STAT : Nat := 0x04C
/-- R565. Generation named, bits 31:0. -/
def Reg.GRN_CMD_GEN_LO : Nat := 0x050
/-- R565. Bits 63:32. -/
def Reg.GRN_CMD_GEN_HI : Nat := 0x054
/-- R565. Bytes charged to the budget, bits 31:0. -/
def Reg.GRN_WRITTEN_LO : Nat := 0x058
/-- R565. Bits 63:32. -/
def Reg.GRN_WRITTEN_HI : Nat := 0x05C
/-- R565. Bits 9:0: budget left in thousandths, 0 to 1,000. -/
def Reg.GRN_BUDGET_LEFT : Nat := 0x060
/-- R565. Bits 12:0: free checkpoint partition, GiB, rounded down. -/
def Reg.GRN_FREE_GIB : Nat := 0x064
/-- R565. Data bytes moved by the running command, bits 31:0. -/
def Reg.GRN_PROGRESS_LO : Nat := 0x068
/-- R565. Bits 63:32. -/
def Reg.GRN_PROGRESS_HI : Nat := 0x06C
/-- R565. Bad blocks replaced, all dies. -/
def Reg.GRN_BAD_CNT : Nat := 0x070
/-- R565. Blocks rewritten by scrub, saturating at 0xFFFF_FFFF. -/
def Reg.GRN_RELOC_CNT : Nat := 0x074
/-- R565. Pages rebuilt from their stripe, saturating at 0xFFFF_FFFF. -/
def Reg.GRN_REBUILD_CNT : Nat := 0x078
/-- R565. Complete scrub passes, saturating at 0xFFFF_FFFF. -/
def Reg.GRN_SCRUB_PASS_CNT : Nat := 0x07C
/-- R565. Repair entries ignored under R564. -/
def Reg.GRN_MAP_BAD_CNT : Nat := 0x080
/-- R565. Bit 31 FAILED; bit 30 ISOLATED; other bits reserved. -/
def Reg.GRN_FLn_STAT : Nat := 0x100
/-- R565. Bits 9:0: free spare blocks, 0 to 768. -/
def Reg.GRN_FLn_SPARE : Nat := 0x104
/-- R565. Bits 9:0: bad blocks. -/
def Reg.GRN_FLn_BAD : Nat := 0x108
/-- R565. Bits 31:16 highest and bits 15:0 lowest erase count. -/
def Reg.GRN_FLn_ERASE : Nat := 0x10C
/-- R381. Lane and arbitration settings. -/
def Reg.D2D_CFG : Nat := 0x040
/-- R381. Flits corrected. -/
def Reg.D2D_CE_CNT : Nat := 0x044
/-- R381. Flits uncorrectable. -/
def Reg.D2D_UE_CNT : Nat := 0x048
/-- R381. Lanes declared failed in operation. -/
def Reg.D2D_LANE_FAIL_CNT : Nat := 0x04C
/-- R381. Latest lane declaration. -/
def Reg.D2D_LAST_LANE : Nat := 0x050
/-- R381. HUB_FRAME_NUM at the latest fall, bits 31:0. -/
def Reg.D2D_FALL_FRAME_LO : Nat := 0x054
/-- R381. Bits 63:32. -/
def Reg.D2D_FALL_FRAME_HI : Nat := 0x058
/-- R381. Cycles frozen under R365. -/
def Reg.D2D_FREEZE_CNT : Nat := 0x05C
/-- R381. Unscheduled flits, both directions, bits 31:0. -/
def Reg.D2D_UNSCHED_CNT_LO : Nat := 0x060
/-- R381. Bits 63:32. -/
def Reg.D2D_UNSCHED_CNT_HI : Nat := 0x064
/-- R381. Bit k is 1 when physical up lane 32w + k is failed. -/
def Reg.D2D_UP_FAILw : Nat := 0x400
/-- R381. Bit k is 1 when physical down lane 32w + k is failed. -/
def Reg.D2D_DN_FAILw : Nat := 0x500
/-- R587. Mode, band floor, FP16 opt-in. -/
def Reg.TRADE_MODE : Nat := 0x040
/-- R587. Stop and test status. -/
def Reg.TRADE_STAT : Nat := 0x044
/-- R587. Bits 15:0: code of the stop error. -/
def Reg.TRADE_STOP_CODE : Nat := 0x048
/-- R587. HUB_FRAME_NUM at the stop, bits 31:0. -/
def Reg.TRADE_STOP_FRAME_LO : Nat := 0x04C
/-- R587. Bits 63:32. -/
def Reg.TRADE_STOP_FRAME_HI : Nat := 0x050
/-- R587. Bits 12:0: power cap of R106 in W, 1,000 to 3,900; other values are stored clamped; applies from the next boundary. -/
def Reg.TRADE_PWR_CAP : Nat := 0x054
/-- R587. Weights of R445: bits 31:24 VC3, 23:16 VC2, 15:8 VC1, 7:0 VC0. -/
def Reg.TRADE_VC_WT : Nat := 0x058
/-- R587. Bits 31:16 LIFE_MONTHS; bits 15:0 SHARD_GB. -/
def Reg.TRADE_CKPT_CFG : Nat := 0x05C
/-- R587. Bits 15:0: least checkpoint interval in minutes, under R589. -/
def Reg.TRADE_CKPT_GUIDE : Nat := 0x060
/-- R587. Test frame settings. -/
def Reg.TRADE_TEST : Nat := 0x064
/-- R587. Spikelet settings. -/
def Reg.TRADE_SPK : Nat := 0x068
/-- R587. Fixed SEED. -/
def Reg.TRADE_SPK_SEED : Nat := 0x06C
/-- R587. Test frames run. -/
def Reg.TRADE_TEST_FRAME_CNT : Nat := 0x070
/-- R587. Test frames skipped under R578. -/
def Reg.TRADE_TEST_SKIP_CNT : Nat := 0x074
/-- R587. Latest Guarded disagreement. -/
def Reg.TRADE_GUARD_LAST : Nat := 0x078
/-- R587. Package address, bits 31:0; bits 5:0 reserved. -/
def Reg.TRADE_SEED_ADDR_LO : Nat := 0x080
/-- R587. Bits 15:0: address bits 47:32. -/
def Reg.TRADE_SEED_ADDR_HI : Nat := 0x084
/-- R587. Seed set command. -/
def Reg.TRADE_SEED_CMD : Nat := 0x088
/-- R587. Seed set state. -/
def Reg.TRADE_SEED_STAT : Nat := 0x08C
/-- R587. SET_ID of the latest set loaded. -/
def Reg.TRADE_SEED_ID : Nat := 0x090
/-- R587. Bits 3d + 2 to 3d: free Tiller spares of die d, 0 to 4; bits 31:12 reserved. -/
def Reg.TRADE_SPARE_TLR : Nat := 0x094
/-- R537. Counter clear. -/
def Reg.IDLE_CTRL : Nat := 0x040
/-- R537. Switch frames, saturating at 0xFFFF_FFFF. -/
def Reg.IDLE_SWITCH_CNT : Nat := 0x044
/-- R537. FRAME_RUNs refused under R532, saturating at 0xFFFF_FFFF. -/
def Reg.IDLE_MB_REFUSE_CNT : Nat := 0x048
/-- R537. MB_LEN of the latest refused FRAME_RUN. -/
def Reg.IDLE_LAST_MB : Nat := 0x04C
/-- R537. SEQ_BOUND of that FRAME_RUN's image. -/
def Reg.IDLE_LAST_BOUND : Nat := 0x050
/-- R537. Cycles of cause c on die d, bits 31:0. -/
def Reg.IDLE_Dd_CNTc_LO : Nat := 0x100
/-- R537. Bits 63:32. -/
def Reg.IDLE_Dd_CNTc_HI : Nat := 0x104
/-- R537. Image frame cycles on die d, bits 31:0. -/
def Reg.IDLE_Dd_RUN_LO : Nat := 0x140
/-- R537. Bits 63:32. -/
def Reg.IDLE_Dd_RUN_HI : Nat := 0x144
/-- R537. High-water window of stack s. -/
def Reg.IDLE_HWs_CFG : Nat := 0x400
/-- R537. Bits 15:0: window size in MiB, 0 to 49,152. -/
def Reg.IDLE_HWs_SIZE : Nat := 0x404
/-- R537. High-water mark. -/
def Reg.IDLE_HWs_MARK : Nat := 0x408
/-- R537. Bits 31:0 of HUB_FRAME_NUM at the latest rise. -/
def Reg.IDLE_HWs_FRAME : Nat := 0x40C
/-- R269. Fetch and issue status. -/
def Reg.RCH_STAT : Nat := 0x040
/-- R269. Frames frozen at cycle 0 because their words were not fetched, saturating at 0xFFFF_FFFF. -/
def Reg.RCH_FETCH_LATE_CNT : Nat := 0x044
/-- R269. Scalar operations issued, bits 31:0. -/
def Reg.RCH_OP_CNT_LO : Nat := 0x048
/-- R269. Bits 63:32. -/
def Reg.RCH_OP_CNT_HI : Nat := 0x04C
/-- R269. Frames aborted by an issue check on this die, saturating at 0xFFFF_FFFF. -/
def Reg.RCH_ABORT_CNT : Nat := 0x050
/-- R269. SRn bits 31:0, n = 0 to 255. -/
def Reg.RCH_SRn_LO : Nat := 0x800
/-- R269. SRn bits 63:32; read under R15. -/
def Reg.RCH_SRn_HI : Nat := 0x804
/-- R174. Sparing state. -/
def Reg.TLR_MAP : Nat := 0x040
/-- R174. Pass and replay status. -/
def Reg.TLR_STAT : Nat := 0x044
/-- R174. Passes committed, bits 31:0; squashed passes are not counted. -/
def Reg.TLR_PASS_CNT_LO : Nat := 0x048
/-- R174. Bits 63:32. -/
def Reg.TLR_PASS_CNT_HI : Nat := 0x04C
/-- R174. Saturation replays, saturating at 0xFFFF_FFFF. -/
def Reg.TLR_REPLAY_CNT : Nat := 0x050
/-- R174. Passes squashed, saturating at 0xFFFF_FFFF. -/
def Reg.TLR_SQUASH_CNT : Nat := 0x054
/-- R174. Passes that raised SAT_LIMIT, saturating at 0xFFFF_FFFF. -/
def Reg.TLR_SATLIM_CNT : Nat := 0x058
/-- R174. Latest saturation. -/
def Reg.TLR_LAST_SAT : Nat := 0x05C
/-- R174. Bits 19:0 hold the schedule stamp D of the latest saturation. -/
def Reg.TLR_LAST_SAT_STAMP : Nat := 0x060
/-- R174. Tile descriptor of granule g. -/
def Reg.TLR_TDESCg : Nat := 0x400
/-- R267. Engine status. -/
def Reg.AWN_STAT : Nat := 0x040
/-- R267. Chains completed, bits 31:0. -/
def Reg.AWN_CHAIN_CNT_LO : Nat := 0x044
/-- R267. Bits 63:32. -/
def Reg.AWN_CHAIN_CNT_HI : Nat := 0x048
/-- R267. Elements processed, bits 31:0. -/
def Reg.AWN_ELEM_CNT_LO : Nat := 0x04C
/-- R267. Bits 63:32. -/
def Reg.AWN_ELEM_CNT_HI : Nat := 0x050
/-- R267. Draws consumed, bits 31:0. -/
def Reg.AWN_DRAW_CNT_LO : Nat := 0x054
/-- R267. Bits 63:32. -/
def Reg.AWN_DRAW_CNT_HI : Nat := 0x058
/-- R267. Segments recorded, saturating at 0xFFFF_FFFF. -/
def Reg.AWN_STREAM_REC_CNT : Nat := 0x05C
/-- R267. STREAM_MISMATCH errors, saturating at 0xFFFF_FFFF. -/
def Reg.AWN_STREAM_ERR_CNT : Nat := 0x060
/-- R267. Seedings of the engine's generators, saturating at 0xFFFF_FFFF. -/
def Reg.AWN_SEED_CNT : Nat := 0x064
/-- R315. Arbitration and repair settings. -/
def Reg.MEMC_CFG : Nat := 0x040
/-- R315. Band, flags and queue. -/
def Reg.MEMC_STAT : Nat := 0x044
/-- R315. Stack temperature. -/
def Reg.MEMC_TEMP : Nat := 0x048
/-- R315. On-die corrected errors. -/
def Reg.MEMC_CE_CNT : Nat := 0x04C
/-- R315. Link corrected errors. -/
def Reg.MEMC_LINK_CE_CNT : Nat := 0x050
/-- R315. Uncorrectable errors on reads under R301 and on writes under R302. -/
def Reg.MEMC_UE_CNT : Nat := 0x054
/-- R315. Remap in progress. -/
def Reg.MEMC_REMAP_STAT : Nat := 0x058
/-- R315. Completed on-the-fly remaps. -/
def Reg.MEMC_REMAP_CNT : Nat := 0x05C
/-- R315. Bits 15:0 hold the free spare rows of the stack. -/
def Reg.MEMC_SPARE_ROWS : Nat := 0x060
/-- R315. Spare banks and connections in use. -/
def Reg.MEMC_SPARE_STAT : Nat := 0x064
/-- R315. Latest suspect connection. -/
def Reg.MEMC_VC_SUSPECT : Nat := 0x068
/-- R315. Unscheduled slots served for class c. -/
def Reg.MEMC_CLASSc_CNT : Nat := 0x06C
/-- R315. Requests served by age. -/
def Reg.MEMC_AGED_CNT : Nat := 0x07C
/-- R315. Watch entry row. -/
def Reg.MEMC_WATCHw_ADDR : Nat := 0x100
/-- R315. Bits 15:0 hold the watch entry count. -/
def Reg.MEMC_WATCHw_CNT : Nat := 0x104
/-- R351. Engine status. -/
def Reg.CULM_STAT : Nat := 0x040
/-- R351. Operations completed, bits 31:0. -/
def Reg.CULM_OP_CNT_LO : Nat := 0x044
/-- R351. Bits 63:32. -/
def Reg.CULM_OP_CNT_HI : Nat := 0x048
/-- R351. Elements processed, bits 31:0. -/
def Reg.CULM_ELEM_CNT_LO : Nat := 0x04C
/-- R351. Bits 63:32. -/
def Reg.CULM_ELEM_CNT_HI : Nat := 0x050
/-- R351. Draws consumed, bits 31:0. -/
def Reg.CULM_DRAW_CNT_LO : Nat := 0x054
/-- R351. Bits 63:32. -/
def Reg.CULM_DRAW_CNT_HI : Nat := 0x058
/-- R351. Optimizer steps applied, saturating at 0xFFFF_FFFF. -/
def Reg.CULM_OPT_CNT : Nat := 0x05C
/-- R351. Calibration steps, saturating at 0xFFFF_FFFF. -/
def Reg.CULM_CAL_CNT : Nat := 0x060
/-- R351. Seedings of the engine's generators, saturating at 0xFFFF_FFFF. -/
def Reg.CULM_SEED_CNT : Nat := 0x064
/-- R351. Ring enable; CULM0 only. -/
def Reg.CULM_RING_CTRL : Nat := 0x080
/-- R351. Header address, bits 31:0; CULM0 only. -/
def Reg.CULM_RING_HDR_LO : Nat := 0x084
/-- R351. Header address, bits 47:32; CULM0 only. -/
def Reg.CULM_RING_HDR_HI : Nat := 0x088
/-- R351. Records discarded while EN is 0, or under R221 when the header cannot be written, saturating at 0xFFFF_FFFF; CULM0 only. -/
def Reg.CULM_RING_DROP_CNT : Nat := 0x08C
/-- R321. Bits 2:0 hold TEST, one bit per site. -/
def Reg.DRAS_CTRL : Nat := 0x040
/-- R321. Command. -/
def Reg.DRAS_CMD : Nat := 0x044
/-- R321. Target. -/
def Reg.DRAS_ADDR : Nat := 0x048
/-- R321. Argument. -/
def Reg.DRAS_ARG : Nat := 0x04C
/-- R321. Result. -/
def Reg.DRAS_STAT : Nat := 0x050

/-- Block-specific registers of the HUB page, from the register tables of its chapter. -/
def hubRows : List RegRow :=
  [ ⟨Reg.HUB_CTLR_VER, 0, 1, 0, 1, 0, 0, 0, 0, 0, 0, 0⟩,
    ⟨Reg.HUB_CTLR_BEAT, 0, 1, 0, 1, 0, 0, 0, 0, 0, 0, 0⟩,
    ⟨Reg.HUB_FENCE_CFG, 0, 1, 0, 1, 0x100, 0xFFFF, 0, 0, 0, 0, 0⟩,
    ⟨Reg.HUB_FENCE_REJ_CNT, 0, 1, 0, 1, 0, 0xFFFFFFFF, 0, 0, 0, 0, 0xFFFFFFFF⟩,
    ⟨Reg.HUB_FENCE_ISO, 0, 1, 0, 1, 0, 0, 0, 0, 0, 0, 0xFFFFFFFF⟩,
    ⟨Reg.HUB_FENCE_PTR, 0, 1, 0, 1, 0, 0, 0, 0, 0, 0, 0⟩,
    ⟨Reg.HUB_FENCEn_SRC, 16, 8, 0, 1, 0, 0, 0, 0, 0, 0, 0⟩,
    ⟨Reg.HUB_FENCEn_ADDR_LO, 16, 8, 0, 1, 0, 0, 0, 0, 0, 0, 0⟩,
    ⟨Reg.HUB_FENCEn_ADDR_HI, 16, 8, 0, 1, 0, 0, 0, 0, 0, 0, 0⟩,
    ⟨Reg.HUB_FENCEn_FRAME, 16, 8, 0, 1, 0, 0, 0, 0, 0, 0, 0⟩,
    ⟨Reg.HUB_FRAME_CFG, 0, 1, 0, 1, 0x10, 0x1F, 0, 0, 0, 0, 0⟩,
    ⟨Reg.HUB_STRETCH_MAX, 0, 1, 0, 1, 0x4000, 0x1FFFFF, 0, 0, 0, 0, 0⟩,
    ⟨Reg.HUB_FRAME_STAT, 0, 1, 0, 1, 0xC, 0, 0x7C0, 0, 0, 0, 0⟩,
    ⟨Reg.HUB_IDLE_REQ, 0, 1, 0, 1, 0, 0xFFFF, 0, 0, 0, 0, 0⟩,
    ⟨Reg.HUB_FRAME_NUM_LO, 0, 1, 0, 1, 0, 0, 0, 0, 0, 0, 0xFFFFFFFF⟩,
    ⟨Reg.HUB_FRAME_NUM_HI, 0, 1, 0, 1, 0, 0, 0, 0, 0, 0, 0xFFFFFFFF⟩,
    ⟨Reg.HUB_INS_REFRESH_CNT, 0, 1, 0, 1, 0, 0xFFFFFFFF, 0, 0, 0, 0, 0xFFFFFFFF⟩,
    ⟨Reg.HUB_INS_THERM_CNT, 0, 1, 0, 1, 0, 0xFFFFFFFF, 0, 0, 0, 0, 0xFFFFFFFF⟩,
    ⟨Reg.HUB_INS_POWER_CNT, 0, 1, 0, 1, 0, 0xFFFFFFFF, 0, 0, 0, 0, 0xFFFFFFFF⟩,
    ⟨Reg.HUB_INS_HOST_CNT, 0, 1, 0, 1, 0, 0xFFFFFFFF, 0, 0, 0, 0, 0xFFFFFFFF⟩,
    ⟨Reg.HUB_INS_FLEET_CNT, 0, 1, 0, 1, 0, 0xFFFFFFFF, 0, 0, 0, 0, 0xFFFFFFFF⟩,
    ⟨Reg.HUB_REFRESH_DEBT, 0, 1, 0, 1, 0, 0, 0, 0, 0, 0, 0⟩,
    ⟨Reg.HUB_LAST_SLIP, 0, 1, 0, 1, 0, 0, 0, 0, 0, 0, 0⟩,
    ⟨Reg.HUB_LAST_STRETCH, 0, 1, 0, 1, 0, 0, 0, 0, 0, 0, 0⟩ ] ++
  [ ⟨Reg.HUB_MAX_STRETCH, 0, 1, 0, 1, 0, 0x1FFFFF, 0, 0, 0, 0, 0⟩,
    ⟨Reg.HUB_STRETCH_FRAMES, 0, 1, 0, 1, 0, 0xFFFFFFFF, 0, 0, 0, 0, 0xFFFFFFFF⟩,
    ⟨Reg.HUB_TICK_CFG, 0, 1, 0, 1, 0x4, 0xFFFF0007, 0, 0, 0, 0, 0⟩,
    ⟨Reg.HUB_TICK_DELAY, 0, 1, 0, 1, 0, 0xFFFFFF, 0, 0, 0, 0, 0⟩,
    ⟨Reg.HUB_TICK_ERR, 0, 1, 0, 1, 0, 0, 0, 0, 0, 0, 0⟩,
    ⟨Reg.HUB_TICK_BIG_CNT, 0, 1, 0, 1, 0, 0xFFFFFFFF, 0, 0, 0, 0, 0xFFFFFFFF⟩,
    ⟨Reg.HUB_TICK_MISS_CNT, 0, 1, 0, 1, 0, 0xFFFFFFFF, 0, 0, 0, 0, 0xFFFFFFFF⟩ ]

/-- Block-specific registers of the SEC page, from the register tables of its chapter. -/
def secRows : List RegRow :=
  [ ⟨Reg.SEC_STAT, 0, 1, 0, 1, 0, 0, 0, 0, 0, 0, 0⟩,
    ⟨Reg.SEC_BOOT_STAT, 0, 1, 0, 1, 0, 0, 0, 0, 0, 0, 0⟩,
    ⟨Reg.SEC_CMD, 0, 1, 0, 1, 0, 0xF1FFFFFF, 0, 0, 0, 0xF1FFFFFF, 0⟩,
    ⟨Reg.SEC_CMD_STAT, 0, 1, 0, 1, 0, 0, 0, 0, 0, 0, 0⟩,
    ⟨Reg.SEC_ARG_LO, 0, 1, 0, 1, 0, 0xFFFFFF00, 0, 0, 0, 0, 0⟩,
    ⟨Reg.SEC_ARG_HI, 0, 1, 0, 1, 0, 0xFFFF, 0, 0, 0, 0, 0⟩,
    ⟨Reg.SEC_CTR, 0, 1, 0, 1, 0, 0, 0, 0, 0, 0, 0⟩,
    ⟨Reg.SEC_DBG_STAT, 0, 1, 0, 1, 0, 0, 0, 0, 0, 0, 0⟩,
    ⟨Reg.SEC_BOOT_CNT, 0, 1, 0, 1, 0, 0, 0, 0, 0, 0, 0⟩,
    ⟨Reg.SEC_AUTH_FAIL_CNT, 0, 1, 0, 1, 0, 0xFFFFFFFF, 0, 0, 0, 0, 0xFFFFFFFF⟩,
    ⟨Reg.SEC_REPORT_CNT, 0, 1, 0, 1, 0, 0xFFFFFFFF, 0, 0, 0, 0, 0xFFFFFFFF⟩,
    ⟨Reg.SEC_SERIALn, 4, 4, 0, 1, 0, 0, 0, 0, 0, 0, 0⟩,
    ⟨Reg.SEC_NONCEn, 4, 8, 0, 1, 0, 0, 0, 0, 0, 0, 0⟩,
    ⟨Reg.SEC_KEYk, 4, 8, 0, 1, 0, 0, 0, 0, 0, 0, 0⟩,
    ⟨Reg.SEC_REC, 4, 64, 0, 1, 0, 0xFFFFFFFF, 0, 0, 0, 0xFFFFFFFF, 0⟩ ]

/-- Block-specific registers of the STB page, from the register tables of its chapter. -/
def stbRows : List RegRow :=
  [ ⟨Reg.STB_STAT, 0, 1, 0, 1, 0, 0, 0, 0, 0, 0, 0xFFFFFFFF⟩,
    ⟨Reg.STB_CTRL, 0, 1, 0, 1, 0, 0x1, 0, 0, 0x1, 0, 0xFFFFFFFF⟩,
    ⟨Reg.STB_ALERT_LO, 0, 1, 0, 1, 0, 0, 0xFFFFFFFF, 0, 0, 0, 0xFFFFFFFF⟩,
    ⟨Reg.STB_ALERT_HI, 0, 1, 0, 1, 0, 0, 0xFFFFFFFF, 0, 0, 0, 0xFFFFFFFF⟩,
    ⟨Reg.STB_CAP_OVR, 0, 1, 0, 1, 0, 0, 0, 0, 0, 0, 0xFFFFFFFF⟩,
    ⟨Reg.STB_PIN_AVG, 0, 1, 0, 1, 0, 0, 0, 0, 0, 0, 0xFFFFFFFF⟩,
    ⟨Reg.STB_LAST_TRIP, 0, 1, 0, 1, 0, 0, 0, 0, 0, 0, 0xFFFFFFFF⟩,
    ⟨Reg.STB_LINK_WAKE, 0, 1, 0, 1, 0, 0, 0, 0xFFFFFF, 0, 0, 0xFFFFFFFF⟩,
    ⟨Reg.STB_LWAKE_SRC, 0, 1, 0, 1, 0, 0, 0xFFFFFF, 0, 0, 0, 0xFFFFFFFF⟩ ]

/-- Block-specific registers of the CLK page, from the register tables of its chapter. -/
def clkRows : List RegRow :=
  [ ⟨Reg.CLK_STAT, 0, 1, 0, 1, 0, 0, 0x80000000, 0, 0, 0, 0⟩,
    ⟨Reg.CLK_CFG, 0, 1, 0, 1, 0, 0xF, 0, 0, 0, 0, 0⟩,
    ⟨Reg.CLK_REF_LOST_CNT, 0, 1, 0, 1, 0, 0xFFFFFFFF, 0, 0, 0, 0, 0xFFFFFFFF⟩,
    ⟨Reg.CLK_COAST_US, 0, 1, 0, 1, 0, 0xFFFFFFFF, 0, 0, 0, 0, 0xFFFFFFFF⟩,
    ⟨Reg.CLK_LOST_FRAME_LO, 0, 1, 0, 1, 0, 0, 0, 0, 0, 0, 0⟩,
    ⟨Reg.CLK_LOST_FRAME_HI, 0, 1, 0, 1, 0, 0, 0, 0, 0, 0, 0⟩,
    ⟨Reg.CLK_PLLn_STAT, 4, 27, 0, 1, 0, 0, 0, 0, 0, 0, 0⟩ ]

/-- Block-specific registers of the PWR page, from the register tables of its chapter. -/
def pwrRows : List RegRow :=
  [ ⟨Reg.PWR_STAT, 0, 1, 0, 1, 0, 0, 0, 0, 0, 0, 0⟩,
    ⟨Reg.PWR_PEND_ON_CNT, 0, 1, 0, 1, 0, 0xFFFFFFFF, 0, 0, 0, 0, 0xFFFFFFFF⟩,
    ⟨Reg.PWR_LOST_WAKE_CNT, 0, 1, 0, 1, 0, 0xFFFFFFFF, 0, 0, 0, 0, 0xFFFFFFFF⟩,
    ⟨Reg.PWR_RESTORE_ERR_CNT, 0, 1, 0, 1, 0, 0xFFFFFFFF, 0, 0, 0, 0, 0xFFFFFFFF⟩,
    ⟨Reg.PWR_RAIL_LAST, 0, 1, 0, 1, 0, 0, 0, 0, 0, 0, 0⟩,
    ⟨Reg.PWR_BIASk, 4, 10, 0, 1, 0, 0xFFFFFF00, 0, 0, 0xFFFFFF00, 0, 0⟩ ]

/-- Block-specific registers of the PCIE page, from the register tables of its chapter. -/
def pcieRows : List RegRow :=
  [ ⟨Reg.PCIE_LINK_STAT, 0, 1, 0, 1, 0, 0, 0, 0, 0, 0, 0⟩,
    ⟨Reg.PCIE_OWN, 0, 1, 0, 1, 0, 0, 0, 0, 0, 0, 0xFFFFFFFF⟩,
    ⟨Reg.PCIE_HO_CMD, 0, 1, 0, 1, 0, 0x1, 0, 0, 0, 0x1, 0⟩,
    ⟨Reg.PCIE_HO_STAT, 0, 1, 0, 1, 0, 0, 0, 0, 0, 0, 0⟩,
    ⟨Reg.PCIE_WIN_BASE_LO, 0, 1, 0, 1, 0, 0xC0000000, 0, 0, 0, 0, 0⟩,
    ⟨Reg.PCIE_WIN_BASE_HI, 0, 1, 0, 1, 0, 0xFFFF, 0, 0, 0, 0, 0⟩,
    ⟨Reg.PCIE_OB_BASE_LO, 0, 1, 0, 1, 0, 0xFFFFF000, 0, 0, 0, 0, 0⟩,
    ⟨Reg.PCIE_OB_BASE_HI, 0, 1, 0, 1, 0, 0xFFFFFFFF, 0, 0, 0, 0, 0⟩,
    ⟨Reg.PCIE_DUP_CNT, 0, 1, 0, 1, 0, 0xFFFFFFFF, 0, 0, 0, 0, 0xFFFFFFFF⟩,
    ⟨Reg.PCIE_CPL_DROP_CNT, 0, 1, 0, 1, 0, 0xFFFFFFFF, 0, 0, 0, 0, 0xFFFFFFFF⟩,
    ⟨Reg.PCIE_STANDBY_REJ_CNT, 0, 1, 0, 1, 0, 0xFFFFFFFF, 0, 0, 0, 0, 0xFFFFFFFF⟩,
    ⟨Reg.PCIE_SQq_BASE_LO, 64, 16, 0, 1, 0, 0xFFFFF000, 0, 0, 0, 0, 0⟩,
    ⟨Reg.PCIE_SQq_BASE_HI, 64, 16, 0, 1, 0, 0xFFFFFFFF, 0, 0, 0, 0, 0⟩,
    ⟨Reg.PCIE_SQq_CFG, 64, 16, 0, 1, 0x6, 0x8000001F, 0, 0, 0, 0, 0⟩,
    ⟨Reg.PCIE_SQq_TAIL, 64, 16, 0, 1, 0, 0xFFFF, 0, 0, 0, 0, 0⟩,
    ⟨Reg.PCIE_SQq_HEAD, 64, 16, 0, 1, 0, 0, 0, 0, 0, 0, 0⟩,
    ⟨Reg.PCIE_CQq_BASE_LO, 64, 16, 0, 1, 0, 0xFFFFF000, 0, 0, 0, 0, 0⟩,
    ⟨Reg.PCIE_CQq_BASE_HI, 64, 16, 0, 1, 0, 0xFFFFFFFF, 0, 0, 0, 0, 0⟩,
    ⟨Reg.PCIE_CQq_CFG, 64, 16, 0, 1, 0x6, 0xC000001F, 0, 0, 0, 0, 0⟩,
    ⟨Reg.PCIE_CQq_HEAD, 64, 16, 0, 1, 0, 0xFFFF, 0, 0, 0, 0, 0⟩,
    ⟨Reg.PCIE_CQq_TAIL, 64, 16, 0, 1, 0, 0, 0, 0, 0, 0, 0⟩,
    ⟨Reg.PCIE_HO_NONCEn, 4, 8, 0, 1, 0, 0, 0, 0, 0, 0, 0⟩,
    ⟨Reg.PCIE_HO_REC, 4, 48, 0, 1, 0, 0xFFFFFFFF, 0, 0, 0, 0xFFFFFFFF, 0⟩ ]

/-- Block-specific registers of the FAB page, from the register tables of its chapter. -/
def fabRows : List RegRow :=
  [ ⟨Reg.FAB_CFG, 0, 1, 0, 1, 0x4000, 0xBC00FF00, 0, 0x40000000, 0, 0, 0⟩,
    ⟨Reg.FAB_STAT, 0, 1, 0, 1, 0, 0, 0, 0, 0, 0, 0⟩,
    ⟨Reg.FAB_WL, 0, 1, 0, 1, 0x1000000, 0, 0, 0, 0, 0, 0⟩,
    ⟨Reg.FAB_NBR, 0, 1, 0, 1, 0, 0, 0, 0, 0, 0, 0⟩,
    ⟨Reg.FAB_CREDv, 4, 4, 0, 1, 0, 0x1FFF1FFF, 0, 0, 0, 0, 0⟩,
    ⟨Reg.FAB_LINK_RTT, 0, 1, 0, 1, 0, 0, 0, 0, 0, 0, 0⟩,
    ⟨Reg.FAB_FEC_CSYM_LO, 0, 1, 0, 1, 0, 0, 0, 0, 0, 0, 0⟩,
    ⟨Reg.FAB_FEC_CSYM_HI, 0, 1, 0, 1, 0, 0, 0, 0, 0, 0, 0⟩,
    ⟨Reg.FAB_FEC_UBLK_CNT, 0, 1, 0, 1, 0, 0xFFFFFFFF, 0, 0, 0, 0, 0xFFFFFFFF⟩,
    ⟨Reg.FAB_TX_CELL_LO, 0, 1, 0, 1, 0, 0, 0, 0, 0, 0, 0⟩,
    ⟨Reg.FAB_TX_CELL_HI, 0, 1, 0, 1, 0, 0, 0, 0, 0, 0, 0⟩,
    ⟨Reg.FAB_RX_CELL_LO, 0, 1, 0, 1, 0, 0, 0, 0, 0, 0, 0⟩,
    ⟨Reg.FAB_RX_CELL_HI, 0, 1, 0, 1, 0, 0, 0, 0, 0, 0, 0⟩,
    ⟨Reg.FAB_AGE_DROP_CNT, 0, 1, 0, 1, 0, 0xFFFFFFFF, 0, 0, 0, 0, 0xFFFFFFFF⟩,
    ⟨Reg.FAB_DOWN_DROP_CNT, 0, 1, 0, 1, 0, 0xFFFFFFFF, 0, 0, 0, 0, 0xFFFFFFFF⟩,
    ⟨Reg.FAB_WL_FAIL_CNT, 0, 1, 0, 1, 0, 0xFFFFFFFF, 0, 0, 0, 0, 0xFFFFFFFF⟩,
    ⟨Reg.FAB_WL_CSYMW, 4, 9, 0, 1, 0, 0xFFFFFFFF, 0, 0, 0, 0, 0xFFFFFFFF⟩,
    ⟨Reg.FAB_SB_TEMP, 0, 1, 0, 1, 0, 0, 0, 0, 0, 0, 0⟩,
    ⟨Reg.FAB_SB_RXPWRW, 4, 9, 0, 1, 0, 0, 0, 0, 0, 0, 0⟩ ]

/-- Block-specific registers of the RTE page, from the register tables of its chapter. -/
def rteRows : List RegRow :=
  [ ⟨Reg.RTE_CFG, 0, 1, 0, 1, 0x20, 0xFFFF803F, 0, 0, 0, 0, 0⟩,
    ⟨Reg.RTE_HOLD, 0, 1, 0, 1, 0x400, 0xFFFF, 0, 0, 0, 0, 0⟩,
    ⟨Reg.RTE_STALL, 0, 1, 0, 1, 0x14, 0x1F, 0, 0, 0, 0, 0⟩,
    ⟨Reg.RTE_RTO_MIN, 0, 1, 0, 1, 0x800, 0xFFFFFF, 0, 0, 0, 0, 0⟩,
    ⟨Reg.RTE_RTO_MAX, 0, 1, 0, 1, 0x40000, 0xFFFFFF, 0, 0, 0, 0, 0⟩,
    ⟨Reg.RTE_RTO_INIT, 0, 1, 0, 1, 0x4000, 0xFFFFFF, 0, 0, 0, 0, 0⟩,
    ⟨Reg.RTE_RETRY, 0, 1, 0, 1, 0x4008, 0xFF0F, 0, 0, 0, 0, 0⟩,
    ⟨Reg.RTE_TICK, 0, 1, 0, 1, 0, 0xFFF, 0, 0, 0, 0, 0⟩,
    ⟨Reg.RTE_ECHO_CMD, 0, 1, 0, 1, 0, 0xFFFFFFFF, 0, 0, 0, 0xFFFFFFFF, 0⟩,
    ⟨Reg.RTE_ECHO_RES, 0, 1, 0, 1, 0, 0, 0, 0, 0, 0, 0⟩,
    ⟨Reg.RTE_POOL, 0, 1, 0, 1, 0x80000, 0, 0, 0, 0, 0, 0⟩,
    ⟨Reg.RTE_NOROUTE_CNT, 0, 1, 0, 1, 0, 0xFFFFFFFF, 0, 0, 0, 0, 0xFFFFFFFF⟩,
    ⟨Reg.RTE_HOPS_DROP_CNT, 0, 1, 0, 1, 0, 0xFFFFFFFF, 0, 0, 0, 0, 0xFFFFFFFF⟩,
    ⟨Reg.RTE_CRC_DROP_CNT, 0, 1, 0, 1, 0, 0xFFFFFFFF, 0, 0, 0, 0, 0xFFFFFFFF⟩,
    ⟨Reg.RTE_BAD_TYPE_CNT, 0, 1, 0, 1, 0, 0xFFFFFFFF, 0, 0, 0, 0, 0xFFFFFFFF⟩,
    ⟨Reg.RTE_UNBOUND_DROP_CNT, 0, 1, 0, 1, 0, 0xFFFFFFFF, 0, 0, 0, 0, 0xFFFFFFFF⟩,
    ⟨Reg.RTE_DUP_CNT, 0, 1, 0, 1, 0, 0xFFFFFFFF, 0, 0, 0, 0, 0xFFFFFFFF⟩,
    ⟨Reg.RTE_WIN_DROP_CNT, 0, 1, 0, 1, 0, 0xFFFFFFFF, 0, 0, 0, 0, 0xFFFFFFFF⟩,
    ⟨Reg.RTE_RESEND_CNT, 0, 1, 0, 1, 0, 0xFFFFFFFF, 0, 0, 0, 0, 0xFFFFFFFF⟩,
    ⟨Reg.RTE_ABANDON_CNT, 0, 1, 0, 1, 0, 0xFFFFFFFF, 0, 0, 0, 0, 0xFFFFFFFF⟩,
    ⟨Reg.RTE_MGMT_DROP_CNT, 0, 1, 0, 1, 0, 0xFFFFFFFF, 0, 0, 0, 0, 0xFFFFFFFF⟩,
    ⟨Reg.RTE_MGMT_TX, 4, 16, 0, 1, 0, 0xFFFFFFFF, 0, 0, 0, 0xFFFFFFFF, 0⟩,
    ⟨Reg.RTE_MGMT_CMD, 0, 1, 0, 1, 0, 0xFFFFFFFF, 0, 0, 0, 0xFFFFFFFF, 0⟩,
    ⟨Reg.RTE_MGMT_STAT, 0, 1, 0, 1, 0, 0, 0, 0, 0, 0, 0⟩ ] ++
  [ ⟨Reg.RTE_MGMT_POP, 0, 1, 0, 1, 0, 0xFFFFFFFF, 0, 0, 0, 0xFFFFFFFF, 0⟩,
    ⟨0x400, 128, 8, 0, 1, 0, 0, 0, 0, 0, 0, 0⟩,
    ⟨0x404, 128, 8, 0, 1, 0, 0, 0, 0, 0, 0, 0⟩,
    ⟨0x408, 128, 8, 0, 1, 0, 0, 0, 0, 0, 0, 0⟩,
    ⟨0x40c, 128, 8, 0, 1, 0, 0, 0, 0, 0, 0, 0⟩,
    ⟨0x410, 128, 8, 0, 1, 0, 0, 0, 0, 0, 0, 0⟩,
    ⟨0x414, 128, 8, 0, 1, 0, 0, 0, 0, 0, 0, 0⟩,
    ⟨0x418, 128, 8, 0, 1, 0, 0, 0, 0, 0, 0, 0⟩,
    ⟨0x41c, 128, 8, 0, 1, 0, 0, 0, 0, 0, 0, 0⟩,
    ⟨0x420, 128, 8, 0, 1, 0, 0, 0, 0, 0, 0, 0⟩,
    ⟨0x424, 128, 8, 0, 1, 0, 0, 0, 0, 0, 0, 0⟩,
    ⟨0x428, 128, 8, 0, 1, 0, 0, 0, 0, 0, 0, 0⟩,
    ⟨0x42c, 128, 8, 0, 1, 0, 0, 0, 0, 0, 0, 0⟩,
    ⟨0x430, 128, 8, 0, 1, 0, 0, 0, 0, 0, 0, 0⟩,
    ⟨0x434, 128, 8, 0, 1, 0, 0, 0, 0, 0, 0, 0⟩,
    ⟨0x438, 128, 8, 0, 1, 0, 0, 0, 0, 0, 0, 0⟩,
    ⟨0x43c, 128, 8, 0, 1, 0, 0, 0, 0, 0, 0, 0⟩,
    ⟨0x440, 128, 8, 0, 1, 0, 0, 0, 0, 0, 0, 0⟩ ]

/-- Block-specific registers of the COLL page, from the register tables of its chapter. -/
def collRows : List RegRow :=
  [ ⟨Reg.COLL_CFG, 0, 1, 0, 1, 0x16, 0x1F, 0, 0, 0, 0, 0⟩,
    ⟨Reg.COLL_EPOCH, 0, 1, 0, 1, 0, 0, 0, 0, 0, 0, 0⟩,
    ⟨Reg.COLL_SLOTS, 0, 1, 0, 1, 0x2000, 0, 0, 0, 0, 0, 0⟩,
    ⟨Reg.COLL_ACTIVE, 0, 1, 0, 1, 0, 0, 0, 0, 0, 0, 0⟩,
    ⟨Reg.COLL_INST_CNT_LO, 0, 1, 0, 1, 0, 0, 0, 0, 0, 0, 0⟩,
    ⟨Reg.COLL_INST_CNT_HI, 0, 1, 0, 1, 0, 0, 0, 0, 0, 0, 0⟩,
    ⟨Reg.COLL_ABORT_CNT, 0, 1, 0, 1, 0, 0xFFFFFFFF, 0, 0, 0, 0, 0xFFFFFFFF⟩,
    ⟨Reg.COLL_FP_MISMATCH_CNT, 0, 1, 0, 1, 0, 0xFFFFFFFF, 0, 0, 0, 0, 0xFFFFFFFF⟩,
    ⟨Reg.COLL_DUP_CELL_CNT, 0, 1, 0, 1, 0, 0xFFFFFFFF, 0, 0, 0, 0, 0xFFFFFFFF⟩,
    ⟨Reg.COLL_RESEND_CNT, 0, 1, 0, 1, 0, 0xFFFFFFFF, 0, 0, 0, 0, 0xFFFFFFFF⟩,
    ⟨Reg.COLL_STALE_EPOCH_CNT, 0, 1, 0, 1, 0, 0xFFFFFFFF, 0, 0, 0, 0, 0xFFFFFFFF⟩,
    ⟨Reg.COLL_EARLY_CNT, 0, 1, 0, 1, 0, 0xFFFFFFFF, 0, 0, 0, 0, 0xFFFFFFFF⟩,
    ⟨Reg.COLL_BAD_CELL_CNT, 0, 1, 0, 1, 0, 0xFFFFFFFF, 0, 0, 0, 0, 0xFFFFFFFF⟩,
    ⟨Reg.COLL_SLOT_WAIT_CNT, 0, 1, 0, 1, 0, 0xFFFFFFFF, 0, 0, 0, 0, 0xFFFFFFFF⟩,
    ⟨Reg.COLL_FLAG_CNT, 0, 1, 0, 1, 0, 0xFFFFFFFF, 0, 0, 0, 0, 0xFFFFFFFF⟩,
    ⟨Reg.COLL_ABT_INFO, 0, 1, 0, 1, 0, 0, 0, 0, 0, 0, 0⟩,
    ⟨Reg.COLL_ABT_NODE, 0, 1, 0, 1, 0, 0, 0, 0, 0, 0, 0⟩,
    ⟨Reg.COLL_ABT_CSEQ, 0, 1, 0, 1, 0, 0, 0, 0, 0, 0, 0⟩,
    ⟨Reg.COLL_ABT_STAT, 0, 1, 0, 1, 0, 0, 0, 0, 0, 0, 0⟩,
    ⟨Reg.COLL_ABT_FPn, 4, 8, 0, 1, 0, 0, 0, 0, 0, 0, 0⟩ ]

/-- Block-specific registers of the GRN page, from the register tables of its chapter. -/
def grnRows : List RegRow :=
  [ ⟨Reg.GRN_CFG, 0, 1, 0, 1, 0x2801, 0xFF01, 0, 0, 0, 0, 0⟩,
    ⟨Reg.GRN_STAT, 0, 1, 0, 1, 0, 0, 0, 0, 0, 0, 0x800000⟩,
    ⟨Reg.GRN_CMD, 0, 1, 0, 1, 0, 0xF0000000, 0, 0, 0, 0xF0000000, 0⟩,
    ⟨Reg.GRN_CMD_STAT, 0, 1, 0, 1, 0, 0, 0, 0, 0, 0, 0⟩,
    ⟨Reg.GRN_CMD_GEN_LO, 0, 1, 0, 1, 0, 0xFFFFFFFF, 0, 0, 0, 0, 0⟩,
    ⟨Reg.GRN_CMD_GEN_HI, 0, 1, 0, 1, 0, 0xFFFFFFFF, 0, 0, 0, 0, 0⟩,
    ⟨Reg.GRN_WRITTEN_LO, 0, 1, 0, 1, 0, 0, 0, 0, 0, 0, 0⟩,
    ⟨Reg.GRN_WRITTEN_HI, 0, 1, 0, 1, 0, 0, 0, 0, 0, 0, 0⟩,
    ⟨Reg.GRN_BUDGET_LEFT, 0, 1, 0, 1, 0, 0, 0, 0, 0, 0, 0⟩,
    ⟨Reg.GRN_FREE_GIB, 0, 1, 0, 1, 0, 0, 0, 0, 0, 0, 0⟩,
    ⟨Reg.GRN_PROGRESS_LO, 0, 1, 0, 1, 0, 0, 0, 0, 0, 0, 0⟩,
    ⟨Reg.GRN_PROGRESS_HI, 0, 1, 0, 1, 0, 0, 0, 0, 0, 0, 0⟩,
    ⟨Reg.GRN_BAD_CNT, 0, 1, 0, 1, 0, 0, 0, 0, 0, 0, 0⟩,
    ⟨Reg.GRN_RELOC_CNT, 0, 1, 0, 1, 0, 0xFFFFFFFF, 0, 0, 0, 0, 0xFFFFFFFF⟩,
    ⟨Reg.GRN_REBUILD_CNT, 0, 1, 0, 1, 0, 0xFFFFFFFF, 0, 0, 0, 0, 0xFFFFFFFF⟩,
    ⟨Reg.GRN_SCRUB_PASS_CNT, 0, 1, 0, 1, 0, 0xFFFFFFFF, 0, 0, 0, 0, 0xFFFFFFFF⟩,
    ⟨Reg.GRN_MAP_BAD_CNT, 0, 1, 0, 1, 0, 0xFFFFFFFF, 0, 0, 0, 0, 0xFFFFFFFF⟩,
    ⟨Reg.GRN_FLn_STAT, 16, 8, 0, 1, 0, 0, 0, 0, 0, 0, 0⟩,
    ⟨Reg.GRN_FLn_SPARE, 16, 8, 0, 1, 0, 0, 0, 0, 0, 0, 0⟩,
    ⟨Reg.GRN_FLn_BAD, 16, 8, 0, 1, 0, 0, 0, 0, 0, 0, 0⟩,
    ⟨Reg.GRN_FLn_ERASE, 16, 8, 0, 1, 0, 0, 0, 0, 0, 0, 0⟩ ]

/-- Block-specific registers of the D2D page, from the register tables of its chapter. -/
def d2dRows : List RegRow :=
  [ ⟨Reg.D2D_CFG, 0, 1, 0, 1, 0x10001014, 0xFFF0FF1F, 0, 0, 0, 0, 0⟩,
    ⟨Reg.D2D_CE_CNT, 0, 1, 0, 1, 0, 0xFFFFFFFF, 0, 0, 0, 0, 0xFFFFFFFF⟩,
    ⟨Reg.D2D_UE_CNT, 0, 1, 0, 1, 0, 0xFFFFFFFF, 0, 0, 0, 0, 0xFFFFFFFF⟩,
    ⟨Reg.D2D_LANE_FAIL_CNT, 0, 1, 0, 1, 0, 0xFFFFFFFF, 0, 0, 0, 0, 0xFFFFFFFF⟩,
    ⟨Reg.D2D_LAST_LANE, 0, 1, 0, 1, 0, 0, 0, 0, 0, 0, 0xFFFFFFFF⟩,
    ⟨Reg.D2D_FALL_FRAME_LO, 0, 1, 0, 1, 0, 0xFFFFFFFF, 0, 0, 0, 0, 0xFFFFFFFF⟩,
    ⟨Reg.D2D_FALL_FRAME_HI, 0, 1, 0, 1, 0, 0xFFFFFFFF, 0, 0, 0, 0, 0xFFFFFFFF⟩,
    ⟨Reg.D2D_FREEZE_CNT, 0, 1, 0, 1, 0, 0xFFFFFFFF, 0, 0, 0, 0, 0xFFFFFFFF⟩,
    ⟨Reg.D2D_UNSCHED_CNT_LO, 0, 1, 0, 1, 0, 0, 0, 0, 0, 0, 0⟩,
    ⟨Reg.D2D_UNSCHED_CNT_HI, 0, 1, 0, 1, 0, 0, 0, 0, 0, 0, 0⟩,
    ⟨Reg.D2D_UP_FAILw, 4, 51, 0, 1, 0, 0, 0, 0, 0, 0, 0⟩,
    ⟨Reg.D2D_DN_FAILw, 4, 51, 0, 1, 0, 0, 0, 0, 0, 0, 0⟩ ]

/-- Block-specific registers of the TRADE page, from the register tables of its chapter. -/
def tradeRows : List RegRow :=
  [ ⟨Reg.TRADE_MODE, 0, 1, 0, 1, 0, 0x1F, 0, 0, 0, 0, 0⟩,
    ⟨Reg.TRADE_STAT, 0, 1, 0, 1, 0, 0, 0x1, 0, 0, 0, 0⟩,
    ⟨Reg.TRADE_STOP_CODE, 0, 1, 0, 1, 0, 0, 0, 0, 0, 0, 0⟩,
    ⟨Reg.TRADE_STOP_FRAME_LO, 0, 1, 0, 1, 0, 0, 0, 0, 0, 0, 0⟩,
    ⟨Reg.TRADE_STOP_FRAME_HI, 0, 1, 0, 1, 0, 0, 0, 0, 0, 0, 0⟩,
    ⟨Reg.TRADE_PWR_CAP, 0, 1, 0, 1, 0xF3C, 0x1FFF, 0, 0, 0, 0, 0⟩,
    ⟨Reg.TRADE_VC_WT, 0, 1, 0, 1, 0x4100801, 0xFFFFFFFF, 0, 0, 0, 0, 0⟩,
    ⟨Reg.TRADE_CKPT_CFG, 0, 1, 0, 1, 0, 0xFFFFFFFF, 0, 0, 0, 0, 0⟩,
    ⟨Reg.TRADE_CKPT_GUIDE, 0, 1, 0, 1, 0, 0, 0, 0, 0, 0, 0⟩,
    ⟨Reg.TRADE_TEST, 0, 1, 0, 1, 0x1040040, 0x10FFFFF, 0, 0x80000000, 0, 0, 0⟩,
    ⟨Reg.TRADE_SPK, 0, 1, 0, 1, 0x24, 0x1FF, 0, 0, 0, 0, 0⟩,
    ⟨Reg.TRADE_SPK_SEED, 0, 1, 0, 1, 0x1, 0xFFFFFFFF, 0, 0, 0, 0, 0⟩,
    ⟨Reg.TRADE_TEST_FRAME_CNT, 0, 1, 0, 1, 0, 0xFFFFFFFF, 0, 0, 0, 0, 0xFFFFFFFF⟩,
    ⟨Reg.TRADE_TEST_SKIP_CNT, 0, 1, 0, 1, 0, 0xFFFFFFFF, 0, 0, 0, 0, 0xFFFFFFFF⟩,
    ⟨Reg.TRADE_GUARD_LAST, 0, 1, 0, 1, 0, 0, 0, 0, 0, 0, 0⟩,
    ⟨Reg.TRADE_SEED_ADDR_LO, 0, 1, 0, 1, 0, 0xFFFFFFC0, 0, 0, 0, 0, 0⟩,
    ⟨Reg.TRADE_SEED_ADDR_HI, 0, 1, 0, 1, 0, 0xFFFF, 0, 0, 0, 0, 0⟩,
    ⟨Reg.TRADE_SEED_CMD, 0, 1, 0, 1, 0, 0xF01FFFFF, 0, 0, 0, 0xF01FFFFF, 0⟩,
    ⟨Reg.TRADE_SEED_STAT, 0, 1, 0, 1, 0, 0, 0, 0, 0, 0, 0⟩,
    ⟨Reg.TRADE_SEED_ID, 0, 1, 0, 1, 0, 0, 0, 0, 0, 0, 0⟩,
    ⟨Reg.TRADE_SPARE_TLR, 0, 1, 0, 1, 0, 0, 0, 0, 0, 0, 0⟩ ]

/-- Block-specific registers of the IDLE page, from the register tables of its chapter. -/
def idleRows : List RegRow :=
  [ ⟨Reg.IDLE_CTRL, 0, 1, 0, 1, 0, 0, 0, 0x1, 0, 0, 0⟩,
    ⟨Reg.IDLE_SWITCH_CNT, 0, 1, 0, 1, 0, 0xFFFFFFFF, 0, 0, 0, 0, 0xFFFFFFFF⟩,
    ⟨Reg.IDLE_MB_REFUSE_CNT, 0, 1, 0, 1, 0, 0xFFFFFFFF, 0, 0, 0, 0, 0xFFFFFFFF⟩,
    ⟨Reg.IDLE_LAST_MB, 0, 1, 0, 1, 0, 0, 0, 0, 0, 0, 0xFFFFFFFF⟩,
    ⟨Reg.IDLE_LAST_BOUND, 0, 1, 0, 1, 0, 0, 0, 0, 0, 0, 0xFFFFFFFF⟩,
    ⟨Reg.IDLE_Dd_CNTc_LO, 128, 4, 8, 8, 0, 0, 0, 0, 0, 0, 0xFFFFFFFF⟩,
    ⟨Reg.IDLE_Dd_CNTc_HI, 128, 4, 8, 8, 0, 0, 0, 0, 0, 0, 0xFFFFFFFF⟩,
    ⟨Reg.IDLE_Dd_RUN_LO, 128, 4, 0, 1, 0, 0, 0, 0, 0, 0, 0xFFFFFFFF⟩,
    ⟨Reg.IDLE_Dd_RUN_HI, 128, 4, 0, 1, 0, 0, 0, 0, 0, 0, 0xFFFFFFFF⟩,
    ⟨Reg.IDLE_HWs_CFG, 16, 12, 0, 1, 0, 0xC000FFFF, 0, 0, 0, 0, 0⟩,
    ⟨Reg.IDLE_HWs_SIZE, 16, 12, 0, 1, 0, 0xFFFF, 0, 0, 0, 0, 0⟩,
    ⟨Reg.IDLE_HWs_MARK, 16, 12, 0, 1, 0, 0x1FFFFFF, 0, 0, 0, 0, 0⟩,
    ⟨Reg.IDLE_HWs_FRAME, 16, 12, 0, 1, 0, 0, 0, 0, 0, 0, 0⟩ ]

/-- Block-specific registers of the RCH page, from the register tables of its chapter. -/
def rchRows : List RegRow :=
  [ ⟨Reg.RCH_STAT, 0, 1, 0, 1, 0, 0, 0, 0, 0, 0, 0⟩,
    ⟨Reg.RCH_FETCH_LATE_CNT, 0, 1, 0, 1, 0, 0xFFFFFFFF, 0, 0, 0, 0, 0xFFFFFFFF⟩,
    ⟨Reg.RCH_OP_CNT_LO, 0, 1, 0, 1, 0, 0, 0, 0, 0, 0, 0⟩,
    ⟨Reg.RCH_OP_CNT_HI, 0, 1, 0, 1, 0, 0, 0, 0, 0, 0, 0⟩,
    ⟨Reg.RCH_ABORT_CNT, 0, 1, 0, 1, 0, 0xFFFFFFFF, 0, 0, 0, 0, 0xFFFFFFFF⟩,
    ⟨Reg.RCH_SRn_LO, 8, 256, 0, 1, 0, 0, 0, 0, 0, 0, 0⟩,
    ⟨Reg.RCH_SRn_HI, 8, 256, 0, 1, 0, 0, 0, 0, 0, 0, 0⟩ ]

/-- Block-specific registers of the TLR page, from the register tables of its chapter. -/
def tlrRows : List RegRow :=
  [ ⟨Reg.TLR_MAP, 0, 1, 0, 1, 0, 0, 0, 0x20000000, 0, 0, 0⟩,
    ⟨Reg.TLR_STAT, 0, 1, 0, 1, 0, 0, 0, 0, 0, 0, 0⟩,
    ⟨Reg.TLR_PASS_CNT_LO, 0, 1, 0, 1, 0, 0, 0, 0, 0, 0, 0⟩,
    ⟨Reg.TLR_PASS_CNT_HI, 0, 1, 0, 1, 0, 0, 0, 0, 0, 0, 0⟩,
    ⟨Reg.TLR_REPLAY_CNT, 0, 1, 0, 1, 0, 0xFFFFFFFF, 0, 0, 0, 0, 0xFFFFFFFF⟩,
    ⟨Reg.TLR_SQUASH_CNT, 0, 1, 0, 1, 0, 0xFFFFFFFF, 0, 0, 0, 0, 0xFFFFFFFF⟩,
    ⟨Reg.TLR_SATLIM_CNT, 0, 1, 0, 1, 0, 0xFFFFFFFF, 0, 0, 0, 0, 0xFFFFFFFF⟩,
    ⟨Reg.TLR_LAST_SAT, 0, 1, 0, 1, 0, 0, 0, 0, 0, 0, 0⟩,
    ⟨Reg.TLR_LAST_SAT_STAMP, 0, 1, 0, 1, 0, 0, 0, 0, 0, 0, 0⟩,
    ⟨Reg.TLR_TDESCg, 4, 256, 0, 1, 0, 0, 0, 0, 0, 0, 0⟩ ]

/-- Block-specific registers of the AWN page, from the register tables of its chapter. -/
def awnRows : List RegRow :=
  [ ⟨Reg.AWN_STAT, 0, 1, 0, 1, 0, 0, 0, 0, 0, 0, 0⟩,
    ⟨Reg.AWN_CHAIN_CNT_LO, 0, 1, 0, 1, 0, 0, 0, 0, 0, 0, 0xFFFFFFFF⟩,
    ⟨Reg.AWN_CHAIN_CNT_HI, 0, 1, 0, 1, 0, 0, 0, 0, 0, 0, 0xFFFFFFFF⟩,
    ⟨Reg.AWN_ELEM_CNT_LO, 0, 1, 0, 1, 0, 0, 0, 0, 0, 0, 0xFFFFFFFF⟩,
    ⟨Reg.AWN_ELEM_CNT_HI, 0, 1, 0, 1, 0, 0, 0, 0, 0, 0, 0xFFFFFFFF⟩,
    ⟨Reg.AWN_DRAW_CNT_LO, 0, 1, 0, 1, 0, 0, 0, 0, 0, 0, 0xFFFFFFFF⟩,
    ⟨Reg.AWN_DRAW_CNT_HI, 0, 1, 0, 1, 0, 0, 0, 0, 0, 0, 0xFFFFFFFF⟩,
    ⟨Reg.AWN_STREAM_REC_CNT, 0, 1, 0, 1, 0, 0xFFFFFFFF, 0, 0, 0, 0, 0xFFFFFFFF⟩,
    ⟨Reg.AWN_STREAM_ERR_CNT, 0, 1, 0, 1, 0, 0xFFFFFFFF, 0, 0, 0, 0, 0xFFFFFFFF⟩,
    ⟨Reg.AWN_SEED_CNT, 0, 1, 0, 1, 0, 0xFFFFFFFF, 0, 0, 0, 0, 0xFFFFFFFF⟩ ]

/-- Block-specific registers of the MEMC page, from the register tables of its chapter. -/
def memcRows : List RegRow :=
  [ ⟨Reg.MEMC_CFG, 0, 1, 0, 1, 0x40044081, 0xFFFFFFF1, 0, 0, 0, 0, 0⟩,
    ⟨Reg.MEMC_STAT, 0, 1, 0, 1, 0, 0, 0, 0, 0, 0, 0⟩,
    ⟨Reg.MEMC_TEMP, 0, 1, 0, 1, 0, 0, 0, 0, 0, 0, 0xFFFF0000⟩,
    ⟨Reg.MEMC_CE_CNT, 0, 1, 0, 1, 0, 0xFFFFFFFF, 0, 0, 0, 0, 0xFFFFFFFF⟩,
    ⟨Reg.MEMC_LINK_CE_CNT, 0, 1, 0, 1, 0, 0xFFFFFFFF, 0, 0, 0, 0, 0xFFFFFFFF⟩,
    ⟨Reg.MEMC_UE_CNT, 0, 1, 0, 1, 0, 0xFFFFFFFF, 0, 0, 0, 0, 0xFFFFFFFF⟩,
    ⟨Reg.MEMC_REMAP_STAT, 0, 1, 0, 1, 0, 0, 0, 0, 0, 0, 0⟩,
    ⟨Reg.MEMC_REMAP_CNT, 0, 1, 0, 1, 0, 0xFFFFFFFF, 0, 0, 0, 0, 0xFFFFFFFF⟩,
    ⟨Reg.MEMC_SPARE_ROWS, 0, 1, 0, 1, 0, 0, 0, 0, 0, 0, 0⟩,
    ⟨Reg.MEMC_SPARE_STAT, 0, 1, 0, 1, 0, 0, 0, 0, 0, 0, 0⟩,
    ⟨Reg.MEMC_VC_SUSPECT, 0, 1, 0, 1, 0, 0, 0, 0, 0, 0, 0⟩,
    ⟨Reg.MEMC_CLASSc_CNT, 4, 4, 0, 1, 0, 0xFFFFFFFF, 0, 0, 0, 0, 0xFFFFFFFF⟩,
    ⟨Reg.MEMC_AGED_CNT, 0, 1, 0, 1, 0, 0xFFFFFFFF, 0, 0, 0, 0, 0xFFFFFFFF⟩,
    ⟨Reg.MEMC_WATCHw_ADDR, 8, 64, 0, 1, 0, 0, 0, 0, 0, 0, 0⟩,
    ⟨Reg.MEMC_WATCHw_CNT, 8, 64, 0, 1, 0, 0, 0, 0, 0, 0, 0⟩ ]

/-- Block-specific registers of the CULM page, from the register tables of its chapter. -/
def culmRows : List RegRow :=
  [ ⟨Reg.CULM_STAT, 0, 1, 0, 1, 0, 0, 0, 0, 0, 0, 0⟩,
    ⟨Reg.CULM_OP_CNT_LO, 0, 1, 0, 1, 0, 0, 0, 0, 0, 0, 0xFFFFFFFF⟩,
    ⟨Reg.CULM_OP_CNT_HI, 0, 1, 0, 1, 0, 0, 0, 0, 0, 0, 0xFFFFFFFF⟩,
    ⟨Reg.CULM_ELEM_CNT_LO, 0, 1, 0, 1, 0, 0, 0, 0, 0, 0, 0xFFFFFFFF⟩,
    ⟨Reg.CULM_ELEM_CNT_HI, 0, 1, 0, 1, 0, 0, 0, 0, 0, 0, 0xFFFFFFFF⟩,
    ⟨Reg.CULM_DRAW_CNT_LO, 0, 1, 0, 1, 0, 0, 0, 0, 0, 0, 0xFFFFFFFF⟩,
    ⟨Reg.CULM_DRAW_CNT_HI, 0, 1, 0, 1, 0, 0, 0, 0, 0, 0, 0xFFFFFFFF⟩,
    ⟨Reg.CULM_OPT_CNT, 0, 1, 0, 1, 0, 0xFFFFFFFF, 0, 0, 0, 0, 0xFFFFFFFF⟩,
    ⟨Reg.CULM_CAL_CNT, 0, 1, 0, 1, 0, 0xFFFFFFFF, 0, 0, 0, 0, 0xFFFFFFFF⟩,
    ⟨Reg.CULM_SEED_CNT, 0, 1, 0, 1, 0, 0xFFFFFFFF, 0, 0, 0, 0, 0xFFFFFFFF⟩,
    ⟨Reg.CULM_RING_CTRL, 0, 1, 0, 1, 0, 0x1, 0, 0, 0, 0, 0⟩,
    ⟨Reg.CULM_RING_HDR_LO, 0, 1, 0, 1, 0, 0xFFFFFFC0, 0, 0, 0, 0, 0⟩,
    ⟨Reg.CULM_RING_HDR_HI, 0, 1, 0, 1, 0, 0xFFFF, 0, 0, 0, 0, 0⟩,
    ⟨Reg.CULM_RING_DROP_CNT, 0, 1, 0, 1, 0, 0xFFFFFFFF, 0, 0, 0, 0, 0xFFFFFFFF⟩ ]

/-- Block-specific registers of the DRAS page, from the register tables of its chapter. -/
def drasRows : List RegRow :=
  [ ⟨Reg.DRAS_CTRL, 0, 1, 0, 1, 0, 0x7, 0, 0, 0x7, 0, 0⟩,
    ⟨Reg.DRAS_CMD, 0, 1, 0, 1, 0, 0xFE000000, 0, 0, 0, 0xFE000000, 0⟩,
    ⟨Reg.DRAS_ADDR, 0, 1, 0, 1, 0, 0x3F1F1FFF, 0, 0, 0, 0, 0⟩,
    ⟨Reg.DRAS_ARG, 0, 1, 0, 1, 0, 0xFFFFFFFF, 0, 0, 0, 0, 0⟩,
    ⟨Reg.DRAS_STAT, 0, 1, 0, 1, 0, 0, 0, 0, 0, 0, 0⟩ ]

/-- Header rows of R19. PWR_REFUSE_CNT.COUNT is cleared as a whole (R30) and PWR_REQ acts on a domain (R630): the register
write behaviours handle both. -/
def headerRows : List RegRow :=
  [ ⟨Reg.BLK_ID, 0, 1, 0, 1, 0, 0, 0, 0, 0, 0, 0⟩,
    ⟨Reg.BLK_VER, 0, 1, 0, 1, 0, 0, 0, 0, 0, 0, 0⟩,
    ⟨Reg.ERR_STAT, 0, 1, 0, 1, 0, 0, 3, 0, 0, 0, 0⟩,
    ⟨Reg.ERR_CODE, 0, 1, 0, 1, 0, 0, 0, 0, 0, 0, 0⟩,
    ⟨Reg.ERR_ADDR_LO, 0, 1, 0, 1, 0, 0, 0, 0, 0, 0, 0⟩,
    ⟨Reg.ERR_ADDR_HI, 0, 1, 0, 1, 0, 0, 0, 0, 0, 0, 0⟩,
    ⟨Reg.ERR_INFO, 0, 1, 0, 1, 0, 0, 0, 0, 0, 0, 0⟩,
    ⟨Reg.ERR_CNT, 0, 1, 0, 1, 0, 0xFFFFFFFF, 0, 0, 0, 0, 0xFFFFFFFF⟩,
    ⟨Reg.INT_EN, 0, 1, 0, 1, 0, 0xFFFFFFFF, 0, 0, 0, 0, 0⟩,
    ⟨Reg.INT_STAT, 0, 1, 0, 1, 0, 0, 0xFFFFFFFF, 0, 0, 0, 0⟩,
    ⟨Reg.PWR_STATE, 0, 1, 0, 1, 0, 0, 0, 0, 0, 0, 0⟩,
    ⟨Reg.PWR_REQ, 0, 1, 0, 1, 0, 3, 0, 0, 0, 0, 0⟩,
    ⟨Reg.PWR_REFUSE_CNT, 0, 1, 0, 1, 0, 0, 0xFFFF0000, 0, 0, 0, 0⟩,
    ⟨Reg.LOCK, 0, 1, 0, 1, 0, 0, 0, 1, 0, 0, 0⟩ ]

/-- BLK_CTRL and BLK_STAT where a chapter defines them (R377, R380); elsewhere they read 0. -/
def blkRows : PageKind → List RegRow
  | .hub => [⟨Reg.BLK_CTRL, 0, 1, 0, 1, 0, 0, 0, 1, 0, 0, 0⟩, ⟨Reg.BLK_STAT, 0, 1, 0, 1, 0, 0, 0, 0, 0, 0, 0⟩]
  | .d2d => [⟨Reg.BLK_STAT, 0, 1, 0, 1, 0xC0000000, 0, 0, 0, 0, 0, 0⟩]
  | _ => []

/-- The block-specific rows of each page kind. -/
def kindRows : PageKind → List RegRow
  | .hub => hubRows | .sec => secRows | .stb => stbRows | .clk => clkRows | .pwr => pwrRows
  | .pcie => pcieRows | .fab => fabRows | .rte => rteRows | .coll => collRows | .grn => grnRows
  | .d2d => d2dRows | .trade => tradeRows | .idle => idleRows | .rch => rchRows | .tlr => tlrRows
  | .awn => awnRows | .spd => [] | .memc => memcRows | .culm => culmRows | .dras => drasRows

/-- The table row of a page offset, none at an unassigned offset (R16). -/
def rowOf (k : PageKind) (o : Nat) : Option RegRow :=
  if o < 0x40 then (blkRows k ++ headerRows).find? (·.covers o) else (kindRows k).find? (·.covers o)

/-- The page that holds a register space offset, with the offset in it (R60, R61, R63). -/
def pageOf (off : Nat) : Option (Page × Nat) :=
  let o := off % 0x1000
  let pg := off / 0x1000
  if off < 0x1000000 then
    if pg = 0x000 then some (Pg.hub, o)
    else if pg = 0x100 then some (Pg.sec, o)
    else if pg = 0x200 then some (Pg.stb, o)
    else if pg = 0x300 then some (Pg.clk, o)
    else if pg = 0x308 then some (Pg.pwr, o)
    else if 0x400 ≤ pg ∧ pg < 0x402 then some (Pg.pcie (pg - 0x400), o)
    else if 0x500 ≤ pg ∧ pg < 0x518 then some (Pg.fab (pg - 0x500), o)
    else if pg = 0x520 then some (Pg.rte, o)
    else if pg = 0x600 then some (Pg.coll, o)
    else if pg = 0x800 then some (Pg.grn, o)
    else if 0x900 ≤ pg ∧ pg < 0x904 then some (Pg.d2d (pg - 0x900), o)
    else if pg = 0xA00 then some (Pg.trade, o)
    else if pg = 0xB00 then some (Pg.idle, o)
    else none
  else if off < 0x3000000 then
    let d := (off - 0x1000000) / 0x800000
    let p := (off - 0x1000000) % 0x800000 / 0x1000
    if p = 0 then some (Pg.rch d, o)
    else if 0x10 ≤ p ∧ p < 0x10 + 84 then some (Pg.tlr d (p - 0x10), o)
    else if 0x80 ≤ p ∧ p < 0x90 then some (Pg.awn d (p - 0x80), o)
    else if p = 0xA0 then some (Pg.spd d, o)
    else if 0xB0 ≤ p ∧ p < 0xB3 then some (Pg.memc d (p - 0xB0), o)
    else if 0xC0 ≤ p ∧ p < 0xC3 then some (Pg.culm d (p - 0xC0), o)
    else if p = 0xD0 then some (Pg.dras d, o)
    else none
  else none

/-- The table windows outside the pages, each defined by its owning block's chapter. -/
inductive Window
  | events | eventAdd        -- R411
  | route | mcast            -- R472
  | sendStat | recvStat      -- R473
  | collTable | instStat     -- R516
  | slotStat                 -- R539
  | directory                -- R568
  | domains                  -- R630
  | stbInputs | stbConds | stbCondStat | stbRules | stbGroups   -- R633
  | rowBuffer | connResult   -- R321
  deriving DecidableEq, Repr

/-- Base, size in bytes and name of each table window of the Sheaf. -/
def sheafWindows : List (Nat × Nat × Window) :=
  [ (0x410000, 0x4000, .events), (0x420000, 0x4000, .eventAdd),
    (0x530000, 0x40000, .route), (0x570000, 0x4000, .mcast),
    (0x580000, 0x1000, .sendStat), (0x581000, 0x1000, .recvStat),
    (0x610000, 0x40000, .collTable), (0x650000, 0x10000, .instStat),
    (0xB10000, 0x1000, .slotStat), (0x810000, 0x1000, .directory),
    (0x310000, 844, .domains),
    (0x210000, 0xA4, .stbInputs), (0x211000, 0x400, .stbConds), (0x212000, 0x100, .stbCondStat),
    (0x213000, 0x200, .stbRules), (0x214000, 0x100, .stbGroups) ]

/-- The table window of a register space offset, with the offset in it. -/
def windowOf (off : Nat) : Option (Window × Nat) :=
  if off < 0x1000000 then
    (sheafWindows.find? (fun w => decide (w.1 ≤ off) && decide (off < w.1 + w.2.1))).map (fun w => (w.2.2, off - w.1))
  else if off < 0x3000000 then
    let o := (off - 0x1000000) % 0x800000
    if 0xE0000 ≤ o ∧ o < 0xE2000 then some (.rowBuffer, off)
    else if 0xE2000 ≤ o ∧ o < 0xE2000 + 64 * 192 then some (.connResult, off)
    else none
  else none

/-- The domain kinds of R602 in the numbering of the domain window: which page owns a domain, none for a switch slice. -/
structure DomainInfo where
  kind : Nat
  owner : Option Page
  deriving DecidableEq, Repr

/-- The 211 power domains (R602). -/
def domainInfo (n : Nat) : DomainInfo :=
  if n < 84 then ⟨0, some (Pg.tlr (n / 21) (n % 21 * 4))⟩
  else if n < 148 then ⟨1, some (Pg.awn ((n - 84) / 16) ((n - 84) % 16))⟩
  else if n < 160 then ⟨2, some (Pg.culm ((n - 148) / 3) ((n - 148) % 3))⟩
  else if n < 172 then ⟨3, some (Pg.stack (n - 160))⟩
  else if n < 176 then ⟨4, some (Pg.spd (n - 172))⟩
  else if n < 200 then ⟨5, some (Pg.fab (n - 176))⟩
  else if n < 202 then ⟨6, some (Pg.pcie (n - 200))⟩
  else if n = 202 then ⟨7, some Pg.grn⟩
  else if n < 207 then ⟨8, none⟩
  else ⟨9, some (Pg.d2d (n - 207))⟩

/-- The number of power domains. -/
def domainCount : Nat := 211

/-- The power domain of a page, none where its block has no domain of its own (R29, R602). -/
def domainOf (p : Page) : Option Nat :=
  match p.kind with
  | .tlr => some (21 * p.die + p.inst / 4)
  | .awn => some (84 + 16 * p.die + p.inst)
  | .culm => some (148 + 3 * p.die + p.inst)
  | .memc => some (160 + 3 * p.die + p.inst)
  | .spd => some (172 + p.die)
  | .fab => some (176 + p.inst)
  | .pcie => some (200 + p.inst)
  | .grn => some 202
  | .d2d => some (207 + p.inst)
  | _ => none

/-- Save slot bytes of each domain kind (R602). -/
def saveSlotBytes (kind : Nat) : Nat :=
  match kind with
  | 0 => 256 | 1 => 128 | 2 => 128 | 3 => 2048 | 4 => 64 | 5 => 256 | 6 => 4096 | 7 => 512 | 8 => 256 | _ => 1024

/-- The domain window entry n at reset (R630). -/
def domainReset (n : Nat) : Nat :=
  let i := domainInfo n
  let own := match i.owner with
    | some p => p.ident
    | none => 0
  0xC0000000 + 0x20000000 + 0x400000 + (if i.kind ≤ 2 then 0x200000 else 0) + 0x100000 + 0x40000 + own

/-- Reset values that a table states per page or per kind. -/
def pageReset (p : Page) (o : Nat) (r : RegRow) : Nat :=
  match p.kind with
  | .tlr =>
    if o = Reg.TLR_MAP then
      if p.inst < 80 then p.inst * 0x10000 + p.inst else 0x40000000 + 0x7F0000 + 0x7F
    else r.reset
  | .pcie => if o = Reg.PCIE_OWN then (if p.inst = 0 then 1 else 0) else r.reset
  | .fab =>
    if o = Reg.FAB_CREDv then 0x01000100 else if o = Reg.FAB_CREDv + 4 then 0x04000400
    else if o = Reg.FAB_CREDv + 8 then 0x08000800 else if o = Reg.FAB_CREDv + 12 then 0x03000300
    else r.reset
  | .pwr =>
    if Reg.PWR_BIASk ≤ o then
      let k := (o - Reg.PWR_BIASk) / 4
      if k = 3 ∨ k = 7 then 0x28400100 else if k = 5 ∨ k = 6 ∨ k = 9 then 0x14400100 else 0x3C800200
    else r.reset
  | _ => r.reset

/-- The value of each 32-bit word of register space after a power-up's register reset (R3). -/
def regReset (off : Nat) : BitVec 32 :=
  match pageOf off with
  | some (p, o) =>
    (match rowOf p.kind o with
     | some r => BitVec.ofNat 32 (pageReset p o r)
     | none => 0)
  | none =>
    (match windowOf off with
     | some (.domains, o) => BitVec.ofNat 32 (domainReset (o / 4))
     | _ => 0)

/-- The bits of a register space word that keep their value across warm reset (R4). -/
def warmKeep (off : Nat) : BitVec 32 :=
  match pageOf off with
  | some (p, o) =>
    (match rowOf p.kind o with
     | some r => if p.kind = .stb ∧ o ≠ Reg.LOCK then 0xFFFFFFFF else BitVec.ofNat 32 r.keep
     | none => 0)
  | none =>
    (match windowOf off with
     | some (.route, _) | some (.mcast, _) | some (.collTable, _) => 0xFFFFFFFF
     | some (.stbInputs, _) | some (.stbConds, _) | some (.stbCondStat, _) | some (.stbRules, _)
     | some (.stbGroups, _) => 0xFFFFFFFF
     | _ => 0)

/-! ## 64-bit counters (R15) -/

/-- Whether a page offset is the _LO half of a 64-bit counter. -/
def counterLo (k : PageKind) (o : Nat) : Bool :=
  match k with
  | .hub => o == Reg.HUB_FRAME_NUM_LO
  | .tlr => o == Reg.TLR_PASS_CNT_LO
  | .awn => o == Reg.AWN_CHAIN_CNT_LO || o == Reg.AWN_ELEM_CNT_LO || o == Reg.AWN_DRAW_CNT_LO
  | .culm => o == Reg.CULM_OP_CNT_LO || o == Reg.CULM_ELEM_CNT_LO || o == Reg.CULM_DRAW_CNT_LO
  | .rch => o == Reg.RCH_OP_CNT_LO || (decide (Reg.RCH_SRn_LO ≤ o) && o % 8 == 0)
  | .d2d => o == Reg.D2D_FALL_FRAME_LO || o == Reg.D2D_UNSCHED_CNT_LO
  | .fab => o == Reg.FAB_FEC_CSYM_LO || o == Reg.FAB_TX_CELL_LO || o == Reg.FAB_RX_CELL_LO
  | .coll => o == Reg.COLL_INST_CNT_LO
  | .idle => decide (0x100 ≤ o) && decide (o < 0x400) && o % 8 == 0
  | .trade => o == Reg.TRADE_STOP_FRAME_LO
  | .clk => o == Reg.CLK_LOST_FRAME_LO
  | .grn => o == Reg.GRN_WRITTEN_LO || o == Reg.GRN_PROGRESS_LO
  | _ => false

end Sys2Proof.Machine
end

