-- ==== Sys2Proof/Machine/State.lean ====
section
/-!
DEFINITION. The state of the block: every register of register space (one file keyed by register space offset), memory, and
the structured state behind the windows and the protocols, as plain data; the stops; and the state after reset.
-/
namespace Sys2Proof.Machine

/-! ## Stops -/

/-- Reasons for a fault. The spec gives every event it describes an effect, so no meaning raises one at present. -/
inductive Fault
  /-- Raised by nobody: a memory operation outside the device address map ends in the error response of R53 instead. Safe. -/
  | outsideAddressMap
  deriving DecidableEq, Repr

/-- Reasons for a refusal. -/
inductive Refusal
  /-- A command that has no meaning yet, by its mnemonic. Safe: nothing follows. -/
  | notModelled (mnemonic : String)
  deriving DecidableEq, Repr

/-! ## What the block answers and sends -/

/-- The answer to the access a command carries (R5, R389). -/
inductive Response
  | none
  /-- A register read or a completed write (0). -/
  | word (w : Word)
  | bytes (l : List Byte)
  | done
  /-- An error response with its 16-bit code. -/
  | error (code : Nat)
  /-- Configuration Request Retry Status (R671). -/
  | retry
  deriving DecidableEq, Repr

/-! ## Frames and schedule time -/

/-- Kinds of frame (R69, R72). -/
inductive FrameKind
  | none | empty | image | idle | test | switch
  deriving DecidableEq, Repr

/-- Freeze reasons of R78, in its order. -/
inductive FreezeReason
  | replay | peerLate | dependency | hostWait | degraded
  deriving DecidableEq, Repr

def FreezeReason.rank : FreezeReason → Nat
  | .replay => 0 | .peerLate => 1 | .dependency => 2 | .hostWait => 3 | .degraded => 4

/-- What a freeze waits for, when its end is not yet known. -/
inductive Waiter
  /-- A known end. -/
  | timed
  /-- A RECV word waiting for its cells (R454). -/
  | recv (w : SWord)
  /-- A CWAIT word waiting for its instance (R487). -/
  | cwait (w : SWord)
  /-- An event wait word (R412). -/
  | event (w : SWord)
  /-- A frame whose words or blocks are not fetched (R83). -/
  | fetch
  deriving DecidableEq, Repr

/-- One reason that holds the schedule counter (R77, R78). -/
structure Freeze where
  reason : FreezeReason
  die : Nat
  began : Nat
  stop : Option Nat
  waiter : Waiter
  /-- Address of the word, for STRETCH_EXCEEDED (R117). -/
  wordAddr : Option Nat
  deriving DecidableEq, Repr

/-- The frame that runs. -/
structure Frame where
  kind : FrameKind
  /-- Wall cycle of stamp f+0. -/
  start : Nat
  /-- The schedule counter (R76). -/
  count : Nat
  slip : Nat
  trim : Int
  frozen : List Freeze
  aborted : Bool
  /-- Code of the error that aborted the frame. -/
  abortCode : Nat
  slot : Nat
  index : Nat
  /-- STRETCH_MAX in force (a new value applies from the next boundary, R121). -/
  stretchMax : Nat
  /-- The effective band sampled at the frame's start (R107). -/
  band : Nat
  /-- FRAME_LEN in force. -/
  len : Nat
  /-- The idle kind counted for an idle frame: the LAST_IDLE code of R122. -/
  idleCode : Nat
  /-- A tick cell arrived during the frame (R105). -/
  ticked : Bool
  /-- The frame runs the test work (R578). -/
  testing : Bool
  /-- A recovery span under R536 is counting since this wall cycle. -/
  recovering : Option Nat
  recoverMask : Nat
  /-- Per die, whether the issuing buffer holds its whole word stream (R83). -/
  fetched : List Bool
  /-- Per die, whether the idle buffer holds the next frame's whole stream. -/
  nextFetched : List Bool
  /-- The idle buffer's fetch met an error: its code and the address of the burst (R83). -/
  fetchError : Option (Nat × Nat)
  deriving DecidableEq, Repr

/-- The page and ERR_INFO with which a scheduled write to a resident image is captured (R97). -/
structure Writer where
  page : Page
  info : Nat
  deriving DecidableEq, Repr

/-- What becomes visible, or falls due, at a schedule cycle. -/
inductive Effect
  /-- Bytes written at a device address. -/
  | bytes (addr : Nat) (data : List Byte)
  /-- A scalar register of a die. -/
  | sreg (die n : Nat) (v : Nat)
  /-- An amount added to a 64-bit counter pair by its _LO offset. -/
  | count64 (off n : Nat)
  /-- An amount added to a saturating counter. -/
  | count32 (off n : Nat)
  /-- An interrupt status bit of a page sets. -/
  | int (page : Page) (b : Nat)
  /-- Bytes read now for a mover, to become visible elsewhere at a later cycle; whether into a stack (R97). -/
  | copy (src dst len vis : Nat) (mover : Writer) (out : Bool)
  /-- A scheduled stack burst meets an error. -/
  | burst (addr : Nat) (write : Bool) (err : BurstErr)
  /-- An amount added to an event counter (R412). -/
  | event (ctr amount : Nat)
  /-- A statistics record offered to a die's ring (R220). -/
  | stats (die : Nat) (data : List Byte)
  /-- A frame abort found at this cycle: page base, code, address, information, guard word (R572, R258, R301). -/
  | abort (page : Page) (code : Nat) (addr : Option Nat) (info : Nat) (guard : Option Nat)
  /-- An error raised without an abort. -/
  | raise (page : Page) (code : Nat) (addr : Option Nat) (info : Nat)
  /-- Bytes read now into the store: cells first to first + n - 1 of a send stream (R450). -/
  | gather (stream first n addr : Nat)
  /-- A cell of a send stream leaves (R450). -/
  | depart (stream n : Nat)
  /-- Bytes read now into the store for a member's source (R486). -/
  | collect (entry cseq addr n : Nat)
  /-- A member's fingerprint, or its segments below n, may enter the adder (R486). -/
  | enter (entry cseq n : Nat)
  /-- The 4-bit element in the low half of a byte, whose high half is not written (R131, R240). -/
  | half (addr : Nat) (data : Byte)
  /-- An operation of an engine leaves flight: with the random use of a chain, or the OP of a Culm operation (R268, R352). -/
  | ends (page : Page) (tag : Nat)
  /-- Bytes that a writer puts where a resident image may refuse them (R97): of a scale record or a layer exponent entry, which an abort leaves as they were
  (R347); of an array whose last byte holds one 4-bit element. -/
  | put (writer : Writer) (small half : Bool) (addr : Nat) (data : List Byte)
  deriving DecidableEq, Repr

/-- A result with the schedule cycle at which it becomes visible (R88). -/
structure Due where
  at_ : Nat
  eff : Effect
  deriving DecidableEq, Repr

/-- A Tiller pass between its issue and its commit (R158 to R165). -/
structure Pass where
  die : Nat
  logical : Nat
  phys : Nat
  op : Nat
  stamp : Nat
  args : BitVec 88
  /-- Device address of its word, for STRETCH_EXCEEDED (R117). -/
  word : Nat
  /-- The scale that the pass uses (R144, R165). -/
  scale : Nat
  /-- The B tile and its scales, as loaded. -/
  btile : List Byte
  bscale : List Byte
  /-- Row operations done so far: A row i at issue + i, accumulator row i at issue + i + 128. -/
  step : Nat
  arows : List (List Byte)
  out : List Byte
  /-- Lowest saturated row. -/
  satRow : Option Nat
  /-- The replay of a saturating pass reads its stored part shifted by two (R162). -/
  replay : Bool
  /-- Wall cycle at which a squashed pass re-issues in the freeze of a replay (R161). -/
  redo : Option Nat
  /-- Row at which a Guarded pair disagrees. -/
  dis : Option Nat
  deriving DecidableEq, Repr

/-- A B-tile buffer of a logical Tiller (R132, R133, R155). -/
structure BBuf where
  die : Nat
  logical : Nat
  sel : Nat
  /-- Issue of its LOAD_B, where it reads the tile and the scales, and the reads done: 512 bytes a cycle (R154). -/
  stamp : Nat
  off : Nat
  soff : Option Nat
  step : Nat
  data : List Byte
  scales : List Byte
  /-- The cycle from which a pass may use it. -/
  ready : Nat
  deriving DecidableEq, Repr

/-- A chain between its issue and its last read (R239). -/
structure Chain where
  die : Nat
  unit : Nat
  stamp : Nat
  words : List (BitVec 8 × BitVec 88)
  /-- Value of the scalar source of each stage, and exponent of each input (R262). -/
  scalars : List Nat
  exps : List Int
  /-- The threshold block of each output, read at issue (R247). -/
  thresh : List (List Byte)
  /-- Cycles worked so far: a chunk is read in each of the first, and the last chunk may pass the random consumer some cycles later. -/
  step : Nat
  /-- The wall cycles in which its chunks have passed the random consumer (R252). -/
  walls : List Nat
  /-- Per input, the encodings read and, beside them, the block scales. -/
  inputs : List (List (Nat × Nat))
  /-- The stream segment as a replaying chain reads it. -/
  stream : List Byte
  /-- Chunk at which a Guarded pair disagrees, with the output. -/
  dis : Option (Nat × Nat)
  deriving DecidableEq, Repr

/-- A mover word between its issue and its last read (R283). -/
structure Move where
  die : Nat
  stamp : Nat
  src : Nat
  dst : Nat
  len : Nat
  visible : Nat
  step : Nat
  data : List Byte
  deriving DecidableEq, Repr

/-- A Culm operation between its issue and its last read. -/
structure CulmOp where
  die : Nat
  unit : Nat
  stamp : Nat
  op : Nat
  args : BitVec 88
  block : List Byte
  /-- SCALE of an INT32 source tile at issue (R194). -/
  scale : Nat
  /-- End of the last slot. -/
  stop : Nat
  deriving DecidableEq, Repr

/-- Seeded generators of one Awn or Culm (R250, R344): the seeding that fills its lanes, and the wall cycle of seeding. -/
structure Gen where
  page : Page
  seed : Nat
  since : Nat
  deriving DecidableEq, Repr

/-- What lasts from frame to frame: the tick role in force and the fleet's frame numbers (R99 to R105), the idle frames granted and asked for (R106 to
R112), and the test frames that fall due (R577). -/
structure Fleet where
  /-- ROLE in force (R99). -/
  role : Nat
  /-- Fleet number of the present frame. -/
  num : Nat
  /-- Fleet numbers of the frames that IDLE_NEXT makes idle frames, each with the kinds, by the codes of LAST_IDLE, that this module asked for or had due. -/
  idles : List (Nat × List Nat)
  /-- Kinds a follower has asked for, with the boundaries since (R109). -/
  asked : List (Nat × Nat)
  /-- Frames in a row that ended without a tick. -/
  misses : Nat
  /-- Frames started since READY set. -/
  ready : Nat
  /-- A RESTORE has completed and its test frame has not run. -/
  recovery : Bool
  /-- The pair code index at which the next test frame goes on (R579). -/
  spk : Nat
  deriving DecidableEq, Repr

/-- The schedule side of the dies. -/
structure Engines where
  frame : Frame
  fleet : Fleet
  due : List Due
  passes : List Pass
  chains : List Chain
  moves : List Move
  culms : List CulmOp
  bbufs : List BBuf
  /-- Tile descriptors, keyed (die * 80 + L) * 256 + g: SCALE + 256 * REPLAYS (R143). -/
  tdesc : List (Nat × Nat)
  gens : List Gen
  /-- Statistics records produced per die (R222). -/
  statSeq : List Nat
  deriving DecidableEq, Repr

/-! ## Host side -/

/-- A fetched descriptor: where it came from, its place in the order of fetching, and its 64 bytes (R402). -/
structure Desc where
  port : Nat
  ring : Nat
  index : Nat
  seq : Nat
  bytes : List Byte
  deriving DecidableEq, Repr

/-- A completion held until its ring takes it (R401, R415). -/
structure Completion where
  tag : Nat
  status : Nat
  kind : Nat
  dup : Bool
  signalled : Bool
  irq : Bool
  index : Nat
  info : Nat
  deriving DecidableEq, Repr

/-- One submission ring with its completion ring. -/
structure Ring where
  fetched : List Desc
  held : List Completion
  deriving DecidableEq, Repr

/-- A tag of the replay window, with the outcome of its descriptor once known (R413). -/
structure TagRec where
  tag : Nat
  outcome : Option (Nat × Nat)
  deriving DecidableEq, Repr

/-- The active FRAME_RUN (R406). -/
structure Run where
  desc : Desc
  slot : Nat
  next : Nat
  left : Nat
  completed : Nat
  issuing : Bool
  /-- A stop error that completes the run at the boundary (R574). -/
  stopCode : Nat
  deriving DecidableEq, Repr

/-- A SWITCH that has started (R520, R521). -/
structure Switching where
  desc : Desc
  slot : Nat
  from_ : Option Nat
  inFrame : Bool
  /-- Code of the failure of R523. -/
  failed : Nat
  deriving DecidableEq, Repr

/-- What a started descriptor is doing. -/
inductive Work
  | dma (transfer : Nat)
  | collective (entry : Nat)
  | checkpoint
  | restore
  deriving DecidableEq, Repr

/-- A started descriptor that has not completed. -/
structure Job where
  desc : Desc
  work : Work
  deriving DecidableEq, Repr

/-- What a port's function keeps in configuration space and BAR4 (R383, R386, R389): what the host has set, the words of the MSI-X table that differ from reset,
the pending bits, and the Uncorrectable Error Status of Advanced Error Reporting. -/
structure PciPort where
  cfg : HostConfig
  table : List (Nat × Word)
  waiting : List Nat
  aer : Word
  deriving DecidableEq, Repr

/-- The two PCI Express ports and their queues. -/
structure HostSide where
  rings : List Ring
  run : Option Run
  switching : Option Switching
  jobs : List Job
  /-- Duplicates waiting for the copy that runs (R413). -/
  dups : List Desc
  /-- Newest first, at most 4,096. -/
  replay : List TagRec
  fetchSeq : Nat
  /-- PERSTn_N asserted, per port. -/
  perst : List Bool
  /-- The configuration space and BAR4, per port. -/
  pci : List PciPort
  /-- A fence descriptor waiting for the drain of R510. -/
  fenceWaiting : Option Desc
  deriving DecidableEq, Repr

/-- A resident model slot (R518): what its image's header says, and the error with which it refuses frame runs. -/
structure Slot where
  num : Nat
  base : Nat
  len : Nat
  dieMask : Nat
  epoch : Nat
  band : Nat
  prot : Nat
  halfWidth : Nat
  fp16 : Bool
  frameCount : Nat
  seqBound : Nat
  frameTable : Nat
  carryTable : Nat
  carryCount : Nat
  scalarTable : Nat
  scalarCount : Nat
  refuses : Nat
  runs : Nat
  deriving DecidableEq, Repr

/-- An unscheduled transfer (R284, R287, R289, R408): chunks of it are served one burst at a time. -/
inductive Issuer
  | descriptor (port ring index : Nat)
  | xfer (die unit : Nat)
  | checkpoint
  | restore
  deriving DecidableEq, Repr

structure Transfer where
  id : Nat
  issuer : Issuer
  cls : Nat
  src : Nat
  dst : Nat
  len : Nat
  moved : Nat
  /-- Bytes of the next chunk that have been read and wait to be written. -/
  held : List Byte
  /-- Wall cycle since which its next request has waited (R288). -/
  since : Nat
  err : Nat
  errAddr : Option Nat
  /-- Event counter and amount signalled at the end of an XFER. -/
  signal : Option (Nat × Nat)
  deriving DecidableEq, Repr

/-! ## Memory -/

/-- A region whose unlisted bytes are undefined (a tag) or zero-filled (none); the newest covering region decides. A region may be limited to the 8 KiB
blocks of one channel of a stack (R273). -/
structure Fog where
  lo : Nat
  len : Nat
  tag : Option Nat
  chan : Option Nat
  deriving DecidableEq, Repr

/-- Whether a region covers an address. -/
def Fog.covers (f : Fog) (a : Nat) : Bool :=
  decide (f.lo ≤ a) && decide (a < f.lo + f.len) && f.chan.all fun c => a / 8192 % 64 == c

/-- What an unlisted address reads as: a free byte where the newest region over it left the contents undefined, else 0. -/
def Memory.unlisted (fog : List Fog) (a : Nat) : Byte :=
  match fog.find? (fun f => f.covers a) with
  | some f => (match f.tag with
    | some t => Config.freeByte t a
    | none => 0)
  | none => 0

/-- The value at a key of a sparse list in canonical form. -/
def Sparse.get {α : Type} (d : Nat → α) : List (Nat × α) → Nat → α
  | [], k => d k
  | (j, v) :: r, k => if k < j then d k else if k = j then v else Sparse.get d r k

/-- The sparse list with the value at a key set; a value equal to the default leaves no entry. -/
def Sparse.put {α : Type} [DecidableEq α] (d : Nat → α) : List (Nat × α) → Nat → α → List (Nat × α)
  | [], k, v => if v = d k then [] else [(k, v)]
  | (j, w) :: r, k, v =>
    if k < j then (if v = d k then (j, w) :: r else (k, v) :: (j, w) :: r)
    else if k = j then (if v = d k then r else (k, v) :: r)
    else (j, w) :: Sparse.put d r k v

/-- Keys strictly rising above a bound, and no entry equal to the default. -/
def Sparse.wfFrom {α : Type} [DecidableEq α] (d : Nat → α) : Nat → List (Nat × α) → Bool
  | _, [] => true
  | lo, (k, v) :: r => decide (lo ≤ k) && decide (v ≠ d k) && Sparse.wfFrom d (k + 1) r

/-- The canonical form of a sparse list. -/
def Sparse.wf {α : Type} [DecidableEq α] (d : Nat → α) (l : List (Nat × α)) : Bool := Sparse.wfFrom d 0 l

/-! ## Stacks -/

/-- A row of a stack, by channel, bank (16 is the spare bank) and physical row (R271). -/
structure RowId where
  ch : Nat
  bank : Nat
  row : Nat
  deriving DecidableEq, Repr

/-- The on-the-fly remap of R304: the bursts still to copy. -/
structure Remap where
  row : RowId
  spare : Nat
  todo : List Nat
  /-- Wall cycle since which its next copy has waited. -/
  since : Nat
  deriving DecidableEq, Repr

/-- A copy of the repair map in the Granary (R562): SEQ, the entries of 16 bytes, and whether its signature verifies. -/
structure MapCopy where
  seq : Nat
  entries : List (List Byte)
  good : Bool
  deriving DecidableEq, Repr

/-- The repair map: the entries in force with the hub controller, both copies, and the rewritten maps that wait for the Granary, oldest first (R550). -/
structure Repairs where
  current : List (List Byte)
  a : MapCopy
  b : MapCopy
  waiting : List (List (List Byte))
  deriving DecidableEq, Repr

/-- An unscheduled burst that a stack has served in the present frame (R276): its channel, bank and physical row, the schedule cycle and the wall cycle of its
slot, and whether it activated. -/
structure Served where
  ch : Nat
  bank : Nat
  row : Nat
  count : Nat
  wall : Nat
  act : Bool
  deriving DecidableEq, Repr

/-- What the memory controller of one stack keeps beyond its registers. -/
structure Stack where
  /-- Allocation number of each watch entry, for "the oldest among equals" (R303). -/
  ages : List Nat
  nextAge : Nat
  queue : List RowId
  remap : Option Remap
  /-- Rows in service on a spare row of their bank (R304, R310). -/
  rows : List (RowId × Nat)
  /-- Banks (channel, bank) served by the channel's spare bank. -/
  banks : List (Nat × Nat)
  /-- Connections (channel, connection, spare). -/
  conns : List (Nat × Nat × Nat)
  /-- Corrected link errors (channel, connection, count) (R309). -/
  linkErrs : List (Nat × Nat × Nat)
  /-- Sensors invalid at the latest sample (R296). -/
  sensorsFailed : List Bool
  /-- HUB_FRAME_NUM at the latest halving of the watch table (R303). -/
  halved : Nat
  /-- A valid sample has been taken since cold reset (R318). -/
  sampled : Bool
  /-- Held at band 4x with the forced flag set until cold reset (R296). -/
  held : Bool
  /-- Unscheduled bursts served in the present frame. -/
  served : List Served
  deriving DecidableEq, Repr

inductive Out
  | host (port addr : Nat) (data : List Byte)
  /-- A read request of n bytes of host memory. -/
  | fetch (port addr n : Nat)
  /-- An MSI-X message of a vector: the address and the data of its table entry. -/
  | msix (port vec addr data : Nat)
  /-- An FEC block of a port, with its codewords, lane by lane. -/
  | block (port : Nat) (lanes : List (List Nat))
  deriving DecidableEq, Repr
/-- Flits that scheduled words book on one direction of a link: 0 up, 1 down, over schedule cycles start to stop - 1. -/
structure FlitBook where
  dir : Nat
  start : Nat
  stop : Nat
  amount : Nat
  /-- Device address of the word that booked them. -/
  word : Nat
  deriving DecidableEq, Repr

/-- What a die-to-die link keeps beyond its registers: lanes failed and not yet moved (R361), the wall cycle at which it carries flits again after a
fall (R363), the schedule cycle served so far (R365), the present frame's bookings, per direction the wall cycle to which unscheduled flits fill it (R372), and
the corrected bits of lanes (direction, lane, number) in the present window, by its number (R360). -/
structure Link where
  unmoved : List (Nat × Nat)
  resume : Option Nat
  served : Nat
  books : List FlitBook
  busy : List Nat
  window : Nat
  csum : List (Nat × Nat × Nat)
  deriving DecidableEq, Repr
/-! ## Bring-up -/

/-- How far the module's bring-up has come (R670): without VAON; VAON up and MOD_RESET_N low or the rails removed by a trip; settling; PLLs locked; rails up
(PWR_OK); boot halted; ROM recovery; ready. -/
inductive Phase
  | dead | held | settling | locked | powered | halted | recovery | ready
  deriving DecidableEq, Repr

/-- Pins, straps and the progress of bring-up. -/
structure Boot where
  phase : Phase
  /-- STRAP_NODEBOOT as sampled. -/
  nodeboot : Bool
  /-- THERM_TRIP_N asserted. -/
  tripped : Bool
  /-- A pin-taking test instruction has been selected (R680). -/
  pinsTaken : Bool
  /-- FLOW_OK high and WAKE_N low, as last sampled. -/
  flow : Bool
  wake : Bool
  /-- Wall cycle at which PWR_OK asserted. -/
  okAt : Nat
  /-- The reset that boots was a warm reset. -/
  warm : Bool
  deriving DecidableEq, Repr
/-! ## Ixzen Fabric -/

/-- A cell (R434): the header's fields, its reserved bits 2 and 0, the payload and the CRC. -/
structure Cell where
  dst : Nat
  src : Nat
  typ : Nat
  vc : Nat
  mc : Bool
  hops : Nat
  epoch : Nat
  ctx : Nat
  seq : Nat
  dl : Bool
  rsv : Nat
  payload : List Byte
  crc : Nat
  deriving DecidableEq, Repr

/-- A cell at the switch: the port it came by (24 for a local issuer), the class whose input buffer it holds, its arrival or creation, the port it is
bound for when it needs no route (R492), and the number of its input buffer entry. -/
structure Arrived where
  id : Nat
  port : Nat
  cls : Nat
  at_ : Nat
  direct : Option Nat
  cell : Cell
  deriving DecidableEq, Repr

/-- What a port's line carries, below the overlays of R432. -/
inductive Line
  | off | training | full | half | down | retention
  deriving DecidableEq, Repr

/-- What a port keeps beyond its registers. -/
structure FabPort where
  line : Line
  /-- Physical wavelengths marked failed, received and transmitted (R421). -/
  rxFailed : Nat
  txFailed : Nat
  /-- The map to which the transmitting end moves at the next block number that is a multiple of 64 (R428). -/
  txNext : Option Nat
  /-- Wavelength the far end is asked to stop using, and the blocks in a row decoded under the new map. -/
  ask : Option Nat
  moved : Nat
  /-- Spoiled blocks in a row, and whether any unspoiled block has come since training. -/
  spoiled : Nat
  heard : Bool
  bseq : Nat
  credits : List Nat
  /-- The far end's CREDIT field per class as last seen, and the allocations it states. -/
  farCredit : List Nat
  farAlloc : List Nat
  /-- Cells the input buffer has released since training, per class. -/
  released : List Nat
  /-- Cells queued on the port, in the order of queueing. -/
  queue : List Arrived
  /-- The round robin of R445: the channel in turn and the cells it may still send, and the next input of each channel. -/
  turn : Nat
  left : Nat
  inputs : List Nat
  /-- Wall cycle of the latest credit of each class, or of the latest stall raised. -/
  creditAt : List Nat
  /-- Blocks still to send with REQ 0xE (R616). -/
  wake : Nat
  /-- Corrected symbols per physical wavelength in the present window of 2^20 cycles, and the window's number. -/
  window : Nat
  csym : List Nat
  /-- Wall cycle of the latest LINK cell sent. -/
  linkAt : Nat
  /-- The width in use or being trained is the full one; a training has reached the exchange of LINK cells. -/
  wide : Bool
  aligned : Bool
  /-- This end's allocations as of its latest training (R443). -/
  alloc : List Nat
  /-- The latest block received was a link-wake (R616). -/
  lwake : Bool
  deriving DecidableEq, Repr

/-- A cell of a send stream in the store: its number, payload, epoch, latest departure, and whether it was sent again. -/
structure SendCell where
  n : Nat
  payload : List Byte
  epoch : Nat
  sent : Option Nat
  resent : Bool
  deriving DecidableEq, Repr

/-- The round trip and the timer that R457, R458 and R503 keep. -/
structure Timer where
  srtt : Option Nat
  /-- The doubled RTO, until an acknowledgement releases the oldest. -/
  rto : Option Nat
  retries : Nat
  deriving DecidableEq, Repr

structure SendStream where
  bound : Bool
  failed : Bool
  dst : Nat
  dstream : Nat
  next : Nat
  cells : List SendCell
  timer : Timer
  deriving DecidableEq, Repr

/-- A receive stream (R454): numbers count on from 0 without wrapping; present lists those at or above P. -/
structure RecvStream where
  bound : Bool
  src : Nat
  sstream : Nat
  base : Nat
  log : Nat
  c : Nat
  p : Nat
  present : List Nat
  /-- Cells made present since the last ACK, the wall cycle of the first of them, and that of the last ACK for a duplicate. -/
  fresh : Nat
  since : Option Nat
  dupAt : Option Nat
  deriving DecidableEq, Repr

/-- An echo that waits for its response (R463). -/
structure Echo where
  num : Nat
  target : Nat
  setDelay : Bool
  at_ : Nat
  deriving DecidableEq, Repr

/-- The switch, its ports and its streams. -/
structure Fabric where
  ports : List FabPort
  /-- Cells that have reached the switch and are not yet routed, oldest first. -/
  inbox : List Arrived
  /-- Cells delivered locally and not yet acted on, oldest first. -/
  here : List Arrived
  nextId : Nat
  sends : List SendStream
  recvs : List RecvStream
  echoNum : Nat
  echo : Option Echo
  /-- The oldest mailbox entry is in RTE_MGMT_STAT; the outgoing payload in RTE_MGMT_TX. -/
  idleAsked : Bool
  deriving DecidableEq, Repr

/-! ## Collectives -/

/-- A contributor or a leg of an instance: the module's own member, a child's port, the parent, or a ring neighbour. -/
inductive Leg
  | own | child (p : Nat) | parent | next | prev
  deriving DecidableEq, Repr

/-- One cell taken for a segment: from whom, its number, its bytes and FLAG. -/
structure Piece where
  leg : Leg
  cell : Nat
  data : List Byte
  flag : Bool
  deriving DecidableEq, Repr

/-- How far a member's delivery of a segment has come. -/
inductive Delivery
  | none | pending | written
  deriving DecidableEq, Repr

/-- A segment that holds a slot: the cells taken upward with their sum, and the cells taken downward with the result. -/
structure Segment where
  num : Nat
  up : List Piece
  sum : Option (List Piece)
  down : List Piece
  res : Option (List Piece)
  dlv : Delivery
  freed : Bool
  deriving DecidableEq, Repr

/-- A segment sent on a leg and not acknowledged: its latest sending, and whether it was sent again. -/
structure SentSeg where
  num : Int
  at_ : Nat
  resent : Bool
  deriving DecidableEq, Repr

/-- One leg with its two directions: what the module sends on it and what it receives on it. -/
structure LegState where
  leg : Leg
  sends : Bool
  receives : Bool
  /-- Release point of the far end (R498). -/
  rel : Nat
  /-- Sent and unacknowledged, the fingerprint as number -1; and the segments acknowledged. -/
  sent : List SentSeg
  acked : List Int
  timer : Timer
  /-- The fingerprint received on the leg. -/
  fp : Option (List Byte)
  /-- Segments complete from the leg; those since the last CACK, the wall cycle of the first of them. -/
  done : List Nat
  fresh : Nat
  since : Option Nat
  dupAt : Option Nat
  /-- The module's release point in the last CACK on the leg. -/
  relSent : Nat
  deriving DecidableEq, Repr

/-- How a member's instance was started. -/
inductive Starter
  | descriptor (d : Desc)
  /-- A CSTART word, by its die and the offset of its block. -/
  | word (die : Nat) (blk : Nat)
  deriving DecidableEq, Repr

/-- The part of the module's own member in an instance. -/
structure Member where
  starter : Starter
  src : Nat
  dst : Nat
  dfmt : Nat
  mode : Nat
  /-- Source bytes held in the store (scheduled instances), and the segments of them that may enter the adder. -/
  store : List Byte
  ready : Nat
  /-- Segments of the member's contribution that have entered the adder. -/
  taken : Nat
  /-- Whether the fingerprint has entered the adder. -/
  entered : Bool
  deriving DecidableEq, Repr

/-- An instance of a collective on a module. -/
structure Inst where
  entry : Nat
  id : Nat
  cseq : Nat
  op : Nat
  sfmt : Nat
  count : Nat
  epoch : Nat
  srank : Nat
  w : Nat
  /-- The reference of R494, once it is present. -/
  ref : Option (List Byte)
  member : Option Member
  accepted : Bool
  /-- The fingerprint has been counted as waiting for slots (R496). -/
  waited : Bool
  agreed : Bool
  legs : List LegState
  segs : List Segment
  /-- The module's release point. -/
  release : Nat
  written : Nat
  flag : Bool
  /-- Wall cycle of the latest cell taken or CACK. -/
  active : Nat
  aborted : Bool
  /-- The error with which an access to the member's source or destination failed (R301, R302), and the segment it was for. -/
  failed : Option (Nat × Nat)
  deriving DecidableEq, Repr

/-- A CABT still to be sent a second time (R505). -/
structure AbortCell where
  due : Nat
  direct : Option Nat
  cell : Cell
  deriving DecidableEq, Repr

/-- The collective block. -/
structure Coll where
  /-- Active instances, in the order of their start. -/
  insts : List Inst
  /-- Members that wait for an earlier instance of their entry to end (R483, R490). -/
  waiting : List Inst
  /-- The latest ended instance of each entry. -/
  ended : List Inst
  aborts : List AbortCell
  deriving DecidableEq, Repr

/-! ## Granary -/

/-- A generation in the directory (R544, R546, R568): number, label, frame, epoch, region list and data. -/
structure Generation where
  num : Nat
  label : Nat
  frame : Nat
  epoch : Nat
  pinned : Bool
  committed : Bool
  regions : List (Nat × Nat)
  data : List Byte
  deriving DecidableEq, Repr

/-- The CHECKPOINT or RESTORE that runs (R549, R552). -/
structure GrnRun where
  desc : Desc
  restore : Bool
  gen : Nat
  /-- Where a CHECKPOINT reads or a RESTORE writes its bytes, in order: address and length; the bytes of a RESTORE. -/
  places : List (Nat × Nat)
  data : List Byte
  transfer : Nat
  deriving DecidableEq, Repr

/-- A flash die (R540, R543, R557). -/
structure FlashDie where
  failed : Bool
  isolated : Bool
  spare : Nat
  bad : Nat
  hi : Nat
  lo : Nat
  deriving DecidableEq, Repr

/-- The Granary controller and its flash. -/
structure Granary where
  /-- The directory's 64 entries. -/
  dir : List (Option Generation)
  nextGen : Nat
  /-- Bytes charged to the write budget (R560). -/
  written : Nat
  spent : Bool
  dies : List FlashDie
  run : Option GrnRun
  /-- A register command that waits: OP of GRN_CMD, and the generation named when it was written. -/
  command : Option (Nat × Nat)
  /-- Whether the scrub of every block after power has returned is still to end (R559). -/
  starting : Bool
  deriving DecidableEq, Repr

/-! ## Seed sets (R580 to R585) -/

/-- The test store: the package, the next pattern, and what has been counted: patterns skipped, unit runs and failures per die. -/
structure SeedSet where
  bytes : List Byte
  next : Nat
  skipped : Nat
  units : List Nat
  fails : List Nat
  deriving DecidableEq, Repr

/-! ## The Stubble -/

/-- What a condition keeps (R617 to R619). -/
structure CondState where
  /-- Consecutive true and consecutive false samples. -/
  trues : Nat
  falses : Nat
  /-- Latest valid samples, newest first, at most 128. -/
  samples : List Int
  /-- Wall cycle of the latest assertion; assertions in the rate window, newest first. -/
  since : Nat
  times : List Nat
  /-- Wall cycle at which the hold-off ends. -/
  held : Option Nat
  deriving DecidableEq, Repr

/-- The Stubble's own state beside its registers and windows. -/
structure Stubble where
  conds : List CondState
  /-- The expression of each rule at the latest sample (R620). -/
  truths : List Bool
  /-- CAP overrides in force: rule and watts (R622). -/
  caps : List (Nat × Nat)
  /-- Analog inputs in a period in which they are invalid (R615). -/
  invalid : List Nat
  deriving DecidableEq, Repr

/-! ## Power domains and clocks -/

/-- A transition of a domain that runs (R605): the state it reaches (2 for an exit), the state it leaves, and its wall cycles. -/
structure Transit where
  dom : Nat
  target : Nat
  from_ : Nat
  began : Nat
  stop : Nat
  /-- A level-mode wake was honoured in the entry window (R609). -/
  honoured : Bool
  deriving DecidableEq, Repr

/-- A save slot of the always-on memory (R612): the registers of a domain's save set, by offset. -/
structure SaveSlot where
  dom : Nat
  regs : List (Nat × Word)
  deriving DecidableEq, Repr

/-- The power domains and the clocks. -/
structure Power where
  trans : List Transit
  saves : List SaveSlot
  /-- Boundaries for which a domain's divider has held its present divisor (R600). -/
  holds : List (Nat × Nat)
  /-- Domains whose block has start work still to finish (R604). -/
  starting : List Nat
  /-- Wall cycle at which the present coast began (R597). -/
  coast : Option Nat
  /-- Mean input power of the latest frames, newest first, at most 16 (R622). -/
  pins : List Nat
  /-- Sum and number of the input power samples of the present frame. -/
  pinSum : Nat
  pinNum : Nat
  deriving DecidableEq, Repr
/-! ## Security -/

/-- A firmware image in the system area (R638): its security version, VERSION and body hash. -/
structure FwImage where
  svn : Nat
  version : Nat
  hash : BitVec 384
  deriving DecidableEq, Repr

/-- A firmware copy: stage 1 and stage 2. -/
structure FwCopy where
  one : FwImage
  two : FwImage
  deriving DecidableEq, Repr

/-- An operator key slot (R635, R647): usage bits and PUB_X followed by PUB_Y. -/
structure OpKey where
  usage : Nat
  pub : List Byte
  deriving DecidableEq, Repr

/-- A request for a report (R653): its source (a port's DOE mailbox, or MCTP as 2), its nonce, the wall cycle of acceptance and the unsigned report taken
at the snapshot. -/
structure ReportReq where
  src : Nat
  nonce : List Byte
  at_ : Nat
  snap : Option (List Byte)
  deriving DecidableEq, Repr

/-- A SEC command that waits or runs: OP, LEN, and the record window and nonce at submission. -/
structure SecCmd where
  op : Nat
  len : Nat
  record : List Byte
  nonce : List Byte
  deriving DecidableEq, Repr

/-- The security controller, with the replay-protected area of R637. -/
structure Security where
  a : FwCopy
  b : FwCopy
  /-- Preferred copy B; the copy that runs (true for B). -/
  prefB : Bool
  running : Option Bool
  ctr1 : Nat
  ctr2 : Nat
  /-- Operator key slots 4 to 7. -/
  keys : List (Option OpKey)
  /-- SCOPE of the pending debug token. -/
  pendingDebug : Option Nat
  bootCnt : Nat
  /-- The device seed is held (R640). -/
  seeded : Bool
  /-- Consecutive entropy failures; what waits for entropy: pages to seed, the SEC nonce, handover nonces. -/
  fails : Nat
  seeding : List Page
  nonceDue : Bool
  hoNonceDue : List Nat
  /-- The staging buffer of R641, by offset. -/
  staging : List (Nat × Byte)
  cmd : Option SecCmd
  requests : List ReportReq
  deriving DecidableEq, Repr

/-! ## DRAS, the test access port and I3C -/

/-- A DRAS command that runs on a die (R312). -/
structure DrasRun where
  op : Nat
  site : Nat
  fail : Bool
  result : Nat
  deriving DecidableEq, Repr

/-- The test access port (R677 to R680) and the I3C target (R675). -/
structure Tap where
  /-- The instruction register. -/
  ir : Nat
  /-- The REGACC data register as the next Capture-DR returns it. -/
  regacc : BitVec 64
  /-- Dynamic address and MCTP endpoint. -/
  i3c : Option Nat
  eid : Nat
  deriving DecidableEq, Repr

/-! ## The state -/

/-- The state of the block. -/
structure State where
  /-- Commands that wait, first in, first out. -/
  pending : List Instr
  /-- Stepping of R1: true for B. -/
  steppingB : Bool
  /-- Wall cycle reached (the model's own clock). -/
  wall : Nat
  /-- Number of free values drawn so far (the model's own field). -/
  free : Nat
  /-- Register space, by offset: a sparse list over `regReset`. -/
  regs : List (Nat × Word)
  /-- The _HI half latched by the latest read of each counter's _LO (R15), by the offset of _HI. -/
  latch : List (Nat × Word)
  /-- Pages, by base, with the wall cycle in which each last captured an error (R24; the model's own field). -/
  captured : List (Nat × Nat)
  /-- Memory of the stacks and scratchpads: a sparse list over `Memory.unlisted`. -/
  mem : List Host.Cell
  fog : List Fog
  /-- The errors that the accesses of the latest command meet, as it names them (the model's own field). -/
  meets : List AccessErr
  /-- The answer to the latest access. -/
  resp : Response
  /-- What the block has sent out of its connectors, oldest first. -/
  out : List Out
  eng : Engines
  host : HostSide
  slots : List Slot
  /-- The running slot (R518). -/
  running : Option Nat
  traffic : List Transfer
  /-- Statistics records waiting for delivery, with their die, oldest first. -/
  records : List (Nat × List Byte)
  stk : List Stack
  rep : Repairs
  links : List Link
  /-- Rejections since cold reset, by firewall ID (R376). -/
  fence : List (Nat × Nat)
  boot : Boot
  fab : Fabric
  coll : Coll
  grn : Granary
  stb : Stubble
  pwr : Power
  sec : Security
  /-- The Seed set in the test store, and the DRAS command that runs on each die. -/
  seed : Option SeedSet
  dras : List (Option DrasRun)
  tap : Tap
  deriving DecidableEq, Repr

/-- The content of a byte of memory. -/
def State.memAt (s : State) (a : Nat) : Byte := Sparse.get (Memory.unlisted s.fog) s.mem a

/-- The canonical form of memory: addresses strictly rising, and no entry equal to what its address reads as unlisted. -/
abbrev Memory.wf (s : State) : Bool := Sparse.wf (Memory.unlisted s.fog) s.mem

/-- The raw content of a register space word. -/
def State.rd (s : State) (off : Nat) : Word := Sparse.get regReset s.regs off

/-- The canonical form of the register file. -/
abbrev Regs.wf (s : State) : Bool := Sparse.wf regReset s.regs

/-! ## The state after reset (R3): power-up's register reset, with bring-up at its step 2 -/

/-- A frame that has not begun. -/
def Frame.fresh : Frame :=
  { kind := .none, start := 0, count := 0, slip := 0, trim := 0, frozen := [], aborted := false, abortCode := 0, slot := 0, index := 0,
    stretchMax := 0x4000, band := 0, len := 65536, idleCode := 0, ticked := false, testing := false, recovering := none, recoverMask := 0,
    fetched := List.replicate 4 false, nextFetched := List.replicate 4 false, fetchError := none }

def Fleet.fresh : Fleet := { role := 0, num := 0, idles := [], asked := [], misses := 0, ready := 0, recovery := false, spk := 0 }

def Engines.fresh : Engines :=
  { frame := Frame.fresh, fleet := Fleet.fresh, due := [], passes := [], chains := [], moves := [], culms := [], bbufs := [], tdesc := [], gens := [],
    statSeq := List.replicate 4 0 }

/-- A function out of reset: no payload beyond 128 bytes, requests of 512, BAR2 of 1 GiB, MSI-X off. -/
def PciPort.fresh : PciPort := ⟨⟨false, 0, 2, 0, false, false⟩, [], [], 0⟩

def HostSide.fresh : HostSide :=
  { rings := List.replicate 32 ⟨[], []⟩, run := none, switching := none, jobs := [], dups := [], replay := [], fetchSeq := 0, perst := [true, true],
    pci := List.replicate 2 PciPort.fresh, fenceWaiting := none }

/-- A memory controller with nothing repaired. -/
def Stack.fresh : Stack := ⟨List.replicate 64 0, 0, [], none, [], [], [], [], List.replicate 17 false, 0, false, false, []⟩

def Link.fresh : Link := ⟨[], none, 0, [], [0, 0], 0, []⟩

/-- A port that is off. -/
def FabPort.fresh : FabPort :=
  { line := .off, rxFailed := 0, txFailed := 0, txNext := none, ask := none, moved := 0, spoiled := 0, heard := false, bseq := 0,
    credits := List.replicate 8 0, farCredit := List.replicate 8 0, farAlloc := List.replicate 8 0, released := List.replicate 8 0, queue := [],
    turn := 0, left := 0, inputs := List.replicate 4 0, creditAt := List.replicate 8 0, wake := 0, window := 0, csym := List.replicate 9 0, linkAt := 0,
    wide := true, aligned := false, alloc := List.replicate 8 0, lwake := false }

def Timer.fresh : Timer := ⟨none, none, 0⟩

/-- A send stream that nothing binds. -/
def SendStream.fresh : SendStream := ⟨false, false, 0, 0, 0, [], Timer.fresh⟩

/-- A receive stream that nothing binds. -/
def RecvStream.idle : RecvStream := ⟨false, 0, 0, 0, 0, 0, 0, [], 0, none, none⟩

def Fabric.fresh : Fabric :=
  { ports := List.replicate 24 FabPort.fresh, inbox := [], here := [], nextId := 0, sends := List.replicate 256 SendStream.fresh,
    recvs := List.replicate 256 RecvStream.idle, echoNum := 0, echo := none, idleAsked := false }

def Coll.fresh : Coll := ⟨[], [], [], []⟩

def CondState.fresh : CondState := ⟨0, 0, [], 0, [], none⟩

def Stubble.fresh : Stubble := ⟨List.replicate 64 CondState.fresh, List.replicate 64 false, [], []⟩

def Power.fresh : Power :=
  { trans := [], saves := [], holds := [], starting := [], coast := none, pins := [], pinSum := 0, pinNum := 0 }

/-- A flash die as manufactured: 768 spare blocks, none bad. -/
def FlashDie.fresh : FlashDie := ⟨false, false, 768, 0, 0, 0⟩

def Granary.fresh : Granary :=
  { dir := List.replicate 64 none, nextGen := 1, written := 0, spent := false, dies := List.replicate 8 FlashDie.fresh, run := none, command := none,
    starting := false }

def Security.fresh : Security :=
  { a := ⟨⟨0, 0, Config.fwHash 0⟩, ⟨0, 0, Config.fwHash 1⟩⟩, b := ⟨⟨0, 0, Config.fwHash 2⟩, ⟨0, 0, Config.fwHash 3⟩⟩, prefB := false, running := none,
    ctr1 := 0, ctr2 := 0, keys := List.replicate 4 none, pendingDebug := none, bootCnt := 0, seeded := true, fails := 0, seeding := [],
    nonceDue := false, hoNonceDue := [], staging := [], cmd := none, requests := [] }

/-- The state of the block after reset. -/
def State.reset : State :=
  { pending := [], steppingB := false, wall := 0, free := 1, regs := [], latch := [], captured := [], mem := [], fog := [⟨0, 2 ^ 50, some 0, none⟩],
    meets := [], resp := .none, out := [], eng := Engines.fresh, host := HostSide.fresh, slots := [], running := none, traffic := [], records := [],
    stk := List.replicate 12 Stack.fresh, rep := ⟨[], ⟨1, [], true⟩, ⟨0, [], true⟩, []⟩, links := List.replicate 4 Link.fresh, fence := [],
    boot := { phase := .settling, nodeboot := false, tripped := false, pinsTaken := false, flow := true, wake := false, okAt := 0, warm := false },
    fab := Fabric.fresh, coll := Coll.fresh, grn := Granary.fresh, stb := Stubble.fresh, pwr := Power.fresh, sec := Security.fresh,
    tap := ⟨2, 0, none, 0⟩, seed := none, dras := List.replicate 4 none }

end Sys2Proof.Machine
end

