-- ==== Sys2Proof/Machine/Ops.lean ====
section
/-!
DEFINITION. The named operations over registers, errors, interrupts, the device address map and memory.
-/
namespace Sys2Proof.Machine

/-! ## Registers -/

/-- The raw content of a register space word set to a value. -/
def State.wr (s : State) (off : Nat) (w : Word) : State := { s with regs := Sparse.put regReset s.regs off w }

/-- A register of a page, raw. -/
def State.rdP (s : State) (p : Page) (o : Nat) : Word := s.rd (p.base + o)

/-- A register of a page set, raw. -/
def State.wrP (s : State) (p : Page) (o : Nat) (w : Word) : State := s.wr (p.base + o) w

/-- A register of a page as a number. -/
def State.num (s : State) (p : Page) (o : Nat) : Nat := (s.rdP p o).toNat

/-- A field of a register of a page. -/
def State.fldP (s : State) (p : Page) (o hi lo : Nat) : Nat := fld (s.rdP p o) hi lo

/-- A field of a register of a page set. -/
def State.setP (s : State) (p : Page) (o hi lo v : Nat) : State := s.wrP p o (setFld (s.rdP p o) hi lo v)

/-- An amount added to a saturating 32-bit counter. -/
def State.bump (s : State) (p : Page) (o n : Nat) : State := s.wrP p o (satAdd (s.rdP p o) n)

/-- The value of a 64-bit _LO, _HI pair. -/
def State.num64 (s : State) (p : Page) (o : Nat) : Nat := s.num p o + 2 ^ 32 * s.num p (o + 4)

/-- A 64-bit _LO, _HI pair set. -/
def State.set64 (s : State) (p : Page) (o v : Nat) : State :=
  (s.wrP p o (BitVec.ofNat 32 v)).wrP p (o + 4) (BitVec.ofNat 32 (v / 2 ^ 32))

/-- An amount added to a 64-bit _LO, _HI pair. -/
def State.bump64 (s : State) (p : Page) (o n : Nat) : State := s.set64 p o (s.num64 p o + n)

/-- The page and offset of a register space offset, for the counters that effects name. -/
def State.bumpAt (s : State) (off n : Nat) : State := s.wr off (satAdd (s.rd off) n)

def State.bump64At (s : State) (off n : Nat) : State :=
  let v := (s.rd off).toNat + 2 ^ 32 * (s.rd (off + 4)).toNat + n
  (s.wr off (BitVec.ofNat 32 v)).wr (off + 4) (BitVec.ofNat 32 (v / 2 ^ 32))

/-- The TRADE protection mode (R569): 0 Dense, 1 Guarded, 2 Sampled. -/
def State.prot (s : State) : Nat := s.fldP Pg.trade Reg.TRADE_MODE 1 0

/-- HUB_FRAME_NUM (R119). -/
def State.frameNum (s : State) : Nat := s.num64 Pg.hub Reg.HUB_FRAME_NUM_LO

/-- The owner port (R390). -/
def State.owner (s : State) : Nat := if s.fldP (Pg.pcie 0) Reg.PCIE_OWN 0 0 = 1 then 0 else 1

/-! ## Free values -/

/-- The number of the next free value, and the state that has drawn it. -/
def State.draw (s : State) : Nat × State := (s.free, { s with free := s.free + 1 })

/-! ## Interrupts (R28, R416) -/

/-- The configuration space and BAR4 of a port. -/
def State.pci (s : State) (n : Nat) : PciPort := s.host.pci.getD n PciPort.fresh

def State.setPci (s : State) (n : Nat) (p : PciPort) : State := { s with host := { s.host with pci := s.host.pci.set n p } }

/-- Word i of a port's MSI-X table: four words an entry, of which the last holds the mask bit, 1 at reset. -/
def PciPort.word (p : PciPort) (i : Nat) : Word := ((p.table.find? fun q => q.1 == i).map fun q => q.2).getD (if i % 4 = 3 then 1 else 0)

/-- Whether a vector is masked, by itself, by the function mask, or while the function may not send (R416). -/
def PciPort.masked (p : PciPort) (vec : Nat) : Bool := p.cfg.mask || !p.cfg.master || bit (p.word (4 * vec + 3)).toNat 0

/-- A message of one vector falls due at a port whose function has MSI-X on: it is sent, or waits with its pending bit while the vector is masked (R416). -/
def State.msix (s : State) (port vec : Nat) : State :=
  let p := s.pci port
  if !p.cfg.msix then s
  else if p.masked vec then s.setPci port { p with waiting := if p.waiting.contains vec then p.waiting else p.waiting ++ [vec] }
  else { s with out := s.out ++ [.msix port vec ((p.word (4 * vec)).toNat + 2 ^ 32 * (p.word (4 * vec + 1)).toNat) (p.word (4 * vec + 2)).toNat] }

/-- The messages that wait at a port whose vectors are no longer masked. -/
def State.msixFlush (s : State) (port : Nat) : State :=
  let p := s.pci port
  let go := p.waiting.filter fun v => !p.masked v
  go.foldl (fun s v => s.msix port v) (s.setPci port { p with waiting := p.waiting.filter p.masked })

/-- The vector-0 messages of a page of which a masked status bit has newly become 1: vector 0 of the owner port, and of the
standby port for its own PCIE page. -/
def State.pageMessage (s : State) (p : Page) : State :=
  let s := s.msix s.owner 0
  if p.kind = .pcie ∧ p.inst ≠ s.owner then s.msix p.inst 0 else s

/-- INT_STAT and INT_EN set, with the message of R416 for each bit of their AND that rises. -/
def State.setInts (s : State) (p : Page) (stat en : Word) : State :=
  let old := s.rdP p Reg.INT_STAT &&& s.rdP p Reg.INT_EN
  let new := stat &&& en
  let s := (s.wrP p Reg.INT_STAT stat).wrP p Reg.INT_EN en
  if new &&& ~~~old = 0 then s else s.pageMessage p

/-- An INT_STAT bit sets. -/
def State.setInt (s : State) (p : Page) (b : Nat) : State :=
  s.setInts p (s.rdP p Reg.INT_STAT ||| BitVec.ofNat 32 (2 ^ b)) (s.rdP p Reg.INT_EN)

/-! ## Errors (R23 to R27, R33) -/

/-- An error cause of R591: its class and its cause value. -/
structure Cause where
  cls : Nat
  cause : Nat
  deriving DecidableEq, Repr

namespace Cause
def UNPOPULATED : Cause := ⟨1, 1⟩
def NO_PAGE : Cause := ⟨1, 2⟩
def ACCESS_SIZE : Cause := ⟨2, 1⟩
def LOCKED : Cause := ⟨2, 2⟩
def WRITE_REFUSED : Cause := ⟨2, 3⟩
def IMAGE_RO : Cause := ⟨2, 4⟩
def NOT_OWNER : Cause := ⟨2, 5⟩
def HOST_PORT_DOWN : Cause := ⟨2, 6⟩
def RING_CFG : Cause := ⟨2, 7⟩
def DESC_INVALID : Cause := ⟨2, 8⟩
def HANDED_OVER : Cause := ⟨2, 9⟩
def HANDOVER_BUSY : Cause := ⟨2, 0xA⟩
def DRAS_TEST_BLOCK : Cause := ⟨2, 0xB⟩
def IMG_HEADER : Cause := ⟨3, 1⟩
def IMG_FRAME_LEN : Cause := ⟨3, 2⟩
def IMG_BAND : Cause := ⟨3, 3⟩
def IMG_MODE : Cause := ⟨3, 4⟩
def IMG_WIDTH : Cause := ⟨3, 5⟩
def REACH : Cause := ⟨3, 6⟩
def IMG_UNIT : Cause := ⟨3, 7⟩
def IMG_WORD : Cause := ⟨3, 8⟩
def OVERRUN : Cause := ⟨3, 9⟩
def DOUBLE_BOOK : Cause := ⟨3, 0xA⟩
def PORT_OVER : Cause := ⟨3, 0xB⟩
def REFRESH_ACCESS : Cause := ⟨3, 0xC⟩
def STRETCH_EXCEEDED : Cause := ⟨3, 0xD⟩
def SLOT_NOT_RUNNING : Cause := ⟨3, 0xE⟩
def SLOT_BUSY : Cause := ⟨3, 0xF⟩
def SLOT_EMPTY : Cause := ⟨3, 0x10⟩
def MB_OVER_BOUND : Cause := ⟨3, 0x11⟩
def JOB_STOPPED : Cause := ⟨3, 0x12⟩
def MEM_UE : Cause := ⟨4, 1⟩
def MEM_WRITE_UE : Cause := ⟨4, 2⟩
def REMAP_ABORT : Cause := ⟨4, 3⟩
def SPARE_EXHAUSTED : Cause := ⟨4, 4⟩
def D2D_UE : Cause := ⟨4, 5⟩
def LINK_HALF : Cause := ⟨4, 6⟩
def LINK_DOWN : Cause := ⟨4, 7⟩
def RNG_KAT : Cause := ⟨4, 8⟩
def STREAM_MISMATCH : Cause := ⟨4, 9⟩
def SPIKELET_MISMATCH : Cause := ⟨4, 0xA⟩
def GUARD_MISMATCH : Cause := ⟨4, 0xB⟩
def ADDER_MISMATCH : Cause := ⟨4, 0xC⟩
def SEED_MISMATCH : Cause := ⟨4, 0xD⟩
def SAT_LIMIT : Cause := ⟨5, 1⟩
def SCALE_RANGE : Cause := ⟨5, 2⟩
def SCALE_INVALID : Cause := ⟨5, 3⟩
def LRE_INVALID : Cause := ⟨5, 4⟩
def CHAFF_THRESHOLD : Cause := ⟨5, 5⟩
def TICK_LOST : Cause := ⟨6, 1⟩
def WL_FAIL : Cause := ⟨6, 2⟩
def PORT_HALF : Cause := ⟨6, 3⟩
def PORT_DOWN : Cause := ⟨6, 4⟩
def LASER_LOW : Cause := ⟨6, 5⟩
def CREDIT_STALL : Cause := ⟨6, 6⟩
def STORE_FULL : Cause := ⟨6, 7⟩
def STREAM_FAIL : Cause := ⟨6, 8⟩
def COLL_TABLE : Cause := ⟨7, 1⟩
def FP_MISMATCH : Cause := ⟨7, 2⟩
def TOPOLOGY : Cause := ⟨7, 3⟩
def LEG_FAIL : Cause := ⟨7, 4⟩
def TIMEOUT : Cause := ⟨7, 5⟩
def FRAME_ABORT : Cause := ⟨7, 6⟩
def SLOT_SWITCH : Cause := ⟨7, 7⟩
def EPOCH_STALE : Cause := ⟨7, 8⟩
def EPOCH_MISMATCH : Cause := ⟨7, 9⟩
def POWER_STATE : Cause := ⟨8, 1⟩
def STACK_NOT_ON : Cause := ⟨8, 2⟩
def D2D_NOT_ON : Cause := ⟨8, 3⟩
def REF_LOST : Cause := ⟨8, 4⟩
def RAIL_FAULT : Cause := ⟨8, 5⟩
def INPUT_RANGE : Cause := ⟨8, 6⟩
def INPUT_STUCK : Cause := ⟨8, 7⟩
def INPUT_CHATTER : Cause := ⟨8, 8⟩
def GRN_NOT_ON : Cause := ⟨8, 9⟩
def FENCE_REJECT : Cause := ⟨9, 1⟩
def HANDOVER_AUTH : Cause := ⟨9, 2⟩
def SEED_AUTH : Cause := ⟨9, 3⟩
def BOOT_AUTH : Cause := ⟨9, 4⟩
def ROLLBACK : Cause := ⟨9, 5⟩
def DEBUG_AUTH : Cause := ⟨9, 6⟩
def MAP_AUTH : Cause := ⟨9, 7⟩
def STACK_HOT : Cause := ⟨0xA, 1⟩
def STACK_TRIP : Cause := ⟨0xA, 2⟩
def SENSOR_FAIL : Cause := ⟨0xA, 3⟩
def FLOW_LOST : Cause := ⟨0xA, 4⟩
def LOGIC_HOT : Cause := ⟨0xA, 5⟩
def GRN_DIE_FAIL : Cause := ⟨0xB, 1⟩
def GRN_DEGRADED : Cause := ⟨0xB, 2⟩
def GRN_FULL : Cause := ⟨0xB, 3⟩
def GRN_NO_GEN : Cause := ⟨0xB, 4⟩
def GRN_MANIFEST : Cause := ⟨0xB, 5⟩
def GRN_DST_SMALL : Cause := ⟨0xB, 6⟩
def GRN_CHUNK_UNREADABLE : Cause := ⟨0xB, 7⟩
def GRN_CHUNK_HASH : Cause := ⟨0xB, 8⟩
def GRN_BUDGET_SPENT : Cause := ⟨0xB, 9⟩
def GRN_PINNED : Cause := ⟨0xB, 0xA⟩
def MAP_FULL : Cause := ⟨0xB, 0xB⟩
end Cause

/-- The 16-bit error code of a cause raised in a page's block (R33). -/
def errCode (c : Cause) (k : PageKind) : Nat := c.cls * 4096 + k.code * 64 + c.cause

/-- The class of an error code. -/
def errClass (code : Nat) : Nat := code / 4096

/-- The errors that stop a block as they are raised (R26); the Granary's FAILED state sets its flag on its own. -/
def fatalCode (k : PageKind) (code : Nat) : Bool :=
  (k == .d2d && code == errCode .LINK_DOWN .d2d) || ((k == .awn || k == .culm) && code == errCode .RNG_KAT k)

/-- The captured error registers written. -/
def State.capture (s : State) (p : Page) (code : Nat) (addr : Option Nat) (info : Nat) : State :=
  let s := s.wrP p Reg.ERR_CODE (BitVec.ofNat 32 code)
  let s := s.wrP p Reg.ERR_ADDR_LO (BitVec.ofNat 32 (addr.getD 0))
  let hi := match addr with
    | some a => 2 ^ 31 + a / 2 ^ 32 % 2 ^ 16
    | none => 0
  let s := s.wrP p Reg.ERR_ADDR_HI (BitVec.ofNat 32 hi)
  s.wrP p Reg.ERR_INFO (BitVec.ofNat 32 info)

/-- A block raises an error (R23): captured when VALID is 0, else OVF; ERR_CNT counts it either way. A second error of the
same cycle in the same page takes the capture when its code is lower (R24). -/
def State.raise (s : State) (p : Page) (c : Cause) (addr : Option Nat) (info : Nat) : State :=
  let code := errCode c p.kind
  let s := s.bump p Reg.ERR_CNT 1
  let s :=
    if s.fldP p Reg.ERR_STAT 0 0 = 0 then
      let s := (s.capture p code addr info).setP p Reg.ERR_STAT 0 0 1
      let s := { s with captured := (p.base, s.wall) :: s.captured.filter fun c => c.1 != p.base }
      s.setInt p 0
    else
      let s := s.setP p Reg.ERR_STAT 1 1 1
      if s.captured.contains (p.base, s.wall) ∧ code < s.num p Reg.ERR_CODE then s.capture p code addr info else s
  if fatalCode p.kind code then s.setP p Reg.ERR_STAT 2 2 1 else s

/-- The start of every command: no answer yet, and no error named. -/
def State.begin (s : State) : State := { s with resp := .none, meets := [] }

/-- The errors that a command names for its accesses. -/
def State.facing (s : State) (l : List AccessErr) : State := { s with meets := l }

/-- An error response to the issuer (R5). -/
def State.refuse (s : State) (code : Nat) : State := { s with resp := .error code }

/-! ## The device address map (R51 to R59) -/

/-- Regions of the device address space. -/
inductive Region
  | stack (n : Nat)
  | spread
  | spad (die : Nat)
  | regs
  | outbound (port : Nat)
  deriving DecidableEq, Repr

def stackBytes : Nat := 0x000C00000000
def stackBase (n : Nat) : Nat := n * 0x001000000000
def aliasBase : Nat := 0x010000000000
def aliasBytes : Nat := 0x009000000000
def spadBase (d : Nat) : Nat := 0x020000000000 + d * 0x000100000000
def spadBytes : Nat := 0x0C000000
def regsBase : Nat := 0x030000000000
def regsBytes : Nat := 0x04000000
def outBase (h : Nat) : Nat := 0x040000000000 + h * 0x008000000000
def outBytes : Nat := 0x008000000000

/-- The populated range that holds an address: its region, its base and its size (R51, R53). -/
def regionOf (a : Nat) : Option (Region × Nat × Nat) :=
  if a < 0x00C000000000 then
    let n := a / 0x001000000000
    if a % 0x001000000000 < stackBytes then some (.stack n, stackBase n, stackBytes) else none
  else if aliasBase ≤ a ∧ a < aliasBase + aliasBytes then some (.spread, aliasBase, aliasBytes)
  else if spadBase 0 ≤ a ∧ a < spadBase 4 then
    let d := (a - spadBase 0) / 0x000100000000
    if a % 0x000100000000 < spadBytes then some (.spad d, spadBase d, spadBytes) else none
  else if regsBase ≤ a ∧ a < regsBase + regsBytes then some (.regs, regsBase, regsBytes)
  else if outBase 0 ≤ a ∧ a < outBase 1 then some (.outbound 0, outBase 0, outBytes)
  else if outBase 1 ≤ a ∧ a < outBase 1 + outBytes then some (.outbound 1, outBase 1, outBytes)
  else none

/-- Where byte o of ranges laid end to end lies, and how far its range goes on. -/
def placeAt : List (Nat × Nat) → Nat → Nat × Nat
  | [], _ => (0, 0)
  | (a, n) :: r, o => if o < n then (a + o, n - o) else placeAt r (o - n)

/-- R53: none when n bytes from a lie in one populated range; else the captured address, the first byte past the end of the
range in which the access began, or the address itself when it began in none. -/
def unpopulated (a n : Nat) : Option Nat :=
  match regionOf a with
  | some (_, b, z) => if a + n ≤ b + z then none else some (b + z)
  | none => some a

/-- The spread alias reduced to a stack window address (R54). -/
def unalias (a : Nat) : Nat :=
  if aliasBase ≤ a ∧ a < aliasBase + aliasBytes then
    let o := a - aliasBase
    let g := o / 2048
    stackBase (g % 12) + g / 12 * 2048 + o % 2048
  else a

/-- The spread alias of a stack window address. -/
def aliasOf (a : Nat) : Nat :=
  let n := a / 0x001000000000
  let o := a % 0x001000000000
  aliasBase + (o / 2048 * 12 + n) * 2048 + o % 2048

/-- The die that owns an address of a stack window or a scratchpad. -/
def dieOf (a : Nat) : Nat :=
  let a := unalias a
  if a < 0x00C000000000 then a / 0x001000000000 / 3 else (a - spadBase 0) / 0x000100000000

/-! ## Stack locations (R271 to R273) -/

/-- Where a byte of a stack window lies. -/
structure Loc where
  stack : Nat
  ch : Nat
  bank : Nat
  row : Nat
  col : Nat
  byte : Nat
  deriving DecidableEq, Repr

/-- R273. -/
def locate (a : Nat) : Loc :=
  let a := unalias a
  let o := a % 0x001000000000
  ⟨a / 0x001000000000, o / 8192 % 64, o / 524288 % 16, o / 8388608, o / 2048 % 4, o % 2048⟩

/-- The key under which the physical row of a stack holds its byte b: the device address that R273 gives an ordinary row, and
a key above the device address space for a spare row or a spare bank. -/
def physKey (stack ch bank row b : Nat) : Nat :=
  if bank < 16 ∧ row < 6144 then stackBase stack + row * 8388608 + bank * 524288 + ch * 8192 + b
  else 2 ^ 48 + (((stack * 64 + ch) * 17 + bank) * 6176 + row) * 8192 + b

/-- The physical row that serves a row: the spare bank and the spare row in service (R304, R310). -/
def servedBy (t : Stack) (r : RowId) : RowId :=
  let r := if t.banks.contains (r.ch, r.bank) then { r with bank := 16 } else r
  match t.rows.find? (fun x => x.1 == r) with
  | some (_, sp) => { r with row := sp }
  | none => r

/-- The memory key of a device address of a stack window, the spread alias or a scratchpad (R55, R304). -/
def State.cell (s : State) (a : Nat) : Nat :=
  let a := unalias a
  if a < 0x00C000000000 then
    let t := s.stk.getD (a / 0x001000000000) Stack.fresh
    if t.rows.isEmpty && t.banks.isEmpty then a
    else
      let l := locate a
      let r := servedBy t ⟨l.ch, l.bank, l.row⟩
      physKey l.stack r.ch r.bank r.row (l.col * 2048 + l.byte)
  else a

/-! ## Memory -/

/-- The byte at a device address. -/
def State.byteAt (s : State) (a : Nat) : Byte := s.memAt (s.cell a)

/-- n bytes from a device address. -/
def State.bytesAt (s : State) (a n : Nat) : List Byte := (List.range n).map fun i => s.byteAt (a + i)

/-- A little-endian number of n bytes. -/
def State.natAt (s : State) (a n : Nat) : Nat := leNat (s.bytesAt a n)

/-- One byte of memory set, by its key. -/
def State.setCell (s : State) (k : Nat) (b : Byte) : State :=
  { s with mem := Sparse.put (Memory.unlisted s.fog) s.mem k b }

/-- Bytes written from a device address up. -/
def State.putBytes (s : State) (a : Nat) : List Byte → State
  | [] => s
  | b :: r => (s.setCell (s.cell a) b).putBytes (a + 1) r

/-- A region comes over memory: the bytes it covers are no longer listed. -/
def State.cover (s : State) (f : Fog) : State := { s with mem := s.mem.filter (fun c => !f.covers c.1), fog := f :: s.fog }

/-- The contents of a key range lost: undefined bytes, or zeros. -/
def State.lose (s : State) (lo len : Nat) (undefined : Bool) : State :=
  if undefined then { s with free := s.free + 1 }.cover ⟨lo, len, some s.free, none⟩ else s.cover ⟨lo, len, none, none⟩

/-- Whether a memory key holds a byte of a stack, in an ordinary row or in a spare one. -/
def stackKey (k : Nat) : Bool := decide (k < 0x00C000000000) || (decide (2 ^ 48 ≤ k) && decide (k < 2 ^ 48 + 768 * 17 * 6176 * 8192))

/-- A region over undefined bytes with the stacks' part of it zero. -/
def Fog.zeroed (f : Fog) : List Fog :=
  let part := fun lo hi : Nat => { f with lo := max f.lo lo, len := min (f.lo + f.len) hi - max f.lo lo, tag := none }
  [part 0 0x00C000000000, part (2 ^ 48) (2 ^ 48 + 768 * 17 * 6176 * 8192), f]

/-- R213: stack bytes that hold no defined contents read as zero. -/
def State.zeroLost (s : State) : State :=
  { s with mem := s.mem.filter (fun c => !(stackKey c.1 && c.2 == 0)), fog := s.fog.flatMap Fog.zeroed }

/-- The contents of one channel of a stack lost: its ordinary rows, and its spare rows and spare bank. -/
def State.loseChannel (s : State) (stack ch : Nat) : State :=
  let s := { s with free := s.free + 1 }.cover ⟨stackBase stack, stackBytes, some s.free, some ch⟩
  s.lose (2 ^ 48 + (stack * 64 + ch) * 17 * 6176 * 8192) (17 * 6176 * 8192) true

/-- The high-water windows of R533: a write of n bytes at a stack window address. -/
def State.highWater (s : State) (a n : Nat) : State :=
  let a := unalias a
  if a < 0x00C000000000 ∧ 0 < n then
    let k := a / 0x001000000000
    let o := 16 * k
    let cfg := s.num Pg.idle (Reg.IDLE_HWs_CFG + o)
    let base := bits cfg 15 0 * 0x100000
    let size := s.num Pg.idle (Reg.IDLE_HWs_SIZE + o) * 0x100000
    let stop := min (base + size) stackBytes
    let lo := a % 0x001000000000
    let hi := lo + n
    if bit cfg 31 ∧ base < hi ∧ lo < stop then
      let last := min hi stop
      let mark := ceilDiv last 2048 - base / 2048
      if s.fldP Pg.idle (Reg.IDLE_HWs_MARK + o) 24 0 < mark then
        let s := s.setP Pg.idle (Reg.IDLE_HWs_MARK + o) 24 0 mark
        let s := s.wrP Pg.idle (Reg.IDLE_HWs_FRAME + o) (BitVec.ofNat 32 s.frameNum)
        if bit cfg 30 then s.setInt Pg.idle 2 else s
      else s
    else s
  else s

/-- A write of bytes to a stack or a scratchpad, with its high-water check, granule by granule through the spread alias. -/
def State.write (s : State) (a : Nat) (l : List Byte) : State :=
  let s := s.putBytes a l
  if l.isEmpty then s
  else if aliasBase ≤ a ∧ a < aliasBase + aliasBytes then
    (List.range ((a % 2048 + l.length - 1) / 2048 + 1)).foldl (fun s g =>
      let lo := if g = 0 then a else a / 2048 * 2048 + g * 2048
      let hi := min (a + l.length) (a / 2048 * 2048 + (g + 1) * 2048)
      s.highWater lo (hi - lo)) s
  else s.highWater a l.length

/-! ## Unscheduled traffic served (R288, R372) -/

/-- Unscheduled flits that cross a die's link, in direction 0 up or 1 down. A lane that has failed and not moved costs some of them a bit, which the code
corrects (R361, R381): how many of them it touches depends on their slots, which the spec leaves open. -/
def State.flits (s : State) (die dir n : Nat) : State :=
  let p := Pg.d2d die
  let s := s.bump64 p Reg.D2D_UNSCHED_CNT_LO n
  if s.fldP p Reg.BLK_STAT (29 - dir) (29 - dir) = 1 then
    let (k, s) := s.draw
    s.bump p Reg.D2D_CE_CNT (Config.freeNat k % (n + 1))
  else s

/-- One burst of an unscheduled access of a class: the slot that its stack serves, and its flits on the link of the die that holds it. -/
def State.servedBurst (s : State) (a n cls : Nat) (write aged : Bool) : State :=
  let a := unalias a
  let stack := a < 0x00C000000000
  let spad := spadBase 0 ≤ a ∧ a < spadBase 4
  let s := if stack then
      let p : Page := ⟨.memc, a / 0x001000000000 / 3, a / 0x001000000000 % 3⟩
      let s := s.bump p (Reg.MEMC_CLASSc_CNT + 4 * cls) 1
      if aged then s.bump p Reg.MEMC_AGED_CNT 1 else s
    else s
  if stack ∨ spad then s.flits (dieOf a) (b2n write) (ceilDiv n 64) else s

/-- R274: the second slot of a write to a burst that covers only part of a 32-byte ECC word: a read, then the write. -/
def State.servedPart (s : State) (a n cls : Nat) : State :=
  let a := unalias a
  if a < 0x00C000000000 ∧ (a % 32 ≠ 0 ∨ (a + n) % 32 ≠ 0) then
    s.bump ⟨.memc, a / 0x001000000000 / 3, a / 0x001000000000 % 3⟩ (Reg.MEMC_CLASSc_CNT + 4 * cls) 1
  else s

/-- An unscheduled access of n bytes served, granule by granule. -/
def State.served (s : State) (a n cls : Nat) (write : Bool) : State :=
  if n = 0 then s
  else (List.range ((a % 2048 + n - 1) / 2048 + 1)).foldl (fun s g =>
    let lo := if g = 0 then a else a / 2048 * 2048 + g * 2048
    let hi := min (a + n) (a / 2048 * 2048 + (g + 1) * 2048)
    s.servedBurst lo (hi - lo) cls write false) s

/-- An unscheduled write of n bytes served. -/
def State.servedWrite (s : State) (a n cls : Nat) : State :=
  if n = 0 then s
  else (List.range ((a % 2048 + n - 1) / 2048 + 1)).foldl (fun s g =>
    let lo := if g = 0 then a else a / 2048 * 2048 + g * 2048
    let hi := min (a + n) (a / 2048 * 2048 + (g + 1) * 2048)
    s.servedPart lo (hi - lo) cls) (s.served a n cls true)

/-! ## Model slots and images -/

/-- The resident slot of a number (R518). -/
def State.slot? (s : State) (n : Nat) : Option Slot := s.slots.find? (fun x => x.num == n)

/-- Whether a byte of a stack window belongs to an image's memory. -/
def Slot.holds (x : Slot) (a : Nat) : Bool :=
  let b := if aliasBase ≤ x.base then aliasOf (unalias a) else unalias a
  decide (unalias a < 0x00C000000000) && decide (x.base ≤ b) && decide (b < x.base + x.len)

/-- R97: whether a write of n bytes would touch a resident image: images are whole 2 KiB granules. -/
def State.readOnly (s : State) (a n : Nat) : Bool :=
  s.slots.any fun x => (List.range ((a % 2048 + n - 1) / 2048 + 1)).any fun g => x.holds (a / 2048 * 2048 + g * 2048)

/-! ## Power of what an address needs -/

/-- The state of a power domain (R29, R630). -/
def State.domain (s : State) (n : Nat) : Nat := fld (s.rd (0x310000 + 4 * n)) 31 30

/-- Whether a power domain is on. -/
def State.domainOn (s : State) (n : Nat) : Bool := s.domain n == 2

/-- Whether the block of a page is on: pages without a domain are. -/
def State.pageOn (s : State) (p : Page) : Bool :=
  match domainOf p with
  | some n => s.domainOn n
  | none => true

/-! ## Events (R409 to R412) -/

/-- EVc. -/
def State.event (s : State) (c : Nat) : Nat := (s.rd (0x410000 + 4 * c)).toNat

/-- A signal: an amount added modulo 2^32. -/
def State.signal (s : State) (c n : Nat) : State := s.wr (0x410000 + 4 * c) (BitVec.ofNat 32 (s.event c + n))

/-- R409: a wait on counter c with target v is met. -/
def State.eventMet (s : State) (c v : Nat) : Bool := decide (0 ≤ signed 32 (s.event c + 2 ^ 32 - v % 2 ^ 32))

/-! ## Scalar registers (R259) -/

/-- The value of a scalar register: SR0 reads 0, SR248 to SR251 are device values, SR252 to SR255 read 0. DESIGN CHOICE (log entry 77): SR249 reads 0 while no
image frame runs, and SR251 while no slot runs. -/
def State.sreg (s : State) (die n : Nat) : Nat :=
  if n = 0 then 0
  else if n = 248 then die
  else if n = 249 then s.eng.frame.index % 2 ^ 64
  else if n = 250 then s.frameNum
  else if n = 251 then s.running.getD 0
  else if 252 ≤ n then 0
  else s.num64 (Pg.rch die) (Reg.RCH_SRn_LO + 8 * n)

/-- A scalar register written: writes to SR0 and to the device values are ignored. -/
def State.setSreg (s : State) (die n v : Nat) : State :=
  if n = 0 ∨ 248 ≤ n then s else s.set64 (Pg.rch die) (Reg.RCH_SRn_LO + 8 * n) v

/-! ## Tile descriptors (R143) -/

def tdescKey (die logical g : Nat) : Nat := (die * 80 + logical) * 256 + g

/-- SCALE + 256 * REPLAYS of a granule. -/
def State.tdesc (s : State) (die logical g : Nat) : Nat := Sparse.get (fun _ => 0) s.eng.tdesc (tdescKey die logical g)

def State.setTdesc (s : State) (die logical g v : Nat) : State :=
  { s with eng := { s.eng with tdesc := Sparse.put (fun _ => 0) s.eng.tdesc (tdescKey die logical g) v } }

/-! ## Sparing (R169 to R173) -/

/-- The physical Tiller that executes a logical one, none when absent: TLR_MAP.SERVED_BY of its home page. -/
def State.physOf (s : State) (die logical : Nat) : Option Nat :=
  let p := s.fldP (Pg.tlr die logical) Reg.TLR_MAP 6 0
  if p = 0x7F then none else some p

/-- The TLR pages of the Tillers that run a pass: the executing Tiller's and, in Guarded mode, its shadow's (R570, R571). -/
def State.tillerPages (s : State) (die phys logical : Nat) : List Page :=
  Pg.tlr die phys :: (if s.prot = 1 then ((s.physOf die (logical + 40)).map fun k => Pg.tlr die k).toList else [])

/-- The AWN pages of the Awns that run a chain: the unit's and, in Guarded mode, its shadow's (R570, R571). -/
def State.awnPages (s : State) (die unit : Nat) : List Page :=
  Pg.awn die unit :: (if s.prot = 1 then [Pg.awn die (unit + 8)] else [])

/-- The updates of the frame record. -/
def State.setFrame (s : State) (f : Frame) : State := { s with eng := { s.eng with frame := f } }

end Sys2Proof.Machine
end

