-- ==== Sys2Proof/Machine/AwnUnit.lean ====
section
/-!
DEFINITION. What an Awn chain computes: the fields of its words (R231 to R235), operand layout (R236 to R238), stages and reductions (R243 to R245),
outputs (R246), draws and stream segments (R248 to R257), and the statistics of a tensor (R214 to R222).
-/
namespace Sys2Proof.Machine

/-! ## Words -/

structure ChainHead where
  len : Nat
  stages : Nat
  nin : Nat
  nout : Nat
  rnd : Nat
  soff : Nat
  rsv : Nat
  deriving DecidableEq, Repr

/-- R231. -/
def chainHead (a : BitVec 88) : ChainHead :=
  let n := a.toNat
  ⟨bits n 87 64, bits n 63 61 + 1, bits n 60 59, bits n 58 57, bits n 56 55, bits n 54 31 * 16, bits n 30 0⟩

structure ChainIn where
  off : Nat
  xoff : Nat
  fmt : Nat
  mode : Nat
  plog : Nat
  wstr : Nat
  esc : Bool
  esreg : Nat
  rsv : Nat
  deriving DecidableEq, Repr

/-- R232. -/
def chainIn (a : BitVec 88) : ChainIn :=
  let n := a.toNat
  ⟨bits n 87 64 * 16, bits n 63 40 * 16, bits n 39 36, bits n 35 34, bits n 33 29, bits n 28 25, bit n 24, bits n 23 16, bits n 15 0⟩

structure ChainOut where
  off : Nat
  xoff : Nat
  fmt : Nat
  rmode : Nat
  satm : Bool
  src : Nat
  wstr : Nat
  cnt : Bool
  ten : Bool
  toff : Nat
  deriving DecidableEq, Repr

/-- R233. -/
def chainOut (a : BitVec 88) : ChainOut :=
  let n := a.toNat
  ⟨bits n 87 64 * 16, bits n 63 40 * 16, bits n 39 36, bits n 35 33, bit n 32, bits n 31 29, bits n 28 25, bit n 24, bit n 23,
   bits n 22 0 * 32⟩

structure ChainStage where
  op : Nat
  sa : Nat
  sb : Nat
  sc : Nat
  sreg : Nat
  imm : Nat
  glog : Nat
  rsv : Nat
  deriving DecidableEq, Repr

/-- R234. -/
def chainStage (op : Nat) (a : BitVec 88) : ChainStage :=
  let n := a.toNat
  ⟨op, bits n 87 83, bits n 82 78, bits n 77 73, bits n 72 65, bits n 64 33, bits n 32 28, bits n 27 0⟩

/-- A chain taken apart (R230). -/
structure ChainPlan where
  head : ChainHead
  ins : List ChainIn
  outs : List ChainOut
  stages : List ChainStage
  deriving DecidableEq, Repr

def chainPlan (words : List (BitVec 8 × BitVec 88)) : ChainPlan :=
  let h := chainHead ((words.headD (0, 0)).2)
  let w := words.drop 1
  ⟨h, (w.take h.nin).map fun x => chainIn x.2, ((w.drop h.nin).take h.nout).map fun x => chainOut x.2,
   (w.drop (h.nin + h.nout)).map fun x => chainStage x.1.toNat x.2⟩

/-- Chain cycles (R229). -/
def ChainPlan.cycles (p : ChainPlan) : Nat := ceilDiv p.head.len 512

/-- The pipeline delay 16 + 4s of R240. -/
def ChainPlan.delay (p : ChainPlan) : Nat := 16 + 4 * p.head.stages

/-- Whether a stage OP is a reduction. -/
def isReduce (op : Nat) : Bool := decide (0x29 ≤ op) && decide (op ≤ 0x2B)

/-- Length of an output (R240). -/
def ChainPlan.outLen (p : ChainPlan) (o : ChainOut) : Nat :=
  match p.stages[o.src]? with
  | some st => if isReduce st.op then p.head.len / 2 ^ st.glog else p.head.len
  | none => p.head.len

/-! ## Layout -/

/-- Ways of an element width (R236). -/
def wayCount (w : Nat) : Nat := if w = 16 then 2 else if w = 32 then 4 else 1

/-- Bytes that the elements of an operand of n elements take in its way q. -/
def wayBytes (f : Fmt) (n q : Nat) : Nat := n / 512 * min 512 (64 * f.width) + min 512 (ceilDiv (n % 512 * f.width) 8 - 512 * q)

/-- R236: scratchpad offset of the byte that holds element i. -/
def wayAddr (off wstr w i : Nat) : Nat :=
  let b := i % 512 * w / 8
  off + b / 512 * wstr * 0x80000 + i / 512 * min 512 (64 * w) + b % 512

/-- R237: the operand element that chain element e reads. -/
def ChainIn.index (x : ChainIn) (e : Nat) : Nat :=
  if x.mode = 1 then e % 2 ^ x.plog else if x.mode = 2 then e / 2 ^ x.plog else e

/-- An element's encoding and block scale as visible now. -/
def State.readElem (s : State) (die : Nat) (x : ChainIn) (e : Nat) : Nat × Nat :=
  match Fmt.ofCode x.fmt with
  | none => (0, 127)
  | some f =>
    let i := x.index e
    let a := spadBase die + wayAddr x.off x.wstr f.width i
    let enc := if f.width = 4 then (let b := (s.byteAt a).toNat; if i % 2 = 0 then b % 16 else b / 16)
      else s.natAt a (f.width / 8)
    (enc, if f.isMx then (s.byteAt (spadBase die + x.xoff + i / 32)).toNat else 127)

/-- The elements of chain cycle c of one input. -/
def State.readChunk (s : State) (die : Nat) (p : ChainPlan) (c : Nat) (x : ChainIn) : List (Nat × Nat) :=
  (List.range (min 512 (p.head.len - 512 * c))).map fun j => s.readElem die x (512 * c + j)

/-- An input element as it enters a stage: rounded once to FP32, with its exponent scale (R242 and the text before it). -/
def inputValue (x : ChainIn) (exp : Int) (e : Nat × Nat) : Nat :=
  match Fmt.ofCode x.fmt with
  | none => 0
  | some f =>
    let v := f.value e.1
    let v := if f.isMx then v.scaleE8 e.2 else v
    toFp32 (if x.esc then v.mulPow exp else v)

/-! ## Stages -/

/-- R243, R244 for the element-wise stages but DROP, on FP32 values. -/
def stageResult (op : Nat) (a b c : Ext) : Ext :=
  match op with
  | 0x10 => a.add b
  | 0x11 => a.add b.neg
  | 0x12 => a.mul b
  | 0x13 => (a.mul b).add c
  | 0x14 => numMax a b
  | 0x15 => numMin a b
  | 0x16 => a.abs
  | 0x17 => a.neg
  | 0x18 => numDiv (.fin false 1 0) a
  | 0x19 => numSqrt a
  | 0x1A => numRsqrt a
  | 0x1B => numExp2 a
  | 0x1C => numLog2 a
  | 0x1D => numTanh a
  | 0x1E => numErf a
  | 0x1F => numFloor a
  | 0x20 => numRint a
  | 0x21 => numMin (numMax a b) c
  | 0x22 => numBool (b.lt a)
  | 0x23 => numBool (b.lt a || a.eqv b)
  | 0x24 => numBool (a.eqv b)
  | 0x25 => numBool a.isFinite
  | 0x26 => if c.isZero then b else a
  | _ => a

/-- R235: the value a source names, from the inputs and the results of the earlier stages. -/
def sourceOf (st : ChainStage) (scalar e : Nat) (ins results : List Nat) (src : Nat) : Ext :=
  if src < 3 then ofFp32 (ins.getD src 0)
  else if 8 ≤ src ∧ src < 15 then ofFp32 (results.getD (src - 8) 0)
  else if src = 0x10 then ofFp32 (scalar % 2 ^ 32)
  else if src = 0x11 then ofFp32 st.imm
  else Ext.ofInt e 0

/-- The results of all stages for one element, earliest first; a reduction's entry is its operand. A DROP takes the keep flag given. -/
def stageResults (keep : Bool) (e : Nat) (ins : List Nat) : List ChainStage → List Nat → List Nat → List Nat
  | [], _, acc => acc
  | st :: r, scalars, acc =>
    let sc := scalars.headD 0
    let src := sourceOf st sc e ins acc
    let v := if st.op = 0x28 then toFp32 (numBool keep) else toFp32 (stageResult st.op (src st.sa) (src st.sb) (src st.sc))
    stageResults keep e ins r (scalars.drop 1) (acc ++ [v])

/-! ## Reductions -/

/-- The operation of a reduction stage on two FP32 values. -/
def reduceOp (op x y : Nat) : Nat :=
  toFp32 (if op = 0x29 then (ofFp32 x).add (ofFp32 y) else if op = 0x2A then numMax (ofFp32 x) (ofFp32 y)
    else numMin (ofFp32 x) (ofFp32 y))

/-- One level of the pairwise tree. -/
def pairLevel (op : Nat) : List Nat → List Nat
  | a :: b :: r => reduceOp op a b :: pairLevel op r
  | l => l

/-- The pairwise tree over 2^k values. -/
def treeReduce (op : Nat) : Nat → List Nat → Nat
  | 0, l => l.headD 0
  | k + 1, l => treeReduce op k (pairLevel op l)

/-- R245: one group. -/
def reduceGroup (op glog : Nat) (l : List Nat) : Nat :=
  if glog ≤ 9 then treeReduce op glog l
  else
    let chunks := (List.range (2 ^ (glog - 9))).map fun k => treeReduce op 9 ((l.drop (512 * k)).take 512)
    (chunks.drop 1).foldl (reduceOp op) (chunks.headD 0)

/-- The values an output receives. -/
def outputValues (p : ChainPlan) (results : List (List Nat)) (o : ChainOut) : List Nat :=
  let col := results.map fun r => r.getD o.src 0
  match p.stages[o.src]? with
  | some st =>
    if isReduce st.op then
      (List.range (p.outLen o)).map fun g => reduceGroup st.op st.glog ((col.drop (g * 2 ^ st.glog)).take (2 ^ st.glog))
    else col
  | none => col

/-! ## Draws (R249, R252) -/

/-- One step of the generator of R249: the output and the next state, a in the low word. -/
def genStep (g : BitVec 128) : BitVec 32 × BitVec 128 :=
  let a := g.extractLsb' 0 32
  let b := g.extractLsb' 32 32
  let c := g.extractLsb' 64 32
  let d := g.extractLsb' 96 32
  let out := (b * 5).rotateLeft 7 * 9
  let t := b <<< 9
  let c := c ^^^ a
  let d := d ^^^ b
  let b := b ^^^ c
  let a := a ^^^ d
  let c := c ^^^ t
  let d := d.rotateLeft 11
  (out, d ++ c ++ b ++ a)

/-- The generator after n steps. -/
def genAfter : Nat → BitVec 128 → BitVec 128
  | 0, g => g
  | n + 1, g => genAfter n (genStep g).2

/-- The state with which a seeding fills a lane: an all-zero one is replaced (R250, R344). -/
def laneSeed (seed lane : Nat) : BitVec 128 :=
  let x := Config.seedState seed lane
  if x = 0 then BitVec.ofNat 128 (Config.freshSeed seed lane % (2 ^ 128 - 1) + 1) else x

/-- A lane's output in a wall cycle: its generator takes one step in every cycle from the seeding on (R249). -/
def Gen.draw (g : Gen) (lane wall : Nat) : Nat := (genStep (genAfter (wall - g.since) (laneSeed g.seed lane))).1.toNat

/-- The generators of a page as last seeded. -/
def State.gen (s : State) (p : Page) : Gen := (s.eng.gens.find? (fun g => g.page == p)).getD ⟨p, 0, 0⟩

/-! ## Output conversion -/

/-- A stochastic or plain conversion of one element: by decision bit when the chain replays. -/
def convertElem (f : Fmt) (mode : RMode) (satm : Bool) (x : Ext) (u : Nat) (replay : Option Bool) : Nat × Bool :=
  match replay with
  | some d => (convertReplay f satm x d, d)
  | none => convert f mode satm x u

/-- One element of an MX block, by decision bit when the chain replays. -/
def mxElem (f : Fmt) (mode : RMode) (x : Ext) (u : Nat) (replay : Option Bool) : Nat × Bool :=
  match replay with
  | none => mxElement f mode x u
  | some d =>
    (match x with
     | .fin sg _ _ => ((mxElement f (if d then (if sg then .rdn else .rup) else .rtz) x 0).1, d)
     | _ => (0, d))

/-- One block of values into an MX format (R189): the scale, the encodings and the decision bits. -/
def mxConvert (f : Fmt) (mode : RMode) (l : List (Ext × Nat × Option Bool)) : Nat × List (Nat × Bool) :=
  let xs := l.map (fun q => q.1)
  let x := mxScale f xs
  if x = 0xFF ∨ (maxMag xs).isZero then (x, l.map fun _ => (0, false))
  else (x, l.map fun q => mxElem f mode (q.1.mulPow (127 - (x : Int))) q.2.1 q.2.2)

/-- A list in blocks of n. -/
def blocksOf {α : Type} (n : Nat) : Nat → List α → List (List α)
  | 0, _ => []
  | k + 1, l => if l.isEmpty then [] else l.take n :: blocksOf n k (l.drop n)

/-- Encodings, decision bits and block scales of one output. -/
def convertOutput (f : Fmt) (mode : RMode) (satm : Bool) (l : List (Ext × Nat × Option Bool)) : List (Nat × Bool) × List Nat :=
  if f.isMx then
    let bs := (blocksOf 32 (ceilDiv l.length 32) l).map (mxConvert f mode)
    (bs.flatMap (fun b => b.2), bs.map (fun b => b.1))
  else (l.map fun q => convertElem f mode satm q.1 q.2.1 q.2.2, [])

/-! ## Statistics (R214 to R222) -/

/-- Counts over a tensor. -/
structure Counts where
  n : Nat
  zero : Nat
  sat : Nat
  nonfin : Nat
  amax : Nat
  deriving DecidableEq, Repr

/-- R214, SAT: an encoding that stands at the largest finite value of its format. -/
def satEnc (f : Fmt) (enc : Nat) : Bool :=
  match f with
  | .int32 | .int8 | .int4 | .mxInt8 => enc == 2 ^ (f.width - 1) - 1 || enc == 2 ^ (f.width - 1)
  | _ => enc % 2 ^ (f.width - 1) == f.maxFinite

/-- The value of a tensor element with its block scale and an INT32 tile's SCALE (R194). -/
def tensorValue (f : Fmt) (scale : Nat) (e : Nat × Nat) : Ext :=
  if f.isMx then (f.value e.1).scaleE8 e.2 else if f == .int32 then (f.value e.1).mulPow scale else f.value e.1

/-- The largest finite magnitude, FP32 rounded up. -/
def amaxOf (l : List Ext) : Nat := toFp32Up (maxMag l)

/-- R214, SAT: an element at its format's largest finite value; in MXINT8 the encoding alone decides, whatever the block scale. -/
def tensorSat (f : Fmt) (scale : Nat) (e : Nat × Nat) : Bool := (f == .mxInt8 || (tensorValue f scale e).isFinite) && satEnc f e.1

/-- R214: a stored count. -/
def storedCounts (f : Fmt) (scale : Nat) (l : List (Nat × Nat)) : Counts :=
  let vs := l.map (tensorValue f scale)
  ⟨l.length, vs.countP Ext.isZero, l.countP (tensorSat f scale),
   vs.countP (fun v => !v.isFinite), amaxOf vs⟩

/-- R215: a conversion count. -/
def conversionCounts (f : Fmt) (ins : List Ext) (outs : List (Nat × Nat)) : Counts :=
  ⟨outs.length, outs.countP (fun e => (tensorValue f 0 e).isZero),
   outs.countP (tensorSat f 0), ins.countP (fun v => !v.isFinite), amaxOf ins⟩

/-- R217: the THRESH bits against a threshold block. -/
def threshBits (c : Counts) (t : List Byte) : Nat :=
  let nf := leAt t 0 4
  let sp := leAt t 4 4
  let zp := leAt t 8 4
  b2n (decide (nf < c.nonfin)) + 2 * b2n (sp != 0xFFFFFFFF && decide (sp * c.n < c.sat * 1000000))
    + 4 * b2n (zp != 0xFFFFFFFF && decide (zp * c.n < c.zero * 1000000)) + 8 * b2n ((ofFp32 (leAt t 12 4)).lt (ofFp32 c.amax))

/-- A Chaff record of R222, its SEQ left 0 until it is produced. -/
def chaffRecord (engine kind fmt die unit frame base : Nat) (c : Counts) (thresh : Nat) : List Byte :=
  leBytes 1 (engine * 16 + kind) ++ leBytes 1 fmt ++ leBytes 1 die ++ leBytes 1 unit ++ leBytes 4 0 ++ leBytes 8 frame
    ++ leBytes 8 base ++ leBytes 8 c.n ++ leBytes 8 c.zero ++ leBytes 8 c.sat ++ leBytes 8 c.nonfin ++ leBytes 4 c.amax
    ++ leBytes 2 thresh ++ leBytes 2 0

/-! ## Stream segments (R254, R255) -/

/-- The bits of a segment, 64 bytes for each chain cycle. -/
def segmentBits (cycles : Nat) (l : List Bool) : List Byte :=
  (List.range (64 * cycles)).map fun i =>
    BitVec.ofNat 8 (((List.range 8).map fun k => if l.getD (8 * i + k) false then 2 ^ k else 0).sum)

/-- The random consumer of a chain (R248): a DROP stage, or an output with RMODE 4: KIND, FMT and P of R255. -/
def ChainPlan.consumer (p : ChainPlan) : Option (Nat × Nat × Nat) :=
  match p.stages.find? (fun st => st.op == 0x28) with
  | some st => some (1, 0, st.imm % 65536)
  | none => (match p.outs.find? (fun o => o.rmode == 4) with
    | some o => some (2, o.fmt, 0)
    | none => none)

/-- How many cycles after it is read a chunk passes the random consumer that takes draws, within the pipeline delay of R240; 0 where none does. -/
def ChainPlan.passDelay (p : ChainPlan) : Nat :=
  if p.head.rnd = 1 ∨ p.head.rnd = 2 then Config.passDelay p.head.stages (p.stages.findIdx fun st => st.op == 0x28) % p.delay else 0

/-- The header of a segment. -/
def segmentHeader (p : ChainPlan) (bytes : List Byte) (frame die unit : Nat) : List Byte :=
  let (k, f, q) := p.consumer.getD (0, 0, 0)
  leBytes 4 0x4B534D41 ++ leBytes 1 k ++ leBytes 1 f ++ leBytes 2 q ++ leBytes 4 p.head.len ++ leBytes 4 (crc32c bytes)
    ++ leBytes 8 frame ++ leBytes 1 die ++ leBytes 1 unit ++ List.replicate 38 0

/-- R257: the header check. -/
def headerOk (p : ChainPlan) (h : List Byte) : Bool :=
  match p.consumer with
  | none => false
  | some (k, f, q) =>
    leAt h 0 4 == 0x4B534D41 && leAt h 4 1 == k && leAt h 8 4 == p.head.len
      && (if k = 1 then leAt h 6 2 == q else leAt h 5 1 == f)

/-! ## The whole chain -/

/-- What a chain leaves: per output the bytes with their scratchpad offsets and its counts, the stream bits, and the draws it took. -/
structure ChainResult where
  writes : List (Nat × List Byte)
  counts : List (ChainOut × Counts)
  bits : List Bool
  draws : Nat
  deriving DecidableEq, Repr

/-- The bytes of one output with their places: one write per element, or per pair of 4-bit elements. -/
def outputWrites (f : Fmt) (o : ChainOut) (encs : List Nat) : List (Nat × List Byte) :=
  if f.width = 4 then
    (blocksOf 2 encs.length encs).zipIdx.map fun (b, k) => (wayAddr o.off o.wstr 4 (2 * k), packNibbles b)
  else encs.zipIdx.map fun (e, i) => (wayAddr o.off o.wstr f.width i, leBytes (f.width / 8) e)

/-- One output as converted. -/
structure OutResult where
  out : ChainOut
  fmt : Fmt
  values : List Ext
  encs : List (Nat × Bool)
  scales : List Nat
  deriving DecidableEq, Repr

/-- Whether the stream holds a 1 for element e. -/
def streamBit (stream : List Byte) (e : Nat) : Bool := bit ((stream.getD (64 + e / 8) 0).toNat) (e % 8)

/-- The keep flags of a DROP stage (R252), or none. -/
def keepFlags (p : ChainPlan) (stream : List Byte) (g : Gen) (walls : List Nat) : Option (List Bool) :=
  (p.stages.find? (fun st => st.op == 0x28)).map fun st => (List.range p.head.len).map fun e =>
    if p.head.rnd = 3 then streamBit stream e
    else decide (st.imm % 65536 ≤ g.draw (e % 512) (walls.getD (e / 512) 0) % 65536)

/-- The results of every stage for every element of a chain. -/
def chainRows (c : Chain) (p : ChainPlan) (keeps : List Bool) : List (List Nat) :=
  let cols := (p.ins.zip (c.exps.zip c.inputs)).map fun q => q.2.2.map (inputValue q.1 q.2.1)
  (List.range p.head.len).map fun e =>
    stageResults (keeps.getD e true) e (cols.map fun col => col.getD e 0) p.stages c.scalars []

/-- The chain cycle in which element i of an output passes its conversion: for a reduction, the one that writes its chunk (R240). -/
def ChainPlan.passCycle (p : ChainPlan) (o : ChainOut) (i : Nat) : Nat :=
  match p.stages[o.src]? with
  | some st => if isReduce st.op then (min (p.outLen o) ((i / 512 + 1) * 512) * 2 ^ st.glog - 1) / 512 else i / 512
  | none => i / 512

/-- One output of a chain (R246). -/
def chainOutput (p : ChainPlan) (stream : List Byte) (g : Gen) (walls : List Nat) (rows : List (List Nat)) (o : ChainOut) : OutResult :=
  let vals := (outputValues p rows o).map ofFp32
  match Fmt.ofCode o.fmt, RMode.ofCode o.rmode with
  | some f, some m =>
    let qs := vals.zipIdx.map fun q =>
      let stoch := m == RMode.stoch
      (q.1, if stoch && p.head.rnd != 3 then g.draw (q.2 % 512) (walls.getD (p.passCycle o q.2) 0) % 65536 else 0,
        if stoch && p.head.rnd == 3 then some (streamBit stream q.2) else none)
    let r := convertOutput f m o.satm qs
    ⟨o, f, vals, r.1, r.2⟩
  | _, _ => ⟨o, Fmt.fp32, vals, [], []⟩

/-- The writes of one output. -/
def OutResult.writes (r : OutResult) : List (Nat × List Byte) :=
  outputWrites r.fmt r.out (r.encs.map fun e => e.1)
    ++ (if r.fmt.isMx then [(r.out.xoff, r.scales.map (BitVec.ofNat 8))] else [])

/-- The conversion count of one output (R247). -/
def OutResult.counts (r : OutResult) : Counts :=
  conversionCounts r.fmt r.values (r.encs.zipIdx.map fun q => (q.1.1, r.scales.getD (q.2 / 32) 127))

/-- The whole chain, from the elements it has read (R237 to R257). -/
def chainResult (c : Chain) (g : Gen) : ChainResult :=
  let p := chainPlan c.words
  let keeps := keepFlags p c.stream g c.walls
  let rows := chainRows c p (keeps.getD [])
  let outs := p.outs.map (chainOutput p c.stream g c.walls rows)
  let stoch := outs.find? (fun r => r.out.rmode == 4)
  let flags : List Bool := match keeps, stoch with
    | some k, _ => k
    | none, some r => r.encs.map fun e => e.2
    | none, none => []
  { writes := outs.flatMap OutResult.writes
    counts := (outs.filter (fun r => r.out.cnt)).map fun r => (r.out, r.counts)
    bits := flags
    draws := if p.head.rnd = 1 ∨ p.head.rnd = 2 then
        (match keeps, stoch with
         | some k, _ => k.length
         | none, some r => if narrowing .fp32 r.fmt then r.encs.length else 0
         | none, none => 0)
      else 0 }

end Sys2Proof.Machine
end

