-- ==== Sys2Proof/Machine/CulmUnit.lean ====
section
/-!
DEFINITION. What a Culm computes: the operation block (R332), the scale pass (R194 to R196), quantise, dequantise and add (R197, R338, R339), optimizer
steps with the layer exponent (R208 to R212, R341, R342) and micro-programs (R343).
-/
namespace Sys2Proof.Machine

/-! ## The operation block -/

structure CulmBlock where
  n : Nat
  valid : Nat
  a : Nat
  b : Nat
  d : Nat
  v : Nat
  x : Nat
  srec : Nat
  grec : Nat
  hrec : Nat
  lre : Nat
  tblk : Nat
  fmtA : Nat
  fmtB : Nat
  fmtD : Nat
  fmtM : Nat
  rmode : Nat
  satm : Bool
  alg : Nat
  tfmt : Nat
  head : Nat
  smode : Nat
  cnt : Bool
  ten : Bool
  apply : Bool
  init : Bool
  mlen : Nat
  mprog : Nat
  deriving DecidableEq, Repr

/-- R332; addresses keep all 64 bits, so that the word check sees the upper ones. -/
def culmBlock (l : List Byte) : CulmBlock :=
  let at8 := fun o => leAt l o 8
  let fab := leAt l 0x58 1
  let fdm := leAt l 0x59 1
  let md := leAt l 0x5A 1
  let sc := leAt l 0x5B 1
  let fl := leAt l 0x5C 1
  { n := leAt l 0 4, valid := leAt l 4 4, a := at8 0x08, b := at8 0x10, d := at8 0x18, v := at8 0x20, x := at8 0x28,
    srec := at8 0x30, grec := at8 0x38, hrec := at8 0x40, lre := at8 0x48, tblk := at8 0x50,
    fmtA := fab % 16, fmtB := fab / 16, fmtD := fdm % 16, fmtM := fdm / 16,
    rmode := md % 8, satm := bit md 3, alg := md / 16 % 4, tfmt := sc % 16, head := sc / 16 % 8, smode := sc / 128,
    cnt := bit fl 0, ten := bit fl 1, apply := bit fl 2, init := bit fl 3, mlen := leAt l 0x5D 1, mprog := at8 0x60 }

/-- The fields of a Culm word (R326). -/
structure CulmArgs where
  blk : Nat
  fslot : Nat
  nslot : Nat
  rsv : Nat
  deriving DecidableEq, Repr

def culmArgs (a : BitVec 88) : CulmArgs :=
  let n := a.toNat
  ⟨bits n 87 60 * 128, bits n 59 45, bits n 44 30, bits n 29 0⟩

/-- The span end of R328. -/
def CulmArgs.spanEnd (c : CulmArgs) : Nat := 40 * (c.fslot + c.nslot)

/-- The CPE of R331, doubled in Guarded mode (R324). -/
def culmCpe (op : Nat) (b : CulmBlock) (prot : Nat) : Nat :=
  let c := match op with
    | 1 => if b.alg = 0 then 8 else if b.alg = 1 then 6 else if b.alg = 2 then 4 else b.mlen + 2
    | 2 | 3 => 1
    | _ => 2
  if prot = 1 then 2 * c else c

/-- Bytes of an array of n elements. -/
def arrayBytes (fmt n : Nat) : Nat :=
  match Fmt.ofCode fmt with
  | some f => if f.isMx then ceilDiv n 32 * 32 * f.width / 8 else ceilDiv (n * f.width) 8
  | none => 0

/-! ## Reading -/

/-- n encodings of an array at a device address, with block scales from x for an MX format. -/
def State.tensor (s : State) (f : Fmt) (a x n : Nat) : List (Nat × Nat) :=
  let l := s.bytesAt a (ceilDiv (n * f.width) 8)
  let xs := if f.isMx then s.bytesAt x (ceilDiv n 32) else []
  (List.range n).map fun i => (elemAt f.width l i, if f.isMx then (xs.getD (i / 32) 0).toNat else 127)

/-- Value of an element with its block scale. -/
def elemValue (f : Fmt) (e : Nat × Nat) : Ext := if f.isMx then (f.value e.1).scaleE8 e.2 else f.value e.1

/-! ## Scale records (R191, R192, R195, R196) -/

/-- A positive, finite, normal FP32 encoding. -/
def normalPositive (n : Nat) : Bool := decide (0x00800000 ≤ n) && decide (n < 0x7F800000)

/-- R192: whether a scale record can be used. -/
def scaleOk (l : List Byte) : Bool := bit (leAt l 12 4) 31 && normalPositive (leAt l 0 4) && normalPositive (leAt l 4 4)

/-- FMAX of R196; none for FP32 and INT32. -/
def fmaxOf (f : Fmt) : Option Ext :=
  match f with
  | .fp32 | .int32 => none
  | .mxInt8 => some (.fin false 127 (-6))
  | f => some (f.element.value f.maxFinite)

/-- The smallest k with b * 2^k at least a, for positive finite values. -/
def ceilLog2 (a b : Ext) : Int :=
  match a, b with
  | .fin _ m e, .fin _ n f =>
    let k : Int := (Nat.log2 m : Int) + e - ((Nat.log2 n : Int) + f)
    let k := if (b.mulPow (k - 1)).lt a then k else k - 1
    if (b.mulPow k).lt a then k + 1 else k
  | _, _ => 0

/-- S of R195. -/
def scaleOf (f : Fmt) (amax : Ext) (head smode : Nat) : Ext :=
  match fmaxOf f with
  | none => .fin false 1 0
  | some fm =>
    if amax.isZero then .fin false 1 0
    else
      let top := amax.mulPow head
      let v := if smode = 0 then ofFp32 (toFp32 (numDiv top fm)) else .fin false 1 (ceilLog2 top fm)
      let lo : Ext := .fin false 1 (-126)
      let hi : Ext := .fin false 1 127
      if v.lt lo then lo else if hi.lt v then hi else v

/-- The scale record that AMAX writes. DESIGN CHOICE (log entry 83): S comes from the exact largest magnitude, not from the AMAX field, which is rounded up. -/
def scaleRecord (b : CulmBlock) (vals : List Ext) : List Byte :=
  match Fmt.ofCode b.tfmt with
  | none => []
  | some t =>
    let m := maxMag vals
    let sv := scaleOf t m b.head b.smode
    let flags := 2 ^ 31 + b.smode * 2048 + b.head * 256 + b.tfmt * 16 + 2 * b2n m.isZero
      + b2n (vals.any fun v => !v.isFinite)
    leBytes 4 (toFp32 sv) ++ leBytes 4 (toFp32 (numDiv (.fin false 1 0) sv)) ++ leBytes 4 (toFp32Up m) ++ leBytes 4 flags

/-! ## Optimizer steps -/

/-- One FP32 operation: a result rounded to FP32 (R341). -/
def f32 (x : Ext) : Ext := ofFp32 (toFp32 x)

/-- sign of R341. -/
def signOf (x : Ext) : Ext :=
  match x with
  | .nan => .nan
  | .inf s => .fin s 1 0
  | .fin s m _ => if m = 0 then .zero else .fin s 1 0

/-- Update, new first and second moment of one element. -/
structure OptOut where
  u : Ext
  m1 : Ext
  v1 : Ext
  deriving DecidableEq, Repr

/-- A register of a micro-program (R343). -/
def microReg (ins : List Ext) (h : List Ext) (tmp : List (Nat × Ext)) (r : Nat) : Ext :=
  match tmp.find? (fun t => t.1 == r) with
  | some t => t.2
  | none => if r < 4 then ins.getD r .zero else if r < 12 then h.getD (r - 4) .zero else .zero

/-- The steps of a micro-program, newest write first. -/
def microRun (ins h : List Ext) : List (List Byte) → List (Nat × Ext) → List (Nat × Ext)
  | [], tmp => tmp
  | st :: r, tmp =>
    let g := fun i => microReg ins h tmp (leAt st i 1)
    microRun ins h r ((leAt st 1 1, f32 (stageResult (leAt st 0 1) (g 2) (g 3) (g 4))) :: tmp)

/-- Whether a micro-program names V or VN. -/
def microNamesV (prog : List (List Byte)) : Bool :=
  prog.any fun st => [1, 2, 3, 4].any fun i => leAt st i 1 == 2 || leAt st i 1 == 0x16

/-- R341: u, m1 and v1 from w, m, v and g. -/
def optStep (alg : Nat) (prog : List (List Byte)) (h : List Ext) (w m v g : Ext) : OptOut :=
  let hk := fun k => h.getD k .zero
  let sub1 := fun x : Ext => f32 (Ext.add (.fin false 1 0) x.neg)
  let fma := fun a b c : Ext => f32 ((a.mul b).add c)
  let mul := fun a b : Ext => f32 (a.mul b)
  match alg with
  | 0 =>
    let m1 := fma (hk 1) m (mul (sub1 (hk 1)) g)
    let v1 := fma (hk 2) v (mul (sub1 (hk 2)) (mul g g))
    let q := f32 (numDiv (mul m1 (hk 5)) (f32 ((f32 (numSqrt (mul v1 (hk 6)))).add (hk 3))))
    ⟨mul (hk 0) (fma (hk 4) w q), m1, v1⟩
  | 1 =>
    let c := fma (hk 1) m (mul (sub1 (hk 1)) g)
    let u := mul (hk 0) (fma (hk 4) w (signOf c))
    ⟨u, fma (hk 2) m (mul (sub1 (hk 2)) g), v⟩
  | 2 =>
    let m1 := fma (hk 1) m (fma (hk 4) w g)
    ⟨mul (hk 0) m1, m1, v⟩
  | _ =>
    let t := microRun [w, m, v, g] h prog []
    let get := fun r (d : Ext) => (t.find? (fun x => x.1 == r)).elim d (fun x => x.2)
    ⟨get 0x14 .zero, get 0x15 m, get 0x16 v⟩

/-- Whether a finite value overflows a format under a rounding mode (R201), which R210 calls saturating. -/
def saturates (f : Fmt) (mode : RMode) (x : Ext) (u : Nat) : Bool :=
  match x with
  | .fin s m e => let r := roundFloat f mode s m e u; overflows f r.1 r.2.1 && !towardsZero mode s
  | _ => false

/-- floor(log2 m) of a positive finite value, none for zero. -/
def floorLog2 (x : Ext) : Option Int :=
  match x with
  | .fin _ m e => if m = 0 then none else some ((Nat.log2 m : Int) + e)
  | _ => none

/-- A layer exponent entry (R208). -/
structure LayerExp where
  e : Int
  ufmt : Nat
  cal : Bool
  satLast : Bool
  valid : Bool
  kLast : Int
  steps : Nat
  deriving DecidableEq, Repr

def layerExp (l : List Byte) : LayerExp :=
  let f := leAt l 1 1
  ⟨signed 8 (leAt l 0 1), f / 16, bit f 2, bit f 1, bit f 0, signed 16 (leAt l 2 2), leAt l 4 4⟩

def LayerExp.bytes (x : LayerExp) : List Byte :=
  leBytes 1 (unsigned 8 x.e) ++ leBytes 1 (x.ufmt * 16 + 4 * b2n x.cal + 2 * b2n x.satLast + b2n x.valid)
    ++ leBytes 2 (unsigned 16 x.kLast) ++ leBytes 4 x.steps

def clampExp (e : Int) : Int := max (-64) (min 63 e)

/-- C of R210. -/
def expC (ufmt : Nat) : Int := if ufmt = 2 then 12 else 124

/-- R210: the entry after a step whose held updates have the largest finite magnitude m. DESIGN CHOICE (log entry 83): SAT_LAST is 0 too after a step whose k
lies in the window that leaves e alone. -/
def LayerExp.next (x : LayerExp) (m : Ext) (sat : Bool) : LayerExp :=
  let c := expC x.ufmt
  let k := floorLog2 m
  let e := if sat then x.e - 4
    else match k with
      | none => x.e
      | some k => if c < k ∨ k < c - 4 then x.e + (c - 2 - k) else x.e
  { x with e := clampExp e, satLast := sat, cal := false, kLast := k.getD (-32768), steps := min (x.steps + 1) 0xFFFFFFFF }

/-- R212: the entry after a calibration step. -/
def LayerExp.calibrated (x : LayerExp) (m : Ext) : LayerExp :=
  let k := floorLog2 m
  { x with e := (match k with | some k => clampExp (expC x.ufmt - 2 - k) | none => 0), valid := true, cal := true, satLast := false,
           kLast := k.getD (-32768), steps := 0 }

/-! ## Whole operations -/

/-- What a Culm operation leaves. -/
structure CulmResult where
  writes : List (Nat × List Byte)
  /-- Kind, format, tensor base and counts of a record. -/
  record : Option (Nat × Nat × Nat × Counts)
  draws : Nat
  applied : Bool
  calibrated : Bool
  /-- Causes and addresses of the errors found in small records: with one, the operation writes nothing. -/
  invalid : List (Cause × Nat)
  deriving DecidableEq, Repr

def CulmResult.none : CulmResult := ⟨[], .none, 0, false, false, []⟩

/-- Where an operation's draws come from: its engine's generators, its own number, and the wall cycle at which its span begins. -/
structure DrawSource where
  gen : Gen
  num : Nat
  wall : Nat
  deriving DecidableEq, Repr

/-- The cycles from the span's start to a lane's draws, one after the other: each draw comes in a later wall cycle than the lane's draw before it. -/
def drawCycle (num lane : Nat) : Nat → Nat
  | 0 => Config.drawGap num lane 0
  | k + 1 => drawCycle num lane k + 1 + Config.drawGap num lane (k + 1)

/-- Low bits of the draw that element e takes as its lane's k-th, from lane e mod 1,024 (R345). -/
def culmDraw (mode : RMode) (d : DrawSource) (e k : Nat) : Nat :=
  if mode == RMode.stoch then d.gen.draw (e % 1024) (d.wall + drawCycle d.num (e % 1024) k) % 65536 else 0

/-- Encodings of a list of values converted to a non-MX format, with one draw for each element where the rounding is stochastic. -/
def convertAll (f : Fmt) (mode : RMode) (satm : Bool) (d : DrawSource) (vals : List Ext) : List Nat :=
  vals.zipIdx.map fun q => (convert f mode satm q.1 (culmDraw mode d q.2 (q.2 / 1024))).1

/-- One element of an optimizer step: its outcome, the held update's value, whether it saturated, and the new weight. -/
structure OptElem where
  out : OptOut
  held : Ext
  sat : Bool
  weight : Nat
  deriving DecidableEq, Repr

/-- R342 for element i. -/
def optElem (b : CulmBlock) (fa uf : Fmt) (mode : RMode) (d : DrawSource) (i : Nat) (lx : LayerExp) (prog : List (List Byte)) (h : List Ext)
    (w m v g : Ext) : OptElem :=
  let o := optStep b.alg prog h w m v g
  let d1 := culmDraw mode d i (2 * (i / 1024))
  let d2 := culmDraw mode d i (2 * (i / 1024) + 1)
  let scaled := o.u.mulPow lx.e
  let held := uf.value (convert uf mode true scaled d1).1
  ⟨o, held, saturates uf mode scaled d1, (convert fa mode b.satm (w.add (held.mulPow (-lx.e)).neg) d2).1⟩

/-- S_B of R339 and R341: 1.0 for a GREC of 0. -/
def State.scaleB (s : State) (b : CulmBlock) : Ext := if b.grec = 0 then .fin false 1 0 else ofFp32 (s.natAt b.grec 4)

/-- OPT (R341, R342). DESIGN CHOICE (log entry 83): a calibration step with RMODE 4 takes the draws of a normal step. -/
def optResult (s : State) (b : CulmBlock) (prog : List (List Byte)) (d : DrawSource) : CulmResult :=
  match Fmt.ofCode b.fmtA, Fmt.ofCode b.fmtB, Fmt.ofCode b.fmtM, RMode.ofCode b.rmode with
  | some fa, some fb, some fm, some mode =>
    let lx := layerExp (s.bytesAt b.lre 8)
    let bad := (if b.grec ≠ 0 ∧ !scaleOk (s.bytesAt b.grec 16) then [(Cause.SCALE_INVALID, b.grec)] else [])
      ++ (if 2 < lx.ufmt ∨ (b.apply ∧ !lx.valid) then [(Cause.LRE_INVALID, b.lre)] else [])
    if !bad.isEmpty then { CulmResult.none with invalid := bad }
    else
      let uf := if lx.ufmt = 0 then Fmt.fp32 else if lx.ufmt = 1 then Fmt.bf16 else Fmt.fp16
      let useV := b.alg = 0 ∨ (b.alg = 3 ∧ microNamesV prog)
      let h := (List.range 8).map fun k => ofFp32 (s.natAt (b.hrec + 4 * k) 4)
      let sb := s.scaleB b
      let ws := (s.tensor fa b.a 0 b.valid).map (elemValue fa)
      let ms := (s.tensor fm b.d 0 b.valid).map (elemValue fm)
      let vs := if useV then (s.tensor fm b.v 0 b.valid).map (elemValue fm) else []
      let gs := (s.tensor fb b.b b.x b.valid).map fun e => f32 ((elemValue fb e).mul sb)
      let es := (List.range b.valid).map fun i =>
        optElem b fa uf mode d i lx prog h (ws.getD i .zero) (ms.getD i .zero) (vs.getD i .zero) (gs.getD i .zero)
      let used := if mode == RMode.stoch then 2 * b.valid else 0
      if b.apply then
        let lx' := lx.next (maxMag (es.map fun e => e.held)) (es.any fun e => e.sat)
        let enc := fun x : Ext => (convert fm .rne b.satm x 0).1
        { writes := [(b.a, pack fa.width (es.map fun e => e.weight)), (b.d, pack fm.width (es.map fun e => enc e.out.m1))]
            ++ (if useV then [(b.v, pack fm.width (es.map fun e => enc e.out.v1))] else []) ++ [(b.lre, lx'.bytes)]
          record := .none, draws := used, applied := true, calibrated := false, invalid := [] }
      else
        let lx' := lx.calibrated (maxMag (es.map fun e => e.out.u))
        { CulmResult.none with writes := [(b.lre, lx'.bytes)], draws := used, calibrated := true }
  | _, _, _, _ => CulmResult.none

/-- AMAX (R337) and COUNT; scale is an INT32 tile's SCALE at issue. -/
def amaxResult (s : State) (op : Nat) (b : CulmBlock) (scale : Nat) : CulmResult :=
  match Fmt.ofCode b.fmtA with
  | some f =>
    let l := s.tensor f b.a b.x b.valid
    { CulmResult.none with
      writes := if op = 2 then [(b.srec, scaleRecord b (l.map (tensorValue f scale)))] else []
      record := if op = 3 ∨ b.cnt then some (0, b.fmtA, b.a, storedCounts f scale l) else .none }
  | none => CulmResult.none

/-- Whether an ADD narrows: its exact sums and products reach beyond every FMT_D; a B taken as it stands narrows by its own format (R199). -/
def addNarrows (b : CulmBlock) (fb fd : Fmt) : Bool := !b.init || b.grec != 0 || narrowing fb fd

/-- ADD (R339). -/
def addResult (s : State) (b : CulmBlock) (d : DrawSource) : CulmResult :=
  match Fmt.ofCode b.fmtA, Fmt.ofCode b.fmtB, Fmt.ofCode b.fmtD, RMode.ofCode b.rmode with
  | some fa, some fb, some fd, some mode =>
    if b.grec ≠ 0 ∧ !scaleOk (s.bytesAt b.grec 16) then { CulmResult.none with invalid := [(.SCALE_INVALID, b.grec)] }
    else
      let sb := s.scaleB b
      let bs := (s.tensor fb b.b b.x b.n).map fun e => (elemValue fb e).mul sb
      let as := if b.init then [] else (s.tensor fa b.a 0 b.n).map (elemValue fa)
      let vals := if b.init then bs else (as.zip bs).map fun q => q.1.add q.2
      { CulmResult.none with
        writes := [(b.d, pack fd.width (convertAll fd mode b.satm d vals))]
        draws := if mode == RMode.stoch && addNarrows b fb fd then b.n else 0 }
  | _, _, _, _ => CulmResult.none

/-- QUANT (R197, R338). -/
def quantResult (s : State) (b : CulmBlock) (d : DrawSource) : CulmResult :=
  match Fmt.ofCode b.fmtA, Fmt.ofCode b.fmtD, RMode.ofCode b.rmode with
  | some fa, some fd, some mode =>
    let rec_ := s.bytesAt b.srec 16
    if !scaleOk rec_ then { CulmResult.none with invalid := [(.SCALE_INVALID, b.srec)] }
    else
      let inv := ofFp32 (leAt rec_ 4 4)
      let xs := (s.tensor fa b.a 0 b.n).map (elemValue fa)
      let qs := xs.zipIdx.map fun q => (f32 (q.1.mul inv), culmDraw mode d q.2 (q.2 / 1024), (none : Option Bool))
      let pad := if fd.isMx then ceilDiv b.n 32 * 32 - b.n else 0
      let (es, scales) := convertOutput fd mode b.satm (qs ++ List.replicate pad (Ext.zero, 0, none))
      let encs := es.map fun e => e.1
      let outs := ((encs.take b.valid).zipIdx).map fun q => (q.1, scales.getD (q.2 / 32) 127)
      { CulmResult.none with
        writes := (b.d, pack fd.width encs) :: (if fd.isMx then [(b.x, scales.map (BitVec.ofNat 8))] else [])
        record := if b.cnt then some (1, b.fmtD, b.d, conversionCounts fd (xs.take b.valid) outs) else none
        draws := if mode == RMode.stoch then b.n else 0 }
  | _, _, _ => CulmResult.none

/-- DEQUANT (R190, R197, R338): a product with S has more bits than any target holds, so that every element narrows. -/
def dequantResult (s : State) (b : CulmBlock) (d : DrawSource) : CulmResult :=
  match Fmt.ofCode b.fmtA, Fmt.ofCode b.fmtD, RMode.ofCode b.rmode with
  | some fa, some fd, some mode =>
    let rec_ := s.bytesAt b.srec 16
    if !scaleOk rec_ then { CulmResult.none with invalid := [(.SCALE_INVALID, b.srec)] }
    else
      let sv := ofFp32 (leAt rec_ 0 4)
      let vals := (s.tensor fa b.a b.x b.n).map fun e => (elemValue fa e).mul sv
      { CulmResult.none with
        writes := [(b.d, pack fd.width (convertAll fd mode b.satm d vals))]
        draws := if mode == RMode.stoch then b.n else 0 }
  | _, _, _ => CulmResult.none

/-- One Culm operation, from memory as it stands. -/
def culmResult (s : State) (op : Nat) (b : CulmBlock) (prog : List (List Byte)) (scale : Nat) (d : DrawSource) : CulmResult :=
  match op with
  | 1 => optResult s b prog d
  | 2 | 3 => amaxResult s op b scale
  | 4 => addResult s b d
  | 5 => quantResult s b d
  | _ => dequantResult s b d

/-- The stack bursts that an operation reads, in operand order A, B, D, V, X and then the small records: their addresses. -/
def culmBursts (op : Nat) (b : CulmBlock) (prog : List (List Byte)) : List Nat :=
  let run := fun a n => if a < 0x00C000000000 then (List.range (ceilDiv (a % 2048 + n) 2048)).map fun k => a / 2048 * 2048 + 2048 * k else []
  let small := fun a n => if a = 0 then [] else run a n
  let scl := fun f => match Fmt.ofCode f with | some f => if f.isMx then run b.x (ceilDiv b.n 32) else [] | none => []
  match op with
  | 1 => run b.a (arrayBytes b.fmtA b.n) ++ run b.b (arrayBytes b.fmtB b.n) ++ run b.d (arrayBytes b.fmtM b.n)
      ++ (if b.alg = 0 ∨ (b.alg = 3 ∧ microNamesV prog) then run b.v (arrayBytes b.fmtM b.n) else []) ++ scl b.fmtB
      ++ small b.grec 16 ++ run b.hrec 32 ++ run b.lre 8
  | 2 | 3 => run b.a (arrayBytes b.fmtA b.valid) ++ scl b.fmtA ++ (if b.ten then run b.tblk 16 else [])
  | 4 => (if b.init then [] else run b.a (arrayBytes b.fmtA b.n)) ++ run b.b (arrayBytes b.fmtB b.n) ++ scl b.fmtB ++ small b.grec 16
  | 5 => run b.a (arrayBytes b.fmtA b.n) ++ run b.srec 16 ++ (if b.ten then run b.tblk 16 else [])
  | _ => run b.a (arrayBytes b.fmtA b.n) ++ scl b.fmtA ++ run b.srec 16

end Sys2Proof.Machine
end

