-- ==== Sys2Proof/Machine/Lanes.lean ====
section
/-!
DEFINITION. The lanes of the die-to-die links: the lane maps, the placement of flits on lanes and the code over a flit (R356 to R360, R364).
-/
namespace Sys2Proof.Machine

def State.link (s : State) (n : Nat) : Link := s.links.getD n Link.fresh

def State.setLink (s : State) (n : Nat) (l : Link) : State := { s with links := s.links.set n l }

/-! ## Lanes -/

/-- Offset of the register that holds a lane's bit: up 0, down 1. -/
def laneReg (dir lane : Nat) : Nat := (if dir = 0 then Reg.D2D_UP_FAILw else Reg.D2D_DN_FAILw) + 4 * (lane / 32)

def State.laneFailed (s : State) (n dir lane : Nat) : Bool := bit (s.num (Pg.d2d n) (laneReg dir lane)) (lane % 32)

/-- FAIL_UP or FAIL_DN of BLK_STAT. -/
def State.failedLanes (s : State) (n dir : Nat) : Nat := if dir = 0 then s.fldP (Pg.d2d n) Reg.BLK_STAT 26 16 else s.fldP (Pg.d2d n) Reg.BLK_STAT 10 0

/-- A lane marked failed in the direction's map. -/
def State.markLane (s : State) (n dir lane : Nat) : State :=
  if s.laneFailed n dir lane then s
  else
    let s := s.setP (Pg.d2d n) (laneReg dir lane) (lane % 32) (lane % 32) 1
    let k := s.failedLanes n dir + 1
    if dir = 0 then s.setP (Pg.d2d n) Reg.BLK_STAT 26 16 k else s.setP (Pg.d2d n) Reg.BLK_STAT 10 0 k

/-- BLK_STAT.WIDTH: 0 full, 1 half, 2 down, 3 training. -/
def State.linkWidth (s : State) (n : Nat) : Nat := s.fldP (Pg.d2d n) Reg.BLK_STAT 31 30

/-! ## The lane map (R356, R357, R364) -/

/-- Logical lanes of a direction: the first 1,536, or 768, carry data and the rest check bits. -/
def logicalLanes (half : Bool) : Nat := if half then 792 else 1584

/-- Whether a link runs at half width. -/
def State.halfWide (s : State) (n : Nat) : Bool := s.linkWidth n == 1

/-- A physical lane that the lane map in force marks failed: one that has failed since it last changed is not marked yet (R361). -/
def State.mapFailed (s : State) (n dir lane : Nat) : Bool := s.laneFailed n dir lane && !(s.link n).unmoved.contains (dir, lane)

/-- The good physical lanes of a direction, in ascending order: logical lane l is carried by entry l, and the entries after the last logical lane are spares. -/
def State.goodLanes (s : State) (n dir : Nat) : List Nat := (List.range 1632).filter fun k => !s.mapFailed n dir k

/-- The physical lane that carries a logical lane (R357). -/
def State.laneOf (s : State) (n dir l : Nat) : Option Nat := if l < logicalLanes (s.halfWide n) then (s.goodLanes n dir)[l]? else none

/-- The logical lane that a physical lane carries, none for a spare or a failed lane. -/
def State.logicalOf (s : State) (n dir lane : Nat) : Option Nat :=
  if s.mapFailed n dir lane then none
  else
    let l := ((List.range lane).filter fun k => !s.mapFailed n dir k).length
    if l < logicalLanes (s.halfWide n) then some l else none

/-! ## Flits on lanes (R358, R359, R364) -/

/-- Flit slots in a cycle. -/
def flitSlots (half : Bool) : Nat := if half then 24 else 48

/-- The flit slot, whether a check bit, and the bit of it that bit b of a logical lane carries. -/
def flitBit (half : Bool) (l b : Nat) : Nat × Bool × Nat :=
  if half then (if l < 768 then ((l + b) % 24, false, 32 * b + l / 24) else ((l - 768 + b) % 24, true, b))
  else if l < 1536 then ((l + 3 * b) % 48, false, 32 * b + l / 48) else ((l - 1536 + 3 * b) % 48, true, b)

/-- Whether a logical lane carries a bit of a flit slot. -/
def laneTouches (half : Bool) (l slot : Nat) : Bool := (List.range 16).any fun b => (flitBit half l b).1 == slot

/-- Physical lanes whose bit of a flit is wrong: those that have failed and are not yet moved, and those that a command names. -/
def State.wrongLanes (s : State) (n dir slot : Nat) (lanes : List Nat) : List Nat :=
  ((((s.link n).unmoved.filter fun x => x.1 == dir).map fun x => x.2) ++ lanes).eraseDups.filter fun k =>
    (s.logicalOf n dir k).any fun l => laneTouches (s.halfWide n) l slot

/-- Corrected bits of lanes, counted in the windows of 2^WIN_LOG2 cycles (R360). -/
def State.noteBits (s : State) (n dir lane k : Nat) : State :=
  let x := s.link n
  let w := s.wall / 2 ^ s.fldP (Pg.d2d n) Reg.D2D_CFG 4 0
  let old := if x.window = w then x.csum else []
  let c := ((old.find? fun q => q.1 == dir && q.2.1 == lane).elim 0 fun q => q.2.2) + k
  s.setLink n { x with window := w, csum := (dir, lane, c) :: old.filter fun q => !(q.1 == dir && q.2.1 == lane) }

/-- Corrected bits of a lane in the present window. -/
def State.laneBits (s : State) (n dir lane : Nat) : Nat :=
  let x := s.link n
  if x.window = s.wall / 2 ^ s.fldP (Pg.d2d n) Reg.D2D_CFG 4 0 then (x.csum.find? fun q => q.1 == dir && q.2.1 == lane).elim 0 fun q => q.2.2 else 0

/-- Whether a flit is lost: two or more of its bits are wrong (R359, R362). -/
def State.flitBad (s : State) (n dir slot : Nat) (lanes : List Nat) : Bool := decide (2 ≤ (s.wrongLanes n dir slot lanes).length)

/-- A flit with wrong bits crosses a link: one wrong bit is corrected and counted, two are not and D2D_UE is raised (R359 to R362). -/
def State.flitMeets (s : State) (n dir slot : Nat) (lanes : List Nat) (addr : Option Nat) : State :=
  let p := Pg.d2d n
  match s.wrongLanes n dir slot lanes with
  | [] => s
  | [k] => (s.bump p Reg.D2D_CE_CNT 1).noteBits n dir k 1
  | _ => (s.bump p Reg.D2D_UE_CNT 1).raise p .D2D_UE addr (dir * 2 ^ 31 + slot * 2 ^ 25)

end Sys2Proof.Machine
end

