-- ==== Sys2Proof/Machine/Repair.lean ====
section
/-!
DEFINITION. The repair map (R562 to R564): its entries, their addition and the rewrite of a copy.
-/
namespace Sys2Proof.Machine

/-- A repair map entry: TYPE, the fields at bytes 1 to 3, ROW, SPARE, FAILED and REASON (R308). -/
def mapEntry (type b1 b2 b3 row spare failed reason : Nat) : List Byte :=
  leBytes 1 type ++ leBytes 1 b1 ++ leBytes 1 b2 ++ leBytes 1 b3 ++ leBytes 2 row ++ leBytes 2 spare ++ leBytes 2 failed
    ++ leBytes 1 reason ++ List.replicate 5 0

/-- TYPE of an entry. -/
def entryType (e : List Byte) : Nat := leAt e 0 1

/-- A row entry of a bank that a bank entry of the map replaces (R563). -/
def superseded (l : List (List Byte)) (e : List Byte) : Bool :=
  entryType e == 1 && l.any fun x => entryType x == 2 && leAt x 1 3 == leAt e 1 3

/-- A map written over the copy that does not hold the highest valid SEQ (R562). -/
def Repairs.write (r : Repairs) (m : List (List Byte)) : Repairs :=
  let seqA := if r.a.good then r.a.seq else 0
  let seqB := if r.b.good then r.b.seq else 0
  let c : MapCopy := ⟨max seqA seqB + 1, m, true⟩
  if seqB < seqA ∨ (seqA = seqB ∧ r.a.good ∧ !r.b.good) then { r with b := c } else { r with a := c }

/-- The map rewritten: at once while the Granary is on, else it waits in its order (R550, R644). -/
def State.rewriteMap (s : State) : State :=
  if s.domainOn 202 then { s with rep := s.rep.write s.rep.current } else { s with rep := { s.rep with waiting := s.rep.waiting ++ [s.rep.current] } }

/-- The maps that wait for the Granary written, in their order (R550). -/
def State.flushMaps (s : State) : State := { s with rep := { s.rep.waiting.foldl Repairs.write s.rep with waiting := [] } }

/-- R563: an entry added, and whether it was kept. An entry that the map already holds is not added twice. -/
def State.addRepair (s : State) (e : List Byte) : State × Bool :=
  if s.rep.current.contains e then (s, true)
  else
    let l := s.rep.current
    let l := if l.length < 4096 then l else l.filter fun x => !superseded l x
    let s := { s with rep := { s.rep with current := l } }
    if l.length < 4096 then (({ s with rep := { s.rep with current := l ++ [e] } }).rewriteMap, true)
    else
      let s := s.raise Pg.grn .MAP_FULL none (0xFF000000 + entryType e)
      (s.setP Pg.grn Reg.GRN_STAT 23 23 1, false)

/-- An entry added, whether or not the map keeps it. -/
def State.noteRepair (s : State) (e : List Byte) : State := (s.addRepair e).1

end Sys2Proof.Machine
end

