-- ==== Sys2Proof/Machine/Queue.lean ====
section
/-!
DEFINITION. Descriptors and their completions (R400 to R404, R410, R413 to R416), the completion of a frame run (R406, R115), and the stop of a job (R574).
-/
namespace Sys2Proof.Machine

/-! ## Fields of a descriptor (R402, R405) -/

def Desc.field (d : Desc) (o n : Nat) : Nat := leAt d.bytes o n
def Desc.kind (d : Desc) : Nat := d.field 0 1
def Desc.flags (d : Desc) : Nat := d.field 1 1
def Desc.irq (d : Desc) : Bool := bit d.flags 0
def Desc.waits (d : Desc) : Bool := bit d.flags 1
def Desc.signals (d : Desc) : Bool := bit d.flags 2
def Desc.epoch (d : Desc) : Nat := d.field 2 1
def Desc.tag (d : Desc) : Nat := d.field 0x10 8

/-- R404: nonzero reserved bits of the header. -/
def Desc.headerBad (d : Desc) : Bool :=
  decide (8 ≤ d.flags) || d.field 3 1 != 0 || decide (4096 ≤ d.field 4 2) || decide (4096 ≤ d.field 6 2)

/-- Whether bytes of the payload outside the listed ranges are all 0. -/
def Desc.restZero (d : Desc) (used : List (Nat × Nat)) : Bool :=
  (List.range 40).all fun k => used.any (fun u => decide (u.1 ≤ 0x18 + k) && decide (0x18 + k < u.1 + u.2)) || d.field (0x18 + k) 1 == 0

/-! ## Rings -/

def ringIndex (port ring : Nat) : Nat := 16 * port + ring

def State.ring (s : State) (port ring : Nat) : Ring := s.host.rings.getD (ringIndex port ring) ⟨[], []⟩

def State.setHost (s : State) (h : HostSide) : State := { s with host := h }

def State.setRing (s : State) (port ring : Nat) (r : Ring) : State :=
  s.setHost { s.host with rings := s.host.rings.set (ringIndex port ring) r }

/-- Offset of a ring register in its port's page. -/
def ringReg (o ring : Nat) : Nat := o + 64 * ring

/-- Entries of a ring, by its CFG register. -/
def State.ringSize (s : State) (port o ring : Nat) : Nat := 2 ^ s.fldP (Pg.pcie port) (ringReg o ring) 4 0

/-- R401: the completion ring is enabled and holds a free entry. -/
def State.cqRoom (s : State) (port ring : Nat) : Bool :=
  let p := Pg.pcie port
  let n := s.ringSize port Reg.PCIE_CQq_CFG ring
  let tail := s.fldP p (ringReg Reg.PCIE_CQq_TAIL ring) 15 0
  s.fldP p (ringReg Reg.PCIE_CQq_CFG ring) 31 31 == 1 && (tail + 1) % n != s.fldP p (ringReg Reg.PCIE_CQq_HEAD ring) 15 0

/-- ERR_INFO of a PCIE page for a ring's entry. -/
def ringInfo (ring index : Nat) : Nat := ring * 2 ^ 28 + 2 ^ 27 + index % 65536

/-! ## Completing (R410, R413, R415) -/

/-- A completion joins its ring's held ones. -/
def State.hold (s : State) (d : Desc) (status info : Nat) (dup signalled : Bool) : State :=
  let r := s.ring d.port d.ring
  s.setRing d.port d.ring { r with held := r.held ++ [⟨d.tag, status, d.kind, dup, signalled, d.irq, d.index, info⟩] }

/-- A duplicate completes with the outcome of the copy that ran. -/
def State.holdDup (s : State) (d : Desc) (o : Nat × Nat) : State := s.hold d o.1 o.2 true false

/-- A descriptor that did not start completes with an error: no signal, no tag in the window. -/
def State.refuseDesc (s : State) (d : Desc) (code : Nat) : State := s.hold d code 0 false false

/-- A started descriptor completes: it signals when without error, and its tag learns its outcome, with every duplicate that waits for it. -/
def State.finish (s : State) (d : Desc) (status info : Nat) : State :=
  let sig := d.signals && status == 0
  let s := if sig then s.signal (d.field 6 2) (d.field 0xC 4) else s
  let s := s.hold d status info false sig
  if d.tag = 0 then s
  else
    let h := s.host
    let waiting := h.dups.filter fun x => x.tag == d.tag
    let s := s.setHost { h with replay := h.replay.map (fun t => if t.tag = d.tag ∧ t.outcome.isNone then { t with outcome := some (status, info) } else t),
                                dups := h.dups.filter fun x => x.tag != d.tag }
    waiting.foldl (fun s x => s.holdDup x (status, info)) s

/-- A tagged descriptor that starts enters the replay window, of which the latest 4,096 stay. -/
def State.enterWindow (s : State) (d : Desc) : State :=
  if d.tag = 0 then s
  else s.setHost { s.host with replay := (⟨d.tag, none⟩ :: s.host.replay).take 4096 }

/-- The record of a descriptor's tag in the window. -/
def State.seen (s : State) (d : Desc) : Option TagRec :=
  if d.tag = 0 then none else s.host.replay.find? fun t => t.tag == d.tag

/-! ## The frame run -/

/-- RCH_STAT.RUN of a die clears; SLOT, which is valid only while RUN is 1, is left with a value that the spec does not give (R270). -/
def State.clearRun (s : State) (d : Nat) : State :=
  if s.fldP (Pg.rch d) Reg.RCH_STAT 4 4 = 0 then s
  else
    let (k, s) := s.draw
    (s.setP (Pg.rch d) Reg.RCH_STAT 4 4 0).setP (Pg.rch d) Reg.RCH_STAT 31 24 (Config.freeNat k % 256)

/-- HUB_FRAME_STAT.RUN and the RUN bits of the dies after a run has ended. -/
def State.endRun (s : State) : State :=
  let s := s.setHost { s.host with run := none }
  let s := s.setP Pg.hub Reg.HUB_FRAME_STAT 5 5 0
  (List.range 4).foldl State.clearRun s

/-- The issuing FRAME_RUN completes with a status; INFO holds the frames completed. -/
def State.completeRun (s : State) (code : Nat) : State :=
  match s.host.run with
  | some r => if r.issuing then (s.endRun).finish r.desc code r.completed else s
  | none => s

/-- R574: a stop error's effect on the job: STOPPED with its code and frame, and the run that issues completes at the boundary at the latest. -/
def State.stopJob (s : State) (code : Nat) : State :=
  if s.fldP Pg.trade Reg.TRADE_STAT 0 0 = 1 then s
  else
    let s := s.setP Pg.trade Reg.TRADE_STAT 0 0 1
    let s := s.wrP Pg.trade Reg.TRADE_STOP_CODE (BitVec.ofNat 32 code)
    let s := s.set64 Pg.trade Reg.TRADE_STOP_FRAME_LO s.frameNum
    let s := s.setInt Pg.trade 1
    match s.host.run with
    | some r => if r.issuing ∧ r.stopCode = 0 then s.setHost { s.host with run := some { r with stopCode := code } } else s
    | none => s

end Sys2Proof.Machine
end

