-- ==== Sys2Proof/Machine/Fabric.lean ====
section
/-!
DEFINITION. Ixzen Fabric: cells and their CRC (R434 to R437), routing and multicast (R438 to R442), ports that come and go (R420, R421, R429 to R432), DL (R447),
the store and its send streams (R450, R451), and the departure of their cells.
-/
namespace Sys2Proof.Machine

/-! ## Cells -/

/-- The 96-bit header as a number. -/
def Cell.head (c : Cell) : Nat :=
  c.dst % 65536 * 2 ^ 80 + c.src % 65536 * 2 ^ 64 + c.typ % 16 * 2 ^ 60 + c.vc % 4 * 2 ^ 58 + b2n c.mc * 2 ^ 57 + c.hops % 64 * 2 ^ 51
    + c.epoch % 256 * 2 ^ 43 + c.ctx % 65536 * 2 ^ 27 + c.seq % 2 ^ 24 * 2 ^ 3 + b2n c.dl * 2 + (Nat.land c.rsv 5)

/-- Bytes 0 to 75. -/
def Cell.body (c : Cell) : List Byte := leBytes 12 c.head ++ (c.payload ++ List.replicate 64 0).take 64

/-- The 80 bytes of a cell. -/
def Cell.bytes (c : Cell) : List Byte := c.body ++ leBytes 4 c.crc

/-- R437. -/
def Cell.check (c : Cell) : Nat := crc32c ({ c with hops := 0, dl := false } : Cell).body

/-- The cell with its CRC computed afresh. -/
def Cell.sealed (c : Cell) : Cell := { c with crc := c.check }

/-- Whether a cell passes its CRC. -/
def Cell.good (c : Cell) : Bool := c.crc == c.check

/-- The cell that 80 bytes spell. -/
def Cell.ofBytes (l : List Byte) : Cell :=
  let h := leAt l 0 12
  { dst := bits h 95 80, src := bits h 79 64, typ := bits h 63 60, vc := bits h 59 58, mc := bit h 57, hops := bits h 56 51, epoch := bits h 50 43,
    ctx := bits h 42 27, seq := bits h 26 3, dl := bit h 1, rsv := Nat.land h 5, payload := (l.drop 12).take 64, crc := leAt l 76 4 }

/-- The class of R443. -/
def Cell.cls (c : Cell) : Nat := 2 * c.vc + b2n c.dl

/-- R435, R491: the channel of a TYPE; none for a reserved one. -/
def typeVc (t : Nat) : Option Nat :=
  match t with
  | 1 => some 1 | 2 => some 3 | 3 | 4 | 5 | 7 => some 2 | 6 => some 3 | 8 | 9 => some 3
  | 0xA | 0xB | 0xC | 0xD => some 0
  | _ => none

/-- R436: TYPE, VC, MC and reserved bits. -/
def Cell.wellTyped (c : Cell) : Bool :=
  typeVc c.typ == some c.vc && c.rsv == 0 && (c.typ == 0xC || c.mc == (c.typ == 8)) && (!c.mc || decide (c.dst < 4096))

/-! ## The module's place in the fleet -/

def State.node (s : State) : Nat := s.fldP Pg.rte Reg.RTE_CFG 31 16
def State.nodeValid (s : State) : Bool := s.fldP Pg.rte Reg.RTE_CFG 15 15 == 1

def State.setFab (s : State) (f : Fabric) : State := { s with fab := f }

def State.port (s : State) (p : Nat) : FabPort := s.fab.ports.getD p FabPort.fresh

def State.setPort (s : State) (p : Nat) (x : FabPort) : State := s.setFab { s.fab with ports := s.fab.ports.set p x }

/-! ## Input buffers -/

/-- A cell has left the buffers or was dropped: its input buffer entry is released when no copy of it is left (R440, R444). -/
def State.releaseCell (s : State) (a : Arrived) : State :=
  if 24 ≤ a.port ∨ (s.fab.ports.any fun x => x.queue.any fun q => q.id == a.id) ∨ (s.fab.inbox.any fun q => q.id == a.id) then s
  else
    let x := s.port a.port
    s.setPort a.port { x with released := x.released.set a.cls (x.released.getD a.cls 0 + 1) }

/-- A cell reaches the switch, or is created there. -/
def State.arrive (s : State) (port cls at_ : Nat) (direct : Option Nat) (c : Cell) : State :=
  s.setFab { s.fab with inbox := s.fab.inbox ++ [⟨s.fab.nextId, port, cls, at_, direct, c⟩], nextId := s.fab.nextId + 1 }

/-- A cell created by a local issuer: the module's node as SRC, HOPS of RTE_CFG and DL 0 (R438), sealed. -/
def State.create (s : State) (at_ : Nat) (direct : Option Nat) (c : Cell) : State :=
  s.arrive 24 c.cls at_ direct (({ c with src := s.node, hops := s.fldP Pg.rte Reg.RTE_CFG 5 0, dl := false, rsv := 0 } : Cell).sealed)

/-- An unsealed cell of a type with every other field 0. -/
def Cell.blank (typ dst : Nat) (payload : List Byte) : Cell :=
  ⟨dst, 0, typ, (typeVc typ).getD 0, false, 0, 0, 0, 0, false, 0, (payload ++ List.replicate 64 0).take 64, 0⟩

/-! ## Ports -/

/-- Good wavelengths of nine. -/
def goodWl (failed : Nat) : Nat := (List.range 9).countP fun i => !bit failed i

/-- R421: the physical wavelength of logical lane i under a map. -/
def laneWl (failed i : Nat) : Option Nat := ((List.range 9).filter fun x => !bit failed x)[i]?

/-- FAB_WL: the failed wavelengths of the receive direction and its spare. -/
def wlWord (failed : Nat) : Nat :=
  (match laneWl failed 8 with
   | some w => 2 ^ (16 + w)
   | none => 0) + failed % 512

/-- FAB_STAT.STATE of a port: its line with the overlays of R432 and R433. -/
def State.portCode (s : State) (p : Nat) : Nat :=
  if bit (s.num Pg.hub Reg.HUB_FENCE_ISO) p then 5
  else match (s.port p).line with
    | .off => 0
    | .retention => 7
    | l =>
      if s.fldP (Pg.fab p) Reg.FAB_CFG 31 31 = 1 then 6
      else if s.fldP (Pg.fab p) Reg.FAB_STAT 27 27 = 1 then 4
      else match l with
        | .training => 1
        | .full => 2
        | .half => 3
        | _ => 4

/-- R432: up for routing. -/
def State.portUp (s : State) (p : Nat) : Bool := let c := s.fldP (Pg.fab p) Reg.FAB_STAT 31 29; c == 2 || c == 3

/-- ERR_INFO of a FAB page. -/
def fabInfo (cls wl : Nat) : Nat := cls * 2 ^ 28 + wl * 2 ^ 16

/-- R432: a port has gone down: every cell queued for it is dropped and counted. -/
def State.portFell (s : State) (p : Nat) : State :=
  let q := (s.port p).queue
  let s := s.setPort p { s.port p with queue := [] }
  let s := s.bump (Pg.fab p) Reg.FAB_DOWN_DROP_CNT q.length
  let s := q.foldl State.releaseCell s
  s.raise (Pg.fab p) .PORT_DOWN none (fabInfo 0xF 0xF)

/-- FAB_STAT and FAB_WL brought up to date after a change; a change of STATE sets INT_STAT bit 1, and a fall has the effects of R432. -/
def State.portSync (s : State) (p : Nat) : State :=
  let pg := Pg.fab p
  let x := s.port p
  let was := s.fldP pg Reg.FAB_STAT 31 29
  let now := s.portCode p
  let s := s.setP pg Reg.FAB_STAT 31 29 now
  let s := (s.setP pg Reg.FAB_STAT 26 23 (goodWl x.rxFailed)).setP pg Reg.FAB_STAT 22 19 (goodWl x.txFailed)
  let s := s.wrP pg Reg.FAB_WL (BitVec.ofNat 32 (wlWord x.rxFailed))
  if was = now then s
  else
    let s := s.setInt pg 1
    if (was = 2 ∨ was = 3) ∧ now ≠ 2 ∧ now ≠ 3 then s.portFell p else s

/-- A port begins to train (R430): its wavelength maps are built anew when the training ends. -/
def State.portTrain (s : State) (p : Nat) : State :=
  let x := s.port p
  (s.setPort p { x with line := .training, bseq := 0, spoiled := 0, heard := false, ask := none, txNext := none, moved := 0, aligned := false }).portSync p

/-! ## Routing (R438 to R441, R447) -/

/-- DL of a cell queued on an output port. -/
def State.dlFor (s : State) (a : Arrived) (out : Nat) : Bool :=
  let dim := fun q => s.fldP (Pg.fab q) Reg.FAB_CFG 28 26
  let dl := if a.port < 24 ∧ dim out ≠ dim a.port then false else a.cell.dl
  dl || s.fldP (Pg.fab out) Reg.FAB_CFG 29 29 == 1

/-- A cell with its output port chosen: HOPS, DL and the queue. -/
def State.queueOn (s : State) (a : Arrived) (out : Nat) : State :=
  if a.cell.hops = 0 then (s.bump Pg.rte Reg.RTE_HOPS_DROP_CNT 1).releaseCell a
  else
    let c := { a.cell with hops := a.cell.hops - 1, dl := s.dlFor a out }
    let x := s.port out
    s.setPort out { x with queue := x.queue ++ [{ a with cell := c }] }

/-- A cell for a port that is down. -/
def State.downDrop (s : State) (a : Arrived) (p : Nat) : State := (s.bump (Pg.fab p) Reg.FAB_DOWN_DROP_CNT 1).releaseCell a

/-- Delivery to this module. -/
def State.deliverHere (s : State) (a : Arrived) : State := (s.setFab { s.fab with here := s.fab.here ++ [a] }).releaseCell a

/-- The route table entry of a node (R439). -/
def State.routeOf (s : State) (dst : Nat) : Nat := (s.rd (0x530000 + 4 * dst)).toNat

/-- The unicast branch of R438. -/
def State.routeUnicast (s : State) (a : Arrived) : State :=
  if s.nodeValid ∧ a.cell.dst = s.node then s.deliverHere a
  else
    let e := s.routeOf a.cell.dst
    let pri := bits e 4 0
    let alt := bits e 12 8
    if !bit e 31 then (s.bump Pg.rte Reg.RTE_NOROUTE_CNT 1).releaseCell a
    else if s.portUp pri then s.queueOn a pri
    else if bit e 30 ∧ s.portUp alt then s.queueOn a alt
    else s.downDrop a pri

/-- A copy of a multicast cell for a port: the cell's input buffer entry stays with the cell until its last copy has left (R440). -/
def State.queueCopy (s : State) (a : Arrived) (p : Nat) : State :=
  if !s.portUp p then s.bump (Pg.fab p) Reg.FAB_DOWN_DROP_CNT 1
  else if a.cell.hops = 0 then s.bump Pg.rte Reg.RTE_HOPS_DROP_CNT 1
  else s.queueOn a p

/-- The multicast branch (R440). -/
def State.routeGroup (s : State) (a : Arrived) : State :=
  let e := (s.rd (0x570000 + 4 * (a.cell.dst % 4096))).toNat
  if !bit e 31 then (s.bump Pg.rte Reg.RTE_NOROUTE_CNT 1).releaseCell a
  else
    let s := (List.range 24).foldl (fun s p =>
      if bit e p ∧ p ≠ a.port then s.queueCopy a p else s) s
    if bit e 24 ∧ s.nodeValid then s.deliverHere a else s.releaseCell a

/-- A cell at the switch is routed, replicated or dropped (R436, R438, R440, R492). -/
def State.routeCell (s : State) (a : Arrived) : State :=
  if !a.cell.wellTyped then (s.bump Pg.rte Reg.RTE_BAD_TYPE_CNT 1).releaseCell a
  else match a.direct with
    | some p => if s.portUp p then s.queueOn a p else s.downDrop a p
    | none => if a.cell.mc then s.routeGroup a else s.routeUnicast a

/-! ## Streams -/

def State.sendStream (s : State) (n : Nat) : SendStream := s.fab.sends.getD n SendStream.fresh

def State.recvStream (s : State) (n : Nat) : RecvStream := s.fab.recvs.getD n RecvStream.idle

def State.setSend (s : State) (n : Nat) (x : SendStream) : State := s.setFab { s.fab with sends := s.fab.sends.set n x }

def State.setRecv (s : State) (n : Nat) (x : RecvStream) : State := s.setFab { s.fab with recvs := s.fab.recvs.set n x }

/-- R457: the smoothed round trip after a sample. -/
def Timer.sample (t : Timer) (x : Nat) : Timer :=
  { t with srtt := some (match t.srtt with
    | some v => ((v : Int) + ((x : Int) - v) / 8).toNat
    | none => x) }

/-- R458: the RTO from the round trip and the RTE page's bounds. -/
def State.rtoBase (s : State) (t : Timer) : Nat :=
  let lo := s.fldP Pg.rte Reg.RTE_RTO_MIN 23 0
  let hi := max lo (s.fldP Pg.rte Reg.RTE_RTO_MAX 23 0)
  match t.srtt with
  | some v => max lo (min hi (2 * v + 512))
  | none => s.fldP Pg.rte Reg.RTE_RTO_INIT 23 0

def State.rtoOf (s : State) (t : Timer) : Nat := t.rto.getD (s.rtoBase t)

/-- The timer after its oldest unit has come due for the k-th time, k above 1: RTO doubles, up to RTE_RTO_MAX. -/
def State.dueAgain (s : State) (t : Timer) : Timer :=
  let hi := max (s.fldP Pg.rte Reg.RTE_RTO_MIN 23 0) (s.fldP Pg.rte Reg.RTE_RTO_MAX 23 0)
  { t with rto := if t.retries = 0 then t.rto else some (min hi (2 * s.rtoOf t)), retries := t.retries + 1 }

/-- RTE_RETRY.MAX and BURST. -/
def State.retryMax (s : State) : Nat := s.fldP Pg.rte Reg.RTE_RETRY 3 0
def State.retryBurst (s : State) : Nat := s.fldP Pg.rte Reg.RTE_RETRY 15 8

/-- The DATA cell of a stream's cell (R435, R511). -/
def dataCell (stream : Nat) (x : SendStream) (c : SendCell) : Cell :=
  { Cell.blank 1 x.dst c.payload with ctx := stream * 256 + x.dstream, seq := c.n, epoch := c.epoch }

/-- A cell of a send stream leaves the Sheaf at a wall cycle. -/
def State.sendCellAt (s : State) (stream n at_ : Nat) (again : Bool) : State :=
  let x := s.sendStream stream
  match x.cells.find? (fun c => c.n == n) with
  | none => s
  | some c =>
    let s := s.setSend stream { x with cells := x.cells.map fun y => if y.n = n then { y with sent := some at_, resent := y.resent || again } else y }
    s.create at_ none (dataCell stream x c)

/-- The first departure of a cell (R450). -/
def State.departCell (s : State) (stream n : Nat) : State := s.sendCellAt stream n s.wall false

/-- Bytes copied into the store (R450). -/
def State.gatherCells (s : State) (stream first n addr : Nat) : State :=
  let x := s.sendStream stream
  s.setSend stream { x with cells := x.cells.map fun c =>
    if first ≤ c.n ∧ c.n < first + n then { c with payload := s.bytesAt (addr + 64 * (c.n - first)) 64 } else c }

end Sys2Proof.Machine
end

