-- ==== Sys2Proof/Machine/Stacks.lean ====
section
/-!
DEFINITION. Stack errors, the watch table and row remapping (R299 to R309), and temperature (R290 to R296).
-/
namespace Sys2Proof.Machine

/-- The memory controller of stack n. -/
def State.stackOf (s : State) (n : Nat) : Stack := s.stk.getD n Stack.fresh

def State.setStack (s : State) (n : Nat) (t : Stack) : State := { s with stk := s.stk.set n t }

/-- The row that accesses name, of a physical row of a stack: a spare row serves the row that is mapped to it (R304, R308). -/
def logicalRow (t : Stack) (r : RowId) : RowId :=
  match t.rows.find? fun x => x.1.ch == r.ch && x.1.bank == r.bank && x.2 == r.row with
  | some x => x.1
  | none => r

/-- The stack address at which a row starts: a row of a spare bank is named by the bank that it serves. -/
def rowAddr (n : Nat) (t : Stack) (r : RowId) : Nat :=
  let l := logicalRow t r
  let bank := if l.bank < 16 then l.bank else ((t.banks.find? fun b => b.1 == l.ch).elim 0 fun b => b.2)
  stackBase n + l.row * 8388608 + bank * 524288 + l.ch * 8192

/-! ## Locations -/

/-- The row fields of R319. -/
def rowBits (r : RowId) : Nat := r.ch * 2 ^ 18 + r.bank * 2 ^ 13 + r.row

/-- The physical row that serves a stack window address now. -/
def State.physRow (s : State) (a : Nat) : RowId :=
  let l := locate a
  servedBy (s.stackOf l.stack) ⟨l.ch, l.bank, l.row⟩

/-- ERR_INFO of a MEMC page: source 0 on-die, 1 link on read, 2 link on write, 3 sensor, 4 power. -/
def memcInfo (r : RowId) (source cls : Nat) (sched : Bool) : Nat :=
  r.ch * 2 ^ 26 + r.bank * 2 ^ 21 + r.row * 2 ^ 8 + source * 2 ^ 5 + cls * 2 ^ 3 + 4 * b2n sched

/-! ## Spare rows -/

/-- Spare rows of a bank that serve a row, are the target of a remap, or are promised by a row entry of the repair map. -/
def State.spareTaken (s : State) (n : Nat) (r : RowId) (sp : Nat) : Bool :=
  let t := s.stackOf n
  t.rows.any (fun x => x.1.ch == r.ch && x.1.bank == r.bank && x.2 == sp)
    || (match t.remap with
        | some m => m.row.ch == r.ch && m.row.bank == r.bank && m.spare == sp
        | none => false)
    || s.rep.current.any (fun e => entryType e == 1 && leAt e 1 1 == n && leAt e 2 1 == r.ch && leAt e 3 1 == r.bank && leAt e 6 2 == sp)

/-- The lowest-numbered free spare row of a row's bank. -/
def State.freeSpare (s : State) (n : Nat) (r : RowId) : Option Nat :=
  ((List.range 32).map (· + 6144)).find? fun sp => !s.spareTaken n r sp

/-- R307: no free spare row remains for a row that is due. -/
def State.spareExhausted (s : State) (n : Nat) (r : RowId) : State :=
  let s := s.raise (Pg.stack n) .SPARE_EXHAUSTED none (memcInfo r 0 0 false)
  let s := s.setInt (Pg.stack n) 4
  let t := s.stackOf n
  let used := t.banks.any (fun b => b.1 == r.ch)
    || s.rep.current.any (fun e => entryType e == 2 && leAt e 1 1 == n && leAt e 2 1 == r.ch)
  if used || r.bank == 16 then s else s.noteRepair (mapEntry 2 n r.ch r.bank 0 16 0 3)

/-- R305: a physical row added to the repair map, by the row that accesses name, to be remapped at the next reset. An entry that already maps it anew stays, and
a spare row that serves no row has nothing to remap. -/
def State.mapRow (s : State) (n : Nat) (r : RowId) (reason : Nat) : State :=
  let t := s.stackOf n
  let l := logicalRow t r
  if 6144 ≤ l.row then s
  else if s.rep.current.any (fun e => entryType e == 1 && leAt e 1 1 == n && leAt e 2 1 == l.ch && leAt e 3 1 == l.bank && leAt e 4 2 == l.row
      && leAt e 6 2 != r.row) then s
  else match s.freeSpare n r with
    | some sp => s.noteRepair (mapEntry 1 n l.ch l.bank l.row sp 0 reason)
    | none => s.spareExhausted n r

/-! ## On-the-fly remap (R304) -/

/-- MEMC_REMAP_STAT as it stands. -/
def State.syncRemap (s : State) (n : Nat) : State :=
  let t := s.stackOf n
  let (st, row) := match t.remap with
    | some m => (if m.todo.isEmpty then 2 else 1, rowBits m.row)
    | none => (0, 0)
  s.wrP (Pg.stack n) Reg.MEMC_REMAP_STAT (BitVec.ofNat 32 (st * 2 ^ 30 + t.queue.length * 2 ^ 27 + row))

/-- The next queued row begins its remap, when none is under way; a row for which no spare is left gives way to the one after it (R304, R307). -/
def State.startRemapFrom (s : State) (n : Nat) : Nat → State
  | 0 => s.syncRemap n
  | k + 1 =>
    let t := s.stackOf n
    match t.remap, t.queue with
    | none, r :: q =>
      let s := s.setStack n { t with queue := q }
      (match s.freeSpare n r with
       | some sp => (s.setStack n { t with queue := q, remap := some ⟨r, sp, [0, 1, 2, 3], s.wall⟩ }).syncRemap n
       | none => (s.spareExhausted n r).startRemapFrom n k)
    | _, _ => s.syncRemap n

def State.startRemap (s : State) (n : Nat) : State := s.startRemapFrom n 5

/-- R304, R305: a row whose count has reached THRESH. -/
def State.rowDue (s : State) (n : Nat) (r : RowId) : State :=
  let t := s.stackOf n
  let busy := t.queue.contains r || (match t.remap with | some m => m.row == r | none => false)
  if s.fldP (Pg.stack n) Reg.MEMC_CFG 0 0 = 0 then s.mapRow n r 0
  else if busy then s
  else if t.queue.length < 4 then (s.setStack n { t with queue := t.queue ++ [r] }).startRemap n
  else s.mapRow n r 0

/-- One burst of the row copied to its spare. -/
def State.copyBurst (s : State) (n : Nat) (m : Remap) (b : Nat) : State :=
  (List.range 2048).foldl (fun s i =>
    let k := b * 2048 + i
    s.setCell (physKey n m.row.ch m.row.bank m.spare k) (s.memAt (physKey n m.row.ch m.row.bank m.row.row k))) s

/-- A write to a burst of the row under remap marks the burst for a further copy. -/
def State.markRemap (s : State) (a : Nat) : State :=
  if unalias a < 0x00C000000000 then
    let l := locate a
    let t := s.stackOf l.stack
    match t.remap with
    | some m =>
      if s.physRow a = m.row ∧ !m.todo.contains l.col then
        (s.setStack l.stack { t with remap := some { m with todo := m.todo ++ [l.col] } }).syncRemap l.stack
      else s
    | none => s
  else s

/-- The switch at a frame boundary of a remap whose every burst is copied: the row that accesses name is served by the new spare row. -/
def State.switchRemap (s : State) (n : Nat) : State :=
  let t := s.stackOf n
  match t.remap with
  | some m =>
    if m.todo.isEmpty then
      let l := logicalRow t m.row
      let s := s.setStack n { t with remap := none, rows := (l, m.spare) :: t.rows.filter fun x => !(x.1 == l) }
      let s := (s.bump (Pg.stack n) Reg.MEMC_REMAP_CNT 1).setInt (Pg.stack n) 3
      (s.noteRepair (mapEntry 1 n l.ch l.bank l.row m.spare 0 0)).startRemap n
    else s
  | none => s

/-! ## The watch table (R303) -/

def watchOff (n w : Nat) : Nat := (Pg.stack n).base + Reg.MEMC_WATCHw_ADDR + 8 * w

/-- Index of the entry that names a row. -/
def State.watchFind (s : State) (n : Nat) (r : RowId) : Option Nat :=
  (List.range 64).find? fun w => (s.rd (watchOff n w)).toNat == 2 ^ 30 + rowBits r

/-- The entry a new row takes: a free one, else the lowest count, the oldest among equals. -/
def State.watchVictim (s : State) (n : Nat) : Nat :=
  let t := s.stackOf n
  match (List.range 64).find? (fun w => (s.rd (watchOff n w)).toNat == 0) with
  | some w => w
  | none =>
    let key := fun w => ((s.rd (watchOff n w + 4)).toNat, t.ages.getD w 0)
    (List.range 64).foldl (fun b w =>
      let x := key w
      let y := key b
      if x.1 < y.1 ∨ (x.1 = y.1 ∧ x.2 < y.2) then w else b) 0

/-- A corrected error on a row. -/
def State.watch (s : State) (n : Nat) (r : RowId) : State :=
  let thresh := s.fldP (Pg.stack n) Reg.MEMC_CFG 19 16
  let (w, c, s) := match s.watchFind n r with
    | some w => (w, min ((s.rd (watchOff n w + 4)).toNat + 1) 0xFFFF, s)
    | none =>
      let w := s.watchVictim n
      let t := s.stackOf n
      (w, 1, s.setStack n { t with ages := t.ages.set w t.nextAge, nextAge := t.nextAge + 1 })
  let s := (s.wr (watchOff n w) (BitVec.ofNat 32 (2 ^ 30 + rowBits r))).wr (watchOff n w + 4) (BitVec.ofNat 32 c)
  if thresh ≠ 0 ∧ c = thresh then s.rowDue n r else s

/-- Every count halved; an entry that reaches 0 becomes free. -/
def State.halveWatch (s : State) (n : Nat) : State :=
  (List.range 64).foldl (fun s w =>
    let c := (s.rd (watchOff n w + 4)).toNat / 2
    let s := s.wr (watchOff n w + 4) (BitVec.ofNat 32 c)
    if c = 0 then s.wr (watchOff n w) 0 else s) s

/-! ## Errors (R300 to R302, R309) -/

/-- R309, R320: a corrected link error against its connection; a connection that reaches VC_THRESH is recorded, and its record counts on. -/
def State.linkErr (s : State) (n ch conn : Nat) : State :=
  let t := s.stackOf n
  let p := Pg.stack n
  let c := ((t.linkErrs.find? fun x => x.1 == ch && x.2.1 == conn).elim 0 fun x => x.2.2) + 1
  let s := s.setStack n { t with linkErrs := (ch, conn, c) :: t.linkErrs.filter fun x => !(x.1 == ch && x.2.1 == conn) }
  let due := decide (c = s.fldP p Reg.MEMC_CFG 15 8)
  let named := 2 ^ 31 + ch * 2 ^ 25 + conn * 2 ^ 16
  let s := if due || s.num p Reg.MEMC_VC_SUSPECT / 2 ^ 16 == named / 2 ^ 16 then s.wrP p Reg.MEMC_VC_SUSPECT (BitVec.ofNat 32 (named + min c 0xFFFF)) else s
  if due then
    let taken := fun sp => t.conns.any (fun x => x.1 == ch && x.2.2 == sp)
      || s.rep.current.any (fun e => entryType e == 3 && leAt e 1 1 == n && leAt e 2 1 == ch && leAt e 6 2 == sp)
    match ((List.range 8).map (· + 272)).find? (fun sp => !taken sp) with
    | some sp => s.noteRepair (mapEntry 3 n ch 0 0 sp conn 0)
    | none => s
  else s

/-- What an error of a burst on a physical row does: corrected ones are counted and watched, uncorrectable ones counted, raised and handled under R305 (R300 to
R302). -/
def State.rowErr (s : State) (n : Nat) (r : RowId) (burst cls : Nat) (sched write : Bool) (e : BurstErr) : State :=
  let p := Pg.stack n
  match e with
  | .onDie => if write then s else (s.bump p Reg.MEMC_CE_CNT 1).watch n r
  | .link c => ((s.bump p Reg.MEMC_LINK_CE_CNT 1).watch n r).linkErr n r.ch c.val
  | .ue link =>
    let s := s.bump p Reg.MEMC_UE_CNT 1
    let s := if write then s.raise p .MEM_WRITE_UE (some burst) (memcInfo r 2 cls sched)
      else s.raise p .MEM_UE (some burst) (memcInfo r (b2n link) cls sched)
    s.mapRow n r 1
  | .flit _ _ => s

/-- Whether an address lies in a stack, by its window or by the spread alias. -/
def stackAddr (a : Nat) : Bool := decide (unalias a < 0x00C000000000)

/-- Whether an address lies in a stack or a scratchpad, behind a die's link. -/
def dieAddr (a : Nat) : Bool := stackAddr a || (decide (spadBase 0 ≤ a) && decide (a < spadBase 4))

/-- What a burst's error does, at a stack window address; cls is the issuer's class. A flit of the burst crosses its die's link upward on a read and downward on
a write. -/
def State.burstErr (s : State) (a cls : Nat) (sched write : Bool) (e : BurstErr) : State :=
  match e with
  | .flit slot lanes => if dieAddr a then s.flitMeets (dieOf a) (b2n write) slot.val (lanes.map fun k => k.val) (some a) else s
  | e => if stackAddr a then s.rowErr (locate a).stack (s.physRow a) (unalias a / 2048 * 2048) cls sched write e else s

/-- The error with which a burst fails its issuer, none where the error is corrected (R300 to R302, R359, R362). -/
def State.burstFails (s : State) (a : Nat) (write : Bool) (e : BurstErr) : Option Nat :=
  match e with
  | .ue _ => if stackAddr a then some (errCode (if write then .MEM_WRITE_UE else .MEM_UE) .memc) else none
  | .flit slot lanes =>
    if dieAddr a ∧ s.flitBad (dieOf a) (b2n write) slot.val (lanes.map fun k => k.val) then some (errCode .D2D_UE .d2d) else none
  | _ => none

/-! ## What denies an access -/

/-- A denied access: the page that captures the error, its cause, address and information. -/
structure Denial where
  page : Page
  cause : Cause
  addr : Option Nat
  info : Nat
  deriving DecidableEq, Repr

def Denial.code (d : Denial) : Nat := errCode d.cause d.page.kind

/-- A denial captured. -/
def State.captureDenial (s : State) (d : Denial) : State := s.raise d.page d.cause d.addr d.info

/-- Addresses at which a range first reaches each stack that it reaches. -/
def stackHeads (a n : Nat) : List Nat :=
  if aliasBase ≤ a ∧ a < aliasBase + aliasBytes then
    (List.range (min 12 ((a % 2048 + n - 1) / 2048 + 1))).map fun g => if g = 0 then a else a / 2048 * 2048 + g * 2048
  else [a]

/-- Whether DRAS holds a stack (R311). -/
def State.underTest (s : State) (k : Nat) : Bool := bit (s.num (Pg.dras (k / 3)) Reg.DRAS_CTRL) (k % 3)

/-- What a die's link denies (R367, R371): the issuer's page captures a link that is down. -/
def State.linkDenial (s : State) (me : Page) (info die a : Nat) : Option Denial :=
  if !s.pageOn (Pg.d2d die) then some ⟨Pg.d2d die, .D2D_NOT_ON, some a, 0⟩
  else if s.linkWidth die = 2 then some ⟨me, .LINK_DOWN, some a, info⟩
  else none

/-- What a stack denies to an access of a class at an address that names it. -/
def State.stackDenial (s : State) (me : Page) (info cls : Nat) (sched : Bool) (a : Nat) : Option Denial :=
  let k := unalias a / 0x001000000000
  match s.linkDenial me info (k / 3) a with
  | some d => some d
  | none =>
    let i := memcInfo (s.physRow a) 4 cls sched
    if !s.domainOn (160 + k) then some ⟨Pg.stack k, .STACK_NOT_ON, some (unalias a), i⟩
    else if s.underTest k then some ⟨Pg.stack k, .DRAS_TEST_BLOCK, some (unalias a), i⟩
    else none

/-- What the stacks, or the link of a die, deny to an access of n bytes. -/
def State.blocked (s : State) (me : Page) (info cls : Nat) (sched : Bool) (a n : Nat) : Option Denial :=
  if stackAddr a then (stackHeads a n).findSome? (s.stackDenial me info cls sched)
  else if dieAddr a then s.linkDenial me info (dieOf a) a
  else none

/-! ## Accesses that a command makes -/

/-- The bursts of a range, by the address at which each begins in the range. -/
def burstsOf (a n : Nat) : List Nat :=
  if n = 0 then [] else (List.range ((a % 2048 + n - 1) / 2048 + 1)).map fun g => if g = 0 then a else a / 2048 * 2048 + g * 2048

/-- The errors that a command names for a range that it reads or writes take their effect, up to the first that fails the access. -/
def State.meet (s : State) (a n cls : Nat) (write : Bool) : State × Option Nat :=
  (burstsOf a n).foldl (fun (x : State × Option Nat) b =>
    if x.2.isSome then x
    else match x.1.meets.find? fun e => e.write == write && e.addr / 2048 == b / 2048 with
      | some e => (x.1.burstErr b cls false write e.err, x.1.burstFails b write e.err)
      | none => x) (s, none)

/-- An unscheduled read of a class by a block: denied, or served with the errors it meets; the code of an error that fails it stands in the second place. -/
def State.readFrom (s : State) (me : Page) (info a n cls : Nat) : State × Option Nat :=
  match s.blocked me info cls false a n with
  | some d => (s.captureDenial d, some d.code)
  | none => (s.served a n cls false).meet a n cls false

/-- An unscheduled write of a class by a block. -/
def State.writeTo (s : State) (me : Page) (info a n cls : Nat) : State × Option Nat :=
  match s.blocked me info cls false a n with
  | some d => (s.captureDenial d, some d.code)
  | none => (s.servedWrite a n cls).meet a n cls true

/-! ## The copies of a remap (R304, R306) -/

/-- An uncorrectable error of a copy read: the remap is abandoned, and its row handled under R305 (R306). -/
def State.abandonRemap (s : State) (n : Nat) (m : Remap) : State :=
  let t := s.stackOf n
  let s := s.setStack n { t with remap := none }
  let s := s.bump (Pg.stack n) Reg.MEMC_UE_CNT 1
  let s := s.raise (Pg.stack n) .REMAP_ABORT (some (rowAddr n t m.row)) (memcInfo m.row 0 3 false)
  (s.mapRow n m.row 1).startRemap n

/-- A copy's error where it is corrected, or a link error of its write. -/
def State.copyErr (s : State) (n : Nat) (r : RowId) (a : Nat) (write : Bool) : Option BurstErr → State
  | some e => s.rowErr n r a 3 false write e
  | none => s

/-- A copy read and a copy write of the lowest burst still to copy, in two class-3 slots, with what they meet. A write that fails leaves the burst to copy. -/
def State.remapStep (s : State) (n : Nat) (re we : Option BurstErr) : State :=
  match (s.stackOf n).remap with
  | none => s
  | some m =>
    match m.todo with
    | [] => s
    | b :: q =>
      let a := rowAddr n (s.stackOf n) m.row + 2048 * b
      let s := s.bump (Pg.stack n) (Reg.MEMC_CLASSc_CNT + 12) 1
      match re with
      | some (.ue _) => s.abandonRemap n m
      | re =>
        let s := (s.copyErr n m.row a false re).bump (Pg.stack n) (Reg.MEMC_CLASSc_CNT + 12) 1
        let s := s.copyErr n { m.row with row := m.spare } a true we
        match we with
        | some (.ue _) => s
        | _ => ((s.copyBurst n m b).setStack n { s.stackOf n with remap := some { m with todo := q, since := s.wall } }).syncRemap n

/-- The first event of a list that is an uncorrectable error. -/
def firstUe (l : List BurstEvent) : Option BurstEvent :=
  l.find? fun e => match e.err with
    | .ue _ => true
    | _ => false

/-- What burst k of an operation meets. -/
def burstEvent (ecc : List BurstEvent) (k : Nat) : Option BurstErr := (ecc.find? fun e => e.burst == k).map fun e => e.err

/-! ## Temperature (R290 to R292) -/

/-- R291: the band after a sample at T quarter degrees. -/
def bandAfter (band : Nat) (t : Int) : Nat :=
  if 420 < t then 2
  else
    let up := if 380 ≤ t then 2 else if 340 ≤ t then max band 1 else band
    let down := if t ≤ 332 then 0 else if t ≤ 372 then min up 1 else up
    down

/-- The effective band of R107 from the stacks' bands and the TRADE floor. -/
def State.effectiveBand (s : State) : Nat :=
  (List.range 12).foldl (fun b n => max b (s.fldP (Pg.stack n) Reg.MEMC_STAT 31 30)) (s.fldP Pg.trade Reg.TRADE_MODE 3 2)

end Sys2Proof.Machine
end

