-- ==== Sys2Proof/Machine/CollCore.lean ====
section
/-!
DEFINITION. Collectives (R474 to R481, R493 to R508): table entries, the geometry of a vector, the adder's combination, the passage of segments,
fingerprints, acknowledgements, and the abort and end of an instance.
-/
namespace Sys2Proof.Machine

/-- A range of device addresses left with undefined bytes, granule by granule where stacks hold it. -/
def State.fogRange (s : State) (a n : Nat) : State :=
  if n = 0 then s
  else if unalias a < 0x00C000000000 ∨ aliasBase ≤ a ∧ a < aliasBase + aliasBytes then
    (List.range ((a % 2048 + n - 1) / 2048 + 1)).foldl (fun s g =>
      let lo := if g = 0 then a else a / 2048 * 2048 + g * 2048
      let hi := min (a + n) (a / 2048 * 2048 + (g + 1) * 2048)
      s.lose (s.cell lo) (hi - lo) true) s
  else s.lose a n true

/-! ## Table entries (R474 to R477) -/

structure CollEntry where
  valid : Bool
  isMember : Bool
  root : Bool
  ring : Bool
  parent : Nat
  id : Nat
  children : Nat
  rank : Nat
  membersM1 : Nat
  next : Nat
  prev : Nat
  subs : List Nat
  deriving DecidableEq, Repr

/-- Entry i of the collective table (R475). -/
def State.collEntry (s : State) (i : Nat) : CollEntry :=
  let w := fun k => (s.rd (0x610000 + 64 * i + 4 * k)).toNat
  { valid := bit (w 0) 31, isMember := bit (w 0) 30, root := bit (w 0) 29, ring := bit (w 0) 28, parent := bits (w 0) 20 16, id := bits (w 0) 15 0,
    children := bits (w 1) 23 0, rank := bits (w 2) 31 16, membersM1 := bits (w 2) 15 0, next := bits (w 3) 31 16, prev := bits (w 3) 15 0,
    subs := (List.range 24).map fun p => if p % 2 = 0 then bits (w (4 + p / 2)) 15 0 else bits (w (4 + p / 2)) 31 16 }

/-- Child ports in ascending order, with the first rank and the members of each subtree (R476). -/
def CollEntry.childRanges (e : CollEntry) : List (Nat × Nat × Nat) :=
  ((List.range 24).foldl (fun (x : List (Nat × Nat × Nat) × Nat) p =>
    if bit e.children p then (x.1 ++ [(p, x.2, e.subs.getD p 0)], x.2 + e.subs.getD p 0) else x) ([], e.rank + b2n e.isMember)).1

/-- The check of the root (R494). -/
def CollEntry.countsAgree (e : CollEntry) : Bool :=
  b2n e.isMember + (e.childRanges.map fun c => c.2.2).sum == e.membersM1 + 1

/-! ## Geometry (R479 to R481) -/

def isSumOp (op : Nat) : Bool := op == 1 || op == 2
def isPairOp (op : Nat) : Bool := op == 5 || op == 6
def isRingOp (op : Nat) : Bool := op == 7

/-- Bits of a wire element. -/
def wireBits (op sfmt : Nat) : Nat :=
  if isSumOp op then 32 else if isPairOp op then 64 else (Fmt.ofCode sfmt).elim 8 Fmt.width

/-- Vector bytes. -/
def vectorBytes (op sfmt count members : Nat) : Nat :=
  ceilDiv ((if op = 2 ∨ op = 3 then members * count else count) * wireBits op sfmt) 8

/-- Source bytes of a member that gives. -/
def sourceBytes (op sfmt count members : Nat) : Nat :=
  if isPairOp op then 8 * count
  else ceilDiv ((if op = 2 then members * count else count) * (Fmt.ofCode sfmt).elim 8 Fmt.width) 8

/-- Destination bytes. -/
def destBytes (op sfmt dfmt count members : Nat) : Nat :=
  if isPairOp op then 8 * count
  else if op = 3 then ceilDiv (members * count * (Fmt.ofCode sfmt).elim 8 Fmt.width) 8
  else ceilDiv (count * (Fmt.ofCode dfmt).elim 8 Fmt.width) 8

/-- Members of an instance's collective. -/
def State.members (s : State) (i : Inst) : Nat := (s.collEntry i.entry).membersM1 + 1

def State.vector (s : State) (i : Inst) : Nat := vectorBytes i.op i.sfmt i.count (s.members i)

/-- Segments of the vector. -/
def State.segCount (s : State) (i : Inst) : Nat := ceilDiv (s.vector i) 4096

/-- Bytes of the vector in a segment, and its cells. -/
def State.segBytes (s : State) (i : Inst) (n : Nat) : Nat := min 4096 (s.vector i - 4096 * n)
def State.segCells (s : State) (i : Inst) (n : Nat) : Nat := ceilDiv (s.segBytes i n) 64

/-- Segments of a member's share (R481). -/
def Inst.share (i : Inst) : Nat := max 1 (i.count * wireBits i.op i.sfmt / 8 / 4096)

/-- The rank that segment n comes from or goes to: its owner, or SRANK. -/
def Inst.rankOf (i : Inst) (n : Nat) : Nat := if i.op = 4 then i.srank else n / i.share

/-- Contributors expected for a segment of a tree (R497). -/
def State.expected (s : State) (i : Inst) (n : Nat) : List Leg :=
  let e := s.collEntry i.entry
  if i.op = 3 ∨ i.op = 4 then
    let k := i.rankOf n
    (if e.isMember ∧ e.rank = k then [.own] else [])
      ++ (e.childRanges.filterMap fun c => if c.2.1 ≤ k ∧ k < c.2.1 + c.2.2 then some (.child c.1) else none)
  else (if e.isMember then [.own] else []) ++ e.childRanges.map fun c => .child c.1

/-- Whether the module's own member is due a segment's result (R500). -/
def State.ownDue (s : State) (i : Inst) (n : Nat) : Bool :=
  let e := s.collEntry i.entry
  e.isMember && (i.op != 2 || i.rankOf n == e.rank)

/-- Child legs whose subtree holds a member due the segment. -/
def State.dueLegs (s : State) (i : Inst) (n : Nat) : List Nat :=
  (s.collEntry i.entry).childRanges.filterMap fun c =>
    if i.op = 2 then (if c.2.1 ≤ i.rankOf n ∧ i.rankOf n < c.2.1 + c.2.2 then some c.1 else none) else if c.2.2 = 0 then none else some c.1

/-- Segments due to the module's own member. -/
def State.dueCount (s : State) (i : Inst) : Nat := (List.range (s.segCount i)).countP (s.ownDue i)

/-- Whether the member gives a segment. -/
def State.gives (s : State) (i : Inst) (n : Nat) : Bool := i.op == 7 || (s.expected i n).contains .own

/-- Wire cells that the member gives (R486). -/
def State.giveCells (s : State) (i : Inst) : Nat := (((List.range (s.segCount i)).filter (s.gives i)).map (s.segCells i)).sum

/-! ## The member's contribution -/

/-- Source bytes o to o + n - 1: from the store for a scheduled member, from memory for a descriptor's. -/
def State.memberBytes (s : State) (m : Member) (o n : Nat) : List Byte :=
  match m.starter with
  | .word _ _ => (m.store.drop o).take n
  | .descriptor _ => s.bytesAt (m.src + o) n

/-- A source element widened to the wire (R480, R207). -/
def widen (f : Fmt) (e : Nat) : Nat :=
  if f.isInt then unsigned 32 (signed f.width e) else if f = .fp32 then e else toFp32 (f.value e)

/-- The wire bytes of segment n of a member. -/
def State.wireOf (s : State) (i : Inst) (m : Member) (n : Nat) : List Byte :=
  let len := s.segBytes i n
  if isSumOp i.op then
    match Fmt.ofCode i.sfmt with
    | none => []
    | some f =>
      let k := len / 4
      ((unpack f.width (s.memberBytes m (1024 * n * f.width / 8) (ceilDiv (k * f.width) 8)) k).map (widen f)).flatMap (leBytes 4)
  else if i.op = 3 then s.memberBytes m (4096 * (n % i.share)) len
  else s.memberBytes m (4096 * n) len

/-- Bytes cut into cells of 64, the last padded with zeros. -/
def cellsOf (leg : Leg) (l : List Byte) : List Piece :=
  (List.range (ceilDiv l.length 64)).map fun k => ⟨leg, k, ((l.drop (64 * k)).take 64 ++ List.replicate 64 0).take 64, false⟩

/-! ## The adder (R499) -/

/-- FP32 sum of contributions: the encoding, and whether a finite sum went out of range. -/
def adderFloat (l : List Nat) : Nat × Bool :=
  let vs := l.map ofFp32
  match l with
  | [x] => (if (ofFp32 x).isNan then 0x7FC00000 else x, false)
  | _ =>
    if vs.any Ext.isNan ∨ (vs.contains (.inf true) ∧ vs.contains (.inf false)) then (0x7FC00000, false)
    else if vs.contains (.inf true) then (0xFF800000, false)
    else if vs.contains (.inf false) then (0x7F800000, false)
    else
      let t := vs.foldl Ext.add .zero
      if t.isZero then (0, false)
      else
        let r := toFp32 t
        (r, r == 0x7F800000 || r == 0xFF800000)

/-- INT32 sum of contributions. -/
def adderInt (l : List Nat) : Nat × Bool :=
  let t : Int := (l.map (signed 32)).sum
  (unsigned 32 (clampSigned 32 t), clampSigned 32 t != t)

/-- Whether pair x (value, index) beats pair y. -/
def pairBeats (max : Bool) (x y : Nat × Nat) : Bool :=
  let a := ofFp32 x.1
  let b := ofFp32 y.1
  if max then rankLt true b a || (!rankLt true a b && decide (x.2 < y.2)) else rankLt false a b || (!rankLt false b a && decide (x.2 < y.2))

/-- The winning pair. -/
def adderPair (max : Bool) (l : List (Nat × Nat)) : Nat × Nat :=
  match l with
  | [] => (0, 0)
  | x :: r => r.foldl (fun y z => if pairBeats max z y then z else y) x

/-- One cell combined from the contributors' cells. -/
def combineCell (op : Nat) (isInt : Bool) (cell : Nat) (l : List Piece) : Piece :=
  let flag := l.any fun p => p.flag
  if isSumOp op then
    let r := (List.range 16).map fun k =>
      let xs := l.map fun p => leAt p.data (4 * k) 4
      if isInt then adderInt xs else adderFloat xs
    ⟨.own, cell, (r.map fun x => x.1).flatMap (leBytes 4), flag || r.any fun x => x.2⟩
  else if isPairOp op then
    let r := (List.range 8).map fun k => adderPair (op == 5) (l.map fun p => (leAt p.data (8 * k) 4, leAt p.data (8 * k + 4) 4))
    ⟨.own, cell, r.flatMap fun x => leBytes 4 x.1 ++ leBytes 4 x.2, flag⟩
  else match l with
    | p :: _ => { p with leg := .own }
    | [] => ⟨.own, cell, List.replicate 64 0, false⟩

/-- A complete segment combined, cell by cell. -/
def State.combine (s : State) (i : Inst) (g : Segment) : List Piece :=
  (List.range (s.segCells i g.num)).map fun k => combineCell i.op ((Fmt.ofCode i.sfmt).elim false Fmt.isInt) k (g.up.filter fun p => p.cell == k)

/-! ## Delivery (R501) -/

/-- The device address that segment n of a member's result is written to. -/
def Inst.segAddr (i : Inst) (m : Member) (n : Nat) : Nat :=
  if isSumOp i.op then
    m.dst + 1024 * (if i.op = 2 then n % i.share else n) * (Fmt.ofCode m.dfmt).elim 0 Fmt.width / 8
  else m.dst + 4096 * n

/-- ERR_ADDR of an error of a segment of an instance whose member is here (the text before R514). -/
def State.segDst (s : State) (i : Inst) (n : Nat) : Option Nat :=
  match i.member with
  | some m => if n < s.segCount i then some (i.segAddr m n) else none
  | none => none

/-- The bytes of a delivered segment and their device address. -/
def State.delivery (s : State) (i : Inst) (m : Member) (g : Segment) : Nat × List Byte :=
  let wire := ((g.res.getD []).flatMap fun p => p.data).take (s.segBytes i g.num)
  if isSumOp i.op then
    match Fmt.ofCode m.dfmt with
    | none => (m.dst, [])
    | some f =>
      let isInt := (Fmt.ofCode i.sfmt).elim false Fmt.isInt
      let mode := (RMode.ofCode (bits m.mode 1 0)).getD .rne
      let es := (List.range (wire.length / 4)).map fun k =>
        let x := leAt wire (4 * k) 4
        if isInt then unsigned f.width (clampSigned f.width (signed 32 x)) else (convert f mode (bit m.mode 2) (ofFp32 x) 0).1
      (i.segAddr m g.num, pack f.width es)
  else (i.segAddr m g.num, wire)

/-! ## Instances -/

def LegState.start (leg : Leg) (sends receives : Bool) : LegState :=
  { leg := leg, sends := sends, receives := receives, rel := 0, sent := [], acked := [], timer := Timer.fresh, fp := none, done := [], fresh := 0,
    since := none, dupAt := none, relSent := 0 }

/-- The legs of an entry. -/
def CollEntry.legs (e : CollEntry) : List LegState :=
  if e.ring then [.start .next true false, .start .prev false true]
  else (if e.root then [] else [LegState.start .parent true true]) ++ e.childRanges.map fun c => .start (.child c.1) true true

/-- The 32 bytes of a fingerprint (R493). -/
def fingerprint (count op sfmt epoch topo cseq membersM1 srank window id origin rank : Nat) : List Byte :=
  leBytes 4 count ++ leBytes 1 op ++ leBytes 1 sfmt ++ leBytes 1 epoch ++ leBytes 1 topo ++ leBytes 4 cseq ++ leBytes 2 membersM1 ++ leBytes 2 srank
    ++ leBytes 2 window ++ leBytes 2 id ++ leBytes 2 origin ++ leBytes 2 rank ++ List.replicate 8 0

/-- R493: two fingerprints agree. -/
def fpAgree (x y : List Byte) : Bool := x.take 20 == y.take 20

/-- An instance as a fingerprint describes it. -/
def State.instOf (s : State) (entry : Nat) (fp : List Byte) (member : Option Member) : Inst :=
  { entry := entry, id := leAt fp 0x12 2, cseq := leAt fp 8 4, op := leAt fp 4 1, sfmt := leAt fp 5 1, count := leAt fp 0 4, epoch := leAt fp 6 1,
    srank := leAt fp 0xE 2, w := leAt fp 0x10 2, ref := none, member := member, accepted := false, waited := false, agreed := false,
    legs := (s.collEntry entry).legs, segs := [], release := 0, written := 0, flag := false, active := s.wall, aborted := false, failed := none }

/-- The fingerprint that a member of an instance creates (R494). -/
def State.ownFp (s : State) (i : Inst) : List Byte :=
  let e := s.collEntry i.entry
  fingerprint i.count i.op i.sfmt i.epoch (b2n e.ring) i.cseq e.membersM1 i.srank i.w i.id s.node e.rank

/-- INST of R491. -/
def Inst.inst (i : Inst) : Nat := i.cseq % 4

def Inst.leg (i : Inst) (l : Leg) : LegState := (i.legs.find? fun x => x.leg == l).getD (.start l false false)

def Inst.setLeg (i : Inst) (x : LegState) : Inst := { i with legs := i.legs.map fun y => if y.leg = x.leg then x else y }

/-- A segment record, fresh when the instance holds none. -/
def Inst.seg (i : Inst) (n : Nat) : Segment := (i.segs.find? fun g => g.num == n).getD ⟨n, [], none, [], none, .none, false⟩

def Inst.setSeg (i : Inst) (g : Segment) : Inst := { i with segs := g :: i.segs.filter fun x => x.num != g.num }

def State.setColl (s : State) (c : Coll) : State := { s with coll := c }

/-- The active instance of an entry. -/
def State.inst? (s : State) (entry : Nat) : Option Inst := s.coll.insts.find? fun i => i.entry == entry

/-- An active instance put in the place of the entry's. -/
def State.putInst (s : State) (i : Inst) : State :=
  s.setColl { s.coll with insts := s.coll.insts.map fun x => if x.entry = i.entry then i else x }

/-- Segment slots that instances hold (R496). -/
def State.slotsUsed (s : State) : Nat := ((s.coll.insts.filter fun i => i.accepted).map fun i => i.w).sum

/-- Store cells of scheduled members: the fingerprint and the wire cells that have not entered the adder. -/
def State.memberCells (s : State) (i : Inst) : Nat :=
  match i.member with
  | some m => (match m.starter with
    | .word _ _ => (if m.entered ∧ i.accepted then 0 else 1) + (s.giveCells i - 64 * m.taken)
    | .descriptor _ => if i.accepted then 0 else 1)
  | none => 0

/-- R451: cells in the store. -/
def State.storeUsed (s : State) : Nat :=
  (s.fab.sends.map fun x => x.cells.length).sum + ((s.coll.insts ++ s.coll.waiting).map s.memberCells).sum

def storeCells : Nat := 524288

/-! ## Cells on legs (R491, R492) -/

/-- The SEQ field of a collective cell. -/
def collSeq (top : Bool) (inst seg cell : Nat) : Nat := b2n top * 2 ^ 23 + inst * 2 ^ 21 + seg * 64 + cell

/-- A cell created for a leg. -/
def State.legCell (s : State) (i : Inst) (l : Leg) (typ seq : Nat) (payload : List Byte) : State :=
  let e := s.collEntry i.entry
  let c := { Cell.blank typ 0 payload with ctx := i.id, epoch := i.epoch, seq := seq }
  let on := fun p => s.create s.wall (some p) { c with dst := s.fldP (Pg.fab p) Reg.FAB_NBR 31 16 }
  match l with
  | .child p => on p
  | .parent => on e.parent
  | .next => s.create s.wall none { c with dst := e.next }
  | .prev => s.create s.wall none { c with dst := e.prev }
  | .own => s

/-- The fingerprint cell of a leg. -/
def State.fpCell (s : State) (i : Inst) (l : Leg) : State :=
  let agreed := match l with
    | .child _ => true
    | _ => false
  s.legCell i l 3 (collSeq false i.inst 0 0) ((i.ref.getD []) ++ [BitVec.ofNat 8 (b2n agreed)])

/-- The cells of a segment sent on a leg: CUP toward the root or to NEXT, CDN toward a child. -/
def State.segOut (s : State) (i : Inst) (l : Leg) (n : Nat) (cells : List Piece) : State :=
  let typ := match l with
    | .child _ => 5
    | _ => 4
  cells.foldl (fun s p => s.legCell i l typ (collSeq p.flag i.inst n p.cell) p.data) s

/-- A unit noted as sent on a leg; the units stand in ascending order, the fingerprint first (R503). -/
def LegState.note (x : LegState) (n : Int) (t : Nat) : LegState :=
  { x with sent := x.sent.filter (fun q => q.num < n) ++ [⟨n, t, false⟩] ++ x.sent.filter fun q => n ≤ q.num }

/-- Whether a unit was sent on a leg. -/
def LegState.sentYet (x : LegState) (n : Int) : Bool := x.acked.contains n || x.sent.any fun q => q.num == n

/-- The fingerprint sent on a leg, once. -/
def State.sendFp (s : State) (i : Inst) (l : Leg) : State × Inst :=
  let x := i.leg l
  if x.sends ∧ !x.sentYet (-1) then (s.fpCell i l, i.setLeg (x.note (-1) s.wall)) else (s, i)

/-- A segment sent on a leg, once, within the window of R498. -/
def State.sendSeg (s : State) (i : Inst) (l : Leg) (n : Nat) (cells : List Piece) : State × Inst :=
  let x := i.leg l
  if x.sends ∧ !x.sentYet n ∧ n < x.rel + i.w then (s.segOut i l n cells, i.setLeg (x.note n s.wall)) else (s, i)

/-! ## Acknowledgements (R502) -/

/-- The lowest segment not wholly received on a leg. -/
def lowestGap (l : List Nat) : Nat → Nat → Nat
  | 0, n => n
  | k + 1, n => if l.contains n then lowestGap l k (n + 1) else n

/-- A CACK sent on a leg for the direction it receives. -/
def State.cack (s : State) (i : Inst) (l : Leg) : State × Inst :=
  let x := i.leg l
  if x.receives then
    let low := lowestGap x.done x.done.length 0
    let bm := (List.range 480).foldl (fun n k => if x.done.contains (low + 1 + k) then n + 2 ^ k else n) 0
    let down := match l with
      | .parent => true
      | _ => false
    let s := s.legCell i l 6 (collSeq down i.inst low 0) (leBytes 60 bm ++ leBytes 2 i.release ++ leBytes 1 (b2n x.fp.isSome) ++ [0])
    (s, i.setLeg { x with fresh := 0, since := none, relSent := i.release })
  else (s, i)

/-- A CACK for a duplicate, at most once in 256 cycles. -/
def State.cackDup (s : State) (i : Inst) (l : Leg) : State × Inst :=
  let x := i.leg l
  if (match x.dupAt with
    | some t => decide (s.wall < t + 256)
    | none => false) then (s, i)
  else s.cack (i.setLeg { x with dupAt := some s.wall }) l

/-- A segment has become complete from a leg. -/
def State.legDone (s : State) (i : Inst) (l : Leg) (n : Nat) : State × Inst :=
  let x := i.leg l
  let x := { x with done := n :: x.done, fresh := x.fresh + 1, since := some (x.since.getD s.wall) }
  let i := i.setLeg x
  if 8 ≤ x.fresh then s.cack i l else (s, i)

/-! ## Segments pass through (R498, R500) -/

/-- Whether the expected contributors' masks cover a segment. -/
def State.complete (s : State) (i : Inst) (g : Segment) : Bool :=
  let ex := s.expected i g.num
  !ex.isEmpty && ex.all fun l => g.up.countP (fun p => p.leg == l) == s.segCells i g.num

/-- Where the source bytes of segment n of a member lie: their offset and number. -/
def State.sourceSpan (s : State) (i : Inst) (n : Nat) : Nat × Nat :=
  let len := s.segBytes i n
  if isSumOp i.op then
    let w := (Fmt.ofCode i.sfmt).elim 8 Fmt.width
    (1024 * n * w / 8, ceilDiv (len / 4 * w) 8)
  else if i.op = 3 then (4096 * (n % i.share), len)
  else (4096 * n, len)

/-- The member's contribution to a segment enters the adder, once it is ready; a descriptor's source is read as class-2 traffic (R483), and
a read that fails leaves the segment out and fails the instance. -/
def State.contribute (s : State) (i : Inst) (n : Nat) : State × Inst :=
  match i.member with
  | none => (s, i)
  | some m =>
    let g := i.seg n
    if s.gives i n ∧ m.taken < m.ready ∧ !(g.up.any fun p => p.leg == .own) then
      let span := s.sourceSpan i n
      match (match m.starter with
        | .descriptor _ => s.readFrom Pg.coll (i.id * 65536) (m.src + span.1) span.2 2
        | .word _ _ => (s, none)) with
      | (s, some code) => (s, { i with failed := some (code, n) })
      | (s, none) => (s, { i.setSeg { g with up := g.up ++ cellsOf .own (s.wireOf i m n) } with member := some { m with taken := m.taken + 1 } })
    else (s, i)

/-- One segment of a tree moves on as far as it can. -/
def State.stepTree (s : State) (i : Inst) (n : Nat) : State × Inst :=
  let e := s.collEntry i.entry
  let (s, i) := s.contribute i n
  let g := i.seg n
  let g := if g.sum.isNone ∧ s.complete i g then { g with sum := some (s.combine i g) } else g
  let g := if e.root ∧ g.res.isNone then { g with res := g.sum } else g
  let g := if g.res.isSome ∧ g.dlv = .none ∧ i.agreed ∧ s.ownDue i n then { g with dlv := .pending } else g
  let i := i.setSeg g
  let (s, i) := match g.sum with
    | some c => if e.root then (s, i) else s.sendSeg i .parent n c
    | none => (s, i)
  let due := s.dueLegs i n
  let (s, i) := match g.res with
    | some c => due.foldl (fun (x : State × Inst) p => x.1.sendSeg x.2 (.child p) n c) (s, i)
    | none => (s, i)
  let acked := fun l => (i.leg l).acked.contains (n : Int)
  let upDone := (s.expected i n).isEmpty || (g.sum.isSome && (e.root || acked .parent))
  let downDone := (due.isEmpty && !s.ownDue i n)
    || (g.res.isSome && due.all (fun p => acked (.child p)) && (!s.ownDue i n || g.dlv == .written))
  (s, if upDone ∧ downDone then i.setSeg { i.seg n with freed := true } else i)

/-- One segment of a ring. -/
def State.stepRing (s : State) (i : Inst) (n : Nat) : State × Inst :=
  let (s, i) := s.contribute i n
  let g := i.seg n
  let g := if g.res.isNone ∧ g.down.length = s.segCells i n then { g with res := some g.down } else g
  let g := if g.res.isSome ∧ g.dlv = .none ∧ i.agreed then { g with dlv := .pending } else g
  let i := i.setSeg g
  let own := g.up.filter fun p => p.leg == .own
  let (s, i) := if own.isEmpty then (s, i) else s.sendSeg i .next n own
  (s, if (i.leg .next).acked.contains (n : Int) ∧ g.dlv = .written then i.setSeg { i.seg n with freed := true } else i)

/-- The release point moves past freed segments, whose records go. -/
def Inst.advance (i : Inst) : Nat → Inst
  | 0 => i
  | k + 1 => if (i.seg i.release).freed then Inst.advance { i with release := i.release + 1, segs := i.segs.filter fun g => g.num != i.release } k else i

/-- Every segment of the window moves on; while the release point moves, so does the window. -/
def State.pump (s : State) (i : Inst) : Nat → State × Inst
  | 0 => (s, i)
  | k + 1 =>
    if !i.accepted then (s, i)
    else
      let stop := min (s.segCount i) (i.release + i.w)
      let (s, j) := ((List.range stop).filter fun n => i.release ≤ n).foldl (fun (x : State × Inst) n =>
        if (s.collEntry i.entry).ring then x.1.stepRing x.2 n else x.1.stepTree x.2 n) (s, i)
      let j := j.advance i.w
      if j.release = i.release then (s, j) else s.pump j k

/-- CACKs that the movement of the release point makes due. -/
def State.relCacks (s : State) (i : Inst) : State × Inst :=
  i.legs.foldl (fun (x : State × Inst) l =>
    if l.receives ∧ i.w ≤ 2 * (i.release - (x.2.leg l.leg).relSent) ∧ (x.2.leg l.leg).relSent < i.release then x.1.cack x.2 l.leg else x) (s, i)

/-! ## Ends -/

/-- Whether the member's DST is wholly written. -/
def State.whole (s : State) (i : Inst) : Bool := i.written == s.dueCount i

/-- The completion INFO of a COLLECTIVE descriptor (R483). -/
def State.collInfo (s : State) (i : Inst) (m : Member) : Nat :=
  let total := destBytes i.op i.sfmt m.dfmt i.count (s.members i)
  (if s.whole i then total else min total (i.written * 4096)) + b2n i.flag * 2 ^ 63

/-- A COLLECTIVE descriptor completes. -/
def State.finishColl (s : State) (i : Inst) (m : Member) (status : Nat) : State :=
  match m.starter with
  | .descriptor d =>
    if s.host.jobs.any (fun j => j.desc == d) then
      (s.setHost { s.host with jobs := s.host.jobs.filter fun j => j.desc != d }).finish d status (s.collInfo i m)
    else s
  | .word _ _ => s

/-- The next instance that waits for an entry becomes active; one that a child's fingerprint made is joined. -/
def State.nextInst (s : State) (entry : Nat) : State :=
  match s.coll.waiting.find? fun i => i.entry == entry with
  | some i =>
    if (s.inst? entry).isSome then s
    else s.setColl { s.coll with insts := s.coll.insts ++ [{ i with active := s.wall }], waiting := s.coll.waiting.erase i }
  | none => s

/-- An instance leaves the active ones and is remembered as its entry's latest. -/
def State.retireInst (s : State) (i : Inst) : State :=
  (s.setColl { s.coll with insts := s.coll.insts.filter fun x => x.entry != i.entry,
                           ended := i :: s.coll.ended.filter fun x => x.entry != i.entry }).nextInst i.entry

/-- Whether an instance has ended: every slot freed and every unit it sent acknowledged. -/
def State.over (s : State) (i : Inst) : Bool :=
  i.agreed && i.release == s.segCount i && i.legs.all fun l => l.sent.isEmpty

/-- What a warm reset leaves of the collectives: the latest instance of each entry for its status words, which count since cold reset (R517); one that the
reset ended stands as aborted, and none answers cells any more (log entry 91). -/
def Coll.remembered (c : Coll) : Coll :=
  let cut := c.insts.map fun i => { i with aborted := true }
  let old := c.ended.filter fun i => !(cut.any fun j => j.entry == i.entry)
  { Coll.fresh with ended := (cut ++ old).map fun i => { i with legs := [], segs := [] } }

/-! ## Aborts (R504 to R508) -/

/-- The CABT payload (R506). -/
def abortPayload (code detector : Nat) (suspect : Option Nat) (cseq : Nat) (fp : List Byte) : List Byte :=
  leBytes 2 code ++ leBytes 2 detector ++ leBytes 2 (suspect.getD 0) ++ leBytes 1 (b2n suspect.isSome) ++ [0] ++ leBytes 4 cseq ++ List.replicate 4 0
    ++ (fp ++ List.replicate 32 0).take 32

/-- A CABT sent on a leg, and set to be sent again 4,096 cycles later. -/
def State.sendAbort (s : State) (i : Inst) (l : Leg) (payload : List Byte) : State :=
  let n := s.fab.inbox.length
  let s := s.legCell i l 7 (collSeq false i.inst 0 0) payload
  match s.fab.inbox[n]? with
  | some a => s.setColl { s.coll with aborts := s.coll.aborts ++ [⟨s.wall + 4096, a.direct, a.cell⟩] }
  | none => s

/-- R507: the abort log. -/
def State.logAbort (s : State) (i : Inst) (code detector : Nat) (suspect : Option Nat) (fp : List Byte) : State :=
  let p := Pg.coll
  let s := s.wrP p Reg.COLL_ABT_INFO (BitVec.ofNat 32 (code * 65536 + i.id))
  let s := s.wrP p Reg.COLL_ABT_NODE (BitVec.ofNat 32 (detector * 65536 + suspect.getD 0))
  let s := s.wrP p Reg.COLL_ABT_CSEQ (BitVec.ofNat 32 i.cseq)
  let s := s.wrP p Reg.COLL_ABT_STAT (BitVec.ofNat 32 (2 * b2n suspect.isSome + 1))
  let s := (List.range 8).foldl (fun s n => s.wrP p (Reg.COLL_ABT_FPn + 4 * n) (BitVec.ofNat 32 (leAt fp (4 * n) 4))) s
  s.setInt p 1

/-- What an abort of an instance does at this module, but for the instance's leaving: it is counted, the legs get CABTs but the one by which the abort came,
and a member whose DST is not wholly written raises and logs it and completes. `seg` is the segment that the abort concerns, when there is one. -/
def State.tellAbort (s : State) (i : Inst) (code detector : Nat) (suspect : Option Nat) (fp : List Byte) (but : Option Leg) (seg : Option Nat) : State :=
  let s := s.bump Pg.coll Reg.COLL_ABORT_CNT 1
  let payload := abortPayload code detector suspect i.cseq fp
  let s := i.legs.foldl (fun s l => if some l.leg = but then s else s.sendAbort i l.leg payload) s
  match i.member with
    | some m =>
      if s.whole i then s
      else
        let s := s.logAbort i code detector suspect fp
        let s := s.raise Pg.coll ⟨code / 4096, code % 64⟩ (seg.bind (s.segDst i)) (i.id * 65536 + suspect.getD 0)
        let s := if code = errCode .FP_MISMATCH .coll then s else s.fogRange m.dst (destBytes i.op i.sfmt m.dfmt i.count (s.members i))
        s.finishColl i m code
    | none => s

/-- An instance aborts at this module; the frame's abort is the caller's. -/
def State.abortInst (s : State) (i : Inst) (code detector : Nat) (suspect : Option Nat) (fp : List Byte) (but : Option Leg) (seg : Option Nat) : State :=
  (s.tellAbort i code detector suspect fp but seg).retireInst { i with aborted := true }

/-- Whether an instance was started by a schedule word of a frame and is not wholly written. -/
def State.ofFrame (s : State) (i : Inst) : Bool :=
  match i.member with
  | some m => (match m.starter with
    | .word _ _ => !s.whole i
    | .descriptor _ => false)
  | none => false

/-- Instances of schedule words that are not wholly written abort, those that wait included (R508). -/
def State.abortScheduled (s : State) (c : Cause) : State :=
  let code := errCode c .coll
  let own := some s.node
  let s := (s.coll.waiting.filter s.ofFrame).foldl (fun s i =>
    (s.setColl { s.coll with waiting := s.coll.waiting.erase i }).tellAbort i code s.node own (s.ownFp i) none none) s
  (s.coll.insts.filter s.ofFrame).foldl (fun s i => s.abortInst i code s.node own (s.ownFp i) none none) s

/-- The collectives of a frame that aborts for another reason (R508). -/
def State.abortCollectives (s : State) : State := s.abortScheduled .FRAME_ABORT

/-! ## A member's part -/

/-- An instance's member changed, whether the instance is active or waits. -/
def State.mapMember (s : State) (entry cseq : Nat) (f : Inst → Member → Inst) : State :=
  let g := fun (i : Inst) => if i.entry = entry ∧ i.cseq = cseq then (match i.member with
    | some m => f i m
    | none => i) else i
  s.setColl { s.coll with insts := s.coll.insts.map g, waiting := s.coll.waiting.map g }

/-- Source bytes copied into the store. -/
def State.collectBytes (s : State) (entry cseq addr n : Nat) : State :=
  s.mapMember entry cseq fun i m => { i with member := some { m with store := m.store ++ s.bytesAt addr n } }

/-- The fingerprints present at an adder are compared, the reference passes up, and the root answers (R494, R495); an abort stands in the second place: its
cause, its suspect and the fingerprint. -/
def State.checkFps (s : State) (i : Inst) : State × Inst × Option (Cause × Nat × List Byte) :=
  let e := s.collEntry i.entry
  let own := match i.member with
    | some m => if m.entered then some (s.ownFp i) else none
    | none => none
  let kids := (i.legs.filter fun l => match l.leg with
    | .child _ => true
    | _ => false)
  let i := if i.ref.isSome then i else { i with ref := if e.isMember then own else (kids.head?.bind fun l => l.fp) }
  match i.ref with
  | none => (s, i, none)
  | some r =>
    if e.ring then
      let (s, i) := s.sendFp i .next
      (match (i.leg .prev).fp with
       | some f => if fpAgree f r then (s, { i with agreed := true }, none) else (s, i, some (.FP_MISMATCH, leAt f 0x14 2, f))
       | none => (s, i, none))
    else
      match kids.find? (fun l => l.fp.elim false fun f => !fpAgree f r) with
      | some l => (s, i, some (.FP_MISMATCH, leAt (l.fp.getD []) 0x14 2, l.fp.getD []))
      | none =>
        if kids.all fun l => l.fp.isSome then
          if e.root then
            if !e.countsAgree then (s, i, some (.TOPOLOGY, s.node, r))
            else
              let (s, i) := kids.foldl (fun (x : State × Inst) l => x.1.sendFp x.2 l.leg) (s, i)
              (s, { i with agreed := true }, none)
          else
            let (s, i) := s.sendFp i .parent
            (s, i, none)
        else (s, i, none)

/-- Segments up to n of a member may enter the adder, with its fingerprint; the abort of a mismatch is left to the reader of the result. -/
def State.enterMember (s : State) (entry cseq n : Nat) : State :=
  s.mapMember entry cseq fun i m => { i with member := some { m with entered := true, ready := max m.ready n } }

/-- An instance after any change: segments move, CACKs fall due, and the instance ends when nothing is left to do. An access to its source or destination that
has failed aborts it with the access's error, and with it the frame of a scheduled member, whose code stands in the second place: the error is carried to the
one that would have consumed the data (the text after R302). -/
def State.settleInst (s : State) (i : Inst) : State × Option Nat :=
  let (s, i) := if i.failed.isSome then (s, i) else s.pump i (s.segCount i + 1)
  match i.failed with
  | some (code, n) =>
    let s := s.putInst i
    let hit := s.ofFrame i
    (s.abortInst i code s.node (some s.node) (s.ownFp i) none (some n), if hit then some code else none)
  | none =>
    let (s, i) := s.relCacks i
    (if s.over i then (s.bump64 Pg.coll Reg.COLL_INST_CNT_LO 1).retireInst i else s.putInst i, none)

/-- An instance after a fingerprint or a member's cells have come: it aborts on a mismatch, or moves on. The code of an abort that the frame of a scheduled
member must share stands in the second place. -/
def State.touchInst (s : State) (i : Inst) : State × Option Nat :=
  let (s, i, bad) := s.checkFps i
  match bad with
  | some (c, suspect, fp) =>
    let s := if c = .FP_MISMATCH then s.bump Pg.coll Reg.COLL_FP_MISMATCH_CNT 1 else s
    let code := errCode c .coll
    let s := s.putInst i
    let hit := s.ofFrame i
    (s.abortInst i code s.node (some suspect) fp none none, if hit then some code else none)
  | none => s.settleInst i

/-- Instances whose member has entered the adder and whose reference is not set yet, touched. -/
def State.touchFresh (s : State) : State × Option Nat :=
  (s.coll.insts.filter fun i => i.ref.isNone && i.member.any fun m => m.entered).foldl (fun (x : State × Option Nat) i =>
    let r := x.1.touchInst i
    (r.1, match x.2 with
      | some c => some c
      | none => r.2)) (s, none)

/-- The active instance of an entry touched, and then those that its end made active. -/
def State.touchEntry (s : State) (entry : Nat) : State × Option Nat :=
  match s.inst? entry with
  | some i =>
    let r := s.touchInst i
    let q := r.1.touchFresh
    (q.1, match r.2 with
      | some c => some c
      | none => q.2)
  | none => s.touchFresh

/-- An instance of this module's member begins: it joins one that a child's fingerprint has made, waits for an active one of its entry, or becomes active. -/
def State.beginInst (s : State) (i : Inst) : State :=
  match s.inst? i.entry with
  | some j =>
    if j.member.isSome then s.setColl { s.coll with waiting := s.coll.waiting ++ [i] }
    else s.putInst { i with legs := j.legs }
  | none => s.setColl { s.coll with insts := s.coll.insts ++ [i] }

end Sys2Proof.Machine
end

