-- ==== Sys2Proof/Machine/TillerUnit.lean ====
section
/-!
DEFINITION. What a Tiller computes: pair codes (R135), tile layouts (R130 to R134), sum passes (R136 to R142), maxima and minima with index (R147 to
R150), and the fields of its words (R152, R153).
-/
namespace Sys2Proof.Machine

/-- One row of R135. -/
structure PairCode where
  a : Fmt
  b : Fmt
  k : Nat
  int : Bool
  fp16 : Bool
  deriving DecidableEq, Repr

def PairCode.mx (p : PairCode) : Bool := p.a.isMx

/-- R135; none for a reserved code. -/
def pairCode (c : Nat) : Option PairCode :=
  match c with
  | 0x00 => some ⟨.e2m1, .e2m1, 256, false, true⟩
  | 0x01 => some ⟨.mxFp4, .mxFp4, 256, false, true⟩
  | 0x02 => some ⟨.e4m3, .e4m3, 128, false, true⟩
  | 0x03 => some ⟨.e4m3, .e5m2, 128, false, true⟩
  | 0x04 => some ⟨.e5m2, .e4m3, 128, false, true⟩
  | 0x05 => some ⟨.e5m2, .e5m2, 128, false, true⟩
  | 0x06 => some ⟨.mxE4m3, .mxE4m3, 128, false, true⟩
  | 0x07 => some ⟨.mxE4m3, .mxE5m2, 128, false, true⟩
  | 0x08 => some ⟨.mxE5m2, .mxE4m3, 128, false, true⟩
  | 0x09 => some ⟨.mxE5m2, .mxE5m2, 128, false, true⟩
  | 0x0A => some ⟨.mxInt8, .mxInt8, 128, false, true⟩
  | 0x0B => some ⟨.bf16, .bf16, 64, false, false⟩
  | 0x0C => some ⟨.fp16, .fp16, 64, false, true⟩
  | 0x10 => some ⟨.int8, .int8, 128, true, false⟩
  | 0x11 => some ⟨.int4, .int4, 256, true, false⟩
  | _ => none

/-- The fields of a pass word (R152). -/
structure PassArgs where
  aOff : Nat
  m : Nat
  gran : Nat
  bsel : Nat
  pair : Nat
  acc : Nat
  sreg : Nat
  cb : Nat
  rsv : Nat
  deriving DecidableEq, Repr

def passArgs (a : BitVec 88) : PassArgs :=
  let n := a.toNat
  ⟨bits n 87 64 * 16, 16 * (bits n 63 60 + 1), bits n 59 52, bits n 51 51, bits n 50 46, bits n 45 44, bits n 43 36,
   bits n 35 12, bits n 11 0⟩

/-- The fields of a LOAD_B word (R153). -/
structure LoadBArgs where
  bOff : Nat
  bsOff : Nat
  bsel : Nat
  mx : Bool
  rsv : Nat
  deriving DecidableEq, Repr

def loadBArgs (a : BitVec 88) : LoadBArgs :=
  let n := a.toNat
  ⟨bits n 87 64 * 16, bits n 63 40 * 16, bits n 39 39, bit n 38, bits n 37 0⟩

/-- OP codes of R151 that are sum passes. -/
def isSumPass (op : Nat) : Bool := op == 1 || op == 2 || op == 7

/-- OP codes of R151 that are passes. -/
def isPass (op : Nat) : Bool := decide (1 ≤ op) && decide (op ≤ 7)

/-- Row stride of the A or source tile (R130). -/
def aStride (op : Nat) (p : PassArgs) : Nat :=
  if isSumPass op then (match pairCode p.pair with
    | some c => if c.mx then 144 else 128
    | none => 128)
  else if p.acc = 1 then 256 else 512

/-- Bytes of one row of the accumulator tile, or of a record (R134, R149). -/
def accRow (op : Nat) (p : PassArgs) : Nat :=
  if isSumPass op then (if p.acc = 1 then 256 else 512) else 8

/-- Scratchpad offset of the accumulator or record tile of a logical Tiller (R127, R128). -/
def accOff (logical : Nat) (p : PassArgs) : Nat := logical * 0x200000 + p.gran * 0x1000

/-- The exact pass product p(i, j) of R136. -/
def passProduct (c : PairCode) (arow btile bscale : List Byte) (j : Nat) : Ext :=
  let col := (btile.drop (128 * j)).take 128
  (List.range c.k).foldl (fun s k =>
    let a := c.a.value (elemAt c.a.width arow k)
    let b := c.b.value (elemAt c.b.width col k)
    let a := if c.mx then a.scaleE8 (arow.getD (128 + k / 32) 0).toNat else a
    let b := if c.mx then b.scaleE8 (bscale.getD (8 * j + k / 32) 0).toNat else b
    s.add (a.mul b)) .zero

/-- The exact integer pass product. -/
def intProduct (c : PairCode) (arow btile : List Byte) (j : Nat) : Int :=
  let col := (btile.drop (128 * j)).take 128
  (List.range c.k).foldl (fun s k =>
    s + signed c.a.width (elemAt c.a.width arow k) * signed c.b.width (elemAt c.b.width col k)) 0

/-- One element of a floating-point accumulation (R137, R138). -/
def accFloat (f : Fmt) (stored : Ext) (p : Ext) : Nat := (convert f .rne false (stored.add p) 0).1

/-- One element of an integer accumulation (R140, R162, R164): the clamped element, and whether the exact one is out of range. -/
def accInt (replay : Bool) (scale : Nat) (stored p : Int) : Nat × Bool :=
  let t := (if replay then rneShr stored 2 else stored) + rneShr p scale
  let v := clampSigned 32 t
  (unsigned 32 v, decide (t ≠ v))

/-- One row of a sum pass: its bytes, and whether an element saturates. -/
def sumRow (p : Pass) (arow old : List Byte) : List Byte × Bool :=
  let w := passArgs p.args
  match pairCode w.pair with
  | none => (old, false)
  | some c =>
    if w.acc = 2 then
      let es := (List.range 128).map fun j =>
        let st := if p.op = 2 then 0 else signed 32 (leAt old (4 * j) 4)
        accInt p.replay p.scale st (intProduct c arow p.btile j)
      (es.flatMap fun e => leBytes 4 e.1, es.any fun e => e.2)
    else
      let f := if w.acc = 1 then Fmt.fp16 else Fmt.fp32
      let n := if w.acc = 1 then 2 else 4
      ((List.range 128).flatMap fun j =>
        let st := if p.op = 2 then Ext.zero else f.value (leAt old (n * j) n)
        leBytes n (accFloat f st (passProduct c arow p.btile p.bscale j)), false)

/-- The value of one source element of a max or min pass (R150). -/
def sourceValue (acc scale : Nat) (row : List Byte) (j : Nat) : Ext :=
  if acc = 1 then Fmt.fp16.value (leAt row (2 * j) 2)
  else if acc = 2 then (Fmt.int32.value (leAt row (4 * j) 4)).mulPow scale
  else Fmt.fp32.value (leAt row (4 * j) 4)

/-- x wins over y: it ranks above for a maximum, below for a minimum, NaN winning either way (R148). -/
def beats (isMax : Bool) (x y : Ext) : Bool := if isMax then rankLt true y x else rankLt false x y

/-- The winner among the columns 1 to n after column 0: the best value at its lowest column. -/
def bestColumn (isMax : Bool) (acc scale : Nat) (row : List Byte) : Nat → Ext × Nat
  | 0 => (sourceValue acc scale row 0, 0)
  | n + 1 =>
    let b := bestColumn isMax acc scale row n
    let x := sourceValue acc scale row (n + 1)
    if beats isMax x b.1 then (x, n + 1) else b

/-- The FP32 encoding of a stored candidate (R150). -/
def recordBits (x : Ext) : Nat := (convert .fp32 .rne false x 0).1

/-- One row of a max or min pass (R147 to R150). -/
def rankRow (p : Pass) (row old : List Byte) : List Byte :=
  let w := passArgs p.args
  let isMax := p.op == 3 || p.op == 5
  let init := p.op == 5 || p.op == 6
  let (v, j) := bestColumn isMax w.acc p.scale row 127
  let x := w.cb * 128 + j
  let cand := leBytes 4 (recordBits v) ++ leBytes 4 x
  if init then cand
  else
    let rv := Fmt.fp32.value (leAt old 0 4)
    let ri := leAt old 4 4
    if beats isMax v rv then cand
    else if beats isMax rv v then old.take 8
    else if x < ri then cand else old.take 8

/-- One row of a pass, from its A or source row and the stored row. -/
def passRow (p : Pass) (arow old : List Byte) : List Byte × Bool :=
  if isSumPass p.op then sumRow p arow old else (rankRow p arow old, false)

end Sys2Proof.Machine
end

