-- ==== Sys2Proof/Machine/Frames.lean ====
section
/-!
DEFINITION. Schedule time: the regions of a frame (R70 to R74), freezes and slip (R76 to R79), results that become visible at their published cycles (R88),
Tiller commits with saturation replay (R158 to R165), reads of operations in flight, aborts (R115), and the passing of wall time.
-/
namespace Sys2Proof.Machine

/-! ## Regions of a frame -/

/-- FRAME_LEN as the register states it (R70). -/
def State.frameLen (s : State) : Nat := 2 ^ s.fldP Pg.hub Reg.HUB_FRAME_CFG 4 0

/-- RW of R74. -/
def refreshWindow (len band : Nat) : Nat := len / 128 * 2 ^ band

/-- The last stamp of the schedulable span (R73). -/
def lastStamp (len : Nat) : Nat := len - 257

/-- Whether an image frame runs and has not aborted. -/
def State.issuing (s : State) : Bool := s.eng.frame.kind == .image && !s.eng.frame.aborted

def State.frozen (s : State) : Bool := !s.eng.frame.frozen.isEmpty

/-- DIE_MASK of the running slot. -/
def State.runMask (s : State) : Nat :=
  match s.slot? s.eng.frame.slot with
  | some x => x.dieMask
  | none => 0

/-! ## Losing what an abort leaves unspecified (R115) -/

/-- Scratchpad ranges an output of a chain covers, with its scales. -/
def outputRanges (p : ChainPlan) (o : ChainOut) : List (Nat × Nat) :=
  match Fmt.ofCode o.fmt with
  | none => []
  | some f =>
    ((List.range (wayCount f.width)).map fun q => (o.off + q * o.wstr * 0x80000, wayBytes f (p.outLen o) q))
      ++ (if f.isMx then [(o.xoff, ceilDiv (p.outLen o) 32)] else [])

/-- Device address ranges that operations in flight write, but for a Culm's SREC and LRE, which keep their contents, and for a Culm operation whose span has
not begun, which has written nothing (R347). -/
def State.pendingRanges (s : State) : List (Nat × Nat) :=
  (s.eng.due.filterMap fun d => match d.eff with
    | .bytes a l => some (a, l.length)
    | .half a _ => some (a, 1)
    | .copy _ a n _ _ _ => some (a, n)
    | .put _ small _ a l => if small then none else some (a, l.length)
    | _ => none)
  ++ (s.eng.passes.map fun p =>
      let w := passArgs p.args
      (spadBase p.die + accOff p.logical w, w.m * accRow p.op w))
  ++ (s.eng.chains.flatMap fun c =>
      let p := chainPlan c.words
      (p.outs.flatMap (outputRanges p)).map (fun r => (spadBase c.die + r.1, r.2))
        ++ (if p.head.rnd = 2 then [(spadBase c.die + p.head.soff, 64 + 64 * p.cycles)] else []))
  ++ (s.eng.moves.map fun m => (m.dst, m.len))

/-! ## Idle accounting (R534 to R536) -/

/-- Frozen or idle cycles counted for one die under a cause. -/
def State.countIdle (s : State) (die cause n : Nat) : State :=
  if n = 0 then s else s.bump64 Pg.idle (Reg.IDLE_Dd_CNTc_LO + 0x80 * die + 8 * cause) n

/-- Idle cause of a freeze reason (R78). -/
def FreezeReason.cause : FreezeReason → Nat
  | .replay => 4 | .peerLate => 0 | .dependency => 1 | .hostWait => 2 | .degraded => 6

/-- Which of two freezes counts a cycle: the one that began first, then the table's order, then the lower die (R78, R535). -/
def Freeze.before (x y : Freeze) : Bool :=
  decide (x.began < y.began) || (x.began == y.began && (decide (x.reason.rank < y.reason.rank)
    || (x.reason.rank == y.reason.rank && decide (x.die ≤ y.die))))

/-- A freeze put in its place in the order of counting. -/
def insertFreeze (x : Freeze) : List Freeze → List Freeze
  | [] => [x]
  | y :: r => if y.before x then y :: insertFreeze x r else x :: y :: r

/-- The frozen cycles from cur to stop counted, each once; only while a FRAME_RUN issues, and not in a recovery span (R535, R536). -/
def State.countFreezes (s : State) (l : List Freeze) (cur stop : Nat) : State :=
  match l with
  | [] => s
  | f :: r =>
    let e := min stop (f.stop.getD stop)
    let n := e - max cur f.began
    let s := if s.eng.frame.recovering.isNone then s.countIdle f.die f.reason.cause n else s
    s.countFreezes r (max cur e) stop

/-- Wall cycle at which the present freezes began. -/
def Frame.freezeStart (f : Frame) : Nat := (f.frozen.headD ⟨.replay, 0, 0, none, .timed, none⟩).began

/-- The end of the present freezes, when every one has a known end. -/
def Frame.freezeEnd (f : Frame) : Option Nat :=
  f.frozen.foldl (fun e x => match e, x.stop with
    | some a, some b => some (max a b)
    | _, _ => none) (some 0)

/-- R115: the wall cycle in which the stretch would exceed STRETCH_MAX. -/
def Frame.abortAt (f : Frame) : Nat :=
  (((f.freezeStart : Int) + 256 + f.trim + f.stretchMax - f.slip).toNat)

/-! ## Aborts (R115) -/

/-- The engines with nothing in flight. -/
def Engines.stopped (e : Engines) : Engines := { e with due := [], passes := [], chains := [], moves := [], culms := [] }

/-- Cycles for which a link has held the counter by a wall cycle, in the present freezes (R365). -/
def Frame.linkFrozen (f : Frame) (n wall : Nat) : Nat :=
  ((f.frozen.filter fun x => x.reason == .degraded && x.die == n).map fun x => min wall (x.stop.getD wall) - x.began).sum

/-- The freezes end at a wall cycle: their cycles are counted and added to the slip. -/
def State.endFreezes (s : State) (wall : Nat) : State :=
  let f := s.eng.frame
  if f.frozen.isEmpty then s
  else
    let s := (List.range 4).foldl (fun (s : State) n => s.bump (Pg.d2d n) Reg.D2D_FREEZE_CNT (f.linkFrozen n wall)) s
    let s := s.countFreezes f.frozen f.freezeStart wall
    let f := s.eng.frame
    { s with wall := max s.wall wall, eng := { s.eng with frame := { f with slip := f.slip + (wall - f.freezeStart), frozen := [] } } }

/-- Copies into the store and departures that an aborted frame's sends still owe, done at the abort. -/
def State.flushSends (s : State) (due : List Due) : State :=
  let s := due.foldl (fun s d => match d.eff with
    | .gather st f n a => s.gatherCells st f n a
    | _ => s) s
  due.foldl (fun s d => match d.eff with
    | .depart st n => s.departCell st n
    | _ => s) s

/-- The frame aborts with the effects of R115; the error itself is already raised. -/
def State.abortFrame (s : State) (code : Nat) : State :=
  if s.issuing then
    let peerLate := s.eng.frame.frozen.any fun f => f.reason == .peerLate
    let ranges := s.pendingRanges
    let late := s.eng.due
    let s := s.endFreezes s.wall
    let mask := s.runMask
    let s := { s with eng := { s.eng.stopped with frame := { s.eng.frame with aborted := true, abortCode := code } } }
    let s := ranges.foldl (fun s r => s.fogRange r.1 r.2) s
    let s := s.setP Pg.hub Reg.HUB_FRAME_STAT 6 6 1
    let s := if errClass code = 7 ∨ (code = errCode .STRETCH_EXCEEDED .hub ∧ peerLate) then
        s.setFrame { s.eng.frame with recovering := some s.wall, recoverMask := mask }
      else s
    -- Cells of sends that have issued still leave (R459); the instances of the frame abort unless one of them aborted it (R508).
    let s := s.flushSends late
    let s := s.completeRun code
    if code / 64 % 64 = PageKind.coll.code then s else s.abortCollectives
  else s

/-! ## Effects -/

/-- Offers a statistics record to its die's ring: it takes its SEQ and waits for delivery (R220, R222). -/
def State.offerRecord (s : State) (die : Nat) (data : List Byte) : State :=
  let seq := s.eng.statSeq.getD die 0
  { s with eng := { s.eng with statSeq := s.eng.statSeq.set die (seq + 1) },
           records := s.records ++ [(die, data.take 4 ++ leBytes 4 seq ++ data.drop 8)] }

/-- A write of scheduled data, with the remap mark of R304. -/
def State.store (s : State) (a : Nat) (l : List Byte) : State :=
  let s := s.write a l
  if unalias a < 0x00C000000000 then
    (List.range ((a % 2048 + l.length + 2047) / 2048)).foldl (fun s g => s.markRemap (a / 2048 * 2048 + g * 2048)) s
  else s

/-- Errors that R574 calls stop errors, by cause. -/
def stopError (code : Nat) : Bool :=
  let c := code / 4096
  let v := code % 64
  (c == 4 && (v == 0xA || v == 0xB || v == 0xC)) || (c == 5 && v == 5)

/-- An error raised by code, in a page, with the stop of R574 where it is a stop error. -/
def State.raiseCode (s : State) (p : Page) (code : Nat) (addr : Option Nat) (info : Nat) : State :=
  let s := s.raise p ⟨code / 4096, code % 64⟩ addr info
  if stopError code then s.stopJob code else s

/-- A granule of a scheduled write: a resident image refuses it, and the writer's page captures the error (R97). -/
def State.putGranule (s : State) (w : Writer) (a : Nat) (l : List Byte) : State :=
  if l.isEmpty then s
  else if s.readOnly a l.length then s.raise w.page .IMAGE_RO (some a) w.info
  else s.store a l

/-- A scheduled write of a named writer, granule by granule. -/
def State.putFrom (s : State) (w : Writer) (a : Nat) (l : List Byte) : State :=
  (List.range ((a % 2048 + l.length + 2047) / 2048)).foldl (fun s g =>
    let lo := if g = 0 then 0 else g * 2048 - a % 2048
    s.putGranule w (a + lo) ((l.drop lo).take ((g + 1) * 2048 - a % 2048 - lo))) s

/-- The last byte of a list in which it holds one 4-bit element: the high half stays as it is in memory (R131, R240). -/
def State.withHalf (s : State) (a : Nat) (l : List Byte) : List Byte :=
  if l.isEmpty then l else l.dropLast ++ [(s.byteAt (a + l.length - 1) &&& 0xF0#8) ||| (l.getLastD 0 &&& 0x0F#8)]

/-- A scheduled access that a stack under test, or a link, refuses: there is no issuer to answer, so the frame that would have used the data aborts (the text after
R302, R311, R367). -/
def State.frameDenied (s : State) (d : Denial) : State := if s.issuing then (s.captureDenial d).abortFrame d.code else s

/-- One effect takes place. -/
def State.apply (s : State) (e : Effect) : State :=
  match e with
  | .bytes a l => s.store a l
  | .sreg d n v => s.setSreg d n v
  | .count64 o n => s.bump64At o n
  | .count32 o n => s.bumpAt o n
  | .int p b => s.setInt p b
  | .copy a d n v w out =>
    (match s.blocked w.page w.info 0 true a n with
     | some x => s.frameDenied x
     | none => { s with eng := { s.eng with due := s.eng.due ++ [⟨v, if out then .put w false false d (s.bytesAt a n) else .bytes d (s.bytesAt a n)⟩] } })
  | .burst a w e =>
    let bad := s.burstFails a w e
    let s := s.burstErr a 0 true w e
    (match bad with
     | some code => s.abortFrame code
     | none => s)
  | .event c n => s.signal c n
  | .stats d l => s.offerRecord d l
  | .abort p code a i g =>
    if s.issuing then
      let s := match g with
        | some w => s.wrP Pg.trade Reg.TRADE_GUARD_LAST (BitVec.ofNat 32 w)
        | none => s
      (s.raiseCode p code a i).abortFrame code
    else s
  | .raise p code a i => s.raiseCode p code a i
  | .gather st f n a => s.gatherCells st f n a
  | .depart st n => s.departCell st n
  | .half a v => s.store a [(s.byteAt a &&& 0xF0#8) ||| (v &&& 0x0F#8)]
  | .ends _ _ => s
  | .put w _ h a l =>
    (match s.blocked w.page w.info 0 true a l.length with
     | some x => s.frameDenied x
     | none => s.putFrom w a (if h then s.withHalf a l else l))
  | .collect e q a n => s.collectBytes e q a n
  | .enter e q n =>
    let s := s.enterMember e q n
    (match s.touchEntry e with
     | (s, some code) => s.abortFrame code
     | (s, none) => s)

/-- Order of effects that fall due in one cycle: aborts, then results, then records: Culm before Awn before Tiller, by unit (R221). -/
def Effect.order : Effect → Nat
  | .abort _ _ _ _ _ | .burst _ _ _ => 0
  | .copy _ _ _ _ _ _ | .gather _ _ _ _ | .collect _ _ _ _ => 10000
  | .stats _ l => 2 + (3 - leAt l 0 1 / 16) * 256 + leAt l 3 1
  | _ => 1

def insertDue (x : Due) : List Due → List Due
  | [] => [x]
  | y :: r => if y.eff.order ≤ x.eff.order then y :: insertDue x r else x :: y :: r

/-- An effect set to fall due. -/
def State.later (s : State) (cycle : Nat) (e : Effect) : State :=
  { s with eng := { s.eng with due := s.eng.due ++ [⟨cycle, e⟩] } }

/-- An effect set to fall due in each of some pages. -/
def State.laterEach (s : State) (cycle : Nat) (l : List Page) (f : Page → Effect) : State := l.foldl (fun s p => s.later cycle (f p)) s

/-- Bytes set to become visible; where half, the last holds one 4-bit element and its high half is not written (R131, R240). -/
def State.laterBytes (s : State) (cycle a : Nat) (l : List Byte) (half : Bool) : State :=
  if half then (s.later cycle (.bytes a l.dropLast)).later cycle (.half (a + l.length - 1) (l.getLastD 0)) else s.later cycle (.bytes a l)

/-- Whether an effect is a read of the present cycle. -/
def Effect.isRead : Effect → Bool
  | .copy _ _ _ _ _ _ | .gather _ _ _ _ | .collect _ _ _ _ => true
  | _ => false

/-- The effects due by the present cycle that are reads, or that are not, take place. -/
def State.settlePart (s : State) (reads : Bool) : State :=
  let c := s.eng.frame.count
  let hit := fun (d : Due) => decide (d.at_ ≤ c) && d.eff.isRead == reads
  let now := s.eng.due.filter hit
  let s := { s with eng := { s.eng with due := s.eng.due.filter fun d => !hit d } }
  ((now.foldl (fun l d => insertDue d l) []).map fun d => d.eff).foldl State.apply s

/-- The reads due by the present cycle, unless the frame has aborted in it. -/
def State.settleReads (s : State) : State := if s.issuing then s.settlePart true else s

/-- Every effect due by the present cycle takes place. -/
def State.settle (s : State) : State := (s.settlePart false).settleReads

/-! ## Tiller passes -/

/-- ERR_INFO of a TLR page (R180). -/
def tlrInfo (gran row logical : Nat) : Nat := gran * 2 ^ 24 + row * 2 ^ 16 + logical

/-- The commit cycle D (R159). -/
def Pass.commitAt (p : Pass) : Nat := p.stamp + (passArgs p.args).m + 144

/-- Device address of row i of a pass's accumulator or record tile. -/
def Pass.rowAddr (p : Pass) (i : Nat) : Nat :=
  let w := passArgs p.args
  spadBase p.die + accOff p.logical w + i * accRow p.op w

/-- The reads of a pass at offset o from its issue (R94): the row of A and the accumulator row o - 128, whose new row is then known. DESIGN CHOICE (log entry
81): a row reads as it stands at its booked cycle (R156), also where an earlier pass on the same tile has not yet committed (R88). -/
def State.passReads (s : State) (p : Pass) (o : Nat) : Pass :=
  let w := passArgs p.args
  let p := if o < w.m then
      let st := aStride p.op w
      { p with arows := p.arows ++ [s.bytesAt (spadBase p.die + w.aOff + o * st) st] }
    else p
  let p := if 128 ≤ o ∧ o - 128 < w.m then
      let i := o - 128
      let r := passRow p (p.arows.getD i []) (s.bytesAt (p.rowAddr i) (accRow p.op w))
      { p with out := p.out ++ r.1, satRow := if r.2 ∧ p.satRow.isNone then some i else p.satRow }
    else p
  { p with step := o + 1 }

/-- The reads of a pass that fall at stamps below a limit, from its next one on. -/
def State.passUntil (s : State) : Nat → Pass → Nat → Pass
  | 0, p, _ => p
  | n + 1, p, limit =>
    if p.stamp + p.step < limit ∧ p.step < (passArgs p.args).m + 128 then s.passUntil n (s.passReads p p.step) limit else p

/-- A squashed pass made ready for its replay, which re-issues at a wall cycle. -/
def Pass.reset (p : Pass) (wall : Nat) : Pass := { p with step := 0, arows := [], out := [], satRow := none, redo := some wall }

/-- The row operations of replayed passes that fall in the freeze up to a wall cycle (R161). -/
def State.replayReads (s : State) (wall : Nat) : State :=
  { s with eng := { s.eng with passes := s.eng.passes.map fun p => match p.redo with
    | some r => s.passUntil 400 p (min s.eng.frame.count (p.stamp + (wall + 1 - r)))
    | none => p } }

/-- The replayed passes go on at their booked stamps. -/
def State.endReplays (s : State) : State :=
  { s with eng := { s.eng with passes := s.eng.passes.map fun p => { p with redo := none } } }

/-- Wall time passes in a freeze. -/
def State.waitTo (s : State) (wall : Nat) : State := { s.replayReads wall with wall := wall }

/-- The latest saturation of a Tiller (R177). -/
def State.lastSat (s : State) (pg : Page) (p : Pass) (scale : Nat) : State :=
  (s.wrP pg Reg.TLR_LAST_SAT (BitVec.ofNat 32 ((passArgs p.args).gran * 2 ^ 24 + p.satRow.getD 0 * 2 ^ 16 + scale * 2 ^ 8 + p.logical))).wrP pg
    Reg.TLR_LAST_SAT_STAMP (BitVec.ofNat 32 p.commitAt)

/-- R160 to R162: pass p saturates at the present cycle with a scale below 30. A Guarded pair replays together (R571). -/
def State.startReplay (s : State) (p : Pass) : State :=
  let d := p.commitAt
  let m := (passArgs p.args).m
  let hit := fun (q : Pass) => q.die == p.die && q.phys == p.phys && decide (p.stamp ≤ q.stamp) && decide (q.stamp < d)
  let squashed := s.eng.passes.countP hit
  let redo := fun (q : Pass) =>
    if hit q then
      let q := q.reset (s.wall + 8 + (q.stamp - p.stamp))
      if q.stamp = p.stamp then { q with replay := true, scale := p.scale + 2 } else q
    else q
  let s := { s with eng := { s.eng with passes := s.eng.passes.map redo } }
  let s := (s.tillerPages p.die p.phys p.logical).foldl (fun (s : State) pg =>
    let s := (s.bump pg Reg.TLR_REPLAY_CNT 1).bump pg Reg.TLR_SQUASH_CNT squashed
    (s.lastSat pg p (p.scale + 2)).setInt pg 1) s
  let f := s.eng.frame
  s.setFrame { f with frozen := insertFreeze ⟨.replay, p.die, s.wall, some (s.wall + m + 152), .timed, some p.word⟩ f.frozen }

/-- A pass commits: its rows, descriptor and counters become visible (R144, R162, R164). In Guarded mode the shadow commits with it, and an error is the
executing Tiller's (R571). -/
def State.commitPass (s : State) (p : Pass) : State :=
  let w := passArgs p.args
  let pg := Pg.tlr p.die p.phys
  let s := { s with eng := { s.eng with passes := s.eng.passes.filter fun q => !(q.die == p.die && q.logical == p.logical && q.stamp == p.stamp) } }
  let s := s.store (p.rowAddr 0) p.out
  let pages := s.tillerPages p.die p.phys p.logical
  let s := pages.foldl (fun (s : State) g => s.bump64 g Reg.TLR_PASS_CNT_LO 1) s
  let s := if isSumPass p.op ∧ w.acc = 2 then
      let reps := s.tdesc p.die p.logical w.gran / 256
      let reps := if p.op = 2 then 0 else reps
      let reps := if p.replay then min (reps + 1) 255 else reps
      s.setTdesc p.die p.logical w.gran (p.scale + 256 * reps)
    else s
  match p.satRow with
  | some r =>
    let s := s.bump pg Reg.TLR_SATLIM_CNT 1
    let s := pages.foldl (fun (s : State) g => s.lastSat g p 30) s
    s.raise pg .SAT_LIMIT (some (p.rowAddr r)) (tlrInfo w.gran r p.logical)
  | none => s

/-- Whether a pass at its commit begins a replay. -/
def Pass.mustReplay (p : Pass) : Bool := p.satRow.isSome && !p.replay && decide (p.scale < 30)

/-- The passes that reach their commit at the present cycle: those that saturate freeze the counter; else all commit. -/
def State.commits (s : State) : State :=
  let c := s.eng.frame.count
  let due := s.eng.passes.filter fun p => p.commitAt == c
  let sat := due.filter Pass.mustReplay
  if sat.isEmpty then due.foldl State.commitPass s else sat.foldl State.startReplay s

/-! ## Reads of operations in flight -/

/-- The passes read what they read at the present cycle. -/
def State.readPasses (s : State) : State :=
  let c := s.eng.frame.count
  { s with eng := { s.eng with passes := s.eng.passes.map fun p =>
      if p.stamp + p.step = c ∧ p.step < (passArgs p.args).m + 128 then s.passReads p p.step else p } }

/-- The B-tile loads read what they read at the present cycle: 512 bytes of the tile in each of 32 cycles, then the scale block in two (R154). -/
def State.readLoad (s : State) (b : BBuf) : BBuf :=
  if b.stamp + b.step ≠ s.eng.frame.count then b
  else if b.step < 32 then { b with data := b.data ++ s.bytesAt (b.off + 512 * b.step) 512, step := b.step + 1 }
  else match b.soff with
    | some a => if b.step < 34 then { b with scales := b.scales ++ s.bytesAt (a + 512 * (b.step - 32)) 512, step := b.step + 1 } else b
    | none => b

def State.readLoads (s : State) : State := { s with eng := { s.eng with bbufs := s.eng.bbufs.map s.readLoad } }

/-- The next read of a B-tile load, none when it has read everything. -/
def BBuf.nextRead (b : BBuf) : Option Nat :=
  if b.step < 32 ∨ (b.soff.isSome ∧ b.step < 34) then some (b.stamp + b.step) else none

/-- ERR_INFO of an AWN page (R266): the word of the chain, the stage or 0xF, and the chain cycle at detection, which counts from the issue (R229). -/
def awnInfo (word stage cycle : Nat) : Nat := word * 2 ^ 28 + stage * 2 ^ 24 + cycle

/-- The scratchpad offset of the byte that holds only an output's last element, where an output has an odd count of 4-bit elements (R131). -/
def ChainPlan.halfByte (p : ChainPlan) (o : ChainOut) : Option Nat :=
  match Fmt.ofCode o.fmt with
  | some f => if f.width = 4 ∧ p.outLen o % 2 = 1 then some (wayAddr o.off o.wstr 4 (p.outLen o - 1)) else none
  | none => none

/-- The results of a chain that has read its last chunk, set to become visible (R240, R247, R256, R258). -/
def State.finishChain (s : State) (c : Chain) : State :=
  let p := chainPlan c.words
  let pg := Pg.awn c.die c.unit
  let n := p.cycles
  let vis := c.stamp + n + p.delay
  let g := s.gen pg
  let r := chainResult c g
  let halves := p.outs.filterMap fun o => p.halfByte o
  let s := r.writes.foldl (fun s w => s.laterBytes vis (spadBase c.die + w.1) w.2 (halves.contains (w.1 + w.2.length - 1))) s
  let s := s.laterEach vis (s.awnPages c.die c.unit) fun a => .count64 (a.base + Reg.AWN_CHAIN_CNT_LO) 1
  let s := s.laterEach vis (s.awnPages c.die c.unit) fun a => .count64 (a.base + Reg.AWN_ELEM_CNT_LO) p.head.len
  let s := s.later (if p.head.rnd = 2 then vis + 1 else vis) (.ends pg p.head.rnd)
  let s := if r.draws = 0 then s else s.later vis (.count64 (pg.base + Reg.AWN_DRAW_CNT_LO) r.draws)
  let s := r.counts.foldl (fun (s : State) (q : ChainOut × Counts) =>
    let base := spadBase c.die + q.1.off
    let blk := ((p.outs.zip c.thresh).find? fun x => x.1 == q.1).elim [] fun x => x.2
    let word := 1 + p.head.nin + p.outs.findIdx fun x => x == q.1
    let th : Nat := if q.1.ten then threshBits q.2 blk else 0
    let s := s.later vis (.stats c.die (chaffRecord 2 1 q.1.fmt c.die c.unit s.frameNum base q.2 th))
    if th ≠ 0 ∧ s.prot = 2 then s.later vis (.raise pg (errCode .CHAFF_THRESHOLD .awn) (some base) (awnInfo word 0xF (n + p.delay))) else s) s
  let s := if p.head.rnd = 2 then
      let bytes := segmentBits n r.bits
      let at_ := spadBase c.die + p.head.soff
      let s := s.later (vis + 1) (.bytes at_ (segmentHeader p bytes s.frameNum c.die c.unit ++ bytes))
      s.later (vis + 1) (.count32 (pg.base + Reg.AWN_STREAM_REC_CNT) 1)
    else s
  if p.head.rnd = 3 ∧ leAt c.stream 12 4 ≠ crc32c (c.stream.drop 64) then
    let s := s.later (c.stamp + n + 8) (.count32 (pg.base + Reg.AWN_STREAM_ERR_CNT) 1)
    let s := s.later (c.stamp + n + 8) (.int pg 1)
    s.later (c.stamp + n + 8) (.abort pg (errCode .STREAM_MISMATCH .awn) (some (spadBase c.die + p.head.soff)) (awnInfo 0 0xF (n + 8)) none)
  else s

/-- A chain with the chunks of its present cycle read (R239, R257). -/
def State.chainRead (s : State) (c : Chain) (p : ChainPlan) : Chain :=
  if p.cycles ≤ c.step then c
  else
    let chunks := p.ins.map (s.readChunk c.die p c.step)
    let so := spadBase c.die + p.head.soff
    { c with
      inputs := if c.step = 0 then chunks else (c.inputs.zip chunks).map fun q => q.1 ++ q.2
      stream := if p.head.rnd = 3 then (if c.step = 0 then s.bytesAt so 128 else c.stream ++ s.bytesAt (so + 64 + 64 * c.step) 64) else [] }

/-- One chain works at the present cycle: it reads its next chunks, and a chunk passes its random consumer (R252). -/
def State.readChain (s : State) (c : Chain) : State :=
  let p := chainPlan c.words
  if c.stamp + c.step ≠ s.eng.frame.count then { s with eng := { s.eng with chains := s.eng.chains ++ [c] } }
  else
    let c := s.chainRead c p
    let c := { c with walls := if p.passDelay ≤ c.step then c.walls ++ [s.wall] else c.walls, step := c.step + 1 }
    if c.step = p.cycles + p.passDelay then s.finishChain c else { s with eng := { s.eng with chains := s.eng.chains ++ [c] } }

def State.readChains (s : State) : State :=
  s.eng.chains.foldl State.readChain { s with eng := { s.eng with chains := [] } }

/-- One mover word reads the piece of the present cycle; after its last piece the whole copy is set to become visible, piece by piece (R283). -/
def State.readMove (s : State) (m : Move) : State :=
  if m.stamp + m.step ≠ s.eng.frame.count then { s with eng := { s.eng with moves := s.eng.moves ++ [m] } }
  else
    let data := s.bytesAt (m.src + 512 * m.step) 512
    let s := s.later (m.visible + m.step) (.bytes (m.dst + 512 * m.step) data)
    if (m.step + 1) * 512 < m.len then { s with eng := { s.eng with moves := s.eng.moves ++ [{ m with step := m.step + 1 }] } } else s

def State.readMoves (s : State) : State :=
  s.eng.moves.foldl State.readMove { s with eng := { s.eng with moves := [] } }

/-- ERR_INFO of a CULM page (R348). -/
def State.culmInfo (s : State) (op : Nat) : Nat := op * 2 ^ 24 + s.eng.frame.index

/-- A Culm operation computes from memory as it stands at the start of its span; its results are set to become visible at span end + 64. -/
def State.runCulm (s : State) (c : CulmOp) : State :=
  let b := culmBlock (c.block.take 128)
  let prog := blocksOf 8 b.mlen (c.block.drop 128)
  let pg := Pg.culm c.die c.unit
  match (culmBursts c.op b prog).head?.bind fun a => s.blocked pg (s.culmInfo c.op) 0 true a 1 with
  | some x => s.frameDenied x
  | none =>
  let r := culmResult s c.op b prog c.scale ⟨s.gen pg, s.free, s.wall⟩
  let s := if r.draws = 0 then s else { s with free := s.free + 1 }
  let vis := c.stop + 64
  let s := (s.later vis (.count64 (pg.base + Reg.CULM_OP_CNT_LO) 1)).later vis (.ends pg c.op)
  match r.invalid with
  | _ :: _ => r.invalid.foldl (fun s e => s.raise pg e.1 (some e.2) (s.culmInfo c.op)) s
  | [] =>
    let half := (Fmt.ofCode b.fmtD).any (fun f => f.width == 4 && !f.isMx) && b.n % 2 == 1
    let small := fun (a : Nat) => (c.op == 1 && a == b.lre) || (c.op == 2 && a == b.srec)
    let s := r.writes.foldl (fun s w =>
      s.later vis (.put ⟨pg, s.culmInfo c.op⟩ (small w.1) (half && c.op == 5 && w.1 == b.d) w.1 w.2)) s
    let s := s.later vis (.count64 (pg.base + Reg.CULM_ELEM_CNT_LO) b.n)
    let s := if r.draws = 0 then s else s.later vis (.count64 (pg.base + Reg.CULM_DRAW_CNT_LO) r.draws)
    let s := if r.applied then s.later vis (.count32 (pg.base + Reg.CULM_OPT_CNT) 1) else s
    let s := if r.calibrated then
        (s.later vis (.count32 (pg.base + Reg.CULM_CAL_CNT) 1)).later vis (.int pg 2)
      else s
    match r.record with
    | some (kind, fmt, base, cnt) =>
      let th : Nat := if b.ten then threshBits cnt (s.bytesAt b.tblk 16) else 0
      let s := s.later vis (.stats c.die (chaffRecord 3 kind fmt c.die c.unit s.frameNum base cnt th))
      if th ≠ 0 ∧ s.prot = 2 then s.later vis (.raise pg (errCode .CHAFF_THRESHOLD .culm) (some base) (s.culmInfo c.op)) else s
    | none => s

/-- Culm operations whose span starts now. -/
def State.readCulms (s : State) : State :=
  let now := fun (c : CulmOp) => 40 * (culmArgs c.args).fslot == s.eng.frame.count
  let due := s.eng.culms.filter now
  due.foldl State.runCulm { s with eng := { s.eng with culms := s.eng.culms.filter fun c => !now c } }

/-! ## Links at half width (R365) -/

/-- Flits that a schedule cycle books on one direction. -/
def Link.booked (l : Link) (dir c : Nat) : Nat :=
  ((l.books.filter fun b => b.dir == dir && decide (b.start ≤ c) && decide (c < b.stop)).map fun b => b.amount).sum

/-- The word that booked flits for a schedule cycle. -/
def Link.bookedWord (l : Link) (c : Nat) : Option Nat :=
  (l.books.find? fun b => decide (b.start ≤ c) && decide (c < b.stop)).map fun b => b.word

/-- The wall cycle in which the last flit booked for cycle c crosses a link that has fallen, 24 to a cycle from its resumption. -/
def Link.crossed (l : Link) (c wall : Nat) : Nat :=
  let a := max (l.booked 0 c) (l.booked 1 c)
  if a = 0 then wall else max wall (l.resume.getD wall) + (ceilDiv a 24 - 1)

/-- The first booked schedule cycle of a fallen link above c. -/
def Link.nextBooked (l : Link) (c : Nat) : Option Nat :=
  l.books.foldl (fun m b =>
    let x := max (c + 1) b.start
    if x < b.stop then (match m with
      | some y => some (min x y)
      | none => some x) else m) none

/-- The counter freezes for a link whose flits of the present cycle have not crossed. -/
def State.degraded (s : State) : State :=
  let c := s.eng.frame.count
  (List.range 4).foldl (fun s n =>
    let l := s.link n
    if l.resume.isSome ∧ l.served ≤ c then
      let e := l.crossed c s.wall
      let s := s.setLink n { l with served := c + 1 }
      if s.wall < e then
        let f := s.eng.frame
        s.setFrame { f with frozen := insertFreeze ⟨.degraded, n, s.wall, some e, .timed, l.bookedWord c⟩ f.frozen }
      else s
    else s) s

/-- Every read of the present cycle. -/
def State.reads (s : State) : State := (s.readPasses.readLoads.readChains.readMoves).readCulms

/-- What happens at the present schedule cycle before its words issue: results become visible, passes commit, and unless a freeze holds the counter, the
operations in flight read. -/
def State.cycleWork (s : State) : State :=
  let s := s.degraded.settlePart false
  if s.issuing then
    let s := s.commits
    if s.frozen then s
    else
      let s := s.settleReads
      s.reads
  else s

/-! ## The counter advances -/

/-- The least element of a list above a bound. -/
def nextAbove (c : Nat) (l : List Nat) : Option Nat :=
  l.foldl (fun m x => if x ≤ c then m else match m with
    | some y => some (min x y)
    | none => some x) none

/-- The next schedule cycle after the present one at which an engine does something. -/
def State.nextEvent (s : State) : Option Nat :=
  let c := s.eng.frame.count
  nextAbove c
    (s.eng.due.map (fun d => d.at_) ++ s.eng.passes.map (fun p => p.commitAt)
      ++ s.eng.passes.map (fun p => if p.step < (passArgs p.args).m + 128 then p.stamp + p.step else 0)
      ++ s.eng.bbufs.filterMap BBuf.nextRead ++ s.eng.chains.map (fun x => x.stamp + x.step) ++ s.eng.moves.map (fun x => x.stamp + x.step)
      ++ s.eng.culms.map (fun x => 40 * (culmArgs x.args).fslot)
      ++ s.links.filterMap (fun l => if l.resume.isSome then l.nextBooked c else none))

/-- The counter moved on to cycle c, the wall clock with it. -/
def State.countTo (s : State) (c : Nat) : State :=
  let f := s.eng.frame
  { s with wall := s.wall + (c - f.count), eng := { s.eng with frame := { f with count := c } } }

/-- The counter runs to a cycle, working at every cycle at which an engine does something, and stops at a freeze or an abort. -/
def State.runTo (s : State) : Nat → Nat → State
  | 0, _ => s
  | n + 1, target =>
    if s.frozen ∨ !s.issuing ∨ target ≤ s.eng.frame.count then s
    else match s.nextEvent with
      | some c => if c ≤ target then (((s.countTo c).cycleWork).runTo n target) else s.countTo target
      | none => s.countTo target

/-- A freeze has ended: the cycle it held goes on. -/
def State.thaw (s : State) (wall : Nat) : State := (((s.replayReads wall).endFreezes wall).endReplays).cycleWork

/-- The freeze that is pending at a wall cycle: the first, in the order of counting, that has not ended by then. -/
def Frame.pendingFreeze (f : Frame) (wall : Nat) : Freeze :=
  (f.frozen.find? fun x => x.stop.all fun e => decide (wall < e)).getD (f.frozen.headD ⟨.replay, 0, 0, none, .timed, none⟩)

/-- R115, R117, R118: the stretch would exceed STRETCH_MAX at a wall cycle. -/
def State.stretchAbort (s : State) (wall : Nat) : State :=
  let f := s.eng.frame
  let x := f.pendingFreeze wall
  let s := { s with wall := max s.wall wall }
  let s := s.raise Pg.hub .STRETCH_EXCEEDED x.wordAddr (x.die % 4 * 2 ^ 30 + x.reason.rank * 2 ^ 24 + f.index)
  s.abortFrame (errCode .STRETCH_EXCEEDED .hub)

/-- Wall time passes to t. -/
def State.passTo (s : State) : Nat → Nat → State
  | 0, _ => s
  | n + 1, t =>
    if t ≤ s.wall then s
    else if !s.issuing then { s with wall := t }
    else if s.frozen then
      let f := s.eng.frame
      match f.freezeEnd with
      | some e =>
        if f.abortAt < e ∧ f.abortAt ≤ t then (s.stretchAbort f.abortAt).passTo n t
        else if e ≤ t then (s.thaw e).passTo n t
        else s.waitTo t
      | none => if f.abortAt ≤ t then (s.stretchAbort f.abortAt).passTo n t else s.waitTo t
    else (s.runTo (t - s.wall + 1) (s.eng.frame.count + (t - s.wall))).passTo n t

/-- Wall time passes to t: the counter runs, freezes of known length end, and a frame that stretches too far aborts. -/
def State.passTime (s : State) (t : Nat) : State := s.passTo (2 * (t - s.wall) + 2) t

/-- The counter reaches the stamp of a word: freezes of known length on the way end by themselves, an open one holds it. For a word that may freeze, one that
holds the counter at the stamp itself stays, so that the reasons overlap (R78). -/
def State.reach (s : State) (wait : Bool) : Nat → Nat → State
  | 0, _ => s
  | n + 1, stamp =>
    if !s.issuing ∨ stamp < s.eng.frame.count ∨ (wait ∧ stamp = s.eng.frame.count) then s
    else if s.frozen then
      let f := s.eng.frame
      match f.freezeEnd with
      | some e => if f.abortAt < e then s.stretchAbort f.abortAt else (s.thaw e).reach wait n stamp
      | none => s
    else if stamp = s.eng.frame.count then s
    else (s.runTo (stamp - s.eng.frame.count + 1) stamp).reach wait n stamp

/-- The counter advanced to a stamp. -/
def State.advance (s : State) (stamp : Nat) : State := s.reach false (2 * (stamp - s.eng.frame.count) + 2) stamp

/-- The counter advanced to the stamp of a word that may freeze. -/
def State.comeTo (s : State) (stamp : Nat) : State := s.reach true (2 * (stamp - s.eng.frame.count) + 2) stamp

/-- Whether a word of this stamp issues: its frame issues, the counter stands at the stamp and nothing holds it. -/
def State.canIssue (s : State) (stamp : Nat) : Bool := s.issuing && !s.frozen && s.eng.frame.count == stamp

/-- A freeze begins at the present cycle: when another holds it already, with that one (R78). -/
def State.freeze (s : State) (reason : FreezeReason) (die : Nat) (stop : Option Nat) (w : Waiter) (a : Option Nat) : State :=
  let f := s.eng.frame
  s.setFrame { f with frozen := insertFreeze ⟨reason, die, if f.frozen.isEmpty then s.wall else f.freezeStart, stop, w, a⟩ f.frozen }

end Sys2Proof.Machine
end

