-- ==== Sys2Proof/Machine/Checks.lean ====
section
/-!
DEFINITION. Checks 6 to 9 of R96 on schedule words, as admission applies them and as the Rachis repeats them at issue (R98): Tiller words (R157), Awn and
Rachis words (R266), mover words (R286) and Culm words (R349).
-/
namespace Sys2Proof.Machine

/-- A schedule word taken apart (R85). -/
structure RawWord where
  stamp : Nat
  kind : Nat
  unit : Nat
  op : Nat
  args : BitVec 88
  deriving DecidableEq, Repr

/-- The word of 16 bytes. -/
def rawWord (n : Nat) : RawWord := ⟨bits n 127 108, bits n 107 104, bits n 103 96, bits n 95 88, BitVec.ofNat 88 n⟩

/-- A failed check: its place in R96, its cause, the operand address, none for the word's own, and the index of the word within its chain (R266). -/
structure Finding where
  order : Nat
  cause : Cause
  addr : Option Nat
  part : Nat
  deriving DecidableEq, Repr

/-- What a word is checked against: its die, the image that holds it, and the B buffers loaded earlier in its frame. -/
structure WordCtx where
  die : Nat
  base : Nat
  len : Nat
  dieMask : Nat
  fp16 : Bool
  halfWidth : Nat
  /-- (logical, buffer) pairs. -/
  loaded : List (Nat × Nat)
  /-- Issue time: formed addresses are checked with the scalar registers' values. -/
  formed : Bool
  deriving DecidableEq, Repr

def bad (b : Bool) (order : Nat) (c : Cause) (a : Option Nat) : List Finding := if b then [⟨order, c, a, 0⟩] else []

/-- IMG_WORD. -/
def badWord (b : Bool) : List Finding := bad b 7 .IMG_WORD none

/-- Findings of word k of a chain. -/
def onPart (k : Nat) (l : List Finding) : List Finding := l.map fun f => { f with part := k }

/-- R576: in Sampled mode, a scratchpad range that touches the test reservation. -/
def inReservation (off n : Nat) : Bool :=
  decide (0x0BE00000 < off + n) ||
  (List.range 80).any fun l => decide (off < l * 0x200000 + 0x100000) && decide (l * 0x200000 + 0xF0000 < off + n)

/-- A scratchpad operand of n bytes at an offset of a die: populated, in one bank where that is asked, off the reservation. -/
def State.spadCheck (s : State) (die off n : Nat) (oneBank : Bool) : List Finding :=
  let a := spadBase die + off
  if spadBytes < off + n then bad true 8 .UNPOPULATED (some (if spadBytes ≤ off then a else spadBase die + spadBytes))
  else bad (oneBank && n != 0 && off / 0x80000 != (off + n - 1) / 0x80000) 9 .REACH (some a)
    ++ bad (s.prot == 2 && inReservation off n) 9 .REACH (some a)

/-- A stack-side range: populated, every stack it touches on (R298). -/
def State.stackCheck (s : State) (a n : Nat) : List Finding :=
  match unpopulated a n with
  | some x => bad true 8 .UNPOPULATED (some x)
  | none =>
    if aliasBase ≤ a then bad ((List.range 12).any fun k => !s.domainOn (160 + k)) 8 .UNPOPULATED (some a)
    else bad (!s.domainOn (160 + a / 0x001000000000)) 8 .UNPOPULATED (some a)

/-- Check 8 on a device address range of any region. -/
def State.populatedCheck (s : State) (a n : Nat) : List Finding :=
  match unpopulated a n with
  | some x => bad true 8 .UNPOPULATED (some x)
  | none => (match regionOf a with
    | some (.stack _, _, _) | some (.spread, _, _) => s.stackCheck a n
    | _ => [])

/-! ## Units (check 6) -/

/-- R173: a logical Tiller that no Tiller executes, or of which a group is not on. -/
def State.tillerAbsent (s : State) (die l : Nat) : Bool :=
  match s.physOf die l with
  | none => true
  | some p => !s.domainOn (21 * die + p / 4) || !s.domainOn (21 * die + l / 4)

def State.awnAbsent (s : State) (die n : Nat) : Bool :=
  bit (s.num (Pg.awn die n) Reg.AWN_STAT) 31 || !s.domainOn (84 + 16 * die + n)

def State.culmAbsent (s : State) (die n : Nat) : Bool :=
  bit (s.num (Pg.culm die n) Reg.CULM_STAT) 31 || !s.domainOn (148 + 3 * die + n)

/-- Check 6 on a word's UNIT (R86, R570). -/
def State.unitCheck (s : State) (die kind unit : Nat) : List Finding :=
  let g := s.prot == 1
  let missing := match kind with
    | 0x1 => decide ((if g then 40 else 80) ≤ unit) || s.tillerAbsent die unit || (g && s.tillerAbsent die (unit + 40))
    | 0x2 => decide ((if g then 8 else 16) ≤ unit) || s.awnAbsent die unit || (g && s.awnAbsent die (unit + 8))
    | 0x3 => decide (3 ≤ unit) || s.culmAbsent die unit
    | 0x4 => decide (8 ≤ unit)
    | 0x6 | 0x7 => decide (64 ≤ unit)
    | _ => unit != 0
  bad missing 6 .IMG_UNIT none

/-! ## Tiller words (R157) -/

def State.passCheck (s : State) (c : WordCtx) (w : RawWord) : List Finding :=
  let p := passArgs w.args
  let sum := isSumPass w.op
  let code := pairCode p.pair
  let accBad := match code with
    | some q => if q.int then p.acc != 2 else p.acc == 2 || (p.acc == 1 && !q.fp16)
    | none => true
  badWord (p.rsv != 0 || p.acc == 3)
    ++ badWord (sum && (accBad || (p.acc == 1 && !c.fp16) || p.cb != 0 || !c.loaded.contains (w.unit, p.bsel)))
    ++ badWord (w.op == 7 && p.acc != 2) ++ badWord (w.op != 7 && p.sreg != 0)
    ++ badWord (!sum && (p.pair != 0 || p.bsel != 0))
    ++ s.spadCheck c.die p.aOff (p.m * aStride w.op p) true
    ++ bad (decide (0x100000 < p.gran * 0x1000 + p.m * accRow w.op p)) 9 .REACH (some (spadBase c.die + accOff w.unit p))
    ++ s.spadCheck c.die (accOff w.unit p) (p.m * accRow w.op p) true
    ++ bad (!sum && p.acc == 2 && !(p.aOff / 0x200000 == w.unit && p.aOff % 0x1000 == 0 && decide (p.aOff % 0x200000 < 0x100000))) 9 .REACH
        (some (spadBase c.die + p.aOff))

def State.loadBCheck (s : State) (c : WordCtx) (w : RawWord) : List Finding :=
  let l := loadBArgs w.args
  badWord (l.rsv != 0)
    ++ s.spadCheck c.die l.bOff 16384 true ++ bad (l.bOff % 512 != 0) 9 .REACH (some (spadBase c.die + l.bOff))
    ++ (if l.mx then s.spadCheck c.die l.bsOff 1024 true ++ bad (l.bsOff % 512 != 0) 9 .REACH (some (spadBase c.die + l.bsOff)) else [])

/-! ## Awn chains (R266) -/

/-- How many operand sources a stage operation uses. -/
def stageArity (op : Nat) : Nat :=
  match op with
  | 0x10 | 0x11 | 0x12 | 0x14 | 0x15 | 0x22 | 0x23 | 0x24 => 2
  | 0x13 | 0x21 | 0x26 => 3
  | 0x28 => 0
  | _ => 1

def stageOpOk (op : Nat) : Bool := decide (0x10 ≤ op) && decide (op ≤ 0x2B) && op != 0x27

/-- Whether a source may be named by stage k of a plan. -/
def sourceOk (p : ChainPlan) (k src : Nat) : Bool :=
  if src < 3 then decide (src < p.ins.length)
  else if 8 ≤ src ∧ src < 15 then decide (src - 8 < k) && !(p.stages[src - 8]?.any fun st => isReduce st.op)
  else src == 0x10 || src == 0x11 || src == 0x12

def stageBad (p : ChainPlan) (k : Nat) (st : ChainStage) : Bool :=
  let n := stageArity st.op
  let srcs := [st.sa, st.sb, st.sc]
  !stageOpOk st.op || st.rsv != 0
    || (List.range 3).any (fun i => if i < n then !sourceOk p k (srcs.getD i 0) else srcs.getD i 0 != 0)
    || (isReduce st.op && (st.glog == 0 || decide (23 < st.glog) || p.head.len % 2 ^ st.glog != 0))
    || (!isReduce st.op && st.glog != 0)

/-- The layout of one operand of n elements (R236, R238). -/
def State.operandCheck (s : State) (die off xoff wstr n : Nat) (f : Fmt) : List Finding :=
  let ways := (List.range (wayCount f.width)).map fun q => off + q * wstr * 0x80000
  let banks := ways.map (· / 0x80000)
  bad (off % 512 != 0) 9 .REACH (some (spadBase die + off))
    ++ (ways.zipIdx.flatMap fun q => s.spadCheck die q.1 (wayBytes f n q.2) true)
    ++ bad (banks.eraseDups.length != banks.length) 9 .REACH (some (spadBase die + off))
    ++ (if f.isMx then s.spadCheck die xoff (ceilDiv n 32) true ++ bad (banks.contains (xoff / 0x80000)) 9 .REACH (some (spadBase die + xoff))
        else [])

/-- Operand elements that an input of a chain of length n reaches (R237). -/
def ChainIn.extent (x : ChainIn) (n : Nat) : Nat :=
  if x.mode = 1 then min n (2 ^ x.plog) else if x.mode = 2 then (n - 1) / 2 ^ x.plog + 1 else n

def inputBad (x : ChainIn) : Bool :=
  x.rsv != 0 || x.mode == 3 || decide (23 < x.plog) || (x.mode == 0 && x.plog != 0) || (!x.esc && x.esreg != 0)
    || (match Fmt.ofCode x.fmt with
        | none => true
        | some f => (!f.isMx && x.xoff != 0) || (f.width != 4 && f.width != 8 && x.wstr == 0))

def outputBad (p : ChainPlan) (x : ChainOut) : Bool :=
  decide (4 < x.rmode) || decide (p.head.stages ≤ x.src)
    || (match Fmt.ofCode x.fmt with
        | none => true
        | some f => (!f.isMx && x.xoff != 0) || (f.width != 4 && f.width != 8 && x.wstr == 0))

/-- R248: DROP stages and stochastic outputs of a plan. -/
def ChainPlan.consumers (p : ChainPlan) : Nat := p.stages.countP (fun st => st.op == 0x28) + p.outs.countP (fun o => o.rmode == 4)

/-- The OP of a chain's word (R230). -/
def opAt (words : List (BitVec 8 × BitVec 88)) (k : Nat) : Nat := ((words.map fun w => w.1.toNat)[k]?).getD 0

/-- What the head word of a chain, or the group as a whole, breaks (R230, R231, R248). -/
def headBad (words : List (BitVec 8 × BitVec 88)) (p : ChainPlan) : Bool :=
  let h := p.head
  opAt words 0 != 1 || words.length != 1 + h.nin + h.nout + h.stages || h.len == 0 || h.nout == 0 || h.nout == 3 || h.rsv != 0
    || decide (1 < p.consumers) || (p.consumers == 0) != (h.rnd == 0) || (decide (h.rnd < 2) && h.soff != 0)

/-- R266 on a chain, word by word: each finding names the word that it concerns by its index within the chain, 0 for the head. -/
def State.chainCheck (s : State) (c : WordCtx) (words : List (BitVec 8 × BitVec 88)) : List Finding :=
  let p := chainPlan words
  let h := p.head
  badWord (headBad words p)
    ++ (p.ins.zipIdx.flatMap fun q => onPart (1 + q.2) (badWord (opAt words (1 + q.2) != 2 || inputBad q.1)))
    ++ (p.outs.zipIdx.flatMap fun q => onPart (1 + h.nin + q.2) (badWord (opAt words (1 + h.nin + q.2) != 3 || outputBad p q.1)))
    ++ (p.stages.zipIdx.flatMap fun q => onPart (1 + h.nin + h.nout + q.2) (badWord (stageBad p q.2 q.1)))
    ++ (p.ins.zipIdx.flatMap fun q => match Fmt.ofCode q.1.fmt with
        | some f => onPart (1 + q.2) (s.operandCheck c.die q.1.off q.1.xoff q.1.wstr (q.1.extent h.len) f)
        | none => [])
    ++ (p.outs.zipIdx.flatMap fun q => match Fmt.ofCode q.1.fmt with
        | some f => onPart (1 + h.nin + q.2) (s.operandCheck c.die q.1.off q.1.xoff q.1.wstr (p.outLen q.1) f
            ++ (if q.1.ten then s.spadCheck c.die q.1.toff 16 true else []))
        | none => [])
    ++ (if 2 ≤ h.rnd then s.spadCheck c.die h.soff (64 + 64 * p.cycles) true ++ bad (h.soff % 64 != 0) 9 .REACH (some (spadBase c.die + h.soff)) else [])

/-! ## Rachis words (R263, R264) -/

structure RachisArgs where
  dst : Nat
  sa : Nat
  sb : Nat
  imm : Nat
  deriving DecidableEq, Repr

def rachisArgs (a : BitVec 88) : RachisArgs :=
  let n := a.toNat
  ⟨bits n 87 80, bits n 79 72, bits n 71 64, bits n 63 0⟩

def isStore (op : Nat) : Bool := op == 0x15 || op == 0x16
def isLoad (op : Nat) : Bool := op == 0x13 || op == 0x14
def accessSize (op : Nat) : Nat := if op = 0x14 ∨ op = 0x16 then 8 else 4

/-- The device address of a load or store (R264). -/
def State.rachisAddr (s : State) (die : Nat) (r : RachisArgs) : Nat := (r.imm + s.sreg die r.sa) % 2 ^ 48

def State.rachisCheck (s : State) (c : WordCtx) (w : RawWord) : List Finding :=
  let r := rachisArgs w.args
  let op := w.op
  let usesB := [2, 4, 5, 6, 7, 8, 0xB, 0xC, 0xD, 0xE, 0xF, 0x10, 0x15, 0x16].contains op
  let usesA := op != 1 && op != 0x17
  let usesImm := [1, 3, 9, 0xA, 0x13, 0x14, 0x15, 0x16, 0x17].contains op
  badWord (op == 0 || decide (0x17 < op) || (!isStore op && decide (248 ≤ r.dst)) || (isStore op && r.dst != 0))
    ++ badWord ((!usesB && r.sb != 0) || (!usesA && r.sa != 0) || (!usesImm && r.imm != 0))
    ++ badWord ((op == 9 || op == 0xA) && decide (64 ≤ r.imm))
    ++ badWord (op == 0x17 && (decide (2 ^ 15 ≤ r.imm) || decide (80 ≤ r.imm / 256)))
    ++ bad (op == 0x17 && s.tillerAbsent c.die (r.imm / 256 % 128)) 6 .IMG_UNIT none
    ++ (if (isLoad op || isStore op) && (c.formed || r.sa == 0) then
          let a := if r.sa = 0 then r.imm % 2 ^ 48 else s.rachisAddr c.die r
          let n := accessSize op
          let off := a - spadBase c.die
          let mine := decide (spadBase c.die ≤ a) && decide (a < spadBase c.die + 0x100000000)
          s.populatedCheck a n ++ bad (!mine || a % n != 0 || a / 0x80000 != r.imm % 2 ^ 48 / 0x80000) 9 .REACH (some a)
            ++ bad (mine && s.prot == 2 && inReservation off n) 9 .REACH (some a)
        else [])

/-! ## Mover words (R286) -/

structure StArgs where
  saddr : Nat
  sdie : Nat
  spoff : Nat
  rsv : Nat
  fslot : Nat
  par : Nat
  nb : Nat
  deriving DecidableEq, Repr

/-- R279. -/
def stArgs (a : BitVec 88) : StArgs :=
  let n := a.toNat
  ⟨bits n 87 51 * 2048, bits n 50 49, bits n 48 32 * 2048, bits n 31 30, bits n 29 15, bits n 14 11, bits n 10 0 + 1⟩

structure CopyArgs where
  sdie : Nat
  soff : Nat
  ddie : Nat
  doff : Nat
  len : Nat
  rsv : Nat
  deriving DecidableEq, Repr

/-- R283, LEN in pieces. -/
def copyArgs (a : BitVec 88) : CopyArgs :=
  let n := a.toNat
  ⟨bits n 87 86, bits n 85 67 * 512, bits n 66 65, bits n 64 46 * 512, bits n 45 22, bits n 21 0⟩

/-- R280: the slot of burst n. -/
def StArgs.slot (t : StArgs) (n : Nat) : Nat := t.fslot + 4 * (n / (4 * t.par)) + n % 4

/-- R281: the size of burst n's group and its position in it. -/
def StArgs.group (t : StArgs) (n : Nat) : Nat × Nat :=
  let l := (List.range t.nb).filter fun k => t.slot k == t.slot n
  (l.length, (l.filter (· < n)).length)

/-- Stack-side address of burst n. -/
def StArgs.burst (t : StArgs) (n : Nat) : Nat := t.saddr + 2048 * n

/-- Whether burst n's stack lies on the scratchpad end's die. -/
def StArgs.sameDie (t : StArgs) (n : Nat) : Bool := dieOf (t.burst n) == t.sdie

/-- R281: the visibility cycle of an STREAD burst. -/
def StArgs.visible (t : StArgs) (n : Nat) : Nat := 40 * t.slot n + (if t.sameDie n then 136 else 312)

/-- R282: the cycle of an STWRITE burst's first read. -/
def StArgs.readAt (t : StArgs) (n : Nat) : Int :=
  let g := t.group n
  (40 * t.slot n : Int) - 32 - 4 * g.1 + 4 * g.2 - (if t.sameDie n then 0 else 176)

def State.moverCheck (s : State) (c : WordCtx) (w : RawWord) : List Finding :=
  match w.op with
  | 1 =>
    let m := copyArgs w.args
    let dieOk := fun d => bit c.dieMask d
    badWord (m.rsv != 0 || m.len == 0 || decide (393216 < m.len) || !dieOk m.sdie || !dieOk m.ddie)
      ++ s.spadCheck m.sdie m.soff (512 * m.len) false ++ s.spadCheck m.ddie m.doff (512 * m.len) false
  | 2 | 3 =>
    let t := stArgs w.args
    let early := if w.op = 2 then decide (40 * t.fslot < w.stamp + 8)
      else (List.range t.nb).any fun n => decide (t.readAt n < w.stamp)
    let region := match regionOf t.saddr with
      | some (.stack _, _, _) | some (.spread, _, _) | none => true
      | _ => false
    badWord (t.rsv != 0 || t.par == 0 || decide (10 < t.par) || early || !bit c.dieMask t.sdie)
      ++ s.spadCheck t.sdie t.spoff (2048 * t.nb) false
      ++ s.populatedCheck t.saddr (2048 * t.nb) ++ bad (!region) 9 .REACH (some t.saddr)
  | 5 =>
    let a := bits w.args.toNat 87 64 * 32
    badWord (bits w.args.toNat 63 0 != 0) ++ s.spadCheck c.die a 32 true
  | _ => badWord true

/-! ## Culm words (R349) -/

/-- Whether a format code is one of a list. -/
def fmtIn (c : Nat) (l : List Nat) : Bool := l.contains c

/-- Codes of the floating-point and MX formats (R181). -/
def floatCodes : List Nat := [0, 1, 2, 3, 4, 5, 9, 10, 11, 12]

/-- R332, R333: fields and formats of a block, by OP; prog is its micro-program. -/
def culmBlockBad (op : Nat) (raw : List Byte) (b : CulmBlock) (prog : List (List Byte)) : Bool :=
  let mode := leAt raw 0x5A 1
  let flags := leAt raw 0x5C 1
  let rsv := mode / 64 != 0 || flags / 16 != 0 || leAt raw 0x5E 2 != 0 || !allZero ((raw.drop 0x68).take 24)
    || [b.a, b.b, b.d, b.v, b.x, b.srec, b.grec, b.hrec, b.lre, b.tblk].any (fun a => decide (2 ^ 48 ≤ a))
  let isMx := fun c => (Fmt.ofCode c).any Fmt.isMx
  let zero := fun (l : List Nat) => l.any (· != 0)
  let useX := match op with
    | 1 | 4 => isMx b.fmtB
    | 2 | 3 | 6 => isMx b.fmtA
    | _ => isMx b.fmtD
  let common := rsv || b.n == 0 || decide (b.n < b.valid) || decide (4 < b.rmode) || (!useX && b.x != 0)
  let scl := leAt raw 0x5B 1
  match op with
  | 1 =>
    let useV := b.alg == 0 || (b.alg == 3 && microNamesV prog)
    common || !fmtIn b.fmtA [0, 1] || !fmtIn b.fmtM [0, 1] || !fmtIn b.fmtB floatCodes || zero [b.fmtD, b.srec, b.tblk, scl, b2n b.cnt, b2n b.ten, b2n b.init]
      || (!useV && b.v != 0) || (b.alg == 3 && (b.mlen == 0 || decide (32 < b.mlen) || b.mprog % 64 != 0)) || (b.alg != 3 && (b.mlen != 0 || b.mprog != 0))
      || prog.any (fun st => !(decide (0x10 ≤ leAt st 0 1) && decide (leAt st 0 1 ≤ 0x26) && leAt st 0 1 != 0x27)
          || decide (leAt st 1 1 < 0x0C) || decide (0x16 < leAt st 1 1)
          || [2, 3, 4].any (fun i => decide (0x16 < leAt st i 1)) || leAt st 5 3 != 0)
  | 2 =>
    common || (Fmt.ofCode b.fmtA).isNone || (Fmt.ofCode b.tfmt).isNone
      || zero [b.fmtB, b.fmtD, b.fmtM, b.b, b.d, b.v, b.grec, b.hrec, b.lre, mode, b.mlen, b.mprog, b2n b.apply, b2n b.init]
      || (!b.ten && b.tblk != 0) || (b.ten && !b.cnt)
  | 3 =>
    common || (Fmt.ofCode b.fmtA).isNone
      || zero [b.fmtB, b.fmtD, b.fmtM, b.b, b.d, b.v, b.srec, b.grec, b.hrec, b.lre, mode, scl, b.mlen, b.mprog, b2n b.apply, b2n b.init, b2n b.cnt]
      || (!b.ten && b.tblk != 0)
  | 4 =>
    common || !fmtIn b.fmtD [0, 1, 2] || !fmtIn b.fmtB floatCodes || (if b.init then b.fmtA != 0 || b.a != 0 else !fmtIn b.fmtA [0, 1, 2])
      || (!b.init && b.a == b.d && b.fmtA != b.fmtD) || zero [b.fmtM, b.v, b.srec, b.hrec, b.lre, b.tblk, scl, b.alg, b.mlen, b.mprog, b2n b.apply, b2n b.cnt, b2n b.ten]
  | 5 =>
    common || !fmtIn b.fmtA [0, 1, 2]
      || (match Fmt.ofCode b.fmtA, Fmt.ofCode b.fmtD with
          | some f, some g => !narrowing f g
          | _, _ => true)
      || zero [b.fmtB, b.fmtM, b.b, b.v, b.grec, b.hrec, b.lre, scl, b.alg, b.mlen, b.mprog, b2n b.apply, b2n b.init]
      || (!b.ten && b.tblk != 0) || (b.ten && !b.cnt)
  | 6 =>
    common || (Fmt.ofCode b.fmtA).isNone || !fmtIn b.fmtD [0, 1, 2]
      || zero [b.fmtB, b.fmtM, b.b, b.v, b.grec, b.hrec, b.lre, b.tblk, scl, b.alg, b.mlen, b.mprog, b2n b.apply, b2n b.init, b2n b.cnt, b2n b.ten]
  | _ => true

/-- The element and scale arrays of an operation: address, bytes, read, written, and whether it is an element array. -/
structure CulmArray where
  addr : Nat
  len : Nat
  rd : Bool
  wr : Bool
  elem : Bool
  deriving DecidableEq, Repr

/-- R333. -/
def culmArrays (op : Nat) (b : CulmBlock) (prog : List (List Byte)) : List CulmArray :=
  let mx := fun c (rd wr : Bool) => if (Fmt.ofCode c).any Fmt.isMx then [(⟨b.x, ceilDiv b.n 32, rd, wr, false⟩ : CulmArray)] else []
  match op with
  | 1 => [⟨b.a, arrayBytes b.fmtA b.n, true, b.apply, true⟩, ⟨b.b, arrayBytes b.fmtB b.n, true, false, true⟩,
          ⟨b.d, arrayBytes b.fmtM b.n, true, b.apply, true⟩]
      ++ (if b.alg = 0 ∨ (b.alg = 3 ∧ microNamesV prog) then [⟨b.v, arrayBytes b.fmtM b.n, true, b.apply, true⟩] else []) ++ mx b.fmtB true false
  | 2 | 3 => [⟨b.a, arrayBytes b.fmtA b.n, true, false, true⟩] ++ mx b.fmtA true false
  | 4 => (if b.init then [] else if b.a = b.d then [⟨b.a, arrayBytes b.fmtA b.n, true, true, true⟩] else [⟨b.a, arrayBytes b.fmtA b.n, true, false, true⟩])
      ++ [⟨b.b, arrayBytes b.fmtB b.n, true, false, true⟩]
      ++ (if !b.init ∧ b.a = b.d then [] else [⟨b.d, arrayBytes b.fmtD b.n, false, true, true⟩]) ++ mx b.fmtB true false
  | 5 => [⟨b.a, arrayBytes b.fmtA b.n, true, false, true⟩, ⟨b.d, arrayBytes b.fmtD b.n, false, true, true⟩] ++ mx b.fmtD false true
  | _ => [⟨b.a, arrayBytes b.fmtA b.n, true, false, true⟩, ⟨b.d, arrayBytes b.fmtD b.n, false, true, true⟩] ++ mx b.fmtA true false

/-- R334: the small records: address, size, and whether it is written. -/
def culmRecords (op : Nat) (b : CulmBlock) : List (Nat × Nat × Bool) :=
  let grec := if b.grec = 0 then [] else [(b.grec, 16, false)]
  let tblk := if b.ten then [(b.tblk, 16, false)] else []
  match op with
  | 1 => grec ++ [(b.hrec, 32, false), (b.lre, 8, true)]
  | 2 => [(b.srec, 16, true)] ++ tblk
  | 3 => tblk
  | 4 => grec
  | 5 => [(b.srec, 16, false)] ++ tblk
  | _ => [(b.srec, 16, false)]

/-- R323: a range of a Culm's operand: populated, on, and in its reach. -/
def State.culmReach (s : State) (die unit a n : Nat) : List Finding :=
  let st := 3 * die + unit
  s.populatedCheck a n ++ (match regionOf a with
    | some (.stack k, _, _) => bad (k != st) 9 .REACH (some a)
    | some (.spad d, _, _) => if d = die then s.spadCheck die (a - spadBase die) n false else bad true 9 .REACH (some a)
    | some _ => bad true 9 .REACH (some a)
    | none => [])

/-- The block and micro-program bytes of a Culm word: 128 bytes and then the steps (R332, R343). -/
def State.culmBytes (s : State) (c : WordCtx) (args : BitVec 88) : List Byte :=
  let a := culmArgs args
  let raw := s.bytesAt (c.base + a.blk) 128
  let b := culmBlock raw
  raw ++ (if b.alg = 3 ∧ leAt raw 0x5D 1 ≠ 0 then s.bytesAt (c.base + b.mprog) (8 * b.mlen) else [])

def State.culmCheck (s : State) (c : WordCtx) (w : RawWord) : List Finding :=
  let a := culmArgs w.args
  if a.rsv ≠ 0 ∨ a.nslot < 3 ∨ 26214 < a.nslot ∨ w.op = 0 ∨ 6 < w.op ∨ 40 * a.fslot < w.stamp + 8 ∨ c.len < a.blk + 128 then badWord true
  else
    let all := s.culmBytes c w.args
    let raw := all.take 128
    let b := culmBlock raw
    let prog := blocksOf 8 b.mlen (all.drop 128)
    let arrays := culmArrays w.op b prog
    let recs := culmRecords w.op b
    let small := (recs.filter fun r => decide (r.1 < 0x00C000000000)).map fun r => r.1 / 2048
    badWord (culmBlockBad w.op raw b prog || (w.op == 1 && b.alg == 3 && decide (c.len < b.mprog + 8 * b.mlen)))
      ++ (arrays.flatMap fun x => s.culmReach c.die w.unit x.addr x.len)
      ++ (recs.flatMap fun r => s.culmReach c.die w.unit r.1 r.2.1)
      ++ (arrays.flatMap fun x => bad (x.elem && x.addr % (if x.addr < 0x00C000000000 then 8192 else 512) != 0) 9 .REACH (some x.addr))
      ++ (recs.flatMap fun r => bad (r.1 % r.2.1 != 0) 9 .REACH (some r.1))
      ++ bad (decide (1 < small.eraseDups.length)) 9 .REACH ((recs.head?).map fun r => r.1)

/-! ## The first finding -/

/-- The finding that comes first: the lowest check, the earliest within it. -/
def firstFinding : List Finding → Option Finding
  | [] => none
  | f :: r => (match firstFinding r with
    | some g => if g.order < f.order then some g else some f
    | none => some f)

end Sys2Proof.Machine
end

