-- ==== Sys2Proof/Machine/Words.lean ====
section
/-!
DEFINITION. The issue of a schedule word (R67, R77, R87, R98): the counter reaches its stamp, the issue checks are repeated, and a failed check aborts the
frame; and the words that belong to no unit: no operation, event wait and event signal (R86, R412).
-/
namespace Sys2Proof.Machine

/-- The context of a word that issues from the running slot. -/
def State.issueCtx (s : State) (die : Nat) : WordCtx :=
  match s.slot? s.eng.frame.slot with
  | some x => ⟨die, x.base, x.len, x.dieMask, x.fp16, x.halfWidth,
      (s.eng.bbufs.filter fun b => b.die == die).map fun b => (b.logical, b.sel), true⟩
  | none => ⟨die, 0, 0, 0, false, 0, [], true⟩

/-- The device address of a word of the running image (R82, R118). -/
def State.wordAddr (s : State) (die idx : Nat) : Nat :=
  match s.slot? s.eng.frame.slot with
  | some x => x.base + s.natAt (x.base + x.frameTable + 64 * s.eng.frame.index + 12 * die) 8 + 16 * idx
  | none => 0

/-- Where an error of a unit's operand is captured: its page and its ERR_INFO. -/
structure Blame where
  page : Page
  info : Nat
  deriving DecidableEq, Repr

/-- A failed issue check: the word does not issue and the frame aborts (R98, R115, R117). A chain's finding names its word by its index (R266). -/
def State.issueFail (s : State) (w : SWord) (rchInfo : Nat) (unit : Blame) (f : Finding) : State :=
  let rch : Blame := ⟨Pg.rch w.die, rchInfo + s.eng.frame.index % 2 ^ 24⟩
  let b : Blame := if f.order ≤ 7 then rch else ⟨unit.page, f.part * 2 ^ 28 + unit.info⟩
  let a := match f.addr with
    | some x => x
    | none => s.wordAddr w.die (w.idx.toNat + f.part)
  let s := s.bump (Pg.rch w.die) Reg.RCH_ABORT_CNT 1
  (s.raise b.page f.cause (some a) b.info).abortFrame (errCode f.cause b.page.kind)

/-- Whether a die has a word stream in the running image. -/
def State.runsOn (s : State) (die : Nat) : Bool := bit s.runMask die

/-- One word issues: check is applied beside the checks of KIND and UNIT, and effect takes place when it passes. A word that comes when its frame does not
issue, or cannot issue at its stamp, has no effect. -/
def State.issue (s : State) (w : SWord) (kind op rchInfo : Nat) (blame : State → Blame)
    (check : State → WordCtx → RawWord → List Finding) (effect : State → State) : State :=
  let s := s.begin.advance w.stamp.toNat
  if s.canIssue w.stamp.toNat && s.runsOn w.die then
    let c := s.issueCtx w.die
    let r : RawWord := ⟨w.stamp.toNat, kind, w.unit.toNat, op, w.args⟩
    match firstFinding (s.unitCheck w.die kind r.unit ++ badWord (decide (lastStamp s.eng.frame.len < r.stamp)) ++ check s c r) with
    | some f => s.issueFail w rchInfo (blame s) f
    | none =>
      let s := effect s
      if s.issuing then s.reads else s
  else s

/-- The blame of a unit whose errors go to its die's RCH page. -/
def rchBlame (w : SWord) (s : State) : Blame := ⟨Pg.rch w.die, s.eng.frame.index % 2 ^ 24⟩

/-- KIND 0x0 (R86). -/
def execNoOperationWord (w : SWord) (s : State) : Host.Outcome State Fault Refusal :=
  .next (s.issue w 0 0 0 (rchBlame w) (fun _ _ r => badWord (r.args != 0)) id)

/-! ## Events (R412) -/

structure EventArgs where
  host : Bool
  ctr : Nat
  value : Nat
  rsv : Bool
  deriving DecidableEq, Repr

def eventArgs (a : BitVec 88) : EventArgs :=
  let n := a.toNat
  ⟨bit n 87, bits n 75 64, bits n 63 32, bits n 86 76 != 0 || bits n 31 0 != 0⟩

/-- The checks of an event word: the bits that R412 does not name are 0. -/
def eventCheck (wait : Bool) (_s : State) (_c : WordCtx) (r : RawWord) : List Finding :=
  let e := eventArgs r.args
  badWord (e.rsv || (!wait && e.host))

/-- A wait word freezes the frame until its wait is met. -/
def State.eventWait (s : State) (w : SWord) : State :=
  let e := eventArgs w.args
  if s.eventMet e.ctr e.value then s
  else s.freeze (if e.host then .hostWait else .dependency) w.die none (.event w) (some (s.wordAddr w.die w.idx.toNat))

/-- A word that may freeze: it is examined at its stamp even while another reason holds the counter there. -/
def State.issueWait (s : State) (w : SWord) (kind op : Nat) (check : State → WordCtx → RawWord → List Finding) (effect : State → State) : State :=
  let s := s.begin.comeTo w.stamp.toNat
  if s.issuing && s.eng.frame.count == w.stamp.toNat && s.runsOn w.die then
    let c := s.issueCtx w.die
    let r : RawWord := ⟨w.stamp.toNat, kind, w.unit.toNat, op, w.args⟩
    match firstFinding (s.unitCheck w.die kind r.unit ++ badWord (decide (lastStamp s.eng.frame.len < r.stamp)) ++ check s c r) with
    | some f => s.issueFail w 0 (rchBlame w s) f
    | none => effect s
  else s

/-- KIND 0x8. -/
def execEventWait (w : SWord) (s : State) : Host.Outcome State Fault Refusal :=
  .next (s.issueWait w 0x8 0 (eventCheck true) (fun s => s.eventWait w))

/-- KIND 0x9: the signal takes effect at issue + 2. -/
def execEventSignal (w : SWord) (s : State) : Host.Outcome State Fault Refusal :=
  .next (s.issue w 0x9 0 0 (rchBlame w) (eventCheck false) (fun s =>
    let e := eventArgs w.args
    s.later (w.stamp.toNat + 2) (.event e.ctr e.value)))

end Sys2Proof.Machine
end

