-- ==== Sys2Proof/Machine/Tiller.lean ====
section
/-!
DEFINITION. Tiller words: the passes of R151, LOAD_B, and the commit of a pass (R159).
-/
namespace Sys2Proof.Machine

/-- Where a Tiller word's operand errors are captured (R117, R180). -/
def tillerBlame (w : SWord) (s : State) : Blame :=
  let p := passArgs w.args
  ⟨Pg.tlr w.die ((s.physOf w.die w.unit.toNat).getD w.unit.toNat), tlrInfo p.gran 0 w.unit.toNat⟩

/-- The B buffer of a logical Tiller: zero data with scales of 127 until it is loaded (R155). -/
def State.bbuf (s : State) (die logical sel : Nat) : BBuf :=
  (s.eng.bbufs.find? fun b => b.die == die && b.logical == logical && b.sel == sel).getD
    { die := die, logical := logical, sel := sel, stamp := 0, off := 0, soff := none, step := 34, data := List.replicate 16384 0, scales := List.replicate 1024 127, ready := 0 }

/-- The scale a pass uses, read at its issue: none for an adopted value out of range (R141, R144, R150, R165). -/
def State.passScale (s : State) (die logical op : Nat) (p : PassArgs) : Option Nat :=
  if p.acc ≠ 2 then some 0
  else match op with
    | 1 => some (s.tdesc die logical p.gran % 32)
    | 2 => some 0
    | 7 => let v := s.sreg die p.sreg; if v % 2 = 0 ∧ v ≤ 30 then some v else none
    | _ => some (s.tdesc die (p.aOff / 0x200000) (p.aOff % 0x200000 / 0x1000) % 32)

/-- TRADE_GUARD_LAST for a pair (R588). -/
def guardWord (kind die primary shadow : Nat) : Nat := kind * 2 ^ 28 + die * 2 ^ 26 + primary * 2 ^ 16 + shadow * 2 ^ 8

/-- A pass issues: it enters flight, or an adopted scale out of range squashes it. -/
def State.startPass (s : State) (w : SWord) (op : Nat) (dis : Option (Fin 256)) : State :=
  let p := passArgs w.args
  let l := w.unit.toNat
  let d := w.die.val
  let phys := (s.physOf d l).getD l
  let pg := Pg.tlr d phys
  match s.passScale d l op p with
  | none =>
    ((s.tillerPages d phys l).foldl (fun (s : State) g => s.bump g Reg.TLR_SQUASH_CNT 1) s).raise pg .SCALE_RANGE (some (spadBase d + accOff l p)) (tlrInfo p.gran 0 l)
  | some scale =>
    let b := s.bbuf d l p.bsel
    let q : Pass := { die := d, logical := l, phys := phys, op := op, stamp := w.stamp.toNat, args := w.args,
                      word := s.wordAddr d w.idx.toNat, scale := scale,
                      btile := if isSumPass op then b.data else [], bscale := if isSumPass op then b.scales else [],
                      step := 0, arows := [], out := [], satRow := none, replay := false, redo := none, dis := dis.map fun x => x.val }
    let s := { s with eng := { s.eng with passes := s.eng.passes ++ [q] } }
    match dis with
    | some r =>
      if s.prot = 1 ∧ r.val < p.m then
        s.later (w.stamp.toNat + r.val + 144) (.abort pg (errCode .GUARD_MISMATCH .tlr) (some (q.rowAddr r.val)) (tlrInfo p.gran r.val l)
          (some (guardWord 1 d phys ((s.physOf d (l + 40)).getD (l + 40)))))
      else s
    | none => s

/-- The issue of a pass word of the given OP. -/
def State.passWord (s : State) (w : SWord) (op : Nat) (dis : Option (Fin 256)) : State :=
  s.issue w 1 op 0 (tillerBlame w) State.passCheck (fun s => s.startPass w op dis)

/-- OP 0x01. -/
def execPass (w : SWord) (dis : Option (Fin 256)) (s : State) : Host.Outcome State Fault Refusal := .next (s.passWord w 1 dis)
/-- OP 0x02. -/
def execPassInit (w : SWord) (dis : Option (Fin 256)) (s : State) : Host.Outcome State Fault Refusal := .next (s.passWord w 2 dis)
/-- OP 0x03. -/
def execPassMax (w : SWord) (dis : Option (Fin 256)) (s : State) : Host.Outcome State Fault Refusal := .next (s.passWord w 3 dis)
/-- OP 0x04. -/
def execPassMin (w : SWord) (dis : Option (Fin 256)) (s : State) : Host.Outcome State Fault Refusal := .next (s.passWord w 4 dis)
/-- OP 0x05. -/
def execPassMaxInit (w : SWord) (dis : Option (Fin 256)) (s : State) : Host.Outcome State Fault Refusal := .next (s.passWord w 5 dis)
/-- OP 0x06. -/
def execPassMinInit (w : SWord) (dis : Option (Fin 256)) (s : State) : Host.Outcome State Fault Refusal := .next (s.passWord w 6 dis)
/-- OP 0x07. -/
def execPassAdopt (w : SWord) (dis : Option (Fin 256)) (s : State) : Host.Outcome State Fault Refusal := .next (s.passWord w 7 dis)

/-- A B-tile load begins: it reads 512 bytes in each of 32 cycles from issue, then the scale block in two more, and a pass may use the buffer from issue + 48
(R154, R155). -/
def State.loadB (s : State) (w : SWord) : State :=
  let l := loadBArgs w.args
  let d := w.die.val
  let b : BBuf := { die := d, logical := w.unit.toNat, sel := l.bsel, stamp := w.stamp.toNat, off := spadBase d + l.bOff,
                    soff := if l.mx then some (spadBase d + l.bsOff) else none, step := 0, data := [],
                    scales := if l.mx then [] else List.replicate 1024 127, ready := w.stamp.toNat + 48 }
  { s with eng := { s.eng with bbufs := b :: s.eng.bbufs.filter fun x => !(x.die == d && x.logical == w.unit.toNat && x.sel == l.bsel) } }

/-- OP 0x08. A LOAD_B names no granule, and GRAN of an error's ERR_INFO (R180) is 0 (DESIGN CHOICE, log entry 78). -/
def execLoadB (w : SWord) (s : State) : Host.Outcome State Fault Refusal :=
  .next (s.issue w 1 8 0 (fun s => ⟨(tillerBlame w s).page, w.unit.toNat⟩) State.loadBCheck (fun s => s.loadB w))

/-- The oldest pass in flight of a logical Tiller. -/
def State.oldestPass (s : State) (die logical : Nat) : Option Pass := s.eng.passes.find? fun p => p.die == die && p.logical == logical

/-- R159: the counter reaches the commit cycle of the oldest pass in flight of a logical Tiller. -/
def execPassCommit (die : Fin 4) (logical : Fin 80) (s : State) : Host.Outcome State Fault Refusal :=
  let s := s.begin
  .next (match s.oldestPass die logical with
    | some p => s.advance p.commitAt
    | none => s)

end Sys2Proof.Machine
end

