-- ==== Sys2Proof/Machine/Awn.lean ====
section
/-!
DEFINITION. Awn chains at issue (R230, R242, R257, R262, R571).
-/
namespace Sys2Proof.Machine

/-- The ESC exponents of a chain's inputs (R242, R262). -/
def State.chainExps (s : State) (die : Nat) (p : ChainPlan) : List Int :=
  p.ins.map fun x => if x.esc then signed 32 (s.sreg die x.esreg) else 0

/-- The chunk address at which a Guarded pair of Awns is compared. -/
def chunkAddr (die : Nat) (o : ChainOut) (c : Nat) : Nat :=
  let w := match Fmt.ofCode o.fmt with
    | some f => f.width
    | none => 32
  spadBase die + o.off + c * min 512 (64 * w)

/-- The chain issues: it enters flight with its scalars, thresholds and exponents, or an exponent out of range leaves it without outputs. DESIGN CHOICE
(log entry 84): a chain without outputs records no stream segment and checks none. -/
def State.startChain (s : State) (w : SWord) (words : List (BitVec 8 × BitVec 88)) (dis : Option (Nat × Nat)) : State :=
  let p := chainPlan words
  let d := w.die.val
  let u := w.unit.toNat
  let pg := Pg.awn d u
  let exps := s.chainExps d p
  if exps.any fun e => decide (e < -64) || decide (63 < e) then
    let i := exps.findIdx fun e => decide (e < -64) || decide (63 < e)
    let s := s.raise pg .SCALE_RANGE none (awnInfo (1 + i) 0xF 0)
    let vis := w.stamp.toNat + p.cycles + p.delay
    (s.laterEach vis (s.awnPages d u) fun a => .count64 (a.base + Reg.AWN_CHAIN_CNT_LO) 1).later vis (.ends pg p.head.rnd)
  else
    let c : Chain := { die := d, unit := u, stamp := w.stamp.toNat, words := words, scalars := p.stages.map fun st => s.sreg d st.sreg, exps := exps,
                       thresh := p.outs.map fun o => if o.ten then s.bytesAt (spadBase d + o.toff) 16 else [],
                       step := 0, walls := [], inputs := [], stream := [], dis := dis }
    let s := { s with eng := { s.eng with chains := s.eng.chains ++ [c] } }
    let s := if p.head.rnd = 3 ∧ !headerOk p (s.bytesAt (spadBase d + p.head.soff) 64) then
        let at_ := w.stamp.toNat + 8
        let s := s.later at_ (.count32 (pg.base + Reg.AWN_STREAM_ERR_CNT) 1)
        let s := s.later at_ (.int pg 1)
        s.later at_ (.abort pg (errCode .STREAM_MISMATCH .awn) (some (spadBase d + p.head.soff)) (awnInfo 0 0xF 8) none)
      else s
    match dis with
    | some (k, o) =>
      (match p.outs[o]? with
       | some out =>
         if s.prot = 1 ∧ k < p.cycles then
           s.later (w.stamp.toNat + k + p.delay) (.abort pg (errCode .GUARD_MISMATCH .awn) (some (chunkAddr d out k))
             (awnInfo (1 + p.head.nin + o) 0xF (k + p.delay)) (some (guardWord 2 d u (u + 8))))
         else s
       | none => s)
    | none => s

/-- The words of a chain: OP 0x01 for the head, then the others. -/
def chainWords (w : SWord) (more : List ChainWord) : List (BitVec 8 × BitVec 88) := (1, w.args) :: more.map fun x => (x.op, x.args)

/-- R230: the group issues as one operation. -/
def execChain (w : SWord) (more : List ChainWord) (dis : Option (Nat × Nat)) (s : State) : Host.Outcome State Fault Refusal :=
  .next (s.issue w 2 1 0 (fun _ => ⟨Pg.awn w.die w.unit.toNat, awnInfo 0 0xF 0⟩) (fun s c _ => s.chainCheck c (chainWords w more))
    (fun s => s.startChain w (chainWords w more) dis))

end Sys2Proof.Machine
end

