-- ==== Sys2Proof/Machine/SecCore.lean ====
section
/-!
DEFINITION. Shared operations of the security controller: key slots (R635, R636), fresh nonces (R392, R650), and refused signed objects.
-/
namespace Sys2Proof.Machine

def State.setSec (s : State) (x : Security) : State := { s with sec := x }

/-- Whether the entropy source has failed (R655). -/
def State.entropyFailed (s : State) : Bool := s.fldP Pg.sec Reg.SEC_STAT 29 29 == 1

/-- The public keys of the valid slots that have a usage bit: the service key in slot 2, the firmware key in slot 1, and the operator slots. -/
def State.keysFor (s : State) (usage : Nat) : List (List Byte) :=
  (if usage = 1 ∨ usage = 2 ∨ usage = 3 then [Config.saothKey 2] else []) ++ (if usage = 4 then [Config.saothKey 1] else [])
    ++ s.sec.keys.filterMap fun k => match k with
      | some x => if bit x.usage usage then some x.pub else none
      | none => none

/-- R636: a signature verifies under a valid slot that has the usage. -/
def State.signedFor (s : State) (usage : Nat) (msg sig : List Byte) : Bool := (s.keysFor usage).any fun k => Config.ecdsaOk k msg sig

/-- n fresh bytes from the entropy source. -/
def State.fresh (s : State) (n : Nat) : List Byte × State :=
  let (k, s) := s.draw
  ((List.range n).map (Config.entropyByte k), s)

/-- Bytes written over consecutive registers from an offset. -/
def State.wrBytes (s : State) (off : Nat) (l : List Byte) : State :=
  (List.range (l.length / 4)).foldl (fun s i => s.wr (off + 4 * i) (BitVec.ofNat 32 (leAt l (4 * i) 4))) s

/-- Bytes of n consecutive registers from an offset. -/
def State.rdBytes (s : State) (off n : Nat) : List Byte := (List.range n).flatMap fun i => leBytes 4 (s.rd (off + 4 * i)).toNat

/-- The handover nonce of a port replaced (R392); it waits while the entropy source has failed. -/
def State.newHoNonce (s : State) (n : Nat) : State :=
  if s.entropyFailed then s.setSec { s.sec with hoNonceDue := n :: s.sec.hoNonceDue.filter fun x => x != n }
  else
    let (l, s) := s.fresh 32
    s.wrBytes ((Pg.pcie n).base + Reg.PCIE_HO_NONCEn) l

/-- SEC_NONCE replaced (R650). -/
def State.newSecNonce (s : State) : State :=
  if s.entropyFailed then s.setSec { s.sec with nonceDue := true }
  else
    let (l, s) := s.fresh 32
    s.wrBytes (Pg.sec.base + Reg.SEC_NONCEn) l

/-- A signed object refused: counted. -/
def State.authFailed (s : State) : State := s.bump Pg.sec Reg.SEC_AUTH_FAIL_CNT 1

/-- An access refused by a page: the error is raised there and answered to the issuer. -/
def State.deny (s : State) (p : Page) (c : Cause) (addr : Option Nat) (info : Nat) : State := (s.raise p c addr info).refuse (errCode c p.kind)

/-- How a request that reached a port ends in PCI Express terms (R389). -/
inductive CplStatus
  | successful | unsupportedRequest | completerAbort
  deriving DecidableEq, Repr

/-- The completion status of an answer: an error of class 1 is an Unsupported Request, any other a Completer Abort (R389). -/
def Response.status : Response → CplStatus
  | .error c => if c / 4096 = 1 then .unsupportedRequest else .completerAbort
  | _ => .successful

/-- The bit of the Uncorrectable Error Status register of Advanced Error Reporting that a status sets: bit 20 for an Unsupported Request, bit 15 for a Completer
Abort. PRESUMED (log entry 66): the base specification places them. -/
def CplStatus.aerBit : CplStatus → Word
  | .successful => 0
  | .unsupportedRequest => 0x100000
  | .completerAbort => 0x8000

/-- The answer to a port's access reported through Advanced Error Reporting (R389). -/
def State.reported (s : State) (n : Nat) : State :=
  match s.resp.status with
  | .successful => s
  | x => s.setPci n { s.pci n with aer := (s.pci n).aer ||| x.aerBit }

end Sys2Proof.Machine
end

