-- ==== Sys2Proof/Machine/HostPorts.lean ====
section
/-!
DEFINITION. The PCI Express ports: links and resets (R385, R671), submission and completion rings (R397 to R401, R415, R416), and the handover of ownership
(R392 to R396).
-/
namespace Sys2Proof.Machine

/-! ## Links -/

/-- Unstarted descriptors that a port's rings have fetched go without a completion (R385). -/
def State.discardFetched (s : State) (n : Nat) : State :=
  let h := s.host
  let rings := h.rings.zipIdx.map fun q => if q.2 / 16 = n then { q.1 with fetched := [] } else q.1
  let fence := match h.fenceWaiting with
    | some d => if d.port = n then none else some d
    | none => none
  let s := s.setHost { h with rings := rings, dups := h.dups.filter fun d => d.port != n, fenceWaiting := fence }
  if h.fenceWaiting.isSome ∧ fence.isNone then s.setP Pg.coll Reg.COLL_EPOCH 16 16 0 else s

/-- A port's link is lost: its configuration resets with it. -/
def State.pcieDown (s : State) (n : Nat) : State :=
  let p := Pg.pcie n
  let up := s.fldP p Reg.PCIE_LINK_STAT 21 21 == 1
  let s := s.wrP p Reg.PCIE_LINK_STAT 0
  let s := s.setPci n PciPort.fresh
  let s := s.discardFetched n
  if up then s.setInt p 1 else s

/-- Whether a port can reach host memory: its link is up and Bus Master Enable is 1. -/
def State.hostUp (s : State) (n : Nat) : Bool := s.fldP (Pg.pcie n) Reg.PCIE_LINK_STAT 21 21 == 1 && (s.pci n).cfg.master

/-- R385. -/
def execPcieLinkDown (t : Nat) (port : Fin 2) (s : State) : Host.Outcome State Fault Refusal := .next ((s.begin.passTime t).pcieDown port)

/-- R385: PERSTn_N also returns the ring registers to their reset values. -/
def execPerstAssert (t : Nat) (port : Fin 2) (s : State) : Host.Outcome State Fault Refusal :=
  let s := (s.begin.passTime t).pcieDown port
  let lo := (Pg.pcie port).base + Reg.PCIE_SQq_BASE_LO
  .next (({ s with regs := s.regs.filter fun q => !(decide (lo ≤ q.1) && decide (q.1 < lo + 0x400)) }).setHost { s.host with perst := s.host.perst.set port true })

/-- R671. -/
def execPerstDeassert (t : Nat) (port : Fin 2) (s : State) : Host.Outcome State Fault Refusal :=
  let s := s.begin.passTime t
  .next (s.setHost { s.host with perst := s.host.perst.set port false })

/-- R671: a link can come up while PERSTn_N is deasserted, from 1 ms after PWR_OK, while the reference is present and the port is not powered down. -/
def State.linkMayRise (s : State) (n : Nat) : Bool :=
  !s.host.perst.getD n true && (s.boot.phase == .powered || s.boot.phase == .ready || s.boot.phase == .recovery || s.boot.phase == .halted)
    && decide (s.boot.okAt + 2000000 ≤ s.wall) && s.pwr.coast.isNone && (s.boot.phase != .ready || s.domainOn (200 + n))

def execPcieLinkUp (t : Nat) (port : Fin 2) (speed : Fin 6) (width : Fin 4) (cfg : HostConfig) (s : State) : Host.Outcome State Fault Refusal :=
  let s := s.begin.passTime t
  let lanes := [1, 4, 8, 16].getD width 16
  .next (if s.linkMayRise port then
      ((s.wrP (Pg.pcie port) Reg.PCIE_LINK_STAT (BitVec.ofNat 32 ((speed.val + 1) * 2 ^ 28 + lanes * 2 ^ 22 + 2 ^ 21))).setPci port
        { s.pci port with cfg := cfg }).msixFlush port
    else s)

/-- R383: L1 and L0p. -/
def execPcieLinkPowerState (t : Nat) (port : Fin 2) (l1 l0p : Bool) (s : State) : Host.Outcome State Fault Refusal :=
  let s := s.begin.passTime t
  let p := Pg.pcie port
  .next (if s.fldP p Reg.PCIE_LINK_STAT 21 21 = 1 then (s.setP p Reg.PCIE_LINK_STAT 20 20 (b2n l0p)).setP p Reg.PCIE_LINK_STAT 19 19 (b2n l1) else s)

/-! ## Ring registers (R398, R399) -/

/-- A ring's CFG register written: keep lists the bits that the register holds. -/
def State.ringCfg (s : State) (port ring : Nat) (cq : Bool) (v : Word) : State :=
  let p := Pg.pcie port
  let o := ringReg (if cq then Reg.PCIE_CQq_CFG else Reg.PCIE_SQq_CFG) ring
  let was := s.rdP p o
  let size := fld v 4 0
  let bad := (fld was 31 31 = 1 ∧ size ≠ fld was 4 0) ∨ (fld v 31 31 = 1 ∧ (size < 6 ∨ 16 < size))
  if bad then s.deny p .RING_CFG none (ring * 2 ^ 28 + 2 ^ 27)
  else
    let s := s.wrP p o (v &&& (if cq then 0xC000001F else 0x8000001F))
    if fld v 31 31 = 0 then s
    else if cq then (s.wrP p (ringReg Reg.PCIE_CQq_HEAD ring) 0).wrP p (ringReg Reg.PCIE_CQq_TAIL ring) 0x10000
    else (s.wrP p (ringReg Reg.PCIE_SQq_HEAD ring) 0).wrP p (ringReg Reg.PCIE_SQq_TAIL ring) 0

/-- A ring's BASE register written: refused while the ring is enabled. -/
def State.ringBase (s : State) (port ring : Nat) (cq : Bool) (o : Nat) (v : Word) : State :=
  let p := Pg.pcie port
  if s.fldP p (ringReg (if cq then Reg.PCIE_CQq_CFG else Reg.PCIE_SQq_CFG) ring) 31 31 = 1 then s.deny p .RING_CFG none (ring * 2 ^ 28 + 2 ^ 27)
  else
    let low := o = Reg.PCIE_SQq_BASE_LO ∨ o = Reg.PCIE_CQq_BASE_LO
    s.wrP p (ringReg o ring) (if low then v &&& 0xFFFFF000 else v)

/-- SQq_TAIL written: a value not below the entry count is ignored and raises RING_CFG. -/
def State.ringTail (s : State) (port ring : Nat) (v : Word) : State :=
  let p := Pg.pcie port
  let x := fld v 15 0
  if x < s.ringSize port Reg.PCIE_SQq_CFG ring then s.wrP p (ringReg Reg.PCIE_SQq_TAIL ring) (BitVec.ofNat 32 x)
  else s.raise p .RING_CFG none (ringInfo ring x)

/-! ## Fetching and completing -/

/-- A descriptor whose KIND, or whose OP as a SLOT, is reserved (R403, R405). -/
def Desc.reserved (d : Desc) : Bool := decide (8 ≤ d.kind) || (d.kind == 2 && decide (3 ≤ d.field 0x18 1))

/-- Whether the ring's next descriptor may leave the queue: no completion is held and the completion ring has room (R401). -/
def State.ringFree (s : State) (port ring : Nat) : Bool := (s.ring port ring).held.isEmpty && s.cqRoom port ring

/-- A descriptor that fails its checks (R404): the port's page captures the error. -/
def State.badDesc (s : State) (d : Desc) : State :=
  (s.raise (Pg.pcie d.port) .DESC_INVALID none (ringInfo d.ring d.index)).refuseDesc d (errCode .DESC_INVALID .pcie)

/-- The front descriptor of a ring taken off. -/
def State.popDesc (s : State) (d : Desc) : State :=
  let r := s.ring d.port d.ring
  s.setRing d.port d.ring { r with fetched := r.fetched.filter fun x => x.seq != d.seq }

/-- A duplicate of a tag in the window (R413): it completes as the copy that ran, now or when that completes. -/
def State.takeDup (s : State) (d : Desc) (r : TagRec) : State :=
  let s := (s.popDesc d).bump (Pg.pcie d.port) Reg.PCIE_DUP_CNT 1
  match r.outcome with
  | some o => s.holdDup d o
  | none => s.setHost { s.host with dups := s.host.dups ++ [d] }

/-- Reserved descriptors that have reached the front of a ring complete with DESC_INVALID. -/
def State.sweepRing (s : State) (port ring : Nat) : Nat → State
  | 0 => s
  | k + 1 => match (s.ring port ring).fetched with
    | d :: _ =>
      if d.reserved ∧ s.ringFree port ring then
        (match s.seen d with
         | some r => s.takeDup d r
         | none => (s.popDesc d).badDesc d).sweepRing port ring k
      else s
    | [] => s

/-- R399: whether a ring may fetch. -/
def State.mayFetch (s : State) (port ring : Nat) : Bool :=
  let p := Pg.pcie port
  s.owner == port && s.hostUp port && s.boot.phase == .ready && s.fldP p (ringReg Reg.PCIE_SQq_CFG ring) 31 31 == 1
    && s.fldP p (ringReg Reg.PCIE_SQq_HEAD ring) 15 0 != s.fldP p (ringReg Reg.PCIE_SQq_TAIL ring) 15 0
    && decide ((s.ring port ring).fetched.length < 32)

/-- R399: one entry fetched. -/
def State.fetchDesc (s : State) (port ring : Nat) (bytes : List Byte) : State :=
  let p := Pg.pcie port
  let head := s.fldP p (ringReg Reg.PCIE_SQq_HEAD ring) 15 0
  let d : Desc := ⟨port, ring, head, s.host.fetchSeq, bytes⟩
  let r := s.ring port ring
  let s := s.setRing port ring { r with fetched := r.fetched ++ [d] }
  let s := s.setHost { s.host with fetchSeq := s.host.fetchSeq + 1 }
  let s := s.wrP p (ringReg Reg.PCIE_SQq_HEAD ring) (BitVec.ofNat 32 ((head + 1) % s.ringSize port Reg.PCIE_SQq_CFG ring))
  s.sweepRing port ring 32

def execDescriptorFetch (t : Nat) (port : Fin 2) (ring : Fin 16) (bytes : Vector Byte 64) (s : State) : Host.Outcome State Fault Refusal :=
  let s := s.begin.passTime t
  .next (if s.mayFetch port ring then s.fetchDesc port ring bytes.toList else s)

/-- The 32 bytes of a completion entry (R415). -/
def completionBytes (c : Completion) (phase : Nat) : List Byte :=
  leBytes 8 c.tag ++ leBytes 2 c.status ++ leBytes 1 c.kind ++ leBytes 1 (phase + 2 * b2n c.dup + 4 * b2n c.signalled) ++ leBytes 4 c.index
    ++ leBytes 8 c.info ++ List.replicate 8 0

/-- R401: the oldest held completion of a ring is written, or dropped while the link is down (R385). -/
def State.writeCompletion (s : State) (port ring : Nat) : State :=
  let p := Pg.pcie port
  let r := s.ring port ring
  match r.held with
  | [] => s
  | c :: rest =>
    if !s.hostUp port then ((s.setRing port ring { r with held := rest }).bump p Reg.PCIE_CPL_DROP_CNT 1).sweepRing port ring 32
    else if s.cqRoom port ring then
      let n := s.ringSize port Reg.PCIE_CQq_CFG ring
      let tail := s.fldP p (ringReg Reg.PCIE_CQq_TAIL ring) 15 0
      let phase := s.fldP p (ringReg Reg.PCIE_CQq_TAIL ring) 16 16
      let base := s.num p (ringReg Reg.PCIE_CQq_BASE_LO ring) + 2 ^ 32 * s.num p (ringReg Reg.PCIE_CQq_BASE_HI ring)
      let s := { s with out := s.out ++ [Out.host port (base + 32 * tail) (completionBytes c phase)] }
      let next := (tail + 1) % n
      let phase := if next = 0 then 1 - phase else phase
      let s := s.wrP p (ringReg Reg.PCIE_CQq_TAIL ring) (BitVec.ofNat 32 (phase * 65536 + next))
      let s := s.setRing port ring { r with held := rest }
      let s := if c.irq ∧ s.fldP p (ringReg Reg.PCIE_CQq_CFG ring) 30 30 = 1 then s.msix port (1 + ring) else s
      s.sweepRing port ring 32
    else s

def execCompletionWrite (t : Nat) (port : Fin 2) (ring : Fin 16) (s : State) : Host.Outcome State Fault Refusal :=
  .next ((s.begin.passTime t).writeCompletion port ring)

/-! ## Handover (R392 to R396) -/

/-- HANDOVER STATE of a port's page. -/
def State.hoState (s : State) (n : Nat) : Nat := s.fldP (Pg.pcie n) Reg.PCIE_HO_STAT 31 30

/-- R392, R394: GO written to a port's page; a write through the owner port, or while a handover is verified or accepted, is answered busy. -/
def State.handoverGo (s : State) (n : Nat) (byOwner : Bool) (v : Word) : State :=
  let p := Pg.pcie n
  if fld v 0 0 = 0 then s
  else if byOwner ∨ s.hoState n = 1 ∨ s.hoState n = 2 then s.setP p Reg.PCIE_HO_STAT 15 0 (errCode .HANDOVER_BUSY .pcie)
  else s.wrP p Reg.PCIE_HO_STAT 0x40000000

/-- R393: the record in a port's window is good. -/
def State.handoverGood (s : State) (n : Nat) : Bool :=
  let b := (Pg.pcie n).base
  let r := s.rdBytes (b + Reg.PCIE_HO_REC) 48
  leAt r 0 4 == 0x48564F48 && leAt r 4 1 == n && allZero ((r.drop 5).take 3) && allZero ((r.drop 0x28).take 56)
    && (r.drop 8).take 32 == s.rdBytes (b + Reg.PCIE_HO_NONCEn) 8 && s.signedFor 0 (r.take 0x60) ((r.drop 0x60).take 96)

/-- R392: the verification ends. -/
def execHandoverVerifyDone (t : Nat) (port : Fin 2) (s : State) : Host.Outcome State Fault Refusal :=
  let s := s.begin.passTime t
  let p := Pg.pcie port
  .next (if s.hoState port ≠ 1 then s
    else if s.handoverGood port then
      let s := s.wrP p Reg.PCIE_HO_STAT 0x80000000
      ((s.setP p Reg.PCIE_OWN 1 1 1).setInt p 2).newHoNonce port
    else
      let s := s.wrP p Reg.PCIE_HO_STAT (BitVec.ofNat 32 (3 * 2 ^ 30 + errCode .HANDOVER_AUTH .pcie))
      ((s.raise p .HANDOVER_AUTH none 0).setInt p 3).authFailed.newHoNonce port)

/-- Ownership passes to a port: HANDOVERS counts in both pages. -/
def State.passOwnership (s : State) (n : Nat) : State :=
  (List.range 2).foldl (fun s k =>
    let p := Pg.pcie k
    let h := s.fldP p Reg.PCIE_OWN 31 16
    let s := s.wrP p Reg.PCIE_OWN (BitVec.ofNat 32 ((h + 1) % 65536 * 65536 + b2n (k == n)))
    if k = n then s.setP p Reg.PCIE_HO_STAT 31 30 0 else s) s

/-- R395: an accepted handover at the boundary; the old owner's unstarted descriptors complete with HANDED_OVER. -/
def State.ownershipBoundary (s : State) : State :=
  match (List.range 2).find? fun n => s.fldP (Pg.pcie n) Reg.PCIE_OWN 1 1 == 1 with
  | none => s
  | some n =>
    let old := s.owner
    let fetched := (List.range 16).flatMap fun q => (s.ring old q).fetched
    let h := s.host
    let dups := h.dups.filter fun d => d.port == old
    let fence := match h.fenceWaiting with
      | some d => if d.port = old then none else some d
      | none => none
    let rings := h.rings.zipIdx.map fun q => if q.2 / 16 = old then { q.1 with fetched := [] } else q.1
    let s := s.setHost { h with rings := rings, dups := h.dups.filter (fun d => d.port != old), fenceWaiting := fence }
    let s := if h.fenceWaiting.isSome ∧ fence.isNone then s.setP Pg.coll Reg.COLL_EPOCH 16 16 0 else s
    let s := (fetched ++ dups).foldl (fun s d => s.refuseDesc d (errCode .HANDED_OVER .pcie)) s
    s.passOwnership n

end Sys2Proof.Machine
end

