-- ==== Sys2Proof/Machine/FabricChecks.lean ====
section
/-!
DEFINITION. Fabric words and collective blocks, with the checks of R453 and R489 that one word can fail (R449, R452, R479 to R486).
-/
namespace Sys2Proof.Machine

/-! ## SEND and RECV -/

structure SendArgs where
  dst : Nat
  dstream : Nat
  nc : Nat
  soff : Nat
  rsv : Nat
  deriving DecidableEq, Repr

/-- R449. -/
def sendArgs (a : BitVec 88) : SendArgs :=
  let n := a.toNat
  ⟨bits n 87 72, bits n 71 64, bits n 63 52 + 1, bits n 51 30 * 64, bits n 29 0⟩

structure RecvArgs where
  src : Nat
  sstream : Nat
  base : Nat
  log : Nat
  nc : Nat
  rsv : Nat
  deriving DecidableEq, Repr

/-- R452. -/
def recvArgs (a : BitVec 88) : RecvArgs :=
  let n := a.toNat
  ⟨bits n 87 72, bits n 71 64, bits n 63 44 * 4096, bits n 43 40, bits n 39 28 + 1, bits n 27 0⟩

/-- Ring size in cells. -/
def ringCells (log : Nat) : Nat := 2 ^ (log + 6)

def State.sendCheck (s : State) (c : WordCtx) (w : RawWord) : List Finding :=
  let a := sendArgs w.args
  badWord (a.rsv != 0) ++ s.spadCheck c.die a.soff (64 * a.nc) true

def State.recvCheck (s : State) (c : WordCtx) (w : RawWord) : List Finding :=
  let a := recvArgs w.args
  let n := 64 * ringCells a.log
  badWord (a.rsv != 0 || decide (10 < a.log) || decide (ringCells a.log < a.nc))
    ++ s.spadCheck c.die a.base n false ++ bad (a.base % n != 0) 9 .REACH (some (spadBase c.die + a.base))

/-! ## Collective blocks (R479 to R485) -/

/-- What a COLLECTIVE descriptor and a collective block state. -/
structure CollBlock where
  id : Nat
  op : Nat
  sfmt : Nat
  dfmt : Nat
  mode : Nat
  srank : Nat
  count : Nat
  cseq : Nat
  src : Nat
  dst : Nat
  window : Nat
  sreg : Nat
  deriving DecidableEq, Repr

/-- R485. -/
def collBlock (l : List Byte) : CollBlock :=
  ⟨leAt l 0 2, leAt l 2 1, leAt l 3 1, leAt l 4 1, leAt l 5 1, leAt l 6 2, leAt l 8 4, leAt l 0xC 4, leAt l 0x10 8, leAt l 0x18 8, leAt l 0x20 2, leAt l 0x22 1⟩

/-- R482, from the payload of 40 bytes at 0x18 of a descriptor. -/
def collPayload (l : List Byte) : CollBlock :=
  ⟨leAt l 0 2, leAt l 2 1, leAt l 3 1, leAt l 4 1, leAt l 5 1, leAt l 6 2, leAt l 8 4, leAt l 0xC 4, leAt l 0x10 8, leAt l 0x18 8, leAt l 0x20 2, 0⟩

/-- R480: the formats of an operation. -/
def collFormats (op sfmt dfmt : Nat) : Bool :=
  if isSumOp op then (decide (sfmt ≤ 5) && decide (dfmt ≤ 5)) || (decide (6 ≤ sfmt) && decide (sfmt ≤ 8) && decide (6 ≤ dfmt) && decide (dfmt ≤ 8))
  else if isPairOp op then sfmt == 0 && dfmt == 0
  else decide (sfmt ≤ 8) && dfmt == sfmt

/-- A breach of R479 to R482 for a collective of a number of members. -/
def CollBlock.bad (b : CollBlock) (members : Nat) : Bool :=
  b.op == 0 || decide (7 < b.op) || !collFormats b.op b.sfmt b.dfmt || decide (8 ≤ b.mode) || (b.op != 4 && b.srank != 0) || b.count == 0
    || decide (32767 * 4096 < vectorBytes b.op b.sfmt b.count members) || (b.op == 2 && b.count % 1024 != 0)
    || (b.op == 3 && b.count * wireBits b.op b.sfmt % (8 * 4096) != 0) || b.window == 0 || decide (1024 < b.window)

/-- Members of the collective that an ID names, 1 while the table does not hold it. -/
def State.membersOf (s : State) (id : Nat) : Nat :=
  let e := s.collEntry (id % 4096)
  if e.valid ∧ e.id = id then e.membersM1 + 1 else 1

/-- R490, R483: the entry serves the collective and this module is a member. -/
def State.tableServes (s : State) (b : CollBlock) : Bool :=
  let e := s.collEntry (b.id % 4096)
  e.valid && e.id == b.id && e.isMember && e.ring == isRingOp b.op

/-- Source bytes that this module's member gives (R486). -/
def State.giveBytes (s : State) (b : CollBlock) : Nat :=
  if b.op = 4 ∧ (s.collEntry (b.id % 4096)).rank ≠ b.srank then 0 else sourceBytes b.op b.sfmt b.count (s.membersOf b.id)

/-- BLK of a collective word (R484). -/
def collBlk (a : BitVec 88) : Nat := bits a.toNat 87 60 * 64

/-- The block of a collective word. -/
def State.collBlockOf (s : State) (c : WordCtx) (w : RawWord) : CollBlock := collBlock (s.bytesAt (c.base + collBlk w.args) 64)

/-- A scratchpad range of a collective block. -/
def State.collRange (s : State) (die a n : Nat) : List Finding :=
  if n = 0 ∧ (regionOf a).isNone then []
  else s.populatedCheck a n
    ++ Machine.bad (decide (a < spadBase die) || decide (spadBase die + spadBytes ≤ a) || a % 512 != 0) 9 .REACH (some a)
    ++ Machine.bad (s.prot == 2 && inReservation (a - spadBase die) n) 9 .REACH (some a)

def State.collCheck (s : State) (c : WordCtx) (w : RawWord) : List Finding :=
  if bits w.args.toNat 59 0 ≠ 0 ∨ c.len < collBlk w.args + 64 then badWord true
  else
    let b := s.collBlockOf c w
    let m := s.membersOf b.id
    badWord (b.bad m || !allZero ((s.bytesAt (c.base + collBlk w.args) 64).drop 0x23))
      ++ s.collRange c.die b.src (sourceBytes b.op b.sfmt b.count m) ++ s.collRange c.die b.dst (destBytes b.op b.sfmt b.dfmt b.count m)

/-- Fabric words: OP 0x01 and OP 0x10 of KIND 0x6 and 0x7. -/
def State.fabricCheck (s : State) (c : WordCtx) (w : RawWord) : List Finding :=
  if w.op = 0x10 then s.collCheck c w else if w.op ≠ 1 then badWord true else if w.kind = 6 then s.sendCheck c w else s.recvCheck c w

/-- Wire cells of a block's member (R486). -/
def State.wireCells (s : State) (b : CollBlock) : Nat :=
  let m := s.membersOf b.id
  if s.giveBytes b = 0 then 0
  else if b.op = 3 then ceilDiv (vectorBytes b.op b.sfmt b.count m / max 1 m) 64
  else ceilDiv (vectorBytes b.op b.sfmt b.count m) 64

end Sys2Proof.Machine
end

