-- ==== Sys2Proof/Machine/Bookings.lean ====
section
/-!
DEFINITION. What a schedule word books (R91 to R94, R154, R155, R239 to R241, R256, R257, R262, R264, R280 to R285, R328 to R336, R681): the checks 10
to 13 of R96 read it.
-/
namespace Sys2Proof.Machine

/-- A port with its capacity: a bank's read and write port (1), a die-to-die link toward and from the Sheaf (40 flits, 20 at half width), and the scalar
delivery of a die (16 registers). -/
inductive Port
  | bankRead (die bank : Nat)
  | bankWrite (die bank : Nat)
  | linkUp (die : Nat)
  | linkDown (die : Nat)
  deriving DecidableEq, Repr

structure PortUse where
  port : Port
  start : Nat
  stop : Nat
  amount : Nat
  deriving DecidableEq, Repr

/-- A unit booked from start to stop - 1: the KIND of R86, die and number. -/
structure UnitUse where
  kind : Nat
  die : Nat
  unit : Nat
  start : Nat
  stop : Nat
  deriving DecidableEq, Repr

/-- A stack burst in a slot. -/
structure SlotUse where
  stack : Nat
  ch : Nat
  bank : Nat
  row : Nat
  slot : Nat
  deriving DecidableEq, Repr

/-- A Culm span on every channel of a stack. -/
structure SpanUse where
  stack : Nat
  first : Nat
  count : Nat
  deriving DecidableEq, Repr

/-- Bytes read or written in pieces: piece k is the len bytes from lo + k * step, over cycles start + k to stop + k - 1. -/
structure Touch where
  lo : Nat
  len : Nat
  step : Nat
  count : Nat
  start : Nat
  stop : Nat
  write : Bool
  deriving DecidableEq, Repr

/-- One range over cycles start to stop - 1. -/
def Touch.span (lo len start stop : Nat) (write : Bool) : Touch := ⟨lo, len, len, 1, start, stop, write⟩

/-- Adjoining pieces, one in each cycle from start. -/
def Touch.pieces (lo len count start : Nat) (write : Bool) : Touch := ⟨lo, len, len, count, start, start + 1, write⟩

/-- Bytes from the first that a touch reaches to its last. -/
def Touch.size (t : Touch) : Nat := if t.count = 0 then 0 else (t.count - 1) * t.step + t.len

/-- Bytes that no other operation may write, nor read where `reads` says so, over cycles start to stop - 1. A touch by a pass of the same Tiller that names
the same tile is excused: `tile` is that tile's address. -/
structure Guard where
  lo : Nat
  len : Nat
  start : Nat
  stop : Nat
  reads : Bool
  tile : Option (Nat × Nat)
  deriving DecidableEq, Repr

/-- All that one word books. -/
structure Uses where
  units : List UnitUse
  ports : List PortUse
  slots : List SlotUse
  spans : List SpanUse
  /-- Registers delivered, with their cycle and die (R262). -/
  scalars : List (Nat × Nat × Nat)
  touches : List Touch
  guards : List Guard
  /-- The pass's own tile, for the excuse of R156. -/
  tile : Option (Nat × Nat)
  /-- The last cycle occupied or at which a result becomes visible. -/
  last : Nat
  /-- A failure the word shows on its own under check 12. -/
  short : Bool
  /-- Addresses of the small records that a Culm word names (R334). -/
  records : List Nat
  /-- The word writes bytes that it must leave alone itself (R156). -/
  own : Bool
  deriving DecidableEq, Repr

def Uses.none (last : Nat) : Uses := ⟨[], [], [], [], [], [], [], .none, last, false, [], false⟩

def bankOf (off : Nat) : Nat := off / 0x80000

def spanMeets (a0 a1 b0 b1 : Nat) : Bool := decide (a0 < b1) && decide (b0 < a1)

/-- Whether a piece of a touch reaches a guarded byte in a guarded cycle. -/
def Touch.meets (t : Touch) (g : Guard) : Bool :=
  spanMeets g.lo (g.lo + g.len) t.lo (t.lo + t.size) && spanMeets g.start g.stop t.start (t.stop + t.count)
    && (List.range t.count).any fun k =>
      spanMeets g.lo (g.lo + g.len) (t.lo + k * t.step) (t.lo + k * t.step + t.len) && spanMeets g.start g.stop (t.start + k) (t.stop + k)

/-! ## Tiller words -/

def passUses (w : RawWord) (die : Nat) : Uses :=
  let p := passArgs w.args
  let t := w.stamp
  let d := t + p.m + 144
  let alen := p.m * aStride w.op p
  let clen := p.m * accRow w.op p
  let c := accOff w.unit p
  let tile := some (spadBase die + c, clen)
  { Uses.none d with
    units := [⟨1, die, w.unit, t, t + p.m⟩]
    ports := [⟨.bankRead die (bankOf p.aOff), t, t + p.m, 1⟩, ⟨.bankRead die (bankOf c), t + 128, t + 128 + p.m, 1⟩,
              ⟨.bankWrite die (bankOf c), t + 144, t + 144 + p.m, 1⟩]
    scalars := if w.op = 7 then [(t, die, p.sreg)] else []
    touches := [.pieces (spadBase die + p.aOff) (aStride w.op p) p.m t false, .pieces (spadBase die + c) (accRow w.op p) p.m (t + 128) false,
                .pieces (spadBase die + c) (accRow w.op p) p.m (t + 144) true]
    own := spanMeets p.aOff (p.aOff + alen) c (c + clen)
    guards := [⟨spadBase die + p.aOff, alen, t, d, false, .none⟩, ⟨spadBase die + c, clen, t, d, false, tile⟩]
    tile := tile }

def loadBUses (w : RawWord) (die : Nat) : Uses :=
  let l := loadBArgs w.args
  let t := w.stamp
  { Uses.none (t + 48) with
    ports := ⟨.bankRead die (bankOf l.bOff), t, t + 32, 1⟩ :: (if l.mx then [⟨.bankRead die (bankOf l.bsOff), t + 32, t + 34, 1⟩] else [])
    touches := .pieces (spadBase die + l.bOff) 512 32 t false :: (if l.mx then [.pieces (spadBase die + l.bsOff) 512 2 (t + 32) false] else []) }

/-! ## Chains -/

/-- Scratchpad ranges of elements lo to hi - 1 of one chunk of an operand, way by way, and of their block scales (R236, R238). -/
def chunkRanges (off xoff wstr : Nat) (f : Fmt) (lo hi : Nat) : List (Nat × Nat) :=
  let base := off + lo / 512 * min 512 (64 * f.width)
  let b0 := lo % 512 * f.width / 8
  let b1 := ((hi - 1) % 512 * f.width + f.width + 7) / 8
  (List.range (wayCount f.width)).filterMap (fun q =>
      let x := max b0 (512 * q)
      let y := min b1 (512 * q + 512)
      if x < y then some (base + q * wstr * 0x80000 + (x - 512 * q), y - x) else none)
    ++ (if f.isMx then [(xoff + lo / 32, (hi - 1) / 32 + 1 - lo / 32)] else [])

/-- Ranges that one input reads in chain cycle c (R237 to R239). -/
def inputRanges (x : ChainIn) (f : Fmt) (n c : Nat) : List (Nat × Nat) :=
  let es := (List.range (min 512 (n - 512 * c))).map fun j => x.index (512 * c + j)
  chunkRanges x.off x.xoff x.wstr f (es.foldl min (es.headD 0)) (es.foldl max 0 + 1)

/-- The chunk of one output that chain cycle c writes (R240). -/
def outputChunk (p : ChainPlan) (o : ChainOut) (c : Nat) : Option Nat :=
  let red := match p.stages[o.src]? with
    | some st => if isReduce st.op then st.glog else 0
    | none => 0
  let k := if red = 0 then c else 512 * c / 2 ^ red / 512
  let lastOf := fun k => (k + 1) * 512 * 2 ^ red / 512 - 1
  if (red = 0 ∨ c = min (lastOf k) (p.cycles - 1)) ∧ 512 * k < p.outLen o then some k else none

/-- Ranges that one output writes in chain cycle c: bytes of elements at or above its length are not written. -/
def outputTouches (p : ChainPlan) (o : ChainOut) (f : Fmt) (c : Nat) : List (Nat × Nat) :=
  match outputChunk p o c with
  | some k => chunkRanges o.off o.xoff o.wstr f (512 * k) (min (p.outLen o) (512 * k + 512))
  | none => []

/-- Write ports of one output in chain cycle c: every way of the chunk, booked even where its last elements are not written (R240). -/
def outputPorts (die : Nat) (p : ChainPlan) (o : ChainOut) (f : Fmt) (c t : Nat) : List PortUse :=
  match outputChunk p o c with
  | some k => (chunkRanges o.off o.xoff o.wstr f (512 * k) (512 * k + 512)).map fun r => ⟨.bankWrite die (bankOf r.1), t + c + p.delay, t + c + p.delay + 1, 1⟩
  | none => []

/-- Ranges of an operand of n elements with its scales (R236, R238), in the die's scratchpad. -/
def operandRanges (die off xoff wstr n : Nat) (f : Fmt) : List (Nat × Nat) :=
  ((List.range (wayCount f.width)).map fun q => (spadBase die + off + q * wstr * 0x80000, wayBytes f n q))
    ++ (if f.isMx then [(spadBase die + xoff, ceilDiv n 32)] else [])

def chainUses (t die unit : Nat) (words : List (BitVec 8 × BitVec 88)) : Uses :=
  let p := chainPlan words
  let n := p.cycles
  let dl := p.delay
  let so := p.head.soff
  let vis := t + n + dl
  let eachIn := fun (c : Nat) => p.ins.flatMap fun x => match Fmt.ofCode x.fmt with
    | some f => inputRanges x f p.head.len c
    | .none => []
  let eachOut := fun (c : Nat) => p.outs.flatMap fun o => match Fmt.ofCode o.fmt with
    | some f => outputTouches p o f c
    | .none => []
  let outR := p.outs.flatMap fun o => match Fmt.ofCode o.fmt with
    | some f => operandRanges die o.off o.xoff o.wstr (p.outLen o) f
    | .none => []
  let seg := spadBase die + so
  { Uses.none (if p.head.rnd = 2 then vis + 1 else vis) with
    units := [⟨2, die, unit, t, t + n⟩]
    ports := (List.range n).flatMap (fun c =>
        ((eachIn c).map fun r => ⟨.bankRead die (bankOf r.1), t + c, t + c + 1, 1⟩)
        ++ (p.outs.flatMap fun o => match Fmt.ofCode o.fmt with
          | some f => outputPorts die p o f c t
          | .none => []))
      ++ (if p.head.rnd = 2 then [⟨.bankWrite die (bankOf so), t + dl, t + n + dl + 1, 1⟩]
          else if p.head.rnd = 3 then [⟨.bankRead die (bankOf so), t, t + n, 1⟩] else [])
      ++ (p.outs.flatMap fun o => if o.ten then [⟨.bankRead die (bankOf o.toff), t, t + 1, 1⟩] else [])
    scalars := (p.stages.filterMap fun st => if [st.sa, st.sb, st.sc].contains 0x10 then some (t, die, st.sreg) else .none)
      ++ (p.ins.filterMap fun x => if x.esc then some (t, die, x.esreg) else .none)
    touches := (List.range n).flatMap (fun c =>
        (eachIn c).map (fun r => .span (spadBase die + r.1) r.2 (t + c) (t + c + 1) false)
          ++ (eachOut c).map fun r => .span (spadBase die + r.1) r.2 (t + c + dl) (t + c + dl + 1) true)
      ++ (if p.head.rnd = 2 then [.pieces (seg + 64) 64 n (t + dl) true, .span seg 64 vis (vis + 1) true]
          else if p.head.rnd = 3 then [.span seg 128 t (t + 1) false, .pieces (seg + 128) 64 (n - 1) (t + 1) false] else [])
      ++ (p.outs.flatMap fun o => if o.ten then [.span (spadBase die + o.toff) 16 t (t + 1) false] else [])
    guards := outR.map fun r => ⟨r.1, r.2, t + dl, t + n + dl, true, .none⟩ }

/-! ## Rachis words -/

def rachisUses (w : RawWord) (die : Nat) : Uses :=
  let r := rachisArgs w.args
  let t := w.stamp
  let a := r.imm % 2 ^ 48
  let bank := bankOf (a - spadBase die)
  let n := accessSize w.op
  { Uses.none (t + 4) with
    units := [⟨5, die, 0, t, t + 1⟩]
    ports := if isLoad w.op then [⟨.bankRead die bank, t, t + 1, 1⟩] else if isStore w.op then [⟨.bankWrite die bank, t + 3, t + 4, 1⟩] else []
    touches := if r.sa ≠ 0 then [] else if isLoad w.op then [.span a n t (t + 1) false] else if isStore w.op then [.span a n (t + 3) (t + 4) true] else [] }

/-! ## Mover words -/

/-- Eight flits of a piece that crosses dies. -/
def flitPair (src dst up down : Nat) (n : Nat) : List PortUse := [⟨.linkUp src, up, up + n, 8⟩, ⟨.linkDown dst, down, down + n, 8⟩]

/-- Pieces of a copy in runs that stay in one bank on both sides. -/
def copyRuns : Nat → Nat → Nat → Nat → Nat → List (Nat × Nat × Nat × Nat)
  | 0, _, _, _, _ => []
  | n + 1, src, dst, k, len =>
    if len = 0 then []
    else
      let r := min len (min ((0x80000 - src % 0x80000) / 512) ((0x80000 - dst % 0x80000) / 512))
      let r := if r = 0 then 1 else r
      (src, dst, k, r) :: copyRuns n (src + 512 * r) (dst + 512 * r) (k + r) (len - r)

def copyUses (w : RawWord) (die : Nat) : Uses :=
  let c := copyArgs w.args
  let t := w.stamp
  let far := c.sdie ≠ c.ddie
  let lat := if far then 200 else 24
  let vis := t + c.len + lat
  let src := spadBase c.sdie + c.soff
  let dst := spadBase c.ddie + c.doff
  { Uses.none vis with
    units := [⟨4, die, w.unit, t, t + c.len⟩]
    ports := (copyRuns 2000 c.soff c.doff 0 c.len).flatMap fun (so, d, k, r) =>
      [⟨.bankRead c.sdie (bankOf so), t + k, t + k + r, 1⟩, ⟨.bankWrite c.ddie (bankOf d), t + k + lat, t + k + lat + r, 1⟩]
        ++ (if far then flitPair c.sdie c.ddie (t + k + 24) (t + k + 120) r else [])
    touches := [.pieces src 512 c.len t false, .pieces dst 512 c.len (t + lat) true]
    guards := [⟨src, 512 * c.len, t, vis, false, .none⟩, ⟨dst, 512 * c.len, t, vis, true, .none⟩] }

/-- The slot of a burst address. -/
def slotUse (a slot : Nat) : SlotUse := let l := locate a; ⟨l.stack, l.ch, l.bank, l.row, slot⟩

/-- A stack-side range in granules of stack window addresses where the alias spreads it. -/
def stackRanges (a n : Nat) : List (Nat × Nat) :=
  if aliasBase ≤ a then (List.range (ceilDiv n 2048)).map fun k => (unalias (a + 2048 * k), 2048) else [(a, n)]

def streadUses (w : RawWord) (die : Nat) : Uses :=
  let t := stArgs w.args
  let vis := (List.range t.nb).foldl (fun m n => max m (t.visible n)) 0
  let piece := fun n (k : Nat) =>
    let g := t.group n
    t.visible n - 4 * g.1 + 4 * g.2 + k
  { Uses.none vis with
    units := (List.range t.nb).map fun n => ⟨4, die, w.unit, piece n 0, piece n 4⟩
    ports := (List.range t.nb).flatMap fun n =>
      ⟨.bankWrite t.sdie (bankOf (t.spoff + 2048 * n)), piece n 0, piece n 4, 1⟩
        :: (if t.sameDie n then [] else flitPair (dieOf (t.burst n)) t.sdie (piece n 0 - 176) (piece n 0 - 80) 4)
    slots := (List.range t.nb).map fun n => slotUse (t.burst n) (t.slot n)
    touches := (List.range t.nb).flatMap fun n =>
      .pieces (spadBase t.sdie + t.spoff + 2048 * n) 512 4 (piece n 0) true
        :: (stackRanges (t.burst n) 2048).map fun r => .span r.1 r.2 (40 * t.slot n) (40 * t.slot n + 40) false
    guards := (stackRanges t.saddr (2048 * t.nb)).map (fun r => ⟨r.1, r.2, w.stamp, vis, false, .none⟩)
      ++ [⟨spadBase t.sdie + t.spoff, 2048 * t.nb, w.stamp, vis, true, .none⟩] }

def stwriteUses (w : RawWord) (die : Nat) : Uses :=
  let t := stArgs w.args
  let vis := (List.range t.nb).foldl (fun m n => max m (40 * t.slot n + 40)) 0
  let rd := fun n => (t.readAt n).toNat
  { Uses.none (vis - 1) with
    units := (List.range t.nb).map fun n => ⟨4, die, w.unit, rd n, rd n + 4⟩
    ports := (List.range t.nb).flatMap fun n =>
      ⟨.bankRead t.sdie (bankOf (t.spoff + 2048 * n)), rd n, rd n + 4, 1⟩
        :: (if t.sameDie n then [] else flitPair t.sdie (dieOf (t.burst n)) (rd n + 16) (rd n + 112) 4)
    slots := (List.range t.nb).map fun n => slotUse (t.burst n) (t.slot n)
    touches := (List.range t.nb).flatMap fun n =>
      .pieces (spadBase t.sdie + t.spoff + 2048 * n) 512 4 (rd n) false
        :: (stackRanges (t.burst n) 2048).map fun r => .span r.1 r.2 (40 * t.slot n) (40 * t.slot n + 40) true
    guards := [⟨spadBase t.sdie + t.spoff, 2048 * t.nb, w.stamp, vis, false, .none⟩]
      ++ (stackRanges t.saddr (2048 * t.nb)).map fun r => ⟨r.1, r.2, w.stamp, vis, true, .none⟩ }

/-- The parameter block of an XFER is read at issue, in one cycle of the mover (R284). -/
def xferUses (w : RawWord) (die : Nat) : Uses :=
  { Uses.none w.stamp with
    units := [⟨4, die, w.unit, w.stamp, w.stamp + 1⟩]
    touches := [.span (spadBase die + bits w.args.toNat 87 64 * 32) 32 w.stamp (w.stamp + 1) false] }

/-! ## Culm words -/

/-- R330: the slots that an operation needs. -/
def culmNeed (op : Nat) (b : CulmBlock) (arrays : List CulmArray) (prot : Nat) : Nat :=
  let stack := arrays.filter fun x => decide (x.addr < 0x00C000000000)
  let runs := fun ch => (stack.map fun x =>
    let r := ceilDiv x.len 8192
    let c0 := x.addr / 8192 % 64
    let d := (ch + 64 - c0) % 64
    let k := if d < r then (r - d - 1) / 64 + 1 else 0
    if x.rd && x.wr then 2 * k else k).sum
  let io := 4 * (List.range 64).foldl (fun m ch => max m (runs ch)) 0
  let cmp := ceilDiv (ceilDiv (b.n * culmCpe op b prot) 1024) 40
  let spad := arrays.filter fun x => decide (0x00C000000000 ≤ x.addr)
  let inBank := fun k => (spad.map fun x =>
    let lo := max x.addr (k * 0x80000)
    let hi := min (x.addr + x.len) (k * 0x80000 + 0x80000)
    hi - lo).sum
  let banks := (spad.flatMap fun x => (List.range (x.len / 0x80000 + 2)).map fun k => x.addr / 0x80000 + k).eraseDups
  let bmax := banks.foldl (fun m k => max m (inBank k)) 0
  max (max io cmp) (ceilDiv (ceilDiv bmax 512) 40) + 2

/-- Banks of a die's scratchpad that a device address range touches. -/
def rangeBanks (die a n : Nat) : List Nat :=
  let o := a - spadBase die
  (List.range ((o + n - 1) / 0x80000 + 1 - o / 0x80000)).map (· + o / 0x80000)

def State.culmUses (s : State) (c : WordCtx) (w : RawWord) : Uses :=
  let a := culmArgs w.args
  let all := s.culmBytes c w.args
  let b := culmBlock (all.take 128)
  let prog := blocksOf 8 b.mlen (all.drop 128)
  let arrays := culmArrays w.op b prog
  let recs := culmRecords w.op b
  let t := w.stamp
  let stop := a.spanEnd
  let inSpad := fun x => decide (0x00C000000000 ≤ x)
  { Uses.none (stop + 64) with
    units := [⟨3, c.die, w.unit, t, stop⟩]
    ports := (arrays.filter (fun x => inSpad x.addr)).flatMap (fun x => (rangeBanks c.die x.addr x.len).flatMap fun k =>
        (if x.rd then [⟨.bankRead c.die k, 40 * a.fslot, stop + 64, 1⟩] else []) ++ (if x.wr then [⟨.bankWrite c.die k, 40 * a.fslot, stop + 64, 1⟩] else []))
      ++ (recs.filter (fun r => inSpad r.1)).flatMap (fun r =>
        ⟨.bankRead c.die (bankOf (r.1 - spadBase c.die)), t + 1, t + 2, 1⟩
          :: (if r.2.2 then [⟨.bankWrite c.die (bankOf (r.1 - spadBase c.die)), stop + 63, stop + 64, 1⟩] else []))
    spans := [⟨3 * c.die + w.unit, a.fslot, a.nslot⟩]
    touches := arrays.flatMap (fun x =>
        let last := if inSpad x.addr then stop + 64 else stop
        (if x.rd then [.span x.addr x.len (40 * a.fslot) last false] else []) ++ (if x.wr then [.span x.addr x.len (40 * a.fslot) last true] else []))
      ++ recs.flatMap (fun r =>
        if inSpad r.1 then .span r.1 r.2.1 (t + 1) (t + 2) false :: (if r.2.2 then [.span r.1 r.2.1 (stop + 63) (stop + 64) true] else [])
        else .span r.1 r.2.1 (40 * a.fslot) (40 * a.fslot + 40) false :: (if r.2.2 then [.span r.1 r.2.1 (stop - 40) stop true] else []))
    records := recs.map fun r => r.1
    guards := arrays.map (fun x => ⟨x.addr, x.len, t, stop + 64, x.wr, .none⟩) ++ recs.map (fun r => ⟨r.1, r.2.1, t, stop + 64, r.2.2, .none⟩)
    short := decide (a.nslot < culmNeed w.op b arrays s.prot) }

/-! ## Fabric words (R450, R453, R486, R488, R489) -/

def sendUses (w : RawWord) (die : Nat) : Uses :=
  let a := sendArgs w.args
  let t := w.stamp
  let n := ceilDiv a.nc 8
  let src := spadBase die + a.soff
  { Uses.none (max (t + 120) (t + 24 + n - 1)) with
    units := [⟨6, die, w.unit, t, t + ceilDiv (a.nc * 80) 100⟩]
    ports := [⟨.bankRead die (bankOf a.soff), t, t + n, 1⟩, ⟨.linkUp die, t + 24, t + 24 + n, 8⟩]
    touches := [.pieces src 512 n t false]
    guards := [⟨src, 64 * a.nc, t, t + n, false, .none⟩] }

/-- The ring is kept from scheduled writes for the whole frame. -/
def recvUses (w : RawWord) (die : Nat) : Uses :=
  let a := recvArgs w.args
  { Uses.none (w.stamp + 8) with
    units := [⟨7, die, w.unit, w.stamp, w.stamp + 1⟩]
    guards := [⟨spadBase die + a.base, 64 * ringCells a.log, 0, 2 ^ 21, false, .none⟩] }

/-- A CSTART whose CWAIT issues at a stamp. -/
def State.cstartUses (s : State) (c : WordCtx) (w : RawWord) (wait : Nat) : Uses :=
  let b := s.collBlockOf c w
  let t := w.stamp
  let len := s.giveBytes b
  let n := ceilDiv len 512
  { Uses.none (max (t + 120) (t + 24 + n)) with
    units := [⟨6, c.die, w.unit, t, t + ceilDiv ((s.wireCells b + 1) * 80) 100⟩]
    ports := (copyRuns 2000 (b.src - spadBase c.die) 0 0 n).map (fun (so, _, k, r) => ⟨.bankRead c.die (bankOf so), t + k, t + k + r, 1⟩)
      ++ (if n = 0 then [] else [⟨.linkUp c.die, t + 24, t + 24 + n, 8⟩])
    touches := [.pieces b.src 512 n t false]
    guards := [⟨b.src, len, t, t + n, false, .none⟩, ⟨b.dst, destBytes b.op b.sfmt b.dfmt b.count (s.membersOf b.id), t, wait + 8, true, .none⟩] }

def cwaitUses (w : RawWord) (die : Nat) : Uses := { Uses.none (w.stamp + 8) with units := [⟨7, die, w.unit, w.stamp, w.stamp + 1⟩] }

/-- What a word books, a chain's further words with its head. -/
def State.uses (s : State) (c : WordCtx) (w : RawWord) (chain : List (BitVec 8 × BitVec 88)) : Uses :=
  match w.kind with
  | 0x1 => if w.op = 8 then loadBUses w c.die else passUses w c.die
  | 0x2 => chainUses w.stamp c.die w.unit chain
  | 0x3 => s.culmUses c w
  | 0x4 => if w.op = 1 then copyUses w c.die else if w.op = 2 then streadUses w c.die else if w.op = 3 then stwriteUses w c.die
      else xferUses w c.die
  | 0x5 => rachisUses w c.die
  | 0x6 => if w.op = 1 then sendUses w c.die else s.cstartUses c w w.stamp
  | 0x7 => if w.op = 1 then recvUses w c.die else cwaitUses w c.die
  | 0x8 | 0x9 => { Uses.none (w.stamp + 2) with units := [⟨w.kind, c.die, w.unit, w.stamp, w.stamp + 1⟩] }
  | _ => Uses.none w.stamp

/-! ## Conflicts between words of a frame -/

/-- A word in the order of the image: its die, index, context and bookings. -/
structure Booked where
  die : Nat
  idx : Nat
  word : RawWord
  uses : Uses
  deriving DecidableEq, Repr

/-- Two units booked in one cycle (check 11). -/
def unitClash (x y : Uses) : Bool :=
  x.units.any fun a => y.units.any fun b => a.kind == b.kind && a.die == b.die && a.unit == b.unit && spanMeets a.start a.stop b.start b.stop

/-- A touch that a guard forbids (R156, R241, R285, R336). -/
def guardBreach (g t : Uses) : Bool :=
  g.guards.any fun a => t.touches.any fun b => (b.write || a.reads) && b.meets a && !(a.tile.isSome && a.tile == t.tile)

/-- Two Culm words whose spans overlap name one small record (R336). -/
def recordClash (x y : Uses) : Bool :=
  (x.spans.any fun p => y.spans.any fun q => spanMeets p.first (p.first + p.count) q.first (q.first + q.count)) && x.records.any y.records.contains

/-- Two words that check 11 does not let stand together. -/
def clash (x y : Booked) : Bool := unitClash x.uses y.uses || guardBreach x.uses y.uses || guardBreach y.uses x.uses || recordClash x.uses y.uses

/-- A word that conflicts with itself: bursts that meet in its mover, or a pass whose accumulator tile overlaps its A tile (R156). -/
def ownClash (x : Booked) : Bool :=
  x.uses.own || (x.uses.units.zipIdx.any fun a => (x.uses.units.drop (a.2 + 1)).any fun b =>
    a.1.kind == b.kind && a.1.die == b.die && a.1.unit == b.unit && spanMeets a.1.start a.1.stop b.start b.stop)

/-- The amount that a list of words books on a port in a cycle. -/
def portLoad (l : List Booked) (p : Port) (cycle : Nat) : Nat :=
  (l.map fun x => ((x.uses.ports.filter fun u => u.port == p && decide (u.start ≤ cycle) && decide (cycle < u.stop)).map fun u => u.amount).sum).sum

/-- The capacity of a port; links of half width carry 20 scheduled flits (R91, R93). -/
def portCap (half : Nat) : Port → Nat
  | .bankRead _ _ | .bankWrite _ _ => 1
  | .linkUp d | .linkDown d => if bit half d then 20 else 40

/-- A port over its capacity in a cycle at which x begins to book it, among the words up to x (check 12). -/
def portOver (half : Nat) (upTo : List Booked) (x : Booked) : Bool :=
  x.uses.ports.any fun u =>
    (u.start :: ((upTo.flatMap fun y => y.uses.ports.filter fun v => v.port == u.port && decide (u.start ≤ v.start) && decide (v.start < u.stop)).map
      fun v => v.start)).any fun c => decide (portCap half u.port < portLoad upTo u.port c)

/-- More than 16 distinct registers delivered in a cycle (R262). -/
def scalarOver (upTo : List Booked) (x : Booked) : Bool :=
  x.uses.scalars.any fun q => decide (16 < ((upTo.flatMap fun y => y.uses.scalars.filter fun r => r.1 == q.1 && r.2.1 == q.2.1).map fun r => r.2.2).eraseDups.length)

/-- The slots of one channel in order of time, with an insertion. -/
def insertSlot (x : SlotUse) : List SlotUse → List SlotUse
  | [] => [x]
  | y :: r => if y.slot ≤ x.slot then y :: insertSlot x r else x :: y :: r

/-- The bursts of a channel that activate, in order (R275): the open row of each bank is that of its latest burst, and a Culm span closes every bank (R681). -/
def activations (spans : List SpanUse) : List SlotUse → Nat → List (Nat × Nat) → List SlotUse
  | [], _, _ => []
  | x :: r, last, opened =>
    let opened := if spans.any fun p => decide (last < p.first + p.count) && decide (p.first + p.count ≤ x.slot) then [] else opened
    let same := (opened.find? fun o => o.1 == x.bank).any fun o => o.2 == x.row
    let rest := activations spans r x.slot ((x.bank, x.row) :: opened.filter fun o => o.1 != x.bank)
    if same then rest else x :: rest

/-- R275 on one channel's activations in order. -/
def activationBreach (l : List SlotUse) : Bool :=
  l.zipIdx.any fun a =>
    (l.drop (a.2 + 1)).any (fun b => b.bank == a.1.bank && decide (b.slot < a.1.slot + 4))
      || decide (2 < ((l.drop a.2).filter fun b => decide (b.slot < a.1.slot + 8)).length)

/-- Two bursts in one slot, a burst in a span, an activation within 7 slots of one, or a breach of R275, among the words up to x. -/
def slotOver (upTo : List Booked) (x : Booked) : Bool :=
  let all := upTo.flatMap fun y => y.uses.slots
  let spans := upTo.flatMap fun y => y.uses.spans
  let mine := x.uses.slots
  let chans := (mine.map fun u => (u.stack, u.ch)).eraseDups
  let active := fun (c : Nat × Nat) => activations (spans.filter fun p => p.stack == c.1)
    ((all.filter fun u => u.stack == c.1 && u.ch == c.2).foldl (fun l u => insertSlot u l) []) 0 []
  (mine.any fun u => decide (1 < (all.filter fun v => v.stack == u.stack && v.ch == u.ch && v.slot == u.slot).length))
    || (chans.any fun c => activationBreach (active c))
    || (spans.any fun p =>
        (all.any fun u => u.stack == p.stack && decide (p.first ≤ u.slot) && decide (u.slot < p.first + p.count))
        || (((all.filter fun u => u.stack == p.stack).map fun u => u.ch).eraseDups.any fun ch =>
            (active (p.stack, ch)).any fun u => (decide (p.first ≤ u.slot + 7) && decide (u.slot < p.first))
              || (decide (p.first + p.count ≤ u.slot) && decide (u.slot < p.first + p.count + 7))))
    || decide (1 < ((spans.filter fun p => x.uses.spans.any fun q => p.stack == q.stack && spanMeets p.first (p.first + p.count) q.first (q.first + q.count)).length))

/-- Check 13: a slot of the word overlaps the refresh window. -/
def refreshBreach (len band : Nat) (u : Uses) : Bool :=
  let rw_ := refreshWindow len band
  u.slots.any (fun x => decide (40 * x.slot < rw_)) || u.spans.any fun p => decide (40 * p.first < rw_)

/-- Check 10: an occupancy, a result or a slot outside the schedulable span. -/
def overrun (len : Nat) (u : Uses) : Bool :=
  decide (lastStamp len < u.last) || u.slots.any (fun x => decide (lastStamp len < 40 * x.slot + 39))
    || u.units.any fun x => decide (lastStamp len + 1 < x.stop)

/-- R155: B-buffer bookings among the Tiller words up to x, in stream order. -/
def bufferClash (upTo : List Booked) (x : Booked) : Bool :=
  let same := upTo.filter fun y => y.word.kind == 1 && y.die == x.die && y.word.unit == x.word.unit
  let loads := fun sel => same.filter fun y => y.word.op == 8 && (loadBArgs y.word.args).bsel == sel && y.idx < x.idx
  if x.word.kind ≠ 1 then false
  else if x.word.op = 8 then
    let sel := (loadBArgs x.word.args).bsel
    match (loads sel).getLast? with
    | none => false
    | some l =>
      let users := same.filter fun y => isSumPass y.word.op && (passArgs y.word.args).bsel == sel && decide (l.idx < y.idx) && decide (y.idx < x.idx)
      decide (x.word.stamp < users.foldl (fun m y => max m (y.word.stamp + (passArgs y.word.args).m + 144)) (l.word.stamp + 48))
  else if isSumPass x.word.op then
    match (loads (passArgs x.word.args).bsel).getLast? with
    | none => false
    | some l => decide (x.word.stamp < l.word.stamp + 48)
  else false

end Sys2Proof.Machine
end

