-- ==== Sys2Proof/Machine/Links.lean ====
section
/-!
DEFINITION. Die-to-die links: lane failures, falls and link loss (R360 to R368), training (R369), and the fence log of the firewall (R374 to R376).
-/
namespace Sys2Proof.Machine

/-! ## Failures -/

/-- The repair map entry of a lane, TYPE 0x20. -/
def laneEntry (n dir lane cause : Nat) : List Byte := mapEntry 0x20 n dir 0 lane 0 0 cause

/-- The width that the failed lanes allow (R356, R364, R367). -/
def widthFor (up down : Nat) : Nat := if 840 < max up down then 2 else if 48 < max up down then 1 else 0

/-- R363: both directions fall to half width in the present wall cycle, for a lane of one direction; the lane map changes with the fall
(R357), and flits booked for the present schedule cycle wait like those after it. -/
def State.linkFall (s : State) (n dir : Nat) : State :=
  let p := Pg.d2d n
  let s := (s.setP p Reg.BLK_STAT 31 30 1).setP p Reg.BLK_STAT 29 28 0
  let s := (s.raise p .LINK_HALF none (dir * 2 ^ 31)).setInt p 2
  let s := s.set64 p Reg.D2D_FALL_FRAME_LO s.frameNum
  let s := s.setLink n { s.link n with unmoved := [], resume := some (s.wall + 600), served := s.eng.frame.count }
  if s.issuing && !s.frozen then s.degraded else s

/-- R367: the link goes down for the good lanes of a direction: the frame aborts, and the slots that use the die refuse frame runs with IMG_UNIT. -/
def State.linkDown (s : State) (n dir : Nat) : State :=
  let p := Pg.d2d n
  let s := s.setP p Reg.BLK_STAT 31 30 2
  let s := (s.raise p .LINK_DOWN none (dir * 2 ^ 31)).setInt p 3
  let s := s.abortFrame (errCode .LINK_DOWN .d2d)
  { s with slots := s.slots.map fun x => if bit x.dieMask n then { x with refuses := errCode .IMG_UNIT .hub } else x }

/-- The latest declaration (R382). -/
def State.lastLane (s : State) (n dir cause lane : Nat) : State :=
  s.wrP (Pg.d2d n) Reg.D2D_LAST_LANE (BitVec.ofNat 32 (2 ^ 31 + dir * 2 ^ 30 + cause * 2 ^ 28 + lane))

/-- A lane is declared failed in operation, by CAUSE 0 or 1 (R360, R361, R363, R367). -/
def State.laneFail (s : State) (n dir lane cause : Nat) : State :=
  if s.laneFailed n dir lane ∨ s.linkWidth n = 3 then s
  else
    let p := Pg.d2d n
    let s := (s.bump p Reg.D2D_LANE_FAIL_CNT 1).lastLane n dir cause lane
    let s := (s.noteRepair (laneEntry n dir lane cause)).setInt p 1
    let s := s.setLink n { s.link n with unmoved := (dir, lane) :: (s.link n).unmoved }
    let s := s.markLane n dir lane
    let w := widthFor (s.failedLanes n 0) (s.failedLanes n 1)
    if w = 2 ∧ s.linkWidth n < 2 then s.linkDown n dir
    else if w = 1 ∧ s.linkWidth n = 0 then s.linkFall n dir
    else if s.linkWidth n = 2 then s
    else s.setP p Reg.BLK_STAT (29 - dir) (29 - dir) 1

/-- Corrected bits of a lane: counted, and the lane is declared failed when they reach LANE_THRESH within a window; a threshold of 0 declares none (R360). -/
def State.laneCorrected (s : State) (n dir lane k : Nat) : State :=
  let p := Pg.d2d n
  let s := (s.bump p Reg.D2D_CE_CNT k).noteBits n dir lane k
  let t := s.fldP p Reg.D2D_CFG 15 8
  if t ≠ 0 ∧ t ≤ s.laneBits n dir lane then s.laneFail n dir lane 0 else s

/-- Scheduled flits of the frame that a covered lane has touched: the code has corrected some of those that the direction carried, a number that depends on the
slots, which the spec leaves open (R361, R381). -/
def State.coveredFlits (s : State) (n dir : Nat) : State :=
  let p := Pg.d2d n
  let all := (((s.link n).books.filter fun b => b.dir == dir).map fun b => b.amount * (b.stop - b.start)).sum
  if s.fldP p Reg.BLK_STAT (29 - dir) (29 - dir) = 1 then
    let (k, s) := s.draw
    s.bump p Reg.D2D_CE_CNT (Config.freeNat k % (all + 1))
  else s

/-- The links at a frame boundary: failed lanes move (R361), and a fallen link's width reaches the schedule (R365, R366). A link that still retrains carries
nothing until it has (R363); the corrected bits of the present window stay counted. -/
def State.linksBoundary (s : State) : State :=
  (List.range 4).foldl (fun s n =>
    let s := (s.coveredFlits n 0).coveredFlits n 1
    let x := s.link n
    let resume := x.resume.filter fun e => decide (s.wall < e)
    (s.setP (Pg.d2d n) Reg.BLK_STAT 29 28 0).setLink n { x with unmoved := [], resume := resume, served := 0, books := [] }) s

/-- Training begins: the lane map is empty and WIDTH reads 0b11 (R368, R369). -/
def State.linkTrainStart (s : State) (n : Nat) : State :=
  let p := Pg.d2d n
  let s := (List.range 51).foldl (fun s w => (s.wrP p (Reg.D2D_UP_FAILw + 4 * w) 0).wrP p (Reg.D2D_DN_FAILw + 4 * w) 0) s
  (s.wrP p Reg.BLK_STAT (BitVec.ofNat 32 (3 * 2 ^ 30))).setLink n Link.fresh

/-- Training ends with the lanes that the repair map names and those that the pattern test found (R369). -/
def State.linkTrainEnd (s : State) (n : Nat) (bad : List (Nat × Nat)) : State :=
  let p := Pg.d2d n
  let mapped := (s.rep.current.filter fun e => entryType e == 0x20 && leAt e 1 1 == n).map fun e => (leAt e 2 1, leAt e 4 2)
  let s := mapped.foldl (fun s l => (s.lastLane n l.1 3 l.2).markLane n l.1 l.2) s
  let s := bad.foldl (fun s l =>
    if s.laneFailed n l.1 l.2 then s
    else
      let s := s.lastLane n l.1 2 l.2
      (s.noteRepair (laneEntry n l.1 l.2 2)).markLane n l.1 l.2) s
  let w := widthFor (s.failedLanes n 0) (s.failedLanes n 1)
  let s := s.setP p Reg.BLK_STAT 31 30 w
  if w = 2 then s.linkDown n (if 840 < s.failedLanes n 0 then 0 else 1) else s

/-- R360: a lane loses bit lock, or has had some bits corrected. -/
def execLaneFail (t : Nat) (link : Fin 4) (down : Bool) (lane : Fin 1632) (bits : Option Nat) (s : State) : Host.Outcome State Fault Refusal :=
  let s := s.begin.passTime t
  .next (match bits with
    | none => s.laneFail link (b2n down) lane 1
    | some k => if s.laneFailed link (b2n down) lane then s else s.laneCorrected link (b2n down) lane k)

/-- R363: time passes to the resumption of a fallen link. -/
def execD2dRetrainComplete (link : Fin 4) (s : State) : Host.Outcome State Fault Refusal :=
  .next (match (s.link link).resume with
    | some e => s.begin.passTime e
    | none => s.begin)

/-- What a lost flit does to what it belongs to (R362): a scheduled one aborts its frame; an access of an unscheduled transfer fails with no part of its data. -/
def State.flitLost (s : State) (addr transfer : Option Nat) : State :=
  let code := errCode .D2D_UE .d2d
  match transfer with
  | none => s.abortFrame code
  | some i => { s with traffic := s.traffic.map fun t => if t.id = i ∧ t.err = 0 then { t with err := code, errAddr := addr, held := [] } else t }

/-- R359 to R362: a flit with wrong bits crosses a link. -/
def execD2dUe (t : Nat) (link : Fin 4) (down : Bool) (slot : Fin 48) (lanes : List (Fin 1632)) (addr transfer : Option Nat) (s : State) :
    Host.Outcome State Fault Refusal :=
  let s := s.begin.passTime t
  let l := lanes.map fun k => k.val
  let bad := s.flitBad link (b2n down) slot l
  let s := s.flitMeets link (b2n down) slot l addr
  .next (if bad then s.flitLost addr transfer else s)

/-! ## The fence log (R374 to R376) -/

/-- The bit of HUB_FENCE_ISO for a firewall ID: engines 0 to 23, flash dies 0x20 to 0x27. -/
def isoBit (id : Nat) : Nat := if id < 24 then id else 24 + (id - 0x20)

/-- The firewall IDs of R373. -/
def fenceId (id : Nat) : Bool := decide (id < 24) || (decide (0x20 ≤ id) && decide (id < 0x28))

def State.isolated (s : State) (id : Nat) : Bool := bit (s.num Pg.hub Reg.HUB_FENCE_ISO) (isoBit id)

def State.fenceCount (s : State) (id : Nat) : Nat := (s.fence.find? fun x => x.1 == id).elim 0 fun x => x.2

/-- One rejection counted and logged. -/
def State.fenceLog (s : State) (id kind : Nat) (addr : Option Nat) : State :=
  let s := s.bump Pg.hub Reg.HUB_FENCE_REJ_CNT 1
  let o := 16 * s.fldP Pg.hub Reg.HUB_FENCE_PTR 2 0
  let s := s.wrP Pg.hub (Reg.HUB_FENCEn_SRC + o) (BitVec.ofNat 32 (2 ^ 31 + kind * 2 ^ 16 + id))
  let s := s.wrP Pg.hub (Reg.HUB_FENCEn_ADDR_LO + o) (BitVec.ofNat 32 (addr.getD 0))
  let s := s.wrP Pg.hub (Reg.HUB_FENCEn_ADDR_HI + o) (match addr with
    | some a => BitVec.ofNat 32 (2 ^ 31 + a / 2 ^ 32 % 65536)
    | none => 0)
  let s := s.wrP Pg.hub (Reg.HUB_FENCEn_FRAME + o) (BitVec.ofNat 32 s.frameNum)
  let s := s.setP Pg.hub Reg.HUB_FENCE_PTR 2 0 (s.fldP Pg.hub Reg.HUB_FENCE_PTR 2 0 + 1)
  let s := { s with fence := (id, s.fenceCount id + 1) :: s.fence.filter fun x => x.1 != id }
  (s.raise Pg.hub .FENCE_REJECT addr (kind * 256 + id)).setInt Pg.hub 1

/-- Whether the rejections of a die have reached the limit. -/
def State.fenceDue (s : State) (id : Nat) : Bool :=
  let lim := s.fldP Pg.hub Reg.HUB_FENCE_CFG 15 0
  lim != 0 && decide (lim ≤ s.fenceCount id)

end Sys2Proof.Machine
end

