-- ==== Sys2Proof/Machine/Movers.lean ====
section
/-!
DEFINITION. Mover words: COPY, STREAD, STWRITE and XFER (R278 to R285).
-/
namespace Sys2Proof.Machine

/-- ERR_INFO of the RCH page for a mover word (the text after R286). -/
def moverInfo (w : SWord) : Nat := w.unit.toNat * 2 ^ 29 + 2 ^ 28

def moverBlame (w : SWord) (s : State) : Blame := ⟨Pg.rch w.die, moverInfo w + s.eng.frame.index % 2 ^ 24⟩

/-- The flits of a word noted with the links they cross (R281 to R283). -/
def State.bookFlits (s : State) (w : SWord) (u : Uses) : State :=
  let a := s.wordAddr w.die w.idx.toNat
  u.ports.foldl (fun s p => match p.port with
    | .linkUp d => s.setLink d { s.link d with books := ⟨0, p.start, p.stop, p.amount, a⟩ :: (s.link d).books }
    | .linkDown d => s.setLink d { s.link d with books := ⟨1, p.start, p.stop, p.amount, a⟩ :: (s.link d).books }
    | _ => s) s

/-- The word as it is written in the image. -/
def rawOf (w : SWord) (kind op : Nat) : RawWord := ⟨w.stamp.toNat, kind, w.unit.toNat, op, w.args⟩

def State.moverWord (s : State) (w : SWord) (op : Nat) (effect : State → State) : State :=
  s.issue w 4 op (moverInfo w) (moverBlame w) State.moverCheck effect

/-- OP 0x01 (R283): visible from issue + 25, or issue + 201 across dies, piece by piece. -/
def execCopy (w : SWord) (s : State) : Host.Outcome State Fault Refusal :=
  .next (s.moverWord w 1 fun s =>
    let s := s.bookFlits w (copyUses (rawOf w 4 1) w.die)
    let c := copyArgs w.args
    let m : Move := { die := w.die, stamp := w.stamp.toNat, src := spadBase c.sdie + c.soff, dst := spadBase c.ddie + c.doff, len := 512 * c.len,
                      visible := w.stamp.toNat + (if c.sdie = c.ddie then 25 else 201), step := 0, data := [] }
    { s with eng := { s.eng with moves := s.eng.moves ++ [m] } })

/-- The errors that bursts of a word meet, each in the slot of its burst. -/
def State.burstEvents (s : State) (t : StArgs) (write : Bool) (ecc : List BurstEvent) : State :=
  ecc.foldl (fun s e => if e.burst < t.nb then s.later (40 * t.slot e.burst) (.burst (t.burst e.burst) write e.err) else s) s

/-- OP 0x02 (R281): every burst is read in its slot and becomes visible at its V. -/
def execStread (w : SWord) (ecc : List BurstEvent) (s : State) : Host.Outcome State Fault Refusal :=
  .next (s.moverWord w 2 fun s =>
    let s := s.bookFlits w (streadUses (rawOf w 4 2) w.die)
    let t := stArgs w.args
    let s := s.burstEvents t false ecc
    let me : Writer := ⟨Pg.rch w.die, moverInfo w + s.eng.frame.index % 2 ^ 24⟩
    (List.range t.nb).foldl (fun s n =>
      s.later (40 * t.slot n) (.copy (t.burst n) (spadBase t.sdie + t.spoff + 2048 * n) 2048 (t.visible n) me false)) s)

/-- Pieces of one STWRITE burst, each read in its booked cycle (R282). -/
def State.writePieces (s : State) (w : Writer) (t : StArgs) (n : Nat) : State :=
  (List.range 4).foldl (fun s (q : Nat) =>
    s.later ((t.readAt n + (q : Int)).toNat) (.copy (spadBase t.sdie + t.spoff + 2048 * n + 512 * q) (t.burst n + 512 * q) 512 (40 * t.slot n + 40) w true)) s

/-- Whether burst n meets an uncorrectable error. -/
def burstLost (ecc : List BurstEvent) (n : Nat) : Bool := ecc.any fun e => e.burst == n && (match e.err with
  | .ue _ => true
  | _ => false)

/-- OP 0x03 (R282, R302): a burst with an uncorrectable link error is not written. -/
def execStwrite (w : SWord) (ecc : List BurstEvent) (s : State) : Host.Outcome State Fault Refusal :=
  .next (s.moverWord w 3 fun s =>
    let s := s.bookFlits w (stwriteUses (rawOf w 4 3) w.die)
    let t := stArgs w.args
    let s := s.burstEvents t true ecc
    (List.range t.nb).foldl (fun s n => if burstLost ecc n then s else s.writePieces ⟨Pg.rch w.die, moverInfo w + s.eng.frame.index % 2 ^ 24⟩ t n) s)

/-- A fresh number for a transfer. -/
def State.freshTransfer (s : State) : Nat := s.traffic.foldl (fun m t => max m (t.id + 1)) 0

/-- Whether an XFER parameter block names no transfer (R284). -/
def xferBad (b : List Byte) : Bool :=
  let len := leAt b 0x10 8
  len == 0 || decide (2 ^ 32 < len) || (leAt b 0x1A 1 != 2 && leAt b 0x1A 1 != 3) || decide (4096 ≤ leAt b 0x18 2) || leAt b 0x1B 5 != 0

/-- OP 0x05 (R284): the block read at issue starts an unscheduled transfer, or DESC_INVALID. -/
def execXfer (w : SWord) (s : State) : Host.Outcome State Fault Refusal :=
  .next (s.moverWord w 5 fun s =>
    let a := spadBase w.die + bits w.args.toNat 87 64 * 32
    let b := s.bytesAt a 32
    if xferBad b then s.raise (Pg.rch w.die) .DESC_INVALID (some a) (moverInfo w + s.eng.frame.index % 2 ^ 24)
    else
      let t : Transfer := { id := s.freshTransfer, issuer := .xfer w.die w.unit.toNat, cls := leAt b 0x1A 1, src := leAt b 0 8, dst := leAt b 8 8,
                            len := leAt b 0x10 8, moved := 0, held := [], since := s.wall, err := 0, errAddr := none, signal := some (leAt b 0x18 2, 1) }
      { s with traffic := s.traffic ++ [t] })

end Sys2Proof.Machine
end

