-- ==== Sys2Proof/Machine/Fec.lean ====
section
/-!
DEFINITION. The line code of Ixzen Fabric: RS(544,514) over GF(2^10) (R422), the data of a lane (R423, R424) and the control field (R425).
-/
namespace Sys2Proof.Machine

/-! ## The field and the code (R422) -/

/-- A product by x in GF(2^10) with the polynomial x^10 + x^3 + 1. -/
def gfDouble (a : Nat) : Nat := if a < 512 then 2 * a else Nat.xor (2 * a - 1024) 9

/-- A product in the field, over the bits of the second factor from the highest. -/
def gfMulBits : Nat → Nat → Nat → Nat
  | 0, _, _ => 0
  | n + 1, a, b => Nat.xor (gfDouble (gfMulBits n a (b / 2))) (if b % 2 = 1 then a else 0)

def gfMul (a b : Nat) : Nat := gfMulBits 10 a b

/-- α^i. -/
def gfPow : Nat → Nat
  | 0 => 1
  | i + 1 => gfDouble (gfPow i)

/-- A polynomial, highest coefficient first, times (x - r). -/
def polyTimesRoot (p : List Nat) (r : Nat) : List Nat :=
  (p ++ [0]).zipWith Nat.xor (0 :: p.map (gfMul r))

/-- The generator polynomial, highest coefficient first. -/
def rsGenerator : List Nat := (List.range 30).foldl (fun p i => polyTimesRoot p (gfPow i)) [1]

/-- The 30 parity symbols of data symbols: the remainder of their polynomial times x^30 by the generator. -/
def rsParity (data : List Nat) : List Nat :=
  data.foldl (fun r d =>
    let f := Nat.xor d (r.headD 0)
    ((r.drop 1) ++ [0]).zipWith Nat.xor ((rsGenerator.drop 1).map (gfMul f))) (List.replicate 30 0)

/-- The systematic codeword of data symbols. -/
def rsEncode (data : List Nat) : List Nat := data ++ rsParity data

/-- The symbol errors that the decoder corrects in a codeword. -/
def rsCorrects : Nat := 15

/-! ## Blocks (R423 to R425) -/

/-- The control field of a block: its number, the slots that carry cells, the CREDIT values per class, REQ and FAULT. -/
structure BlockCtrl where
  bseq : Nat
  valid : Nat
  credit : List Nat
  req : Nat
  fault : Bool
  deriving DecidableEq, Repr

/-- The control field as a number, 160 bits at full width and 80 at half. -/
def BlockCtrl.word (c : BlockCtrl) (wide : Bool) : Nat :=
  if wide then
    c.bseq % 65536 + c.valid % 2 ^ 64 * 2 ^ 16 + ((List.range 8).map fun k => c.credit.getD k 0 % 256 * 2 ^ (80 + 8 * k)).sum
      + c.req % 16 * 2 ^ 144 + b2n c.fault * 2 ^ 148
  else
    let b := c.bseq % 4
    c.bseq % 65536 + c.valid % 2 ^ 32 * 2 ^ 16 + c.credit.getD (2 * b) 0 % 256 * 2 ^ 48 + c.credit.getD (2 * b + 1) 0 % 256 * 2 ^ 56
      + c.req % 16 * 2 ^ 64 + b2n c.fault * 2 ^ 68

/-- The bits of a byte, most significant first. -/
def msbBits (b : Byte) : List Nat := (List.range 8).map fun i => b2n (bit b.toNat (7 - i))

/-- Bits grouped into symbols of ten, the first bit of a symbol its most significant. -/
def symbolsOf : Nat → List Nat → List Nat
  | 0, _ => []
  | n + 1, l => (l.take 10).foldl (fun v b => 2 * v + b) 0 :: symbolsOf n (l.drop 10)

/-- The 5,140 data bits of lane i: its share of each slot, in slot order, and of the control field. -/
def laneBits (wide : Bool) (slots : List (List Byte)) (ctrl i : Nat) : List Nat :=
  let share := if wide then 10 else 20
  (slots.flatMap fun c => ((c.drop (share * i)).take share).flatMap msbBits) ++ (List.range 20).map fun k => b2n (bit ctrl (20 * i + k))

/-- The codewords of a block, lane by lane. -/
def blockLanes (wide : Bool) (cells : List (List Byte)) (ctrl : Nat) : List (List Nat) :=
  let n := if wide then 64 else 32
  let slots := (cells ++ List.replicate n (List.replicate 80 0)).take n
  (List.range (if wide then 8 else 4)).map fun i => rsEncode (symbolsOf 514 (laneBits wide slots ctrl i))

end Sys2Proof.Machine
end

