-- ==== Sys2Proof/Machine/Ports.lean ====
section
/-!
DEFINITION. Commands of the optical ports and the switch: blocks (R422 to R426, R444, R445), wavelengths (R427 to R429), training and LINK cells (R430, R431),
lasers (R421, R432), routing (R438), age (R441), credit stalls (R448) and the engines' sideband (R467).
-/
namespace Sys2Proof.Machine

/-! ## LINK cells (R431) -/

/-- The payload of a LINK cell. -/
def State.linkPayload (s : State) (p : Nat) : List Byte :=
  let x := s.port p
  leBytes 2 s.node ++ leBytes 1 p ++ leBytes 1 (b2n s.nodeValid + 2 * b2n (!x.wide)) ++ (List.range 8).flatMap fun c => leBytes 2 (x.alloc.getD c 0)

/-- A LINK cell queued on its own port. -/
def State.queueLink (s : State) (p : Nat) : State :=
  let c := (({ Cell.blank 0xD 0 (s.linkPayload p) with src := s.node } : Cell).sealed)
  let x := s.port p
  let s := s.setPort p { x with queue := x.queue ++ [⟨s.fab.nextId, 24, 0, s.wall, some p, c⟩], linkAt := s.wall }
  s.setFab { s.fab with nextId := s.fab.nextId + 1 }

/-- The LINK cells on their way in from a port, and the other cells. -/
def isLinkFrom (p : Nat) (a : Arrived) : Bool := a.port == p && a.cell.typ == 0xD

/-! ## Training (R430) -/

/-- FAB_CREDv as eight allocations. -/
def State.allocations (s : State) (p : Nat) : List Nat :=
  (List.range 8).map fun c => let w := s.num (Pg.fab p) (Reg.FAB_CREDv + 4 * (c / 2)); if c % 2 = 0 then bits w 12 0 else bits w 28 16

/-- Wavelengths of a direction that the repair map names, as a mask. -/
def State.mappedWl (s : State) (p dir : Nat) : Nat :=
  (s.rep.current.filter fun e => entryType e == 0x30 && leAt e 1 1 == p && leAt e 2 1 == dir).foldl (fun m e => Nat.lor m (2 ^ (leAt e 3 1 % 16))) 0 % 512

/-- A wavelength entry of the repair map (R427). -/
def wlEntry (p wl reason : Nat) : List Byte := mapEntry 0x30 p 0 wl 0 0 0 reason

/-- The port's state as step 4 of R430 leaves it, and the LINK cell of step 5. -/
def State.portAlign (s : State) (p : Nat) : State :=
  let x := s.port p
  let z := List.replicate 8 0
  (s.setPort p { x with bseq := 0, credits := z, farCredit := z, released := z, alloc := s.allocations p, aligned := true,
                        creditAt := List.replicate 8 s.wall }).queueLink p

/-- Training locks the received wavelengths of a mask; far are those that the far end finds good on this end's transmit direction. -/
def State.portLock (s : State) (p lock far rtt : Nat) : State :=
  if s.fldP (Pg.fab p) Reg.FAB_STAT 31 29 ≠ 1 then s
  else
    let named := s.mappedWl p 0
    let lost := (List.range 9).filter fun w => !bit named w && !bit lock w
    let s := lost.foldl (fun s w => (s.noteRepair (wlEntry p w 2)).setInt (Pg.fab p) 2) s
    let x := s.port p
    let rx := lost.foldl (fun m w => Nat.lor m (2 ^ w)) named
    let tx := Nat.lor (s.mappedWl p 1) (Nat.xor (far % 512) 511)
    let least := min (goodWl rx) (goodWl tx)
    let s := s.wrP (Pg.fab p) Reg.FAB_LINK_RTT (BitVec.ofNat 32 (rtt % 65536))
    if least < 4 then
      ((s.setPort p { x with rxFailed := rx, txFailed := tx, line := .down }).setP (Pg.fab p) Reg.FAB_CFG 30 30 0).portSync p
    else ((s.setPort p { x with rxFailed := rx, txFailed := tx, wide := decide (8 ≤ least) }).portSync p).portAlign p

/-- R430: a training port locks its wavelengths, builds its maps, aligns blocks and sends its LINK cell. -/
def execPortTraining (t : Nat) (port : Fin 24) (lock far : BitVec 9) (rtt : BitVec 16) (s : State) : Host.Outcome State Fault Refusal :=
  .next ((s.begin.passTime t).portLock port lock.toNat far.toNat rtt.toNat)

/-- R431: a LINK cell that has come in by a port is consumed there. -/
def State.linkTake (s : State) (p : Nat) : State :=
  match s.fab.inbox.find? (isLinkFrom p) with
  | none => s
  | some a =>
    let s := s.setFab { s.fab with inbox := s.fab.inbox.erase a }
    let x := s.port p
    let pl := a.cell.payload
    let pg := Pg.fab p
    let nbr := leAt pl 0 2 * 65536 + leAt pl 2 1 % 32
    let s := if s.num pg Reg.FAB_NBR = nbr ∧ s.fldP pg Reg.FAB_STAT 28 28 = 1 then s else s.setInt pg 3
    let s := (s.wrP pg Reg.FAB_NBR (BitVec.ofNat 32 nbr)).setP pg Reg.FAB_STAT 28 28 1
    let far := (List.range 8).map fun c => leAt pl (4 + 2 * c) 2
    let farWide := !bit (leAt pl 3 1) 1
    if x.line = .training ∧ x.aligned then
      if farWide = x.wide then
        ((s.setPort p { x with line := if x.wide then .full else .half, credits := far, farAlloc := far }).setP pg Reg.FAB_CFG 30 30 0).portSync p
      else (s.setPort p { x with wide := false }).portAlign p
    else s.releaseCell a

def execLink (t : Nat) (port : Fin 24) (s : State) : Host.Outcome State Fault Refusal :=
  .next ((s.begin.passTime t).linkTake port)

/-- R431: 2^24 cycles after its latest, an up port sends a LINK cell. -/
def execLinkCellTimer (t : Nat) (port : Fin 24) (s : State) : Host.Outcome State Fault Refusal :=
  let s := s.begin.passTime t
  .next (if s.portUp port ∧ (s.port port).linkAt + 2 ^ 24 ≤ s.wall then s.queueLink port else s)

/-! ## Receiving blocks (R426, R428, R444) -/

/-- Corrected symbols of a wavelength counted, in the window that the present cycle falls in. -/
def State.countSymbols (s : State) (p wl n : Nat) : State :=
  let pg := Pg.fab p
  let s := (s.bump64 pg Reg.FAB_FEC_CSYM_LO n).bump pg (Reg.FAB_WL_CSYMW + 4 * wl) n
  let x := s.port p
  let now := s.wall / 2 ^ 20
  let c := if x.window = now then x.csym else List.replicate 9 0
  s.setPort p { x with window := now, csym := c.set wl (c.getD wl 0 + n) }

/-- The CREDIT values of a received control field, by class. -/
def creditFields (wide : Bool) (ctrl : Nat) : List (Nat × Nat) :=
  if wide then (List.range 8).map fun c => (c, bits ctrl (87 + 8 * c) (80 + 8 * c))
  else let b := bits ctrl 15 0 % 4; [(2 * b, bits ctrl 55 48), (2 * b + 1, bits ctrl 63 56)]

/-- Credits that a CREDIT field returns. -/
def FabPort.takeCredit (x : FabPort) (now : Nat) (f : Nat × Nat) : FabPort :=
  let d := (f.2 + 256 - x.farCredit.getD f.1 0) % 256
  if d = 0 then x
  else { x with credits := x.credits.set f.1 (x.credits.getD f.1 0 + 2 * d), farCredit := x.farCredit.set f.1 f.2, creditAt := x.creditAt.set f.1 now }

/-- Both directions of a port retrain at half width (R429). -/
def State.portHalf (s : State) (p : Nat) : State := (s.raise (Pg.fab p) .PORT_HALF none (fabInfo 0xF 0xF)).portTrain p

/-- The far end asks this end to stop using a wavelength on its transmit direction. -/
def State.takeRequest (s : State) (p req : Nat) : State :=
  let x := s.port p
  if 9 ≤ req ∨ bit (x.txNext.getD x.txFailed) req then s
  else
    let m := Nat.lor (x.txNext.getD x.txFailed) (2 ^ req)
    let s := s.setPort p { x with txNext := some m }
    if goodWl m < 4 then (s.setPort p { x with txFailed := m, txNext := none, line := .down }).portSync p
    else if goodWl m < 8 then (s.setPort p { x with txFailed := m, txNext := none }).portHalf p
    else s

/-- The link-wake bit of a received control field (R616). -/
def State.takeWake (s : State) (p req : Nat) : State :=
  let s := s.setPort p { s.port p with lwake := req == 0xE }
  if req = 0xE then s.wrP Pg.stb Reg.STB_LWAKE_SRC (s.rdP Pg.stb Reg.STB_LWAKE_SRC ||| BitVec.ofNat 32 (2 ^ p)) else s

/-- The count of blocks in a row under the new map; at 64 the request ends. -/
def FabPort.countMoved (x : FabPort) (moved : Bool) : FabPort :=
  match x.ask with
  | some _ => if moved then (if 63 ≤ x.moved then { x with ask := none, moved := 0 } else { x with moved := x.moved + 1 }) else { x with moved := 0 }
  | none => x

/-- A block of a port: the symbol errors of each lane, decoded under the new map or the old, its control field and the cells of its valid slots. -/
def State.takeBlock (s : State) (p : Nat) (moved : Bool) (errs : List Nat) (ctrl : Nat) (cells : List (List Byte)) : State :=
  let x := s.port p
  let wide := x.wide
  let req := if wide then bits ctrl 147 144 else bits ctrl 67 64
  let spoiled := errs.any fun e => decide (rsCorrects < e)
  let pg := Pg.fab p
  if s.isolated p then s
  else if x.line = .retention then (if spoiled then s else s.takeWake p req)
  else if x.line = .off ∨ x.line = .down then s
  else
    let map := match x.ask with
      | some w => if moved then x.rxFailed else x.rxFailed - x.rxFailed / 2 ^ w % 2 * 2 ^ w
      | none => x.rxFailed
    let s := errs.zipIdx.foldl (fun s e => match laneWl map e.2 with
      | some w => if 0 < e.1 ∧ e.1 ≤ rsCorrects then s.countSymbols p w e.1 else s
      | none => s) s
    if spoiled then
      let s := s.bump pg Reg.FAB_FEC_UBLK_CNT 1
      let x := s.port p
      if 2 ≤ x.spoiled then s.portTrain p else s.setPort p { x with spoiled := x.spoiled + 1, moved := 0 }
    else
      let s := s.takeWake p req
      let x := s.port p
      let x : FabPort := { (creditFields wide ctrl).foldl (fun (y : FabPort) f => y.takeCredit s.wall f) x with spoiled := 0, heard := true }
      let s := s.setPort p (x.countMoved moved)
      let s := s.bump64 pg Reg.FAB_RX_CELL_LO cells.length
      let s := cells.foldl (fun (s : State) l =>
        let c := Cell.ofBytes l
        if x.line = .training ∧ c.typ ≠ 0xD then s else s.arrive p c.cls s.wall none c) s
      s.takeRequest p req

/-- R426: a codeword with at most 15 symbol errors is corrected; a block with another is spoiled. -/
def execBlockReceive (t : Nat) (port : Fin 24) (moved : Bool) (errs : List Nat) (ctrl : BitVec 160) (cells : List (List Byte)) (s : State) :
    Host.Outcome State Fault Refusal :=
  .next ((s.begin.passTime t).takeBlock port moved errs ctrl.toNat cells)

/-! ## Sending blocks (R445) -/

/-- The weight of a channel on the TRADE page. -/
def State.vcWeight (s : State) (v : Nat) : Nat := max 1 (s.fldP Pg.trade Reg.TRADE_VC_WT (8 * v + 7) (8 * v))

/-- Whether a queued cell may be sent: LINK cells alone while the port trains or the node is not valid; its class holds a credit. -/
def State.sendable (s : State) (x : FabPort) (a : Arrived) : Bool :=
  if a.cell.typ == 0xD then x.line == .training || decide (0 < x.credits.getD 0 0)
  else x.line != .training && s.nodeValid && decide (0 < x.credits.getD a.cell.cls 0)

/-- The first sendable cell of an input and channel. -/
def State.headOf (s : State) (x : FabPort) (v input : Nat) : Option Arrived :=
  x.queue.find? fun a => a.cell.vc == v && a.port == input && s.sendable x a

/-- The cell that a channel sends next, inputs in turn from the channel's pointer. -/
def State.channelHead (s : State) (x : FabPort) (v : Nat) : Option Arrived :=
  ((List.range 25).map fun k => (x.inputs.getD v 0 + k) % 25).findSome? fun i => s.headOf x v i

/-- The next cell of a port in the weighted round robin, with the port's turn as that leaves it. -/
def State.pick (s : State) : Nat → FabPort → Option (Arrived × FabPort)
  | 0, _ => none
  | n + 1, x =>
    match (if x.left = 0 then none else s.channelHead x x.turn) with
    | some a =>
      let c := a.cell.cls
      let x := { x with left := x.left - 1, inputs := x.inputs.set x.turn ((a.port + 1) % 25), queue := x.queue.erase a }
      some (a, if x.line = .training then x else { x with credits := x.credits.set c (x.credits.getD c 0 - 1) })
    | none =>
      let v := (x.turn + 1) % 4
      s.pick n { x with turn := v, left := s.vcWeight v }

/-- Up to n cells of a port, in the order in which they leave. -/
def State.picks (s : State) : Nat → FabPort → List Arrived × FabPort
  | 0, x => ([], x)
  | n + 1, x =>
    match s.pick 5 x with
    | some (a, x) => let r := s.picks n x; (a :: r.1, r.2)
    | none => ([], x)

/-- R461: ACC of a tick or echo cell grows by its wait, and the cell is sealed anew. -/
def addWait (c : Cell) (wait : Nat) : Cell :=
  if c.typ = 8 ∨ c.typ = 0xA ∨ c.typ = 0xB then
    ({ c with payload := c.payload.take 12 ++ leBytes 4 (leAt c.payload 12 4 + wait) ++ c.payload.drop 16 } : Cell).sealed
  else c

/-- Departure of the k-th cell of a block. -/
def slotTime (wide : Bool) (k : Nat) : Nat := if wide then 4 * k / 5 else 8 * k / 5

/-- A block leaves a port: the cells picked, and the control field. -/
def State.sendBlock (s : State) (p : Nat) : State :=
  let x := s.port p
  let code := s.fldP (Pg.fab p) Reg.FAB_STAT 31 29
  if code = 1 ∨ code = 2 ∨ code = 3 then
    let x := match x.txNext with
      | some m => if x.bseq % 64 = 0 then { x with txFailed := m, txNext := none } else x
      | none => x
    let (l, x) := s.picks (if x.wide then 64 else 32) x
    let cells := l.zipIdx.map fun a => (addWait a.1.cell (s.wall + slotTime x.wide a.2 - a.1.at_ - 100)).bytes
    let req := if x.wake ≠ 0 then 0xE else x.ask.getD 0xF
    let ctrl : BlockCtrl := ⟨x.bseq, 2 ^ l.length - 1, x.released.map fun f => f / 2, req, !x.heard⟩
    let s := s.setPort p { x with bseq := (x.bseq + 1) % 65536, wake := x.wake - 1 }
    let s := if x.wake = 1 then s.setP Pg.stb Reg.STB_LINK_WAKE p p 0 else s
    let s := s.bump64 (Pg.fab p) Reg.FAB_TX_CELL_LO l.length
    let s : State := l.foldl State.releaseCell s
    let s : State := { s with out := s.out ++ [.block p (blockLanes x.wide cells (ctrl.word x.wide))] }
    s.portSync p
  else s

/-- R445: one block period of a port. -/
def execBlockTransmit (t : Nat) (port : Fin 24) (s : State) : Host.Outcome State Fault Refusal :=
  .next ((s.begin.passTime t).sendBlock port)

/-! ## Wavelengths and lasers -/

/-- R427, R428, R429: a wavelength declared failed in operation, by its corrected symbols (0) or by loss of lock (1). -/
def State.wlFail (s : State) (p wl reason : Nat) : State :=
  let x := s.port p
  let pg := Pg.fab p
  let th := s.fldP pg Reg.FAB_CFG 15 8
  let met := reason == 1 || (th != 0 && x.window == s.wall / 2 ^ 20 && decide (256 * th ≤ x.csym.getD wl 0))
  if (x.line = .full ∨ x.line = .half) ∧ wl < 9 ∧ !bit x.rxFailed wl ∧ met then
    let s := (s.bump pg Reg.FAB_WL_FAIL_CNT 1).raise pg .WL_FAIL none (fabInfo 0xF wl)
    let s := (s.setInt pg 2).noteRepair (wlEntry p wl reason)
    let m := Nat.lor x.rxFailed (2 ^ wl)
    let least := min (goodWl m) (goodWl x.txFailed)
    let s := s.setPort p { x with rxFailed := m, ask := some wl, moved := 0 }
    if least < 4 then (s.setPort p { s.port p with line := .down, ask := none }).portSync p
    else if least < 8 then s.portHalf p
    else s.portSync p
  else s

def execWlFail (t : Nat) (port : Fin 24) (wl : Fin 9) (lock : Bool) (s : State) : Host.Outcome State Fault Refusal :=
  .next ((s.begin.passTime t).wlFail port wl (b2n lock))

/-- The ports that a laser source lights (R421). -/
def laserPorts (source : Nat) : List Nat := (List.range 12).map (· + 12 * source)

/-- R421: a source's output falls. -/
def execLaserLow (t : Nat) (source : Fin 2) (s : State) : Host.Outcome State Fault Refusal :=
  .next ((laserPorts source).foldl (fun s p =>
    let pg := Pg.fab p
    if s.fldP pg Reg.FAB_STAT 27 27 = 1 then s
    else ((s.setP pg Reg.FAB_STAT 27 27 1).raise pg .LASER_LOW none (fabInfo 0xF 0xF)).portSync p) (s.begin.passTime t))

/-- R432: a source's output recovers: its ports train. -/
def execLaserReturn (t : Nat) (source : Fin 2) (s : State) : Host.Outcome State Fault Refusal :=
  .next ((laserPorts source).foldl (fun s p =>
    let pg := Pg.fab p
    if s.fldP pg Reg.FAB_STAT 27 27 = 0 then s
    else
      let s := s.setP pg Reg.FAB_STAT 27 27 0
      let l := (s.port p).line
      if l = .off ∨ l = .retention then s.portSync p else s.portTrain p) (s.begin.passTime t))

/-! ## The switch -/

/-- R438: the oldest cell at the switch is routed. -/
def execCellForward (t : Nat) (s : State) : Host.Outcome State Fault Refusal :=
  let s := s.begin.passTime t
  .next (match s.fab.inbox.find? fun a => a.cell.typ != 0xD with
    | some a => (s.setFab { s.fab with inbox := s.fab.inbox.erase a }).routeCell a
    | none => s)

/-- Whether a cell has waited HOLD_MAX cycles (R441). -/
def State.aged (s : State) (a : Arrived) : Bool := decide (a.at_ + s.fldP Pg.rte Reg.RTE_HOLD 15 0 ≤ s.wall)

/-- One aged cell dropped and counted. -/
def State.ageDrop (s : State) (a : Arrived) : State :=
  (if a.port < 24 then s.bump (Pg.fab a.port) Reg.FAB_AGE_DROP_CNT 1 else s.bump Pg.rte Reg.RTE_NOROUTE_CNT 1).releaseCell a

/-- R441: every cell that has waited too long is dropped. -/
def execCellAgeDrop (t : Nat) (s : State) : Host.Outcome State Fault Refusal :=
  let s := s.begin.passTime t
  let old := (s.fab.inbox.filter s.aged) ++ s.fab.ports.flatMap fun x => x.queue.filter s.aged
  let keep := fun (l : List Arrived) => l.filter fun a => !s.aged a
  let s := s.setFab { s.fab with inbox := keep s.fab.inbox, ports := s.fab.ports.map fun x => { x with queue := keep x.queue } }
  .next (old.foldl State.ageDrop s)

/-- R448: classes of a port that hold a cell and have had no credit for 2^STALL_LOG2 cycles. -/
def State.stalls (s : State) (p : Nat) : State :=
  let n := 2 ^ s.fldP Pg.rte Reg.RTE_STALL 4 0
  (List.range 8).foldl (fun s c =>
    let x := s.port p
    match x.queue.find? fun a => a.cell.cls == c with
    | some a =>
      if x.credits.getD c 0 = 0 ∧ max a.at_ (x.creditAt.getD c 0) + n ≤ s.wall then
        ((s.setPort p { x with creditAt := x.creditAt.set c s.wall }).raise (Pg.fab p) .CREDIT_STALL none (fabInfo c 0xF)).setInt Pg.rte 2
      else s
    | none => s) s

def execCreditStall (t : Nat) (port : Fin 24) (s : State) : Host.Outcome State Fault Refusal :=
  .next ((s.begin.passTime t).stalls port)

end Sys2Proof.Machine
end

