-- ==== Sys2Proof/Machine/Streams.lean ====
section
/-!
DEFINITION. Point-to-point streams (R449 to R458, R511), the end of the freezes that wait for something (R78, R412, R454, R487), echoes (R463) and management
messages (R465).
-/
namespace Sys2Proof.Machine

/-! ## Waiting freezes end -/

/-- Whether every cell of a RECV is present (R454). -/
def RecvStream.has (x : RecvStream) (n : Nat) : Bool := (List.range n).all fun k => x.present.contains (x.p + k)

/-- P advances past the cells of a RECV. -/
def RecvStream.consume (x : RecvStream) (n : Nat) : RecvStream := { x with p := x.p + n, present := x.present.filter fun k => decide (x.p + n ≤ k) }

/-- The stream number of a fabric word: 64 × die + unit. -/
def streamOf (w : SWord) : Nat := 64 * w.die + w.unit.toNat

/-- Whether the instance that a CSTART of a die's block started has its DST wholly written (R487). -/
def State.cwaitMet (s : State) (die blk : Nat) : Bool :=
  let mine := fun (i : Inst) => match i.member with
    | some m => m.starter == .word die blk
    | none => false
  match (s.coll.insts ++ s.coll.waiting).find? mine with
  | some i => s.whole i
  | none => true

/-- Whether a frame's words and blocks are in the issuing buffers of the dies that run it (R83). -/
def State.fetchedAll (s : State) : Bool := (List.range 4).all fun d => !bit s.runMask d || s.eng.frame.fetched.getD d true

/-- What a waiting freeze waits for is met. -/
def State.waiterMet (s : State) : Waiter → Bool
  | .timed => false
  | .recv w => (s.recvStream (streamOf w)).has (recvArgs w.args).nc
  | .cwait w => s.cwaitMet w.die (collBlk w.args)
  | .event w => let e := eventArgs w.args; s.eventMet e.ctr e.value
  | .fetch => s.fetchedAll

/-- The effect of a word whose wait is met: a RECV consumes its cells. -/
def State.waiterDone (s : State) : Waiter → State
  | .recv w => s.setRecv (streamOf w) ((s.recvStream (streamOf w)).consume (recvArgs w.args).nc)
  | _ => s

/-- Open freezes whose condition holds end now; when no reason is left the counter goes on. -/
def State.wake (s : State) : State :=
  let l := s.eng.frame.frozen
  let met := l.filter fun f => f.stop.isNone && s.waiterMet f.waiter
  if met.isEmpty then s
  else
    let s := met.foldl (fun s f => s.waiterDone f.waiter) s
    let l := l.map fun f => if met.contains f then { f with stop := some s.wall } else f
    let s := s.setFrame { s.eng.frame with frozen := l }
    match s.eng.frame.freezeEnd with
    | some e => if e ≤ s.wall then s.thaw s.wall else s
    | none => s

/-! ## SEND and RECV words -/

/-- LAYOUT_EPOCH of the running image. -/
def State.runEpoch (s : State) : Nat := (s.slot? s.eng.frame.slot).elim 0 fun x => x.epoch

/-- ERR_INFO of the RTE page. -/
def rteInfo (stream node : Nat) : Nat := stream * 2 ^ 24 + node

/-- R451: the store lacks room. -/
def State.storeFull (s : State) (stream node : Nat) : State :=
  ((s.raise Pg.rte .STORE_FULL none (rteInfo stream node)).setInt Pg.rte 5).abortFrame (errCode .STORE_FULL .rte)

/-- A SEND that issues (R450, R451, R458). -/
def State.sendWord (s : State) (w : SWord) : State :=
  let a := sendArgs w.args
  let st := streamOf w
  let x := s.sendStream st
  let t := w.stamp.toNat
  if storeCells < s.storeUsed + a.nc then s.storeFull st a.dst
  else if x.failed then s
  else
    let s := s.bookFlits w (sendUses (rawOf w 6 1) w.die)
    let cells := (List.range a.nc).map fun c => (⟨x.next + c, List.replicate 64 0, s.runEpoch, none, false⟩ : SendCell)
    let s := s.setSend st { x with next := x.next + a.nc, cells := x.cells ++ cells }
    let s := (List.range (ceilDiv a.nc 8)).foldl (fun s j =>
      s.later (t + j) (.gather st (x.next + 8 * j) (min 8 (a.nc - 8 * j)) (spadBase w.die + a.soff + 512 * j))) s
    (List.range a.nc).foldl (fun s c => s.later (t + 120 + 4 * c / 5) (.depart st (x.next + c))) s

/-- KIND 0x6, OP 0x01. -/
def execSend (w : SWord) (s : State) : Host.Outcome State Fault Refusal :=
  .next (s.issue w 6 1 0 (rchBlame w) State.fabricCheck (fun s => (s.sendWord w).settle))

/-- A RECV at its stamp (R454). -/
def State.recvWord (s : State) (w : SWord) : State :=
  let st := streamOf w
  let n := (recvArgs w.args).nc
  let s := s.setRecv st { s.recvStream st with c := (s.recvStream st).p }
  if (s.recvStream st).has n then s.setRecv st ((s.recvStream st).consume n)
  else s.freeze .peerLate w.die none (.recv w) (some (s.wordAddr w.die w.idx.toNat))

/-- KIND 0x7, OP 0x01. -/
def execRecv (w : SWord) (s : State) : Host.Outcome State Fault Refusal :=
  .next (s.issueWait w 7 1 State.fabricCheck (fun s => s.recvWord w))

/-! ## Arriving cells -/

/-- The oldest delivered cell of a type, taken. -/
def State.takeHere (s : State) (typ : Nat) : Option (Arrived × State) :=
  match s.fab.here.find? fun a => a.cell.typ == typ with
  | some a => some (a, s.setFab { s.fab with here := s.fab.here.erase a })
  | none => none

/-- A cell of a type acted on once it passes its CRC; one that fails is dropped and counted (R437). -/
def State.onCell (s : State) (typ : Nat) (f : State → Arrived → State) : State :=
  match s.takeHere typ with
  | some (a, s) => if a.cell.good then f s a else s.bump Pg.rte Reg.RTE_CRC_DROP_CNT 1
  | none => s

/-- The distance of an epoch from the module's, modulo 256 (R509). -/
def State.epochDist (s : State) (x : Nat) : Nat := (x + 256 - s.fldP Pg.coll Reg.COLL_EPOCH 7 0) % 256
def behind (d : Nat) : Bool := decide (128 ≤ d)
def ahead (d : Nat) : Bool := decide (1 ≤ d) && decide (d < 128)

/-- R511: a cell of a stale epoch, with the DST address of its segment where it has one. -/
def State.staleCell (s : State) (high : Nat) (addr : Option Nat) : State :=
  ((s.bump Pg.coll Reg.COLL_STALE_EPOCH_CNT 1).raise Pg.coll .EPOCH_STALE addr (high * 65536)).setInt Pg.coll 2

/-- The lowest cell number not present. -/
def RecvStream.lowest (x : RecvStream) : Nat := lowestGap x.present x.present.length x.p

/-- An ACK of a receive stream (R456). -/
def State.sendAck (s : State) (st : Nat) : State :=
  let x := s.recvStream st
  let low := x.lowest
  let bm := (List.range 512).foldl (fun n i => if x.present.contains (low + 1 + i) then n + 2 ^ i else n) 0
  let s := s.setRecv st { x with fresh := 0, since := none }
  s.create s.wall none { Cell.blank 2 x.src (leBytes 64 bm) with ctx := x.sstream * 256 + st, seq := low, epoch := s.fldP Pg.coll Reg.COLL_EPOCH 7 0 }

/-- A duplicate: counted, and acknowledged at most once in 256 cycles. -/
def State.dupData (s : State) (st : Nat) : State :=
  let s := s.bump Pg.rte Reg.RTE_DUP_CNT 1
  let x := s.recvStream st
  match x.dupAt with
  | some t => if s.wall < t + 256 then s else (s.setRecv st { x with dupAt := some s.wall }).sendAck st
  | none => (s.setRecv st { x with dupAt := some s.wall }).sendAck st

/-- A cell number from its low 24 bits, near a reference. -/
def unwrap (ref seq : Nat) : Int := (ref : Int) + signed 24 (seq + 2 ^ 24 - ref % 2 ^ 24)

/-- R455: the tests of a DATA cell in order, and its write into the ring; a write that fails leaves the cell not present. -/
def State.takeData (s : State) (c : Cell) : State :=
  let st := c.ctx % 256
  let x := s.recvStream st
  let d := s.epochDist c.epoch
  if behind d then s.staleCell st none
  else if ahead d then s.bump Pg.coll Reg.COLL_EARLY_CNT 1
  else if !c.good then s.bump Pg.rte Reg.RTE_CRC_DROP_CNT 1
  else if !(x.bound && x.src == c.src && x.sstream == c.ctx / 256) then s.bump Pg.rte Reg.RTE_UNBOUND_DROP_CNT 1
  else
    let i := unwrap x.c c.seq
    let n := i.toNat
    if i < x.c ∨ n < x.p ∨ x.present.contains n then s.dupData st
    else if x.c + ringCells x.log ≤ n then s.bump Pg.rte Reg.RTE_WIN_DROP_CNT 1
    else
      let a := spadBase (st / 64) + x.base + 64 * (n % ringCells x.log)
      match s.writeTo Pg.rte (st * 2 ^ 24) a 64 1 with
      | (s, some _) => s
      | (s, none) =>
      let s := s.write a c.payload
      let s := s.setRecv st { x with present := n :: x.present, fresh := x.fresh + 1, since := some (x.since.getD s.wall) }
      if 32 ≤ x.fresh + 1 then s.sendAck st else s

/-- R455, R511: the oldest delivered DATA cell. -/
def execData (t : Nat) (errs : List AccessErr) (s : State) : Host.Outcome State Fault Refusal :=
  let s := (s.begin.facing errs).passTime t
  .next (match s.takeHere 1 with
    | some (a, s) => (s.takeData a.cell).wake
    | none => s)

/-- R456: 256 cycles after the first cell made present since the last ACK. -/
def execAckTimer (t : Nat) (stream : Fin 256) (s : State) : Host.Outcome State Fault Refusal :=
  let s := s.begin.passTime t
  .next (match (s.recvStream stream).since with
    | some u => if u + 256 ≤ s.wall then s.sendAck stream else s
    | none => s)

/-! ## Release and re-send -/

/-- Whether an ACK of base low with a bitmap releases cell n. -/
def ackCovers (low bm n : Nat) : Bool := decide (n < low) || (decide (low < n) && decide (n ≤ low + 512) && bm.testBit (n - low - 1))

/-- R457: cells leave the store, a sample is taken, and the timer of a released oldest cell starts afresh. -/
def State.takeAck (s : State) (a : Arrived) : State :=
  let c := a.cell
  let st := c.ctx / 256
  let x := s.sendStream st
  if !(x.bound && x.dst == c.src && x.dstream == c.ctx % 256) then s
  else
    let low := (unwrap x.next c.seq).toNat
    let bm := leNat c.payload
    let out := x.cells.filter fun y => ackCovers low bm y.n && y.sent.isSome
    let keep := x.cells.filter fun y => !(ackCovers low bm y.n && y.sent.isSome)
    let t := match out.find? fun y => !y.resent with
      | some y => x.timer.sample (a.at_ - y.sent.getD 0)
      | none => x.timer
    let t := if (x.cells.head?).any (fun y => ackCovers low bm y.n && y.sent.isSome) then { t with rto := none, retries := 0 } else t
    s.setSend st { x with cells := keep, timer := t }

def execAck (t : Nat) (s : State) : Host.Outcome State Fault Refusal :=
  .next ((s.begin.passTime t).onCell 2 State.takeAck)

/-- R458: a stream fails. -/
def State.streamFail (s : State) (st : Nat) : State :=
  let x := s.sendStream st
  let s := s.setSend st { x with failed := true, cells := [] }
  (s.raise Pg.rte .STREAM_FAIL none (rteInfo st x.dst)).setInt Pg.rte 1

/-- R458: the stream's oldest unreleased cell comes due. -/
def State.streamDue (s : State) (st : Nat) : State :=
  let x := s.sendStream st
  match x.cells with
  | [] => s
  | y :: _ =>
    match y.sent with
    | none => s
    | some u =>
      if s.wall < u + s.rtoOf x.timer then s
      else if s.retryMax ≤ x.timer.retries then s.streamFail st
      else
        let s := s.setSend st { x with timer := s.dueAgain x.timer }
        let l := (x.cells.filter fun z => z.sent.isSome).take s.retryBurst
        let s := l.zipIdx.foldl (fun s z => s.sendCellAt st z.1.n (s.wall + 4 * z.2 / 5) true) s
        s.bump Pg.rte Reg.RTE_RESEND_CNT l.length

def execResendTimeout (t : Nat) (stream : Fin 256) (s : State) : Host.Outcome State Fault Refusal :=
  .next ((s.begin.passTime t).streamDue stream)

/-! ## Echoes (R463) -/

/-- A write of GO to RTE_ECHO_CMD. -/
def State.echoGo (s : State) (v : Nat) : State :=
  if !bit v 31 ∨ s.fab.echo.isSome then s
  else
    let n := (s.fab.echoNum + 1) % 65536
    let s := s.setFab { s.fab with echoNum := n, echo := some ⟨n, bits v 15 0, bit v 30, s.wall⟩ }
    let s := s.wrP Pg.rte Reg.RTE_ECHO_RES 0
    s.create s.wall none { Cell.blank 0xA (bits v 15 0) [] with ctx := n }

/-- The target answers with the request's ACC. -/
def State.echoAnswer (s : State) (a : Arrived) : State :=
  s.create a.at_ none { Cell.blank 0xB a.cell.src a.cell.payload with ctx := a.cell.ctx }

def execEchoReq (t : Nat) (s : State) : Host.Outcome State Fault Refusal :=
  .next ((s.begin.passTime t).onCell 0xA State.echoAnswer)

/-- The echo ends: RTT_FIX or TIMEOUT, and the path delay when it was asked for (R101). -/
def State.echoEnd (s : State) (res : Nat) : State :=
  let s := s.setFab { s.fab with echo := none }
  (s.wrP Pg.rte Reg.RTE_ECHO_RES (BitVec.ofNat 32 res)).setInt Pg.rte 4

/-- The response of the outstanding echo. -/
def State.echoTake (s : State) (a : Arrived) : State :=
  match s.fab.echo with
  | none => s
  | some e =>
    if a.cell.ctx ≠ e.num then s
    else
      let fix := a.at_ - e.at_ - leAt a.cell.payload 12 4
      let s := s.echoEnd (2 ^ 31 + fix % 2 ^ 24)
      if e.setDelay ∧ e.target = s.fldP Pg.hub Reg.HUB_TICK_CFG 31 16 ∧ fix / 2 < s.frameLen / 2 then
        s.setP Pg.hub Reg.HUB_TICK_DELAY 23 0 (fix / 2)
      else s

def execEchoRsp (t : Nat) (s : State) : Host.Outcome State Fault Refusal :=
  .next ((s.begin.passTime t).onCell 0xB State.echoTake)

/-- R463: no response within 2^20 cycles. -/
def execEchoTimeout (t : Nat) (s : State) : Host.Outcome State Fault Refusal :=
  let s := s.begin.passTime t
  .next (match s.fab.echo with
    | some e => if e.at_ + 2 ^ 20 ≤ s.wall then s.echoEnd (2 ^ 30) else s
    | none => s)

/-! ## Management messages (R465) -/

/-- A write of GO to RTE_MGMT_CMD. -/
def State.mgmtGo (s : State) (v : Nat) : State :=
  if !bit v 31 then s
  else
    let pl := (List.range 16).flatMap fun k => leBytes 4 (s.num Pg.rte (Reg.RTE_MGMT_TX + 4 * k))
    s.create s.wall none { Cell.blank 0xC (bits v 15 0) pl with mc := bit v 30 }

/-- A message enters the mailbox, or finds it full. -/
def State.mgmtTake (s : State) (a : Arrived) : State :=
  let n := s.fldP Pg.rte Reg.RTE_MGMT_STAT 3 0
  if 8 ≤ n then s.bump Pg.rte Reg.RTE_MGMT_DROP_CNT 1
  else
    let k := (s.fldP Pg.rte Reg.RTE_MGMT_STAT 6 4 + n) % 8
    let o := Reg.RTE_MGMT_RXn + 128 * k
    let s := (List.range 16).foldl (fun s i => s.wrP Pg.rte (o + 4 * i) (BitVec.ofNat 32 (leAt a.cell.payload (4 * i) 4))) s
    let s := s.wrP Pg.rte (o + 0x40) (BitVec.ofNat 32 a.cell.src)
    (s.setP Pg.rte Reg.RTE_MGMT_STAT 3 0 (n + 1)).setInt Pg.rte 3

def execMgmt (t : Nat) (s : State) : Host.Outcome State Fault Refusal :=
  .next ((s.begin.passTime t).onCell 0xC State.mgmtTake)

/-- A write to RTE_MGMT_POP. -/
def State.mgmtPop (s : State) (v : Nat) : State :=
  let n := s.fldP Pg.rte Reg.RTE_MGMT_STAT 3 0
  if !bit v 0 ∨ n = 0 then s
  else (s.setP Pg.rte Reg.RTE_MGMT_STAT 3 0 (n - 1)).setP Pg.rte Reg.RTE_MGMT_STAT 6 4 (s.fldP Pg.rte Reg.RTE_MGMT_STAT 6 4 + 1)

/-! ## Bindings (R459) -/

/-- A pairing that an OP 0x01 word of an image names: its stream with the word's fields. -/
structure Binding where
  send : Bool
  stream : Nat
  args : BitVec 88
  deriving DecidableEq, Repr

/-- Every stream reset: its cells leave the store and are counted, and its binding ends. -/
def State.resetStreams (s : State) : State :=
  let n := (s.fab.sends.map fun x => x.cells.length).sum
  let s := s.bump Pg.rte Reg.RTE_ABANDON_CNT n
  s.setFab { s.fab with sends := s.fab.sends.map fun _ => SendStream.fresh, recvs := s.fab.recvs.map fun _ => RecvStream.idle }

/-- A stream bound as a word of the incoming image names it. -/
def State.bindStream (s : State) (b : Binding) : State :=
  if b.send then let a := sendArgs b.args; s.setSend b.stream { SendStream.fresh with bound := true, dst := a.dst, dstream := a.dstream }
  else
    let a := recvArgs b.args
    s.setRecv b.stream { RecvStream.idle with bound := true, src := a.src, sstream := a.sstream, base := a.base, log := a.log }

end Sys2Proof.Machine
end

