-- ==== Sys2Proof/Machine/Admission.lean ====
section
/-!
DEFINITION. Schedule images and their admission (R80 to R87, R91 to R98, R117, R118): the header, frame table, word streams, carry regions (R524, R525) and
scalar tables (R261), and the thirteen checks in their order.
-/
namespace Sys2Proof.Machine

/-! ## The header (R81) -/

/-- A slot as an image's header describes it. -/
def State.header (s : State) (num base : Nat) : Slot :=
  let f := fun o n => s.natAt (base + o) n
  { num := num, base := base, len := f 8 8, dieMask := f 0x14 1, epoch := f 0x15 1, band := f 0x11 1, prot := f 0x12 1, halfWidth := f 0x13 1,
    fp16 := bit (f 0x16 2) 0, frameCount := f 0x18 4, seqBound := f 0x1C 4, frameTable := f 0x20 8, carryTable := f 0x28 8, carryCount := f 0x38 4,
    scalarTable := f 0x30 8, scalarCount := f 0x3C 4, refuses := 0, runs := 0 }

/-- R80: the image lies in one stack window's populated range or in the spread alias. -/
def imagePlaced (base len : Nat) : Bool :=
  base % 4096 == 0 && (match regionOf base with
    | some (.stack _, b, z) | some (.spread, b, z) => decide (base + len ≤ b + z)
    | _ => false)

/-- Check 1. -/
def State.headerBad (s : State) (base : Nat) (x : Slot) : Bool :=
  let raw := s.bytesAt base 256
  leAt raw 0 4 != 0x4D494753 || leAt raw 4 2 != 1 || leAt raw 0xFC 4 != crc32c (raw.take 0xFC) || !allZero ((raw.drop 0x48).take 180)
    || x.len % 4096 != 0 || decide (leAt raw 0x10 1 < 14) || decide (20 < leAt raw 0x10 1) || decide (2 < x.band) || decide (2 < x.prot)
    || decide (16 ≤ x.halfWidth) || decide (16 ≤ x.dieMask) || decide (4 ≤ leAt raw 0x16 2) || x.frameCount == 0 || decide (16777216 < x.frameCount)
    || x.frameTable % 64 != 0 || !imagePlaced base x.len

/-! ## Findings -/

/-- A failed check with the address and the ERR_INFO that the HUB page logs (R117, R118). -/
structure AdmitFail where
  order : Nat
  cause : Cause
  addr : Nat
  die : Nat
  frame : Nat
  deriving DecidableEq, Repr

/-- The failure that comes first: the lowest check, the earliest within it. -/
def firstFail : List AdmitFail → Option AdmitFail
  | [] => none
  | f :: r => (match firstFail r with
    | some g => if g.order < f.order then some g else some f
    | none => some f)

def failWhen (b : Bool) (order : Nat) (c : Cause) (addr die frame : Nat) : List AdmitFail := if b then [⟨order, c, addr, die, frame⟩] else []

/-- R367, R371: a die that is not present. -/
def State.dieAbsent (s : State) (d : Nat) : Bool := s.linkWidth d == 2 || !s.pageOn (Pg.d2d d)

/-- Whether a link runs at half width as schedule images see it: a fall reaches them at the next frame boundary (R366). -/
def State.halfScheduled (s : State) (d : Nat) : Bool :=
  s.linkWidth d == 1 && !((s.link d).resume.isSome && s.num64 (Pg.d2d d) Reg.D2D_FALL_FRAME_LO == s.frameNum)

/-- Checks 1 to 6 on the header. -/
def State.headerFails (s : State) (x : Slot) : List AdmitFail :=
  let b := x.base
  failWhen (s.headerBad b x) 1 .IMG_HEADER b 0 0
    ++ failWhen (s.natAt (b + 0x10) 1 != s.fldP Pg.hub Reg.HUB_FRAME_CFG 4 0) 2 .IMG_FRAME_LEN b 0 0
    ++ failWhen (decide (x.band < s.fldP Pg.trade Reg.TRADE_MODE 3 2)) 3 .IMG_BAND b 0 0
    ++ failWhen (x.prot != s.prot || (x.fp16 && s.fldP Pg.trade Reg.TRADE_MODE 4 4 == 0)) 4 .IMG_MODE b 0 0
    ++ ((List.range 4).flatMap fun d => failWhen (s.halfScheduled d && !bit x.halfWidth d) 5 .IMG_WIDTH b d 0)
    ++ ((List.range 4).flatMap fun d => failWhen (bit x.dieMask d && s.dieAbsent d) 6 .IMG_UNIT b d 0)

/-! ## Frames and words (R82, R85, R230) -/

/-- Entry of the frame table: offset from the image start and count of a die's words. -/
def State.frameEntry (s : State) (x : Slot) (frame die : Nat) : Nat × Nat :=
  let a := x.base + x.frameTable + 64 * frame + 12 * die
  (s.natAt a 8, s.natAt (a + 8) 4)

/-- A word of an image in its place, with the words of its chain when it is a chain's head. -/
structure Item where
  frame : Nat
  die : Nat
  idx : Nat
  addr : Nat
  word : RawWord
  chain : List (BitVec 8 × BitVec 88)
  deriving DecidableEq, Repr

/-- The words of one die in one frame; a stream that does not lie in the image has none. -/
def State.frameWords (s : State) (x : Slot) (frame die : Nat) : List Item :=
  let (off, n) := s.frameEntry x frame die
  (List.range (if x.len < off + 16 * n ∨ 65536 < n then 0 else n)).map fun i =>
    let a := x.base + off + 16 * i
    ⟨frame, die, i, a, rawWord (s.natAt a 16), []⟩

/-- How many words follow a chain's head (R230). -/
def chainTail (args : BitVec 88) : Nat := let h := (chainPlan [(1, args)]).head; h.nin + h.nout + h.stages

/-- The words of a stream with each chain's words joined to its head. -/
def groupItems : Nat → List Item → List Item
  | 0, l => l
  | _, [] => []
  | n + 1, x :: r =>
    if x.word.kind = 2 ∧ x.word.op = 1 then
      let k := chainTail x.word.args
      let t := (r.take k).takeWhile fun y => y.word.kind == 2 && y.word.unit == x.word.unit && y.word.stamp == x.word.stamp && y.word.op != 1
      { x with chain := (1, x.word.args) :: t.map fun y => (BitVec.ofNat 8 y.word.op, y.word.args) } :: groupItems n (r.drop t.length)
    else x :: groupItems n r

/-- The operations of a die in a frame. -/
def State.frameItems (s : State) (x : Slot) (frame die : Nat) : List Item :=
  let l := s.frameWords x frame die
  groupItems l.length l

/-- The context in which a word is checked: the B buffers that earlier words of its stream load. -/
def itemCtx (x : Slot) (before : List Item) (i : Item) : WordCtx :=
  ⟨i.die, x.base, x.len, x.dieMask, x.fp16, x.halfWidth,
   (before.filter fun y => y.word.kind == 1 && y.word.op == 8).map fun y => (y.word.unit, (loadBArgs y.word.args).bsel), false⟩

/-- Checks 6 to 9 by KIND. -/
def State.kindCheck (s : State) (c : WordCtx) (i : Item) : List Finding :=
  let w := i.word
  match w.kind with
  | 0x0 => badWord (w.op != 0 || w.args != 0)
  | 0x1 => if w.op = 8 then s.loadBCheck c w else if w.op = 0 ∨ 8 < w.op then badWord true else s.passCheck c w
  | 0x2 => if w.op = 1 then s.chainCheck c i.chain else badWord true
  | 0x3 => s.culmCheck c w
  | 0x4 => s.moverCheck c w
  | 0x5 => s.rachisCheck c w
  | 0x6 | 0x7 => s.fabricCheck c w
  | 0x8 => badWord (w.op != 0) ++ eventCheck true s c w
  | 0x9 => badWord (w.op != 0) ++ eventCheck false s c w
  | _ => badWord true

/-- Checks 6 to 9 on one word. -/
def State.itemFails (s : State) (x : Slot) (before : List Item) (i : Item) : List AdmitFail :=
  let c := itemCtx x before i
  let late := badWord (decide (lastStamp s.frameLen < i.word.stamp) || (before.getLast?).any fun y => decide (i.word.stamp < y.word.stamp))
  (s.unitCheck i.die i.word.kind i.word.unit ++ late ++ s.kindCheck c i).map fun f => ⟨f.order, f.cause, f.addr.getD (i.addr + 16 * f.part), i.die, i.frame⟩

/-- Every pairing of an element with those before it. -/
def withBefore {α : Type} (l : List α) : List (List α × α) := l.zipIdx.map fun q => (l.take q.2, q.1)

/-! ## Blocks of a frame (R84) -/

/-- What a word takes of its die's block buffer: a kind, an offset and its bytes. -/
def State.itemBlocks (s : State) (c : WordCtx) (i : Item) : List (Nat × Nat × Nat) :=
  if i.word.kind = 3 then
    let b := culmBlock ((s.culmBytes c i.word.args).take 128)
    (0, (culmArgs i.word.args).blk, 128) :: (if b.alg = 3 ∧ b.mlen ≠ 0 then [(1, b.mprog, ceilDiv (8 * b.mlen) 64 * 64)] else [])
  else if (i.word.kind = 6 ∨ i.word.kind = 7) ∧ i.word.op = 0x10 then [(2, collBlk i.word.args, 64)]
  else []

/-- Bytes of the blocks that words name, each block once. -/
def State.blockBytes (s : State) (x : Slot) (l : List Item) : Nat :=
  (((l.flatMap fun i => s.itemBlocks (itemCtx x [] i) i).eraseDups).map fun b => b.2.2).sum

/-! ## Rules over several words of a stream (R453, R489) -/

def isCstart (i : Item) : Bool := i.word.kind == 6 && i.word.op == 0x10
def isCwait (i : Item) : Bool := i.word.kind == 7 && i.word.op == 0x10

/-- R489 on a word, among those of its die and frame. -/
def pairingBad (l before : List Item) (i : Item) : Bool :=
  let same := fun (y : Item) => collBlk y.word.args == collBlk i.word.args
  (isCstart i && (!(l.any fun y => isCwait y && same y && decide (i.idx < y.idx)) || before.any fun y => isCstart y && same y))
    || (isCwait i && !(before.any fun y => isCstart y && same y))

/-- The stamp of the CWAIT that names a CSTART's block. -/
def waitStamp (l : List Item) (i : Item) : Nat :=
  ((l.find? fun y => isCwait y && collBlk y.word.args == collBlk i.word.args && decide (i.idx < y.idx)).map fun y => y.word.stamp).getD i.word.stamp

/-- The part of a SEND's or RECV's ARGS that its stream's binding fixes. -/
def bindingOf (i : Item) : Nat × Nat × Nat × Nat :=
  if i.word.kind = 6 then let a := sendArgs i.word.args; (a.dst, a.dstream, 0, 0)
  else let a := recvArgs i.word.args; (a.src, a.sstream, a.base, a.log)

/-- R453 on a fabric word, against the first word of its stream in the image. -/
def bindingBad (all : List Item) (i : Item) : Bool :=
  if i.word.kind = 6 ∨ i.word.kind = 7 then
    match all.find? fun y => y.word.kind == i.word.kind && y.die == i.die && y.word.unit == i.word.unit with
    | some y => (y.word.op == 0x10) != (i.word.op == 0x10) || (i.word.op == 1 && bindingOf y != bindingOf i)
    | none => false
  else false

/-- The streams that an image's OP 0x01 words bind (R453). -/
def bindingsOf (all : List Item) : List Binding :=
  ((all.filter fun i => (i.word.kind == 6 || i.word.kind == 7) && i.word.op == 1).map fun i =>
    (⟨i.word.kind == 6, 64 * i.die + i.word.unit, i.word.args⟩ : Binding))

/-! ## Tables (check 7) -/

/-- A carry region (R524). -/
structure Carry where
  die : Nat
  len : Nat
  off : Nat
  save : Nat
  deriving DecidableEq, Repr

def State.carryAt (s : State) (x : Slot) (k : Nat) : Carry :=
  let a := x.base + x.carryTable + 32 * k
  ⟨s.natAt a 1, s.natAt (a + 4) 4, s.natAt (a + 8) 4, s.natAt (a + 0x10) 8⟩

def State.carries (s : State) (x : Slot) : List Carry := (List.range x.carryCount).map (s.carryAt x)

/-- Whether ranges meet. -/
def rangesMeet (a n b m : Nat) : Bool := decide (a < b + m) && decide (b < a + n)

/-- R524, R525 on entry k. -/
def State.carryFails (s : State) (x : Slot) (k : Nat) : List AdmitFail :=
  let a := x.base + x.carryTable + 32 * k
  let c := s.carryAt x k
  let raw := s.bytesAt a 32
  let l := (List.range k).map (s.carryAt x)
  let clash := l.any fun d => (d.die == c.die && rangesMeet d.off d.len c.off c.len) || rangesMeet d.save d.len c.save c.len
  let total : Nat := ((l ++ [c]).filter fun d => d.die == c.die).foldl (fun (n : Nat) d => n + d.len) 0
  failWhen (decide (3 < c.die) || !bit x.dieMask c.die || !allZero ((raw.drop 1).take 3) || !allZero ((raw.drop 12).take 4) || !allZero (raw.drop 24)
      || c.len % 512 != 0 || c.len == 0 || decide (16777216 < c.len) || c.off % 512 != 0 || c.save % 2048 != 0 || decide (2 ^ 48 ≤ c.save)
      || clash || decide (16777216 < total)) 7 .IMG_WORD a c.die 0
    ++ (s.populatedCheck c.save c.len).flatMap (fun (f : Finding) => failWhen true 8 .UNPOPULATED (f.addr.getD c.save) c.die 0)
    ++ failWhen (decide (0x00C000000000 ≤ c.save) || c.save / 0x001000000000 / 3 != c.die) 9 .REACH c.save c.die 0
    ++ failWhen (decide (spadBytes < c.off + c.len)) 9 .REACH (spadBase c.die + c.off) c.die 0

/-- R261 on entry k. -/
def State.scalarFails (s : State) (x : Slot) (k : Nat) : List AdmitFail :=
  let at_ := fun k => x.base + x.scalarTable + 16 * k
  let name := fun k => s.natAt (at_ k) 2
  let r := s.natAt (at_ k + 1) 1
  failWhen (decide (3 < s.natAt (at_ k) 1) || r == 0 || decide (247 < r) || s.natAt (at_ k + 2) 6 != 0
    || (List.range k).any fun j => name j == name k) 7 .IMG_WORD (at_ k) (s.natAt (at_ k) 1) 0

/-- The tables of the image. DESIGN CHOICE (log entry 79): where a table entry offends and no word does, IMG_WORD's address is that of the entry, or of the table
where it does not fit; IMG_UNIT by DIE_MASK names the image base. -/
def State.tableFails (s : State) (x : Slot) : List AdmitFail :=
  let b := x.base
  failWhen (decide (x.len < x.frameTable + 64 * x.frameCount)) 7 .IMG_WORD (b + x.frameTable) 0 0
    ++ failWhen (x.carryCount != 0 && (decide (256 < x.carryCount) || x.carryTable % 32 != 0 || decide (x.len < x.carryTable + 32 * x.carryCount))) 7 .IMG_WORD
        (b + x.carryTable) 0 0
    ++ failWhen (x.scalarCount != 0 && (decide (1024 < x.scalarCount) || decide (x.len < x.scalarTable + 16 * x.scalarCount))) 7 .IMG_WORD (b + x.scalarTable) 0 0
    ++ ((List.range x.carryCount).flatMap (s.carryFails x)) ++ ((List.range x.scalarCount).flatMap (s.scalarFails x))

/-- R82: the entry of a frame. -/
def State.entryFails (s : State) (x : Slot) (frame : Nat) : List AdmitFail :=
  let a := x.base + x.frameTable + 64 * frame
  failWhen (!allZero (s.bytesAt (a + 0x30) 16)) 7 .IMG_WORD a 0 frame
    ++ ((List.range 4).flatMap fun d =>
      let (off, n) := s.frameEntry x frame d
      failWhen (off % 16 != 0 || decide (65536 < n) || decide (x.len < off + 16 * n) || (!bit x.dieMask d && n != 0)) 7 .IMG_WORD (a + 12 * d) d frame)

/-! ## Bookings of a frame (checks 10 to 13) -/

/-- An item put in its place by STAMP, after those of the same STAMP. -/
def insertByStamp (x : Item × Booked) : List (Item × Booked) → List (Item × Booked)
  | [] => [x]
  | y :: r => if y.1.word.stamp ≤ x.1.word.stamp then y :: insertByStamp x r else x :: y :: r

/-- The bookings of one frame over all dies, in the order of their stamps. -/
def State.frameBookings (s : State) (x : Slot) (frame : Nat) : List (Item × Booked) :=
  ((List.range 4).flatMap fun d =>
    let l := s.frameItems x frame d
    (withBefore l).map fun q =>
      let c := itemCtx x q.1 q.2
      let u := if isCstart q.2 then s.cstartUses c q.2.word (waitStamp l q.2) else s.uses c q.2.word q.2.chain
      (q.2, (⟨d, q.2.idx, q.2.word, u⟩ : Booked))).foldl (fun l b => insertByStamp b l) []

/-- Checks 10 to 13 on one frame. -/
def State.bookingFails (s : State) (x : Slot) (frame : Nat) : List AdmitFail :=
  (withBefore (s.frameBookings x frame)).flatMap fun q =>
    let i := q.2.1
    let b := q.2.2
    let before := q.1.map fun y => y.2
    let upTo := before ++ [b]
    let fail := fun (t : Bool) (o : Nat) (c : Cause) => failWhen t o c i.addr i.die frame
    fail (overrun s.frameLen b.uses) 10 .OVERRUN
      ++ fail ((before.any fun y => clash y b) || ownClash b || bufferClash upTo b) 11 .DOUBLE_BOOK
      ++ fail (b.uses.short || portOver x.halfWidth upTo b || scalarOver upTo b || slotOver upTo b) 12 .PORT_OVER
      ++ fail (refreshBreach s.frameLen x.band b.uses) 13 .REFRESH_ACCESS

/-! ## Admission -/

/-- Checks 6 and 7 to 9 on the words of a frame. -/
def State.wordFails (s : State) (x : Slot) (frame : Nat) : List AdmitFail :=
  (List.range 4).flatMap fun d =>
    let l := s.frameItems x frame d
    ((withBefore l).flatMap fun q =>
      s.itemFails x q.1 q.2
        ++ failWhen (pairingBad l q.1 q.2 || decide (262144 < s.blockBytes x (q.1 ++ [q.2])) && decide (s.blockBytes x q.1 ≤ 262144)) 7 .IMG_WORD q.2.addr d frame)

/-- Every word of an image. -/
def State.allItems (s : State) (x : Slot) : List Item :=
  (List.range x.frameCount).flatMap fun f => (List.range 4).flatMap (s.frameItems x f)

/-- R96: the first failure of an image, none when it is admitted. -/
def State.admission (s : State) (x : Slot) : Option AdmitFail :=
  match firstFail (s.headerFails x) with
  | some f => some f
  | none =>
    let frames := List.range x.frameCount
    let all := s.allItems x
    match firstFail (s.tableFails x ++ frames.flatMap (s.entryFails x) ++ frames.flatMap (s.wordFails x)
        ++ all.flatMap fun i => failWhen (bindingBad all i) 7 .IMG_WORD i.addr i.die i.frame) with
    | some f => some f
    | none => firstFail (frames.flatMap (s.bookingFails x))

/-- A refusal captured in the HUB page (R117, R118), and its code. -/
def State.admitError (s : State) (f : AdmitFail) : State × Nat :=
  let info := if f.cause.cls = 3 then f.die % 4 * 2 ^ 30 + f.frame % 2 ^ 24 else 0
  (s.raise Pg.hub f.cause (some f.addr) info, errCode f.cause .hub)

end Sys2Proof.Machine
end

