-- ==== Sys2Proof/Machine/Power.lean ====
section
/-!
DEFINITION. Power domains (R600 to R613): requests, refusals, entry and exit, pending-on, wakes, save sets, divider ramps, and the seeding of generators that an
exit brings (R250, R344).
-/
namespace Sys2Proof.Machine

def State.setPwr (s : State) (p : Power) : State := { s with pwr := p }

/-- Core cycles of one Stubble cycle (R6). -/
def stubbleCycle : Nat := 80

/-! ## The domain window -/

def domOff (n : Nat) : Nat := 0x310000 + 4 * n

def State.domFld (s : State) (n hi lo : Nat) : Nat := fld (s.rd (domOff n)) hi lo

def State.setDom (s : State) (n hi lo v : Nat) : State := s.wr (domOff n) (setFld (s.rd (domOff n)) hi lo v)

/-- The page whose PWR_REFUSE_CNT counts for a domain (R606). -/
def refusePage (n : Nat) : Page := (domainInfo n).owner.getD Pg.pwr

/-- The block pages of a domain: four for a Tiller group, none for a switch slice. -/
def domainPages (n : Nat) : List Page :=
  if n < 84 then (List.range 4).map fun i => Pg.tlr (n / 21) (n % 21 * 4 + i)
  else match (domainInfo n).owner with
    | some p => [p]
    | none => []

/-- PWR_REFUSE_CNT of a domain counts one refusal and names its refuser (R30). -/
def State.countRefusal (s : State) (n refuser : Nat) : State :=
  let p := refusePage n
  let c := s.fldP p Reg.PWR_REFUSE_CNT 31 16
  s.wrP p Reg.PWR_REFUSE_CNT (BitVec.ofNat 32 (min (c + 1) 0xFFFF * 65536 + refuser))

/-- The compute die of a domain of R607: the Tillers, Awns, Culms, stacks and shared scratchpads. -/
def domainDie (n : Nat) : Option Nat :=
  if n < 84 then some (n / 21) else if n < 148 then some ((n - 84) / 16) else if n < 160 then some ((n - 148) / 3)
  else if n < 172 then some ((n - 160) / 3) else if n < 176 then some (n - 172) else none

/-! ## What a resident image uses (R297, R606) -/

/-- Whether an item names a unit of a Tiller, Awn or Culm domain, its Guarded shadow included; LDSCALE names a Tiller too (R173, R263). -/
def State.itemNames (s : State) (n : Nat) (i : Item) : Bool :=
  let shadow := fun (d : Nat) => if s.prot = 1 then [i.word.unit, i.word.unit + d] else [i.word.unit]
  let tillers := if i.word.kind = 1 then shadow 40
    else if i.word.kind = 5 ∧ i.word.op = 0x17 then [bits i.word.args.toNat 14 8] else []
  if n < 84 then
    i.die == n / 21 && tillers.any fun l =>
      l / 4 == n % 21 || (match s.physOf i.die l with
        | some p => p / 4 == n % 21
        | none => false)
  else if n < 148 then i.word.kind == 2 && i.die == (n - 84) / 16 && (shadow 8).contains ((n - 84) % 16)
  else if n < 160 then i.word.kind == 3 && i.die == (n - 148) / 3 && i.word.unit == (n - 148) % 3
  else false

/-- R297, R311: a scheduled access of an image reaches a stack, its carry regions included. -/
def State.imageReaches (s : State) (x : Slot) (k : Nat) : Bool :=
  ((List.range x.frameCount).any fun f => (s.frameBookings x f).any fun q =>
      (q.2.uses.slots.any fun u => u.stack == k) || (q.2.uses.spans.any fun u => u.stack == k))
    || (s.carries x).any fun c => c.save / 0x001000000000 == k

/-- R606 condition 1. -/
def State.imageNames (s : State) (n : Nat) : Bool :=
  s.slots.any fun x =>
    if n < 160 then (s.allItems x).any (s.itemNames n)
    else if n < 172 then s.imageReaches x (n - 160)
    else if n < 176 then bit x.dieMask (n - 172)
    else if 207 ≤ n then bit x.dieMask (n - 207)
    else false

/-! ## Fetches under way (R83) -/

/-- The slot and index of the image frame that the present frame's fetch is for. -/
def State.nextImage (s : State) : Option (Slot × Nat) :=
  match s.host.run with
  | none => none
  | some r =>
    let coming := match s.host.switching with
      | some x => if x.inFrame then some x.slot else s.running
      | none => s.running
    if coming ≠ some r.slot then none
    else match s.slot? r.slot with
      | none => none
      | some x =>
        if s.eng.frame.kind = .image ∧ r.issuing then (if 2 ≤ r.left then some (x, (r.next + 1) % x.frameCount) else none)
        else some (x, r.next)

/-- Whether a die has words to fetch for an image frame. -/
def State.hasWords (s : State) (x : Slot) (f d : Nat) : Bool := bit x.dieMask d && (s.frameEntry x f d).2 != 0

/-- The ranges that a die's fetch of an image frame reads: its words and the blocks that they name. -/
def State.fetchRanges (s : State) (x : Slot) (f d : Nat) : List (Nat × Nat) :=
  let e := s.frameEntry x f d
  (x.base + e.1, 16 * e.2) :: (((s.frameItems x f d).flatMap fun i => s.itemBlocks (itemCtx x [] i) i).eraseDups.map fun b => (x.base + b.2.1, b.2.2))

/-- The dies whose fetch is under way, with the image frame that it is for: those for which the present frame waits, and those of the next image frame. -/
def State.fetchesDue (s : State) : List (Slot × Nat × Nat) :=
  let f := s.eng.frame
  let now := match s.slot? f.slot with
    | some x => if f.kind = .image then ((List.range 4).filter fun d => s.hasWords x f.index d && !f.fetched.getD d false).map fun d => (x, f.index, d) else []
    | none => []
  let next := match s.nextImage with
    | some (x, i) => if f.fetchError.isNone then ((List.range 4).filter fun d => s.hasWords x i d && !f.nextFetched.getD d false).map fun d => (x, i, d) else []
    | none => []
  now ++ next

/-! ## What a controller holds (R297, R317) -/

/-- Whether a range reaches a stack, by its window or by the spread alias. -/
def reachesStack (k a n : Nat) : Bool := (stackHeads a n).any fun b => decide (n ≠ 0) && stackAddr b && (locate b).stack == k

/-- The ranges that a transfer has still to reach. -/
def State.transferRanges (s : State) (x : Transfer) : List (Nat × Nat) :=
  match x.issuer with
  | .checkpoint | .restore => (match s.grn.run with
    | some r => r.places
    | none => [])
  | _ => [(x.src + x.moved, x.len - x.moved), (x.dst + x.moved, x.len - x.moved)]

/-- Unscheduled requests that a stack's controller holds: of transfers, of the copies of a row remap, of records that wait for their ring, and of fetches. -/
def State.stackQueued (s : State) (k : Nat) : Nat :=
  (s.traffic.countP fun x => x.err == 0 && decide (x.moved < x.len) && (s.transferRanges x).any fun q => reachesStack k q.1 q.2)
    + (match (s.stackOf k).remap with
      | some m => b2n (!m.todo.isEmpty)
      | none => 0)
    + (s.records.countP fun r => reachesStack k (s.num64 (Pg.culm r.1 0) Reg.CULM_RING_HDR_LO) 64)
    + (s.fetchesDue.countP fun q => (s.fetchRanges q.1 q.2.1 q.2.2).any fun r => reachesStack k r.1 r.2)

/-- Whether a transfer has still to reach a range of device addresses. -/
def State.transfersReach (s : State) (a n : Nat) : Bool :=
  s.traffic.any fun x => x.err == 0 && decide (x.moved < x.len) && (s.transferRanges x).any fun q => rangesMeet a n q.1 q.2

/-- R606 condition 2: work in flight or queued. -/
def State.domainBusy (s : State) (n : Nat) : Bool :=
  if n < 84 then (s.eng.passes.any fun p => p.die == n / 21 && p.phys / 4 == n % 21) || s.transfersReach (spadBase (n / 21) + 4 * (n % 21) * 0x200000) 0x800000
  else if n < 148 then s.eng.chains.any fun c => c.die == (n - 84) / 16 && c.unit == (n - 84) % 16
  else if n < 160 then s.eng.culms.any fun c => c.die == (n - 148) / 3 && c.unit == (n - 148) % 3
  else if n < 172 then decide (s.stackQueued (n - 160) ≠ 0)
  else if n < 176 then s.transfersReach (spadBase (n - 172) + 0x0A800000) 0x01800000
  else if n < 200 then
    let p := n - 176
    !(s.port p).queue.isEmpty || s.fab.inbox.any fun a => a.port == p
  else if n = 202 then s.grn.run.isSome || s.grn.command.isSome
  else false

/-! ## Level-mode wake rules (R606 condition 4, R620) -/

def condWord (c : Nat) : Nat := 0x211000 + 16 * c
def ruleOff (r : Nat) : Nat := 0x213000 + 8 * r

/-- Whether a wake group holds a domain. -/
def State.inGroup (s : State) (g n : Nat) : Bool := bit (s.rd (0x214000 + 32 * g + 4 * (n / 32))).toNat (n % 32)

/-- The ASSERTED bit of a condition. -/
def State.condAsserted (s : State) (c : Nat) : Bool := bit (s.rd (0x212000 + 4 * c)).toNat 31

/-- A rule in level mode: its condition A's MODE is level. -/
def State.levelRule (s : State) (r : Nat) : Bool := !bit (s.rd (condWord (fld (s.rd (ruleOff r)) 5 0))).toNat 30

/-- A level-mode WAKE rule whose group holds the domain has an asserted condition. -/
def State.wakeHolds (s : State) (n : Nat) : Bool :=
  (List.range 64).any fun r =>
    let w := s.rd (ruleOff r)
    let x := s.rd (ruleOff r + 4)
    bit w.toNat 31 && fld x 31 28 == 4 && s.levelRule r && s.condAsserted (fld w 5 0) && s.inGroup (fld x 2 0) n

/-! ## Refusals (R606) -/

/-- The first page in register space order of a domain of a die that is on, its link apart (R370). -/
def State.firstOnPage (s : State) (d : Nat) : Option Page :=
  (((List.range 21).map fun g => (21 * d + g, Pg.tlr d (4 * g))) ++ ((List.range 16).map fun a => (84 + 16 * d + a, Pg.awn d a))
    ++ [(172 + d, Pg.spd d)] ++ ((List.range 3).map fun i => (160 + 3 * d + i, Pg.memc d i)) ++ ((List.range 3).map fun i => (148 + 3 * d + i, Pg.culm d i))).findSome?
      fun q => if s.domainOn q.1 then some q.2 else none

/-- R606 condition 5: the page that the kind's own table names. -/
def State.kindRefuses (s : State) (n : Nat) : Option Page :=
  let own := (domainInfo n).owner
  if n < 148 then none
  else if n < 160 then (if (n - 148) % 3 = 0 ∧ s.fldP (Pg.culm ((n - 148) / 3) 0) Reg.CULM_RING_CTRL 0 0 = 1 then own else none)
  else if n < 172 then (if (s.stackOf (n - 160)).remap.isSome then own else none)
  else if n < 200 then none
  else if n < 202 then
    let p := n - 200
    if s.owner = p ∨ ((List.range 16).any fun q => s.fldP (Pg.pcie p) (ringReg Reg.PCIE_SQq_CFG q) 31 31 == 1 || s.fldP (Pg.pcie p) (ringReg Reg.PCIE_CQq_CFG q) 31 31 == 1)
    then own else none
  else if n = 202 then (if s.rep.waiting.isEmpty then none else own)
  else if n < 207 then ((List.range 6).map fun i => 6 * (n - 203) + i).findSome? fun p => if s.domainOn (176 + p) then some (Pg.fab p) else none
  else s.firstOnPage (n - 207)

/-- R606: the refuser of an entry, none when it may begin. -/
def State.refuser (s : State) (n : Nat) : Option Nat :=
  let own := ((domainInfo n).owner.getD Pg.pwr).ident
  if s.imageNames n ∨ s.domainBusy n then some own
  else if s.domFld n 20 20 = 0 then some Pg.clk.ident
  else if s.wakeHolds n then some Pg.stb.ident
  else (s.kindRefuses n).map Page.ident

/-! ## Save sets (R612, R613) -/

/-- The bits of a register that belong to a save set; TLR_MAP stays with the hub controller (R169). The extra state of a stack's watch table and of the lane and
wavelength maps is saved whole. -/
def savedBits (off : Nat) : Word :=
  match pageOf off with
  | some (p, o) =>
    if o < 0x40 then 0
    else
      let extra := (p.kind == .memc && decide (Reg.MEMC_WATCHw_ADDR ≤ o)) || (p.kind == .d2d && decide (Reg.D2D_UP_FAILw ≤ o)) || (p.kind == .fab && o == Reg.FAB_WL)
      if extra then 0xFFFFFFFF
      else match rowOf p.kind o with
        | some r => if counterLo p.kind o || (decide (4 ≤ o) && counterLo p.kind (o - 4)) then 0xFFFFFFFF else BitVec.ofNat 32 (r.rw ||| r.w1c ||| r.w1s ||| r.rl ||| r.keep)
        | none => 0
  | none => 0

/-- Whether a register belongs to the block-specific part of a page and is lost with its domain. -/
def ownsReg (p : Page) (off : Nat) : Bool :=
  decide (p.base + 0x40 ≤ off) && decide (off < p.base + 0x1000) && !(p.kind == .tlr && off == p.base + Reg.TLR_MAP)

/-- The save set of a domain, as it stands. -/
def State.saveSet (s : State) (n : Nat) : List (Nat × Word) :=
  let pages := domainPages n
  s.regs.filterMap fun q =>
    if pages.any fun p => ownsReg p q.1 then
      let m := savedBits q.1
      some (q.1, (q.2 &&& m) ||| (regReset q.1 &&& ~~~m))
    else none

def State.saveDomain (s : State) (n : Nat) : State :=
  s.setPwr { s.pwr with saves := ⟨n, s.saveSet n⟩ :: s.pwr.saves.filter fun x => x.dom != n }

/-- The registers of a domain's pages at their reset values. -/
def State.clearDomain (s : State) (n : Nat) : State :=
  let pages := domainPages n
  { s with regs := s.regs.filter fun q => !(pages.any fun p => ownsReg p q.1) }

/-- The registers of a domain as its exit restores them; an uncorrectable error leaves them at their reset values (R613). -/
def State.restoreDomain (s : State) (n : Nat) (ecc : Bool) : State :=
  let slot := s.pwr.saves.find? fun x => x.dom == n
  let s := s.clearDomain n
  let s := s.setPwr { s.pwr with saves := s.pwr.saves.filter fun x => x.dom != n }
  if ecc then (s.bump Pg.pwr Reg.PWR_RESTORE_ERR_CNT 1).setInt Pg.pwr 3
  else match slot with
    | some x => x.regs.foldl (fun s q => s.wr q.1 q.2) s
    | none => s

/-! ## What a domain loses in off (R602) -/

/-- A stack's memory, spare rows and spare banks included. -/
def State.loseStack (s : State) (k : Nat) : State :=
  (s.lose (stackBase k) stackBytes true).lose (2 ^ 48 + k * 64 * 17 * 6176 * 8192) (64 * 17 * 6176 * 8192) true

def State.loseDomain (s : State) (n : Nat) : State :=
  if n < 84 then
    let d := n / 21
    let g := n % 21
    let s := s.lose (spadBase d + 4 * g * 0x200000) (4 * 0x200000) true
    { s with eng := { s.eng with
        tdesc := s.eng.tdesc.filter (fun q => !(decide (tdescKey d (4 * g) 0 ≤ q.1) && decide (q.1 < tdescKey d (min 80 (4 * g + 4)) 0))),
        bbufs := s.eng.bbufs.filter (fun b => !(b.die == d && b.logical / 4 == g)) } }
  else if n < 160 then s
  else if n < 172 then s.loseStack (n - 160)
  else if n < 176 then s.lose (spadBase (n - 172) + 0x0A800000) 0x01800000 true
  else s

/-! ## Repair entries of a stack (R310) -/

/-- The repair entries of the map that name a stack, put in force; of two that map one row, the later holds. -/
def State.applyStackRepairs (s : State) (k : Nat) : State :=
  let mine := s.rep.current.filter fun e => decide (1 ≤ entryType e) && decide (entryType e ≤ 3) && leAt e 1 1 == k
  let rows := (mine.filter fun e => entryType e == 1).reverse.map fun e => ((⟨leAt e 2 1, leAt e 3 1, leAt e 4 2⟩ : RowId), leAt e 6 2)
  let banks := (mine.filter fun e => entryType e == 2).map fun e => (leAt e 2 1, leAt e 3 1)
  let conns := (mine.filter fun e => entryType e == 3).map fun e => (leAt e 2 1, leAt e 8 2, leAt e 6 2)
  s.setStack k { s.stackOf k with rows := rows, banks := banks, conns := conns }

/-! ## Generators (R250, R251, R344) -/

/-- The security controller seeds the generators of an Awn or Culm. While the entropy source has failed the seeding waits (R655). -/
def State.seedNow (s : State) (p : Page) : State :=
  if s.fldP Pg.sec Reg.SEC_STAT 29 29 = 1 then { s with sec := { s.sec with seeding := p :: s.sec.seeding.filter fun x => x != p } }
  else
    let (k, s) := s.draw
    let s := s.bump p (if p.kind = .awn then Reg.AWN_SEED_CNT else Reg.CULM_SEED_CNT) 1
    { s with eng := { s.eng with gens := ⟨p, k, s.wall⟩ :: s.eng.gens.filter fun g => g.page != p } }

/-- The generators of an Awn or Culm are checked for their known answers and then seeded: those that fail set FAILED, which stops the engine (R250, R251, R344);
those that pass clear it, and FATAL (R26). -/
def State.seedEngine (s : State) (p : Page) (kat : Bool) : State :=
  let st := if p.kind = .awn then Reg.AWN_STAT else Reg.CULM_STAT
  (if kat then ((s.setP p st 31 31 1).setInt p (if p.kind = .awn then 2 else 1)).raise p .RNG_KAT none (if p.kind = .awn then awnInfo 0 0xF 0 else s.culmInfo 0)
   else (s.setP p st 31 31 0).setP p Reg.ERR_STAT 2 2 0).seedNow p

/-! ## Entry and exit (R605) -/

/-- Stubble cycles of an entry from on, and of an exit. -/
def entryCycles (n : Nat) : Nat := 52 + ceilDiv (saveSlotBytes (domainInfo n).kind) 32
def exitCycles (n : Nat) : Nat := 76 + ceilDiv (saveSlotBytes (domainInfo n).kind) 32

def State.transit? (s : State) (n : Nat) : Option Transit := s.pwr.trans.find? fun x => x.dom == n

def State.dropTransit (s : State) (n : Nat) : State := s.setPwr { s.pwr with trans := s.pwr.trans.filter fun x => x.dom != n }

/-- A transition begins in the present wall cycle: PWR_STATE reads 0b11. -/
def State.beginTransit (s : State) (n target from_ cycles : Nat) : State :=
  let s := s.setDom n 31 30 3
  s.setPwr { s.pwr with trans := ⟨n, target, from_, s.wall, s.wall + cycles * stubbleCycle, false⟩ :: s.pwr.trans.filter fun x => x.dom != n }

/-- An optical port, or the link of a PCI Express port, whose domain leaves on. -/
def State.leaveOn (s : State) (n target : Nat) : State :=
  if 176 ≤ n ∧ n < 200 then
    let p := n - 176
    (s.setPort p { s.port p with line := if target = 1 then .retention else .off }).portSync p
  else if 200 ≤ n ∧ n < 202 then
    let p := Pg.pcie (n - 200)
    let up := s.fldP p Reg.PCIE_LINK_STAT 21 21 == 1
    let s := s.wrP p Reg.PCIE_LINK_STAT 0
    if up then s.setInt p 1 else s
  else s

/-- An entry to retention or off begins; from retention, entry step 4 alone. -/
def State.beginEntry (s : State) (n target : Nat) : State :=
  let from_ := s.domain n
  if from_ = 2 then ((s.saveDomain n).leaveOn n target).beginTransit n target 2 (entryCycles n)
  else s.beginTransit n target from_ 25

/-- An exit begins; a link that leaves off trains (R369). -/
def State.beginExit (s : State) (n from_ : Nat) : State :=
  let s := s.beginTransit n 2 from_ (exitCycles n)
  if 207 ≤ n ∧ from_ = 0 then s.linkTrainStart (n - 207) else s

/-- An entry has ended (R605, R608, R609): the state is reached, and a pending or honoured exit begins at once, unless the reference is
lost, when no transition begins (R598) and the request waits for a boundary. -/
def State.endEntry (s : State) (x : Transit) : State :=
  let n := x.dom
  let s := ((s.dropTransit n).setDom n 31 30 x.target)
  let s := if x.target = 0 then s.loseDomain n else s
  let s := if x.target = 0 ∧ 176 ≤ n ∧ n < 200 then (s.setPort (n - 176) { s.port (n - 176) with line := .off }).portSync (n - 176) else s
  let pend := s.domFld n 27 27 == 1 && s.pwr.coast.isNone
  let s := s.setDom n 27 27 0
  let s := if pend then (s.bump Pg.pwr Reg.PWR_PEND_ON_CNT 1).setInt Pg.pwr 1 else s
  if pend || (x.honoured && s.pwr.coast.isNone) then s.beginExit n x.target else s

/-- An exit has ended: the save set is restored, the block's start work begins, and the clock runs at /16. A PCI Express port's configuration space and MSI-X
state belong to its save set (R612). -/
def State.endExit (s : State) (x : Transit) (ecc kat : Bool) (lanes : List (Nat × Nat)) : State :=
  let n := x.dom
  let s := (s.dropTransit n).restoreDomain n ecc
  let s := s.setDom n 19 16 4
  let s := s.setPwr { s.pwr with holds := (n, 0) :: s.pwr.holds.filter fun q => q.1 != n }
  if 84 ≤ n ∧ n < 160 then
    match (domainInfo n).owner with
    | some p => s.seedEngine p kat
    | none => s
  else if 160 ≤ n ∧ n < 172 then (if x.from_ = 0 then s.applyStackRepairs (n - 160) else s)
  else if 176 ≤ n ∧ n < 200 then
    let p := n - 176
    if x.from_ = 0 then s.portTrain p
    else
      let k := goodWl (s.port p).rxFailed
      (s.setPort p { s.port p with line := if (s.port p).wide ∧ 8 ≤ k then .full else if 4 ≤ k then .half else .down }).portSync p
  else if 200 ≤ n ∧ n < 202 then (if ecc then s.setPci (n - 200) PciPort.fresh else s)
  else if n = 202 then
    let dir := if x.from_ = 0 then s.grn.dir.map (fun g => g.filter Generation.committed) else s.grn.dir
    { s with grn := { s.grn with dir := dir, starting := true } }
  else if 207 ≤ n then (if x.from_ = 0 then (s.linkTrainStart (n - 207)).linkTrainEnd (n - 207) lanes else s)
  else s

/-! ## Requests -/

/-- PWR_REQ of a domain written with a state (R29, R603, R608): 0b11 is ignored. -/
def State.requestPower (s : State) (n v : Nat) : State :=
  if 3 ≤ v % 4 then s
  else
    let s := s.setDom n 29 28 v
    match s.transit? n with
    | some x => if x.target ≠ 2 ∧ v % 4 = 2 then s.setDom n 27 27 1 else s
    | none => s

/-- A wake of a rule on a domain (R609, R621). -/
def State.wakeDomain (s : State) (level : Bool) (n : Nat) : State :=
  match s.transit? n with
  | some x =>
    if x.target = 2 ∨ s.pwr.coast.isSome then s.setDom n 29 28 2
    else if s.wall + 4 * stubbleCycle < x.stop then
      let s := (s.setDom n 29 28 2).setDom n 27 27 0
      ((s.dropTransit n).countRefusal n Pg.stb.ident).beginExit n x.from_
    else if level then
      let s := s.setDom n 29 28 2
      s.setPwr { s.pwr with trans := s.pwr.trans.map fun y => if y.dom = n then { y with honoured := true } else y }
    else (s.bump Pg.pwr Reg.PWR_LOST_WAKE_CNT 1).setInt Pg.pwr 2
  | none => s.setDom n 29 28 2

/-! ## The boundary (R600, R603, R604, R606, R607) -/

/-- The block of a domain has finished its start work. -/
def State.startDone (s : State) (n : Nat) : Bool :=
  if 176 ≤ n ∧ n < 200 then (s.port (n - 176)).line != .training
  else if 207 ≤ n then s.linkWidth (n - 207) != 3
  else true

/-- One frame held at the present divisor: the divider steps toward /1. -/
def State.rampDomain (s : State) (n : Nat) : State :=
  let div := s.domFld n 19 16
  let held := ((s.pwr.holds.find? fun q => q.1 == n).elim 0 fun q => q.2) + 1
  let step := decide (s.fldP Pg.clk Reg.CLK_CFG 3 0 + 1 ≤ held)
  if div = 0 then s
  else
    let s := s.setPwr { s.pwr with holds := (n, if step then 0 else held) :: s.pwr.holds.filter fun q => q.1 != n }
    if step then s.setDom n 19 16 (div - 1) else s

/-- A domain reads on; what has waited for the Granary is written then (R550). -/
def State.turnOn (s : State) (n : Nat) : State :=
  let s := s.setDom n 31 30 2
  if n = 202 then s.flushMaps else s

/-- A domain at a boundary: its divider ramps, it reads on once it may, and it acts on its request. -/
def State.domainBoundary (s : State) (n : Nat) : State :=
  let st := s.domain n
  let req := s.domFld n 29 28
  if (s.transit? n).isSome then s
  else
    let s := s.rampDomain n
    if st = 3 then (if s.domFld n 19 16 = 0 ∧ s.startDone n then s.turnOn n else s)
    else if req = st ∨ req = 3 then s
    else if req = 2 then
      match domainDie n with
      | some d => if s.domainOn (207 + d) then s.beginExit n st else s
      | none => s.beginExit n st
    else if st = 0 then s
    else match s.refuser n with
      | some r => s.countRefusal n r
      | none => s.beginEntry n req

def State.powerBoundary (s : State) : State := (List.range domainCount).foldl State.domainBoundary s

/-! ## SLEEPING (R601) -/

/-- Whether a domain's clock is gated for the whole present frame under CG_SLEEP. -/
def State.sleeping (s : State) (n : Nat) : Bool :=
  let f := s.eng.frame
  decide (n < 160) && s.domainOn n && s.domFld n 21 21 == 1 && f.kind != .none && !f.testing && f.kind != .test
    && !(f.kind == .image && (match s.slot? f.slot with
      | some x => (List.range 4).any fun d => (s.frameItems x f.index d).any (s.itemNames n)
      | none => false))

/-! ## The rows -/

/-- R605: the entry of a domain whose last Stubble cycle has passed. -/
def execPowerEntryComplete (t : Nat) (dom : Fin 211) (s : State) : Host.Outcome State Fault Refusal :=
  let s := s.begin.passTime t
  .next (match s.transit? dom with
    | some x => if x.target ≠ 2 ∧ x.stop ≤ s.wall then s.endEntry x else s
    | none => s)

/-- R605: the exit of a domain whose last Stubble cycle has passed. -/
def execPowerExitComplete (t : Nat) (dom : Fin 211) (ecc kat : Bool) (lanes : List (Bool × Fin 1632)) (s : State) : Host.Outcome State Fault Refusal :=
  let s := s.begin.passTime t
  .next (match s.transit? dom with
    | some x => if x.target = 2 ∧ x.stop ≤ s.wall then s.endExit x ecc kat (lanes.map fun l => (b2n l.1, l.2.val)) else s
    | none => s)

/-- R600: before the first frame tick after reset, an interval that stands in for a frame. -/
def execDividerHoldInterval (t : Nat) (s : State) : Host.Outcome State Fault Refusal :=
  let s := s.begin.passTime t
  .next (if s.eng.frame.kind = .none ∧ s.eng.fleet.ready = 0 ∧ (s.boot.phase = .powered ∨ s.boot.phase = .ready) then (List.range domainCount).foldl State.rampDomain s else s)

end Sys2Proof.Machine
end

