-- ==== Sys2Proof/Machine/Access.lean ====
section
/-!
DEFINITION. Unscheduled accesses (R53, R97, R298, R302, R311, R367, R371, R388): what denies one, and the bytes of stacks, scratchpads and host memory.
-/
namespace Sys2Proof.Machine

/-- What denies an access of n bytes to a stack, a scratchpad or an outbound window. -/
def State.denial (s : State) (me : Page) (info cls a n : Nat) (write : Bool) : Option Denial :=
  match unpopulated a n with
  | some x => some ⟨me, .UNPOPULATED, some x, info⟩
  | none =>
    if write ∧ s.readOnly a n then some ⟨me, .IMAGE_RO, some a, info⟩
    else
      match regionOf a with
      | some (.stack _, _) | some (.spread, _) => (stackHeads a n).findSome? (s.stackDenial me info cls false)
      | some (.spad d, _) => s.linkDenial me info d a
      | some (.outbound h, b, _) =>
        if s.hostUp h ∧ s.num64 (Pg.pcie h) Reg.PCIE_OB_BASE_LO + (a - b) + n ≤ 2 ^ 64 then none else some ⟨Pg.pcie h, .HOST_PORT_DOWN, some a, if me.kind = .pcie then info else 0⟩
      | _ => none

/-! ## Bytes -/

/-- A read of a range that a command makes at once for a block: denied, or served with the errors it meets; the code of what fails it stands in the second
place. -/
def State.takeRead (s : State) (me : Page) (info cls a n : Nat) : State × Option Nat :=
  match s.denial me info cls a n false with
  | some d => (s.captureDenial d, some d.code)
  | none => (s.served a n cls false).meet a n cls false

/-- A range of n bytes cut into pieces of at most m bytes: offset and length of each. -/
def pieces (n m : Nat) : List (Nat × Nat) := (List.range (ceilDiv n m)).map fun k => (m * k, min m (n - m * k))

/-- n bytes read from a stack, a scratchpad, or host memory through an outbound window. -/
def State.fetchBytes (s : State) (a n : Nat) : List Byte × State :=
  match regionOf a with
  | some (.outbound h, b, _) =>
    let (k, s) := s.draw
    let x := s.num64 (Pg.pcie h) Reg.PCIE_OB_BASE_LO + (a - b)
    let out := (pieces n (128 * 2 ^ (s.pci h).cfg.mrrs.val)).map fun q => Out.fetch h (x + q.1) q.2
    ((List.range n).map fun i => Config.hostByte k h (x + i), { s with out := s.out ++ out })
  | _ => (s.bytesAt a n, s)

/-- Bytes written to a stack, a scratchpad, or host memory. -/
def State.placeBytes (s : State) (a : Nat) (l : List Byte) : State :=
  match regionOf a with
  | some (.outbound h, b, _) =>
    let x := s.num64 (Pg.pcie h) Reg.PCIE_OB_BASE_LO + (a - b)
    { s with out := s.out ++ (pieces l.length (128 * 2 ^ (s.pci h).cfg.mps.val)).map fun q => Out.host h (x + q.1) ((l.drop q.1).take q.2) }
  | _ => s.store a l

/-- Whether an address lies in a stack window or the spread alias. -/
def inStacks (a : Nat) : Bool :=
  match regionOf a with
  | some (.stack _, _) | some (.spread, _) => true
  | _ => false

end Sys2Proof.Machine
end

