-- ==== Sys2Proof/Machine/Colls.lean ====
section
/-!
DEFINITION. Collective words and cells (R484 to R507, R511, R513).
-/
namespace Sys2Proof.Machine

/-! ## CSTART and CWAIT -/

/-- The frame of a scheduled member aborts with its instance's cause (R507). -/
def State.shareAbort (x : State × Option Nat) : State :=
  match x.2 with
  | some code => x.1.abortFrame code
  | none => x.1

/-- An instance of a block or descriptor on this module. -/
def State.newInst (s : State) (b : CollBlock) (cseq epoch : Nat) (m : Member) : Inst :=
  let e := b.id % 4096
  let c := s.collEntry e
  s.instOf e (fingerprint b.count b.op b.sfmt epoch (b2n c.ring) cseq c.membersM1 b.srank b.window b.id s.node c.rank) (some m)

/-- Own segments with the number of the last wire cell of each, counting the fingerprint as cell 0. -/
def State.ownCells (s : State) (i : Inst) : List Nat :=
  ((((List.range (s.segCount i)).filter (s.gives i)).map (s.segCells i)).foldl (fun (x : List Nat × Nat) n => (x.1 ++ [x.2 + n], x.2 + n)) ([], 0)).1

/-- A CSTART that issues (R486, R490). -/
def State.cstart (s : State) (w : SWord) : State :=
  let c := s.issueCtx w.die
  let r := rawOf w 6 0x10
  let b := s.collBlockOf c r
  let t := w.stamp.toNat
  if !s.tableServes b then (s.raise Pg.coll .COLL_TABLE none (b.id * 65536)).abortFrame (errCode .COLL_TABLE .coll)
  else if storeCells < s.storeUsed + s.wireCells b + 1 then s.storeFull (streamOf w) s.node
  else
    let cseq := (b.cseq + s.sreg w.die b.sreg) % 2 ^ 32
    let len := s.giveBytes b
    let m : Member := { starter := .word w.die (collBlk w.args), src := b.src, dst := b.dst, dfmt := b.dfmt, mode := b.mode, store := [], ready := 0, taken := 0, entered := false }
    let i := s.newInst b cseq s.runEpoch m
    let s := (s.bookFlits w (s.cstartUses c r t)).beginInst i
    let s := (List.range (ceilDiv len 512)).foldl (fun s j => s.later (t + j) (.collect i.entry cseq (b.src + 512 * j) (min 512 (len - 512 * j)))) s
    let s := s.later (t + 120) (.enter i.entry cseq 0)
    (s.ownCells i).zipIdx.foldl (fun s c => s.later (t + 120 + 4 * c.1 / 5) (.enter i.entry cseq (c.2 + 1))) s

/-- KIND 0x6, OP 0x10. -/
def execCstart (w : SWord) (s : State) : Host.Outcome State Fault Refusal :=
  .next (s.issue w 6 0x10 0 (rchBlame w) State.fabricCheck (fun s => (s.cstart w).settle))

/-- KIND 0x7, OP 0x10 (R487). -/
def execCwait (w : SWord) (s : State) : Host.Outcome State Fault Refusal :=
  .next (s.issueWait w 7 0x10 State.fabricCheck (fun s =>
    if s.cwaitMet w.die (collBlk w.args) then s
    else s.freeze .peerLate w.die none (.cwait w) (some (s.wordAddr w.die w.idx.toNat))))

/-! ## Where a cell comes from -/

/-- The leg by which a collective cell came (R492). -/
def CollEntry.legFrom (e : CollEntry) (a : Arrived) (fromNext : Bool) : Option Leg :=
  if e.ring then
    if fromNext then (if a.cell.src = e.next then some .next else none) else if a.cell.src = e.prev then some .prev else none
  else if !e.root ∧ a.port = e.parent then some .parent
  else if bit e.children a.port ∧ a.port < 24 then some (.child a.port)
  else none

/-- INST, segment, cell and the top bit of SEQ. -/
def cellInst (c : Cell) : Nat := bits c.seq 22 21
def cellSeg (c : Cell) : Nat := bits c.seq 20 6
def cellNum (c : Cell) : Nat := bits c.seq 5 0
def cellTop (c : Cell) : Bool := bit c.seq 23

/-- A collective cell that passes its CRC, with its entry and leg; one of no entry is counted (R474, R514). -/
def State.onColl (s : State) (typ : Nat) (fromNext : Cell → Bool) (f : State → Arrived → Nat → Leg → State) : State :=
  s.onCell typ fun s a =>
    let n := a.cell.ctx % 4096
    let e := s.collEntry n
    if e.valid ∧ e.id = a.cell.ctx then
      (match e.legFrom a (fromNext a.cell) with
       | some l => f s a n l
       | none => s.bump Pg.coll Reg.COLL_BAD_CELL_CNT 1)
    else s.bump Pg.coll Reg.COLL_BAD_CELL_CNT 1

/-- A late cell of the latest ended instance is acknowledged again; whether it was one. -/
def State.lateCell (s : State) (entry inst : Nat) (l : Leg) (count : Bool) : Option State :=
  match s.coll.ended.find? fun i => i.entry == entry with
  | some i =>
    if i.inst = inst ∧ !i.aborted ∧ !i.legs.isEmpty then
      let s := if count then s.bump Pg.coll Reg.COLL_DUP_CELL_CNT 1 else s
      let (s, j) := s.cackDup i l
      some (s.setColl { s.coll with ended := s.coll.ended.map fun x => if x.entry = entry then j else x })
    else none
  | none => none

/-! ## Aborts -/

/-- An instance aborts here for a cause found here, and so does the frame that a scheduled member of it belongs to. -/
def State.collAbort (s : State) (i : Inst) (c : Cause) (suspect : Option Nat) (fp : List Byte) (seg : Option Nat) : State :=
  let code := errCode c .coll
  let hit := s.ofFrame i
  let s := if c = .FP_MISMATCH then s.bump Pg.coll Reg.COLL_FP_MISMATCH_CNT 1 else s
  let s := if i.member.isNone ∧ (c = .TOPOLOGY ∨ c = .ADDER_MISMATCH ∨ c = .EPOCH_STALE) then s.raise Pg.coll c none (i.id * 65536 + suspect.getD 0) else s
  let s := s.abortInst i code s.node suspect fp none seg
  let s := if stopError code then s.stopJob code else s
  if hit then s.abortFrame code else s

/-- R505: a CABT for an active instance. -/
def State.takeAbort (s : State) (a : Arrived) (entry : Nat) (l : Leg) : State :=
  match s.inst? entry with
  | some i =>
    if i.inst ≠ cellInst a.cell then s
    else
      let pl := a.cell.payload
      let code := leAt pl 0 2
      let hit := s.ofFrame i
      let s := s.abortInst i code (leAt pl 2 2) (if bit (leAt pl 6 1) 0 then some (leAt pl 4 2) else none) ((pl.drop 0x10).take 32) (some l) none
      let s := if stopError code then s.stopJob code else s
      State.shareAbort (s, if hit then some code else none)
  | none => s

def execCabt (t : Nat) (s : State) : Host.Outcome State Fault Refusal :=
  .next (State.shareAbort ((s.begin.passTime t).onColl 7 (fun _ => false) State.takeAbort).touchFresh)

/-- R505: CABTs first sent 4,096 cycles ago are sent again. -/
def execCabtResend (t : Nat) (s : State) : Host.Outcome State Fault Refusal :=
  let s := s.begin.passTime t
  let now := s.coll.aborts.filter fun x => x.due ≤ s.wall
  let s := s.setColl { s.coll with aborts := s.coll.aborts.filter fun x => !(x.due ≤ s.wall) }
  .next (now.foldl (fun s x => s.arrive 24 x.cell.cls s.wall x.direct x.cell) s)

/-- R504: no cell taken and no CACK for 2^TIMEOUT_LOG2 cycles. -/
def execCollTimeout (t : Nat) (entry : Fin 4096) (s : State) : Host.Outcome State Fault Refusal :=
  let s := s.begin.passTime t
  .next (match s.inst? entry with
    | some i => if i.active + 2 ^ s.fldP Pg.coll Reg.COLL_CFG 4 0 ≤ s.wall then State.shareAbort (s.collAbort i .TIMEOUT none [] none).touchFresh else s
    | none => s)

/-! ## Fingerprints -/

/-- An instance in which a fingerprint or cell has just been taken. -/
def State.touched (s : State) (i : Inst) : State := State.shareAbort ((s.putInst { i with active := s.wall }).touchEntry i.entry)

/-- A fingerprint of a contributor. -/
def State.takeFp (s : State) (a : Arrived) (entry : Nat) (l : Leg) : State :=
  let fp := a.cell.payload.take 32
  let n := cellInst a.cell
  match s.inst? entry with
  | some i =>
    let x := i.leg l
    if x.fp.isNone then
      let (s, i) := s.cack (i.setLeg { x with fp := some fp }) l
      s.touched i
    else if i.inst = n then
      let (s, i) := s.cackDup i l
      s.putInst i
    else s
  | none =>
    match s.lateCell entry n l false with
    | some s => s
    | none =>
      let i := s.instOf entry fp none
      let s := s.setColl { s.coll with insts := s.coll.insts ++ [i] }
      let (s, i) := s.cack (i.setLeg { i.leg l with fp := some fp }) l
      s.touched i

/-- The AGREED fingerprint from the parent (R494, R495). -/
def State.takeAgreed (s : State) (a : Arrived) (entry : Nat) (l : Leg) : State :=
  let fp := a.cell.payload.take 32
  match s.inst? entry with
  | some i =>
    if i.inst ≠ cellInst a.cell then s
    else if i.agreed then
      let (s, i) := s.cackDup i l
      s.putInst i
    else
      let (s, i) := s.cack (i.setLeg { i.leg l with fp := some fp }) l
      if i.member.isSome ∧ !fpAgree fp (s.ownFp i) then (s.putInst i).collAbort i .FP_MISMATCH (some (leAt fp 0x14 2)) fp none
      else
        let i := { i with agreed := true, ref := some (i.ref.getD fp) }
        let (s, i) := i.legs.foldl (fun (x : State × Inst) y => match y.leg with
          | .child _ => x.1.sendFp x.2 y.leg
          | _ => x) (s, i)
        s.touched i
  | none => (s.lateCell entry (cellInst a.cell) l false).getD s

/-- R493 to R496: a fingerprint cell. -/
def execCfpr (t : Nat) (s : State) : Host.Outcome State Fault Refusal :=
  .next ((s.begin.passTime t).onColl 3 (fun _ => false) fun s a n l =>
    if l = .parent then (if bit (leAt a.cell.payload 0x20 1) 0 then s.takeAgreed a n l else s) else s.takeFp a n l)

/-- R496: the instance of an entry is accepted once W slots are free. -/
def execFingerprintAccept (t : Nat) (entry : Fin 4096) (errs : List AccessErr) (s : State) : Host.Outcome State Fault Refusal :=
  let s := (s.begin.facing errs).passTime t
  .next (match s.inst? entry with
    | some i =>
      if i.accepted ∨ i.ref.isNone then s
      else if s.slotsUsed + i.w ≤ 8192 then State.shareAbort ((s.putInst { i with accepted := true }).touchEntry entry)
      else if i.waited then s
      else (s.putInst { i with waited := true }).bump Pg.coll Reg.COLL_SLOT_WAIT_CNT 1
    | none => s)

/-! ## Segments -/

/-- A cell already taken: counted and acknowledged again. -/
def State.dupCell (s : State) (i : Inst) (l : Leg) : State :=
  let (s, i) := (s.bump Pg.coll Reg.COLL_DUP_CELL_CNT 1).cackDup i l
  s.putInst i

/-- R496: the instance that takes a cell, or what becomes of the cell without one. -/
def State.accepting (s : State) (a : Arrived) (entry : Nat) (l : Leg) (f : State → Inst → State) : State :=
  let early := fun (s : State) => s.bump Pg.coll Reg.COLL_EARLY_CNT 1
  match s.inst? entry with
  | some i => if i.accepted ∧ i.inst = cellInst a.cell then f s i else early s
  | none => (s.lateCell entry (cellInst a.cell) l true).getD (early s)

/-- R511: the epoch of a cell that a member would deliver, or that a pure adder takes. -/
def State.epochGate (s : State) (c : Cell) (i : Inst) (delivers : Bool) (f : State → State) : State :=
  if (s.collEntry i.entry).isMember then
    if !delivers then f s
    else
      let d := s.epochDist c.epoch
      if behind d then s.staleCell i.id (s.segDst i (cellSeg c)) else if ahead d then s.bump Pg.coll Reg.COLL_EARLY_CNT 1 else f s
  else if c.epoch = i.epoch then f s
  else (s.bump Pg.coll Reg.COLL_STALE_EPOCH_CNT 1).collAbort i .EPOCH_STALE (some (leAt (i.ref.getD []) 0x14 2)) (i.ref.getD []) none

/-- A cell taken into a segment: the pieces that it joins, and whether its leg's part is then complete. -/
def State.takePiece (s : State) (i : Inst) (l : Leg) (c : Cell) (down : Bool) : Inst × Bool :=
  let g := i.seg (cellSeg c)
  let p : Piece := ⟨l, cellNum c, c.payload, cellTop c⟩
  let g := if down then { g with down := g.down ++ [p] } else { g with up := g.up ++ [p] }
  let have_ := (if down then g.down else g.up).countP fun q => q.leg == l
  (i.setSeg g, have_ == s.segCells i g.num)

/-- Pieces in the order of their cells. -/
def inOrder (l : List Piece) : List Piece := (List.range 64).filterMap fun k => l.find? fun p => p.cell == k

/-- A cell of an accepted instance (R497, R500): discarded as a duplicate, dropped beyond the window, or taken. -/
def State.takeCell (s : State) (i : Inst) (l : Leg) (c : Cell) (down dis : Bool) : State :=
  let n := cellSeg c
  let g := i.seg n
  if n < i.release ∨ ((if down then g.down else g.up).any fun p => p.leg == l && p.cell == cellNum c) then s.dupCell i l
  else if i.release + i.w ≤ n then s.bump Pg.coll Reg.COLL_EARLY_CNT 1
  else
    let (j, full) := s.takePiece i l c down
    let (s, j) := if full then s.legDone j l n else (s, j)
    let g := j.seg n
    let j := if down ∧ full ∧ !(s.collEntry i.entry).ring then j.setSeg { g with res := some (inOrder g.down) }
      else if down ∧ full then j.setSeg { g with down := inOrder g.down } else j
    if dis ∧ s.prot = 1 ∧ !down ∧ s.complete j (j.seg n) then (s.putInst j).collAbort j .ADDER_MISMATCH (some s.node) (s.ownFp j) (some n)
    else s.touched j

/-- R497: dis says that the two datapaths of a Guarded adder disagree on the segment that this cell completes. -/
def execCup (t : Nat) (dis : Bool) (errs : List AccessErr) (s : State) : Host.Outcome State Fault Refusal :=
  .next (State.wake (((s.begin.facing errs).passTime t).onColl 4 (fun _ => false) fun s a n l =>
    s.accepting a n l fun s i =>
      let ring := (s.collEntry n).ring
      s.epochGate a.cell i ring fun s =>
        if cellSeg a.cell < s.segCount i ∧ cellNum a.cell < s.segCells i (cellSeg a.cell) ∧ (ring ∨ (s.expected i (cellSeg a.cell)).contains l) then
          s.takeCell i l a.cell ring dis
        else s.collAbort i .TOPOLOGY (some (leAt ((i.leg l).fp.getD []) 0x14 2)) ((i.leg l).fp.getD []) (some (cellSeg a.cell))))

/-- R500: a downward cell. -/
def execCdn (t : Nat) (errs : List AccessErr) (s : State) : Host.Outcome State Fault Refusal :=
  .next (State.wake (((s.begin.facing errs).passTime t).onColl 5 (fun _ => false) fun s a n l =>
    if l ≠ .parent then s.bump Pg.coll Reg.COLL_BAD_CELL_CNT 1
    else s.accepting a n l fun s i =>
      s.epochGate a.cell i true fun s =>
        if cellSeg a.cell < s.segCount i ∧ cellNum a.cell < s.segCells i (cellSeg a.cell) then s.takeCell i l a.cell true false
        else s.bump Pg.coll Reg.COLL_BAD_CELL_CNT 1))

/-- R501: the last byte of a segment is visible in DST. -/
def State.segWritten (s : State) (entry n : Nat) : State :=
  match s.inst? entry with
  | none => s
  | some i =>
    match i.member with
    | none => s
    | some m =>
      let g := i.seg n
      if g.dlv ≠ .pending then s
      else
        let (a, l) := s.delivery i m g
        match s.writeTo Pg.coll (i.id * 65536) a l.length 1 with
        | (s, some code) => State.shareAbort ((s.putInst { i with failed := some (code, n) }).touchEntry entry)
        | (s, none) =>
        let s := s.store a l
        let flags := (g.res.getD []).countP fun p => p.flag
        let s := s.bump Pg.coll Reg.COLL_FLAG_CNT flags
        let i := { i.setSeg { g with dlv := .written } with written := i.written + 1, flag := i.flag || flags != 0 }
        let s := if s.whole i then s.finishColl i m 0 else s
        State.shareAbort ((s.putInst i).touchEntry entry)

def execSegmentWritten (t : Nat) (entry : Fin 4096) (seg : Fin 32768) (errs : List AccessErr) (s : State) : Host.Outcome State Fault Refusal :=
  .next (((s.begin.facing errs).passTime t).segWritten entry seg).wake

/-! ## Acknowledgements and re-sending -/

/-- R502, R503: a CACK of an active instance. -/
def State.takeCack (s : State) (a : Arrived) (entry : Nat) (l : Leg) : State :=
  match s.inst? entry with
  | none => s
  | some i =>
    let x := i.leg l
    if i.inst ≠ cellInst a.cell ∨ !x.sends then s
    else
      let low := cellSeg a.cell
      let bm := leNat (a.cell.payload.take 60)
      let fpAck := bit (leAt a.cell.payload 62 1) 0
      let hit := fun (q : SentSeg) => if q.num < 0 then fpAck else ackCovers low bm q.num.toNat && decide (q.num.toNat ≤ low + 480)
      let out := x.sent.filter hit
      let t := match out.find? fun q => !q.resent with
        | some q => x.timer.sample (a.at_ - q.at_)
        | none => x.timer
      let t := if (x.sent.head?).any hit then { t with rto := none, retries := 0 } else t
      let x := { x with sent := x.sent.filter fun q => !hit q, acked := out.map (fun q => q.num) ++ x.acked, rel := bits (leAt a.cell.payload 60 2) 14 0, timer := t }
      s.touched (i.setLeg x)

def execCack (t : Nat) (errs : List AccessErr) (s : State) : Host.Outcome State Fault Refusal :=
  .next (((s.begin.facing errs).passTime t).onColl 6 (fun c => !cellTop c) fun s a n l =>
    let ours := match l with
      | .parent | .next => !cellTop a.cell
      | .child _ => cellTop a.cell
      | _ => false
    if ours then s.takeCack a n l else s).wake

/-- A leg as a command names it. -/
def legOf : LegName → Leg
  | .parent => .parent
  | .child p => .child p
  | .next => .next
  | .prev => .prev

/-- R502: 256 cycles after the first completion since the last CACK. -/
def execCackTimer (t : Nat) (entry : Fin 4096) (leg : LegName) (s : State) : Host.Outcome State Fault Refusal :=
  let s := s.begin.passTime t
  .next (match s.inst? entry with
    | some i => (match (i.leg (legOf leg)).since with
      | some u => if u + 256 ≤ s.wall then (let r := s.cack i (legOf leg); r.1.putInst r.2) else s
      | none => s)
    | none => s)

/-- The cells of a unit sent on a leg, again. -/
def State.resendUnit (s : State) (i : Inst) (l : Leg) (q : SentSeg) : State × Nat :=
  if q.num < 0 then (s.fpCell i l, 1)
  else
    let g := i.seg q.num.toNat
    let cells := match l with
      | .child _ => g.res.getD []
      | .next => g.up.filter fun p => p.leg == .own
      | _ => g.sum.getD []
    (s.segOut i l q.num.toNat cells, cells.length)

/-- R503: a leg's oldest unacknowledged unit comes due. -/
def State.legDue (s : State) (i : Inst) (l : Leg) : State :=
  let x := i.leg l
  match x.sent with
  | [] => s
  | q :: _ =>
    if s.wall < q.at_ + s.rtoOf x.timer then s
    else if s.retryMax ≤ x.timer.retries then
      let e := s.collEntry i.entry
      let far := match l with
        | .parent => s.fldP (Pg.fab e.parent) Reg.FAB_NBR 31 16
        | .child p => s.fldP (Pg.fab p) Reg.FAB_NBR 31 16
        | .next => e.next
        | _ => e.prev
      s.collAbort i .LEG_FAIL (some far) [] none
    else
      let go := (x.sent.filter fun u => decide (u.num < ((x.rel + i.w : Nat) : Int))).take s.retryBurst
      let r := go.foldl (fun (y : State × Nat) u => let z := y.1.resendUnit i l u; (z.1, y.2 + z.2)) (s, 0)
      let s := r.1.bump Pg.coll Reg.COLL_RESEND_CNT r.2
      let sent := x.sent.map fun u => if go.any (fun v => v.num == u.num) then { u with at_ := s.wall, resent := true } else u
      s.putInst (i.setLeg { x with sent := sent, timer := s.dueAgain x.timer })

def execLegResendTimeout (t : Nat) (entry : Fin 4096) (leg : LegName) (s : State) : Host.Outcome State Fault Refusal :=
  let s := s.begin.passTime t
  .next (match s.inst? entry with
    | some i => State.shareAbort (s.legDue i (legOf leg)).touchFresh
    | none => s)

end Sys2Proof.Machine
end

