-- ==== Sys2Proof/Machine/Starts.lean ====
section
/-!
DEFINITION. How descriptors come to start (R400, R413, R509, R510), and the starts of NOP, FRAME_RUN, SLOT, DMA, COLLECTIVE and BARRIER (R406 to R408,
R482, R483, R519, R520, R532, R682).
-/
namespace Sys2Proof.Machine

/-! ## Coming to the front -/

/-- Nothing holds descriptors back as a whole: the module is ready, the pins are the device's own and the loss of the reference is cleared (R599). -/
def State.descriptorsRun (s : State) : Bool :=
  s.boot.phase == .ready && !s.boot.pinsTaken && s.fldP Pg.clk Reg.CLK_STAT 31 31 == 0

/-- The descriptor of a kind that stands first in a ring of the owner port, when its ring may start it. -/
def State.front (s : State) (port ring kind : Nat) : Option Desc :=
  match (s.ring port ring).fetched with
  | d :: _ => if d.kind = kind ∧ s.owner = port ∧ s.ringFree port ring ∧ s.descriptorsRun ∧ s.host.fenceWaiting ≠ some d then some d else none
  | [] => none

/-- R409: whether a descriptor's own wait is met. -/
def State.waitMet (s : State) (d : Desc) : Bool := !d.waits || s.eventMet (d.field 4 2) (d.field 8 4)

/-- A descriptor starts: it leaves its ring and its tag enters the replay window. -/
def State.startNow (s : State) (d : Desc) : State := (s.popDesc d).enterWindow d

/-- A descriptor that a rule refuses before it starts. -/
def State.turnAway (s : State) (d : Desc) (code : Nat) : State := (s.popDesc d).refuseDesc d code

/-- A descriptor that starts and completes at once. -/
def State.atOnce (s : State) (d : Desc) (code info : Nat) : State := (s.startNow d).finish d code info

/-- A descriptor at the front of its ring: a duplicate completes as the copy that ran; one that fails its checks completes with DESC_INVALID; one whose wait is
unmet stays; and go has the rest. -/
def State.consider (s : State) (port ring kind : Nat) (bad : Desc → Bool) (go : State → Desc → State) : State :=
  match s.front port ring kind with
  | none => s
  | some d =>
    let s := match s.seen d with
      | some r => s.takeDup d r
      | none => if d.headerBad || bad d then (s.popDesc d).badDesc d else if s.waitMet d then go s d else s
    s.sweepRing port ring 32

/-! ## Epochs and fences (R509, R510) -/

/-- R510: no instance of the present epoch that a member here started is active, and no send stream holds an unreleased cell of it. -/
def State.drained (s : State) : Bool :=
  let e := s.fldP Pg.coll Reg.COLL_EPOCH 7 0
  !((s.coll.insts ++ s.coll.waiting).any fun i => i.member.isSome && i.epoch == e) && !(s.fab.sends.any fun x => x.cells.any fun c => c.epoch == e)

/-- The module moves to a fence's epoch. -/
def State.moveEpoch (s : State) (d : Desc) : State :=
  (s.wrP Pg.coll Reg.COLL_EPOCH (BitVec.ofNat 32 (d.epoch * 256 + d.epoch))).setInt Pg.coll 3

/-- A descriptor whose EPOCH matters: refused when behind, a fence when ahead. -/
def State.epochThen (s : State) (d : Desc) (go : State → Desc → State) : State :=
  let x := s.epochDist d.epoch
  if behind x then s.turnAway d (errCode .EPOCH_STALE .coll)
  else if ahead x then
    if s.host.fenceWaiting.isSome then s
    else if s.drained then go (s.moveEpoch d) d
    else
      let s := (s.setP Pg.coll Reg.COLL_EPOCH 16 16 1).setP Pg.coll Reg.COLL_EPOCH 15 8 d.epoch
      s.setHost { s.host with fenceWaiting := some d }
  else go s d

/-! ## NOP and BARRIER -/

/-- R408. -/
def execNop (t : Nat) (port : Fin 2) (ring : Fin 16) (s : State) : Host.Outcome State Fault Refusal :=
  .next ((s.begin.passTime t).consider port ring 0 (fun d => !d.restZero []) fun s d => s.atOnce d 0 0)

/-- Descriptors fetched and not completed: those that wait, and those that have started. -/
def State.openDescs (s : State) : List Desc :=
  s.host.rings.flatMap (fun r => r.fetched) ++ s.host.dups ++ s.host.jobs.map (fun j => j.desc) ++ (s.host.run.map fun r => r.desc).toList
    ++ (s.host.switching.map fun x => x.desc).toList

/-- R408: every descriptor of the scope that was fetched before has completed. -/
def State.barrierClear (s : State) (d : Desc) : Bool :=
  !(s.openDescs.any fun x => decide (x.seq < d.seq) && x.port == d.port && (d.field 0x18 1 == 1 || x.ring == d.ring))

def execBarrier (t : Nat) (port : Fin 2) (ring : Fin 16) (s : State) : Host.Outcome State Fault Refusal :=
  .next ((s.begin.passTime t).consider port ring 7 (fun d => decide (1 < d.field 0x18 1) || !d.restZero [(0x18, 1)]) fun s d =>
    if s.barrierClear d then s.atOnce d 0 0 else s)

/-! ## FRAME_RUN -/

def Desc.runSlot (d : Desc) : Nat := d.field 0x18 1

/-- R404 on a FRAME_RUN. -/
def Desc.runBad (d : Desc) : Bool := d.headerBad || d.field 0x20 4 == 0 || !d.restZero [(0x18, 1), (0x1C, 4), (0x20, 4), (0x24, 4)]

/-- Steps 3 to 7 of R682, and the start. -/
def State.startRun (s : State) (d : Desc) : State :=
  if s.fldP Pg.trade Reg.TRADE_STAT 0 0 = 1 then s.turnAway d (errCode .JOB_STOPPED .trade)
  else
    match s.slot? d.runSlot with
    | none => s.turnAway d (errCode .SLOT_NOT_RUNNING .hub)
    | some x =>
      let mb := d.field 0x24 4
      if x.frameCount ≤ d.field 0x1C 4 then s.turnAway d (errCode .SLOT_NOT_RUNNING .hub)
      else if x.refuses ≠ 0 then s.turnAway d x.refuses
      else if d.epoch ≠ x.epoch then s.turnAway d (errCode .EPOCH_MISMATCH .coll)
      else if x.seqBound < mb then
        let s := s.raise Pg.idle .MB_OVER_BOUND (some x.base) (x.num * 2 ^ 24)
        let s := s.bump Pg.idle Reg.IDLE_MB_REFUSE_CNT 1
        let s := (s.wrP Pg.idle Reg.IDLE_LAST_MB (BitVec.ofNat 32 mb)).wrP Pg.idle Reg.IDLE_LAST_BOUND (BitVec.ofNat 32 x.seqBound)
        (s.setInt Pg.idle 1).turnAway d (errCode .MB_OVER_BOUND .idle)
      else
        let s := s.startNow d
        let s := s.setHost { s.host with run := some ⟨d, d.runSlot, d.field 0x1C 4, d.field 0x20 4, 0, false, 0⟩ }
        -- Nothing is fetched for this run yet (R83).
        let s := s.setFrame { s.eng.frame with nextFetched := List.replicate 4 false, fetchError := none }
        s.setP Pg.hub Reg.HUB_FRAME_STAT 5 5 1

/-- R406, R682: the checks begin once no other frame run is active. -/
def execFrameRun (t : Nat) (port : Fin 2) (ring : Fin 16) (s : State) : Host.Outcome State Fault Refusal :=
  .next ((s.begin.passTime t).consider port ring 1 (fun _ => false) fun s d =>
    if s.host.run.isSome then s
    else if d.runBad then (s.popDesc d).badDesc d
    else s.epochThen d State.startRun)

/-! ## SLOT -/

def Desc.slotNum (d : Desc) : Nat := d.field 0x19 1

/-- R404 on a SLOT descriptor. -/
def Desc.slotBad (d : Desc) : Bool := !d.restZero [(0x18, 2), (0x20, 8)]

/-- A SLOT descriptor of an operation at the front of its ring. -/
def State.considerSlot (s : State) (port ring op : Nat) (go : State → Desc → State) : State :=
  match s.front port ring 2 with
  | some d => if d.field 0x18 1 = op then s.consider port ring 2 Desc.slotBad go else s
  | none => s

/-- The reads of an image by the LOAD that admits it, in class 0 as those of its word streams are (DESIGN CHOICE, log entry 92): its first burst, and what its
header says follows; the code of an access that fails stands in the second place. -/
def State.readSlotImage (s : State) (d : Desc) (base : Nat) : State × Option Nat :=
  let read := fun (s : State) a n => s.readFrom (Pg.pcie d.port) (ringInfo d.ring d.index) a n 0
  match read s base 2048 with
  | (s, some code) => (s, some code)
  | (s, none) =>
    let x := s.header 0 base
    if s.headerBad base x then (s, none) else read s (base + 2048) (x.len - 2048)

/-- R519: LOAD. -/
def execLoad (t : Nat) (port : Fin 2) (ring : Fin 16) (errs : List AccessErr) (s : State) : Host.Outcome State Fault Refusal :=
  .next (((s.begin.facing errs).passTime t).considerSlot port ring 0 fun s d =>
    let n := d.slotNum
    if (s.slot? n).isSome then s.atOnce d (errCode .SLOT_BUSY .hub) 0
    else match s.readSlotImage d (d.field 0x20 8) with
      | (s, some code) => s.atOnce d code 0
      | (s, none) =>
        let x := s.header n (d.field 0x20 8)
        match s.admission x with
        | some f => let (s, code) := s.admitError f; s.atOnce d code 0
        | none => { s with slots := s.slots ++ [x] }.atOnce d 0 0)

/-- R520: SWITCH; it waits while another switch is pending or a FRAME_RUN issues. -/
def execSwitch (t : Nat) (port : Fin 2) (ring : Fin 16) (s : State) : Host.Outcome State Fault Refusal :=
  .next ((s.begin.passTime t).considerSlot port ring 1 fun s d =>
    if s.host.switching.isSome ∨ s.host.run.any (fun r => r.issuing) then s
    else if (s.slot? d.slotNum).isNone then s.atOnce d (errCode .SLOT_EMPTY .hub) 0
    else if s.running = some d.slotNum then s.atOnce d 0 0
    else
      let s := s.startNow d
      s.setHost { s.host with switching := some ⟨d, d.slotNum, none, false, 0⟩ })

/-- R407: whether something holds a slot against an UNLOAD. -/
def State.slotHeld (s : State) (n : Nat) : Bool :=
  s.running == some n || s.host.run.any (fun r => r.slot == n) || s.host.switching.any fun x => x.slot == n

/-- R519: UNLOAD. -/
def execUnload (t : Nat) (port : Fin 2) (ring : Fin 16) (s : State) : Host.Outcome State Fault Refusal :=
  .next ((s.begin.passTime t).considerSlot port ring 2 fun s d =>
    let n := d.slotNum
    if (s.slot? n).isNone then s.atOnce d (errCode .SLOT_EMPTY .hub) 0
    else if s.slotHeld n then s.atOnce d (errCode .SLOT_BUSY .hub) 0
    else { s with slots := s.slots.filter fun x => x.num != n }.atOnce d 0 0)

/-! ## DMA -/

/-- R404, R405, R408 on a DMA. -/
def Desc.dmaBad (d : Desc) : Bool :=
  let src := d.field 0x18 8
  let dst := d.field 0x20 8
  let len := d.field 0x28 8
  len == 0 || decide (2 ^ 40 < len) || (src != dst && rangesMeet src len dst len) || !d.restZero [(0x18, 24)]

/-- The first unpopulated byte of a source or a destination. -/
def pairUnpopulated (src n dst m : Nat) : Option Nat :=
  match (if n = 0 then none else unpopulated src n) with
  | some a => some a
  | none => unpopulated dst m

/-- A job joins the started descriptors. -/
def State.addJob (s : State) (d : Desc) (w : Work) : State := s.setHost { s.host with jobs := s.host.jobs ++ [⟨d, w⟩] }

def execDma (t : Nat) (port : Fin 2) (ring : Fin 16) (s : State) : Host.Outcome State Fault Refusal :=
  .next ((s.begin.passTime t).consider port ring 3 Desc.dmaBad fun s d =>
    let src := d.field 0x18 8
    let dst := d.field 0x20 8
    let len := d.field 0x28 8
    match pairUnpopulated src len dst len with
    | some a => (s.raise (Pg.pcie d.port) .UNPOPULATED (some a) (ringInfo d.ring d.index)).atOnce d (errCode .UNPOPULATED .pcie) 0
    | none =>
      let s := s.startNow d
      let n := s.freshTransfer
      let x : Transfer := { id := n, issuer := .descriptor d.port d.ring d.index, cls := 2, src := src, dst := dst, len := len, moved := 0, held := [], since := s.wall, err := 0,
                            errAddr := none, signal := none }
      { s with traffic := s.traffic ++ [x] }.addJob d (.dma n))

/-! ## COLLECTIVE -/

def Desc.collective (d : Desc) : CollBlock := collPayload (d.bytes.drop 0x18)

/-- R404 on a COLLECTIVE. -/
def State.collBad (s : State) (d : Desc) : Bool := d.collective.bad (s.membersOf d.collective.id) || !d.restZero [(0x18, 34)]

/-- The start of a collective by descriptor (R483). -/
def State.startColl (s : State) (d : Desc) : State :=
  let b := d.collective
  if !s.tableServes b then (s.raise Pg.coll .COLL_TABLE none (b.id * 65536)).atOnce d (errCode .COLL_TABLE .coll) 0
  else
    let m := s.membersOf b.id
    match pairUnpopulated b.src (s.giveBytes b) b.dst (destBytes b.op b.sfmt b.dfmt b.count m) with
    | some a => (s.raise (Pg.pcie d.port) .UNPOPULATED (some a) (ringInfo d.ring d.index)).atOnce d (errCode .UNPOPULATED .pcie) 0
    | none =>
      let s := (s.startNow d).addJob d (.collective (b.id % 4096))
      let own : Member := { starter := .descriptor d, src := b.src, dst := b.dst, dfmt := b.dfmt, mode := b.mode, store := [], ready := 32767, taken := 0,
                            entered := true }
      State.shareAbort (s.beginInst (s.newInst b b.cseq d.epoch own)).touchFresh

def execCollective (t : Nat) (port : Fin 2) (ring : Fin 16) (errs : List AccessErr) (s : State) : Host.Outcome State Fault Refusal :=
  let s := (s.begin.facing errs).passTime t
  .next (s.consider port ring 4 s.collBad fun s d => s.epochThen d State.startColl).wake

end Sys2Proof.Machine
end

