-- ==== Sys2Proof/Machine/Granary.lean ====
section
/-!
DEFINITION. The Granary (R540 to R568): generations and their manifests, the write budget, flash dies, register commands, and the starts of CHECKPOINT and
RESTORE; with the rejections of the firewall that can isolate a flash die (R374, R376).
-/
namespace Sys2Proof.Machine

def State.setGrn (s : State) (g : Granary) : State := { s with grn := g }

/-- The checkpoint partition (R541). -/
def partitionBytes : Nat := 6597069766656

/-- The write budget (R560). -/
def budgetBytes : Nat := 24000000000000000

def chunkBytes : Nat := 8388608

/-- ERR_INFO of the GRN page: a die, or 0xFF, and a chunk. -/
def grnInfo (die chunk : Nat) : Nat := die * 2 ^ 24 + chunk % 2 ^ 24

/-! ## Generations and manifests (R544 to R546) -/

def Generation.bytes (g : Generation) : Nat := (g.regions.map fun r => r.2).sum

/-- Bytes of a manifest. -/
def manifestLen (nreg bytes : Nat) : Nat := 128 + 16 * nreg + 48 * ceilDiv bytes chunkBytes + 48

/-- Room that a generation takes. -/
def Generation.room (g : Generation) : Nat := g.bytes + manifestLen g.regions.length g.bytes

/-- The manifest before its trailer. -/
def Generation.manifestBody (g : Generation) : List Byte :=
  let n := ceilDiv g.bytes chunkBytes
  leBytes 4 0x4D4E5247 ++ leBytes 2 1 ++ leBytes 2 0 ++ leBytes 8 g.num ++ leBytes 8 g.label ++ leBytes 8 g.frame ++ leBytes 8 g.bytes
    ++ leBytes 4 g.regions.length ++ leBytes 4 n ++ leBytes 1 23 ++ leBytes 1 g.epoch ++ List.replicate 78 0
    ++ (g.regions.flatMap fun r => leBytes 8 r.1 ++ leBytes 8 r.2)
    ++ ((List.range n).flatMap fun c => leBytes 48 (Config.sha384 ((g.data.drop (c * chunkBytes)).take chunkBytes)).toNat)

/-- The hash of a manifest, as its 48 bytes. -/
def Generation.hash (g : Generation) : List Byte := leBytes 48 (Config.sha384 g.manifestBody).toNat

def Generation.manifest (g : Generation) : List Byte := g.manifestBody ++ g.hash

/-- Free bytes of the checkpoint partition. -/
def Granary.free (g : Granary) : Nat := partitionBytes - (g.dir.filterMap fun e => e.map Generation.room).sum

/-- The directory without a generation. -/
def Granary.drop (g : Granary) (n : Nat) : Granary :=
  { g with dir := g.dir.map fun e => match e with
      | some x => if x.num = n then none else some x
      | none => none }

/-- The committed generation of a number. -/
def Granary.find (g : Granary) (n : Nat) : Option Generation := (g.dir.filterMap id).find? fun x => x.num == n && x.committed

/-- The highest committed generation. -/
def Granary.latest (g : Granary) : Option Generation :=
  ((g.dir.filterMap id).filter fun x => x.committed).foldl (fun b x => match b with
    | some y => if y.num < x.num then some x else some y
    | none => some x) none

/-- The lowest unpinned committed generation. -/
def Granary.oldest (g : Granary) : Option Generation :=
  ((g.dir.filterMap id).filter fun x => x.committed && !x.pinned).foldl (fun b x => match b with
    | some y => if x.num < y.num then some x else some y
    | none => some x) none

def Granary.hasRoom (g : Granary) (need : Nat) : Bool := decide (need ≤ g.free) && g.dir.any fun e => e.isNone

/-- R545: unpinned committed generations reclaimed in ascending order until the room exists. -/
def Granary.reclaim (need : Nat) : Nat → Granary → Granary
  | 0, g => g
  | k + 1, g => if g.hasRoom need then g else match g.oldest with
    | some x => Granary.reclaim need k (g.drop x.num)
    | none => g

/-- The directory with a generation in its first free entry. -/
def Granary.enter (g : Granary) (x : Generation) : Granary :=
  match g.dir.findIdx? fun e => e.isNone with
  | some i => { g with dir := g.dir.set i (some x) }
  | none => g

/-- A generation of the directory changed. -/
def Granary.update (g : Granary) (n : Nat) (f : Generation → Generation) : Granary :=
  { g with dir := g.dir.map fun e => e.map fun x => if x.num = n then f x else x }

/-! ## The write budget (R560) -/

/-- GRN_BUDGET_LEFT. -/
def Granary.left (g : Granary) : Nat := (budgetBytes - g.written) * 1000 / budgetBytes

/-- Bytes charged to the write budget. -/
def State.charge (s : State) (n : Nat) : State :=
  let g := s.grn
  let h := { g with written := g.written + n }
  let spent := decide (budgetBytes ≤ h.written) && !g.spent
  let s := s.setGrn { h with spent := g.spent || spent }
  let s := if h.left < 100 ∧ 100 ≤ g.left then s.setInt Pg.grn 2 else s
  if spent then s.raise Pg.grn .GRN_BUDGET_SPENT none (grnInfo 0xFF 0) else s

/-! ## Flash dies (R543, R557) -/

def Granary.failures (g : Granary) : Nat := g.dies.countP fun d => d.failed

/-- A flash die fails. -/
def State.flashFail (s : State) (n : Nat) : State :=
  match s.grn.dies[n]? with
  | none => s
  | some d =>
    if d.failed then s
    else
      let s := s.setGrn { s.grn with dies := s.grn.dies.set n { d with failed := true } }
      let s := (s.raise Pg.grn .GRN_DIE_FAIL none (grnInfo n 0)).setInt Pg.grn 1
      if 3 ≤ s.grn.failures then s.setP Pg.grn Reg.ERR_STAT 2 2 1 else s

/-- R557: a block of a die is bad; a spare takes its place, or the die fails. -/
def State.blockBad (s : State) (n : Nat) : State :=
  match s.grn.dies[n]? with
  | none => s
  | some d =>
    if d.failed ∨ !s.domainOn 202 then s
    else if d.spare = 0 then (s.setGrn { s.grn with dies := s.grn.dies.set n { d with bad := d.bad + 1 } }).flashFail n
    else s.setGrn { s.grn with dies := s.grn.dies.set n { d with bad := d.bad + 1, spare := d.spare - 1 } }

def execBlockBad (t : Nat) (die : Fin 8) (s : State) : Host.Outcome State Fault Refusal := .next ((s.begin.passTime t).blockBad die)

/-- R556: data moves between blocks; the counts of the die are as the move found them. It waits for the scrub that follows the return of power (R559). -/
def execWearMove (t : Nat) (die : Fin 8) (hi lo : BitVec 16) (s : State) : Host.Outcome State Fault Refusal :=
  let s := s.begin.passTime t
  .next (match s.grn.dies[die.val]? with
    | some d => if lo.toNat + 256 < hi.toNat ∧ s.domainOn 202 ∧ !s.grn.starting then s.setGrn { s.grn with dies := s.grn.dies.set die { d with hi := hi.toNat, lo := lo.toNat } } else s
    | none => s)

/-- Whether scrub may read (R558): it runs while the Granary is on, and yields to every command. -/
def State.scrubRuns (s : State) : Bool :=
  s.domainOn 202 && s.fldP Pg.grn Reg.GRN_CFG 0 0 == 1 && s.grn.run.isNone && s.grn.command.isNone

/-- R558: one block read by scrub; the last one of a pass ends the scrub that follows the return of power too (R559). -/
def execScrub (t : Nat) (die : Fin 8) (rewrite : Bool) (rebuilt : Nat) (last : Bool) (s : State) : Host.Outcome State Fault Refusal :=
  let s := s.begin.passTime t
  .next (if s.scrubRuns ∧ !((s.grn.dies[die.val]?).elim true fun d => d.failed) then
      let s := s.bump Pg.grn Reg.GRN_REBUILD_CNT rebuilt
      let s := if rewrite ∨ rebuilt ≠ 0 then s.bump Pg.grn Reg.GRN_RELOC_CNT 1 else s
      if last then (s.setGrn { s.grn with starting := false }).bump Pg.grn Reg.GRN_SCRUB_PASS_CNT 1 else s
    else s)

/-- R558: INT_STAT bit 3 sets when SCRUB_LATE sets. -/
def execScrubLate (t : Nat) (s : State) : Host.Outcome State Fault Refusal :=
  let s := s.begin.passTime t
  .next (if s.fldP Pg.grn Reg.GRN_STAT 24 24 = 1 ∨ !s.domainOn 202 then s else (s.setP Pg.grn Reg.GRN_STAT 24 24 1).setInt Pg.grn 3)

/-! ## Register commands (R567) -/

/-- A write to GRN_CMD: ignored while BUSY; reserved values of OP name no command. -/
def State.grnCommand (s : State) (op : Nat) : State :=
  if s.grn.command.isSome ∨ op = 0 ∨ 3 < op then s
  else
    let s := s.setGrn { s.grn with command := some (op, s.num64 Pg.grn Reg.GRN_CMD_GEN_LO) }
    s.wrP Pg.grn Reg.GRN_CMD_STAT 0x80000000

/-- What a register command does, and its result. -/
def State.runCommand (s : State) (op gen : Nat) : State × Nat :=
  let fail := fun (c : Cause) => (s.raise Pg.grn c none (grnInfo 0xFF 0), errCode c .grn)
  if 3 ≤ s.grn.failures then fail .GRN_DEGRADED
  else if !s.domainOn 202 then fail .GRN_NOT_ON
  else match s.grn.find gen with
    | none => fail .GRN_NO_GEN
    | some x =>
      if op = 1 then (s.setGrn (s.grn.update gen fun y => { y with pinned := true }), 0)
      else if op = 2 then (s.setGrn (s.grn.update gen fun y => { y with pinned := false }), 0)
      else if x.pinned then fail .GRN_PINNED
      else (s.setGrn (s.grn.drop gen), 0)

/-- A command that waits runs once no CHECKPOINT or RESTORE does, and ends. -/
def execGrnCommandEnd (t : Nat) (s : State) : Host.Outcome State Fault Refusal :=
  let s := s.begin.passTime t
  .next (match s.grn.command with
    | some (op, gen) =>
      if s.grn.run.isSome then s
      else
        let (s, code) := s.runCommand op gen
        let s := s.setGrn { s.grn with command := none }
        (s.wrP Pg.grn Reg.GRN_CMD_STAT (BitVec.ofNat 32 (2 ^ 30 + code))).setInt Pg.grn 4
    | none => s)

/-! ## Region lists (R547) -/

/-- The entries of a region list in memory. -/
def State.regionList (s : State) (list n : Nat) : List (Nat × Nat) := (List.range n).map fun i => (s.natAt (list + 16 * i) 8, s.natAt (list + 16 * i + 8) 8)

/-- Granules of a range as stack window addresses, each with the stack it lies on: a range of the alias by its first granule and its count. -/
def regionsMeet (x y : Nat × Nat) : Bool :=
  let wide := fun (r : Nat × Nat) => decide (aliasBase ≤ r.1 ∧ r.1 < aliasBase + aliasBytes)
  if wide x = wide y then rangesMeet x.1 x.2 y.1 y.2
  else
    let (a, w) := if wide x then (x, y) else (y, x)
    -- The alias granules of stack k from the window's first byte on lie at offsets k, k + 12, k + 24 ... of the alias, in granules.
    let k := w.1 / 0x001000000000
    let first := (a.1 - aliasBase) / 2048
    let stop := first + a.2 / 2048
    let lo := w.1 % 0x001000000000 / 2048
    let hi := lo + w.2 / 2048
    -- Some granule g of the stack with lo ≤ g < hi and first ≤ 12 g + k < stop.
    decide (max lo (ceilDiv (first - k) 12) < min hi (ceilDiv (stop - k) 12))

def regionBad (r : Nat × Nat) : Bool :=
  r.1 % 2048 != 0 || decide (2 ^ 48 ≤ r.1) || r.2 % 2048 != 0 || r.2 == 0 || decide (stackBytes < r.2) || (unpopulated r.1 r.2).isSome || !inStacks r.1

/-- A list that breaks R547. -/
def regionsBad (l : List (Nat × Nat)) : Bool := (withBefore l).any fun q => regionBad q.2 || q.1.any fun y => regionsMeet y q.2

/-! ## CHECKPOINT (R548, R549) -/

def Desc.checkpointBad (d : Desc) : Bool :=
  d.field 0x18 8 % 16 != 0 || d.field 0x20 4 == 0 || decide (65536 < d.field 0x20 4) || decide (1 < d.field 0x24 1)
    || !d.restZero [(0x18, 8), (0x20, 4), (0x24, 1), (0x28, 8)]

/-- A Granary descriptor that starts and ends with an error, captured in the GRN page. -/
def State.grnFail (s : State) (d : Desc) (c : Cause) : State := (s.raise Pg.grn c none (grnInfo 0xFF 0)).atOnce d (errCode c .grn) 0

/-- A Granary descriptor that starts and ends with a denied access. -/
def State.grnDenied (s : State) (d : Desc) (x : Denial) : State := (s.captureDenial x).atOnce d x.code 0

/-- A command of the Granary that starts to run, with its transfer. -/
def State.startGrn (s : State) (d : Desc) (restore : Bool) (gen len : Nat) (places : List (Nat × Nat)) (data : List Byte) : State :=
  let s := (s.startNow d).addJob d (if restore then .restore else .checkpoint)
  let n := s.freshTransfer
  let x : Transfer := { id := n, issuer := if restore then .restore else .checkpoint, cls := 3, src := 0, dst := 0, len := len, moved := 0, held := [], since := s.wall, err := 0,
                        errAddr := none, signal := none }
  ({ s with traffic := s.traffic ++ [x] }.setGrn { s.grn with run := some ⟨d, restore, gen, places, data, n⟩ }).set64 Pg.grn Reg.GRN_PROGRESS_LO 0

/-- The first denial over a list of ranges. -/
def State.firstDenial (s : State) (l : List (Nat × Nat)) (write : Bool) : Option Denial := l.findSome? fun r => s.denial Pg.grn (grnInfo 0xFF 0) 3 r.1 r.2 write

/-- R549 step 1, after the checks that come before the start. -/
def State.startCheckpoint (s : State) (d : Desc) : State :=
  let list := d.field 0x18 8
  let n := d.field 0x20 4
  if s.fldP Pg.trade Reg.TRADE_STAT 0 0 = 1 then s.turnAway d (errCode .JOB_STOPPED .trade)
  else if !s.domainOn 202 then s.grnFail d .GRN_NOT_ON
  else if 2 ≤ s.grn.failures then s.grnFail d .GRN_DEGRADED
  else match s.takeRead Pg.grn (grnInfo 0xFF 0) 3 list (16 * n) with
    | (s, some code) => s.atOnce d code 0
    | (s, none) =>
      let l := s.regionList list n
      if regionsBad l then (s.popDesc d).badDesc d
      else
        let gen := s.grn.nextGen
        let s := s.setGrn { s.grn with nextGen := gen + 1 }
        match s.firstDenial l false with
        | some x => s.grnDenied d x
        | none =>
          let g : Generation := { num := gen, label := d.field 0x28 8, frame := s.frameNum, epoch := d.epoch, pinned := false, committed := false, regions := l,
                                  data := [] }
          let h := s.grn.reclaim g.room 64
          if h.hasRoom g.room then (s.setGrn (h.enter g)).startGrn d false gen g.bytes l []
          else s.grnFail d .GRN_FULL

/-- R549: one CHECKPOINT or RESTORE runs at a time, and none while a register command does. -/
def State.grnIdle (s : State) : Bool := s.grn.run.isNone && s.grn.command.isNone

def execCheckpoint (t : Nat) (port : Fin 2) (ring : Fin 16) (errs : List AccessErr) (s : State) : Host.Outcome State Fault Refusal :=
  .next (((s.begin.facing errs).passTime t).consider port ring 5 Desc.checkpointBad fun s d => if s.grnIdle then s.epochThen d State.startCheckpoint else s)

/-! ## RESTORE (R548, R552) -/

def Desc.restoreMode (d : Desc) : Nat := d.field 0x20 1

def Desc.restoreBad (d : Desc) : Bool :=
  decide (2 < d.restoreMode) || (d.restoreMode == 0 && d.field 0x28 8 != 0) || d.field 0x28 8 % 2048 != 0 || !d.restZero [(0x18, 8), (0x20, 1), (0x28, 16)]

/-- R552; manifest says that the manifest read passes its check. -/
def State.startRestore (manifest : Bool) (s : State) (d : Desc) : State :=
  let gen := d.field 0x18 8
  let dst := d.field 0x28 8
  if !s.domainOn 202 then s.grnFail d .GRN_NOT_ON
  else if 3 ≤ s.grn.failures then s.grnFail d .GRN_DEGRADED
  else match (if gen = 0 then s.grn.latest else s.grn.find gen) with
    | none => s.grnFail d .GRN_NO_GEN
    | some g =>
      if !manifest then s.grnFail d .GRN_MANIFEST
      else
        let data := if d.restoreMode = 2 then g.manifest else g.data
        if d.restoreMode ≠ 0 ∧ d.field 0x30 8 < data.length then s.grnFail d .GRN_DST_SMALL
        else
          let places := if d.restoreMode = 0 then g.regions else [(dst, data.length)]
          match places.findSome? (fun r => unpopulated r.1 r.2) with
          | some a => s.grnDenied d ⟨Pg.grn, .UNPOPULATED, some a, grnInfo 0xFF 0⟩
          | none => s.startGrn d true g.num data.length places data

def execRestore (t : Nat) (port : Fin 2) (ring : Fin 16) (manifest : Bool) (s : State) : Host.Outcome State Fault Refusal :=
  .next ((s.begin.passTime t).consider port ring 6 Desc.restoreBad fun s d => if s.grnIdle then s.epochThen d (State.startRestore manifest) else s)

/-! ## The fence drains (R510) -/

/-- The start of a fence whose drain has ended; a RESTORE starts at its own command, which brings what the read of its manifest finds. -/
def State.startFence (s : State) (d : Desc) : State :=
  let s := if d.kind = 1 then s.startRun d else if d.kind = 4 then s.startColl d else if d.kind = 5 then s.startCheckpoint d else s
  s.sweepRing d.port d.ring 32

def execFenceDrain (t : Nat) (errs : List AccessErr) (s : State) : Host.Outcome State Fault Refusal :=
  let s := (s.begin.facing errs).passTime t
  .next (match s.host.fenceWaiting with
    | some d => if s.drained then ((s.setHost { s.host with fenceWaiting := none }).moveEpoch d).startFence d else s
    | none => s)

/-! ## Registers that show the Granary -/

/-- What the page reads in place of its raw words. -/
def State.grnView (s : State) (o : Nat) : Option Word :=
  let g := s.grn
  let f := g.failures
  let w := fun (n : Nat) => some (BitVec.ofNat 32 n)
  let die := fun (k : Nat) => g.dies.getD k FlashDie.fresh
  let state := match g.run with
    | some r => if r.restore then 2 else 1
    | none => if g.command.isSome then 3 else if g.starting && s.fldP Pg.grn Reg.GRN_CFG 0 0 == 1 then 4 else 0
  if o = Reg.GRN_STAT then
    let mask := (List.range 8).foldl (fun n k => if (die k).failed then n + 2 ^ k else n) 0
    w (state * 2 ^ 29 + b2n (f == 1) * 2 ^ 28 + b2n (f == 2) * 2 ^ 27 + b2n (decide (3 ≤ f)) * 2 ^ 26 + b2n g.spent * 2 ^ 25
        + s.fldP Pg.grn o 24 23 * 2 ^ 23 + mask)
  else if o = Reg.GRN_WRITTEN_LO then w g.written
  else if o = Reg.GRN_WRITTEN_HI then w (g.written / 2 ^ 32)
  else if o = Reg.GRN_BUDGET_LEFT then w g.left
  else if o = Reg.GRN_FREE_GIB then w (g.free / 2 ^ 30)
  else if o = Reg.GRN_BAD_CNT then w ((g.dies.map fun d => min d.bad 768).sum)
  else if Reg.GRN_FLn_STAT ≤ o ∧ o < Reg.GRN_FLn_STAT + 128 then
    let d := die ((o - Reg.GRN_FLn_STAT) / 16)
    (match (o - Reg.GRN_FLn_STAT) % 16 / 4 with
     | 0 => w (b2n d.failed * 2 ^ 31 + b2n d.isolated * 2 ^ 30)
     | 1 => w d.spare
     | 2 => w d.bad
     | _ => w (d.hi * 65536 + d.lo))
  else none

/-- A word of a directory entry (R568). -/
def State.directoryWord (s : State) (o : Nat) : Word :=
  match s.grn.dir.getD (o / 64) none with
  | none => 0
  | some g =>
    let raw := leBytes 8 g.num ++ leBytes 8 g.label ++ leBytes 8 g.bytes ++ leBytes 8 g.frame ++ leBytes 1 (if g.committed then 2 else 1) ++ leBytes 1 (b2n g.pinned)
      ++ leBytes 1 g.epoch ++ leBytes 1 0 ++ leBytes 4 g.regions.length ++ (if g.committed then g.hash.take 24 else List.replicate 24 0)
    BitVec.ofNat 32 (leAt raw (o % 64 / 4 * 4) 4)

end Sys2Proof.Machine
end

