-- ==== Sys2Proof/Machine/Security.lean ====
section
/-!
DEFINITION. The security controller (R635 to R657): SEC commands, debug unlock, attestation reports and certificates, and failures of the entropy source.
-/
namespace Sys2Proof.Machine

/-! ## Firmware images (R638) -/

/-- A hash as its 48 bytes. -/
def hashBytes (h : BitVec 384) : List Byte := leBytes 48 h.toNat

/-- The image at the front of some bytes, none when its header or its extent breaks the layout; the cause in the codes of SEC_BOOT_STAT otherwise. -/
def State.readImage (s : State) (stage : Nat) (l : List Byte) : Except Nat FwImage :=
  let n := leAt l 0x10 4
  let zero := fun (o k : Nat) => allZero ((l.drop o).take k)
  if l.length < 256 ∨ leAt l 0 4 ≠ 0x57464753 ∨ leAt l 4 1 ≠ stage ∨ !zero 5 3 ∨ !zero 0xA 2 ∨ !zero 0x14 44 ∨ !zero 0x70 48 ∨ n = 0 ∨ 8388352 < n ∨ l.length < 256 + n then
    .error 4
  else if !s.signedFor 4 (l.take 0xA0) ((l.drop 0xA0).take 96) then .error 1
  else if hashBytes (Config.sha384 ((l.drop 256).take n)) ≠ (l.drop 0x40).take 48 then .error 2
  else .ok ⟨leAt l 8 2, leAt l 0xC 4, BitVec.ofNat 384 (leNat ((l.drop 0x40).take 48))⟩

/-- The two images of a bundle (R642). -/
def State.readBundle (s : State) (l : List Byte) : Except Nat FwCopy :=
  match s.readImage 1 l with
  | .error e => .error e
  | .ok one =>
    let next := ceilDiv (256 + leAt l 0x10 4) 256 * 256
    match s.readImage 2 (l.drop next) with
    | .error e => .error e
    | .ok two => if one.svn < s.sec.ctr1 ∨ two.svn < s.sec.ctr2 then .error 3 else .ok ⟨one, two⟩

/-- The staging buffer of R641. -/
def State.stagingByte (s : State) (o : Nat) : Byte := Sparse.get (fun _ => 0) s.sec.staging o

def inRecovery (s : State) : Bool := s.boot.phase == .recovery

/-! ## Commands (R642, R643, R647 to R650) -/

/-- A write to SEC_CMD: ignored while BUSY; reserved values of OP name no command. -/
def State.secCommand (s : State) (op len : Nat) : State :=
  if s.sec.cmd.isSome ∨ op = 0 ∨ 5 < op then s
  else
    let b := Pg.sec.base
    let s := s.setSec { s.sec with cmd := some ⟨op, len, s.rdBytes (b + 0x800) 64, s.rdBytes (b + Reg.SEC_NONCEn) 8⟩ }
    s.wrP Pg.sec Reg.SEC_CMD_STAT 0x80000000

/-- A refused signed object: the error captured, counted, and its code. -/
def State.secRefuse (s : State) (c : Cause) (info : Nat) : State × Nat := ((s.raise Pg.sec c none info).authFailed, errCode c .sec)

/-- R642. -/
def State.fwUpdate (s : State) (len : Nat) : State × Nat :=
  let a := s.num64 Pg.sec Reg.SEC_ARG_LO
  if 16777216 < len then s.secRefuse .BOOT_AUTH 4
  else
    let rec_ := inRecovery s
    match (if rec_ then (s, none) else s.takeRead Pg.sec 0 2 a len) with
    | (s, some code) => (s, code)
    | (s, none) =>
      match s.readBundle (if rec_ then (List.range len).map s.stagingByte else s.bytesAt a len) with
      | .error 3 => s.secRefuse .ROLLBACK 3
      | .error e => s.secRefuse .BOOT_AUTH e
      | .ok c =>
        let x := s.sec
        if rec_ then (s.setSec { x with a := c, b := c }, 0)
        else if x.running = some true then (s.setSec { x with a := c, prefB := false }, 0)
        else (s.setSec { x with b := c, prefB := true }, 0)

/-- R643. -/
def State.commitFw (s : State) : State :=
  match s.sec.running with
  | some b =>
    let c := if b then s.sec.b else s.sec.a
    s.setSec { s.sec with ctr1 := max s.sec.ctr1 c.one.svn, ctr2 := max s.sec.ctr2 c.two.svn }
  | none => s

/-- R647: a key record that may take effect. -/
def State.keyGood (s : State) (c : SecCmd) : Bool :=
  let r := c.record
  let op := leAt r 4 1
  let pub := (r.drop 0x28).take 96
  let msg := r.take 0x88
  let sig := (r.drop 0x88).take 96
  let held := s.sec.keys.any fun k => k.any fun x => bit x.usage 3
  leAt r 0 4 == 0x5359454B && (op == 1 || op == 2) && decide (4 ≤ leAt r 5 1) && decide (leAt r 5 1 < 8) && decide (leAt r 6 2 < 16)
    && (op == 1 || (leAt r 6 2 == 0 && allZero pub)) && (r.drop 8).take 32 == c.nonce
    && (s.signedFor 3 msg sig || (op == 1 && !held && Config.ecdsaOk pub msg sig))

def State.keyCommand (s : State) (c : SecCmd) : State × Nat :=
  let r := c.record
  if s.keyGood c then
    let k : Option OpKey := if leAt r 4 1 = 1 then some ⟨leAt r 6 2, (r.drop 0x28).take 96⟩ else none
    (s.setSec { s.sec with keys := s.sec.keys.set (leAt r 5 1 - 4) k }, 0)
  else s.secRefuse .DEBUG_AUTH 0

/-- R648: a token that is accepted. -/
def State.tokenGood (s : State) (c : SecCmd) : Bool :=
  let r := c.record
  leAt r 0 4 == 0x47554244 && decide (leAt r 4 4 < 16) && (r.drop 8).take 32 == c.nonce && (r.drop 0x28).take 16 == leBytes 16 Config.serial.toNat
    && allZero ((r.drop 0x38).take 40) && s.signedFor 2 (r.take 0x60) ((r.drop 0x60).take 96)

def State.debugCommand (s : State) (c : SecCmd) : State × Nat :=
  if s.tokenGood c then (s.setSec { s.sec with pendingDebug := some (leAt c.record 4 4) }, 0) else s.secRefuse .DEBUG_AUTH 0

/-- What a SEC command does, and its result. -/
def State.runSec (s : State) (c : SecCmd) : State × Nat :=
  if c.op = 5 then (s.setSec { s.sec with pendingDebug := none }, 0)
  else if !s.domainOn 202 then (s.raise Pg.grn .GRN_NOT_ON none (grnInfo 0xFF 0), errCode .GRN_NOT_ON .grn)
  else if c.op = 1 then s.fwUpdate c.len
  else if c.op = 2 then (s.commitFw, 0)
  else if c.op = 3 then s.keyCommand c
  else s.debugCommand c

/-- R650: the command that runs ends; FW_UPDATE waits for the Granary's commands (R642). -/
def execSecCommandEnd (t : Nat) (errs : List AccessErr) (s : State) : Host.Outcome State Fault Refusal :=
  let s := (s.begin.facing errs).passTime t
  .next (match s.sec.cmd with
    | some c =>
      if c.op = 1 ∧ !s.grnIdle then s
      else
        let (s, code) := s.runSec c
        let s := s.setSec { s.sec with cmd := none }
        let s := if c.op = 3 ∨ c.op = 4 then s.newSecNonce else s
        (s.wrP Pg.sec Reg.SEC_CMD_STAT (BitVec.ofNat 32 (2 ^ 30 + code))).setInt Pg.sec 1
    | none => s)

/-! ## Entropy (R655) -/

def execEntropyTestFail (t : Nat) (s : State) : Host.Outcome State Fault Refusal :=
  let s := s.begin.passTime t
  let n := s.sec.fails + 1
  let s := (s.setSec { s.sec with fails := n }).setP Pg.sec Reg.SEC_STAT 30 30 0
  .next (if n = 16 then (s.setP Pg.sec Reg.SEC_STAT 29 29 1).setInt Pg.sec 2 else s)

/-- What waits for entropy goes on: seedings, the SEC nonce and the handover nonces. -/
def State.entropyBack (s : State) : State :=
  let x := s.sec
  let s := (s.setP Pg.sec Reg.SEC_STAT 30 29 2).setSec { x with fails := 0, seeding := [], nonceDue := false, hoNonceDue := [] }
  let s := x.seeding.foldl (fun s p => s.seedNow p) s
  let s := if x.nonceDue then s.newSecNonce else s
  x.hoNonceDue.foldl (fun s n => s.newHoNonce n) s

/-! ## Registers that show the security controller -/

/-- What the page reads in place of its raw words. -/
def State.secView (s : State) (o : Nat) : Option Word :=
  let x := s.sec
  let w := fun (n : Nat) => some (BitVec.ofNat 32 n)
  if o = Reg.SEC_STAT then some (setFld (setFld (s.rdP Pg.sec o) 28 28 (b2n (x.running == some true))) 27 27 (b2n x.prefB))
  else if o = Reg.SEC_CTR then w (x.ctr2 * 65536 + x.ctr1)
  else if o = Reg.SEC_BOOT_CNT then w x.bootCnt
  else if o = Reg.SEC_DBG_STAT then some (setFld (setFld (s.rdP Pg.sec o) 30 30 (b2n x.pendingDebug.isSome)) 7 4 (x.pendingDebug.getD 0))
  else if Reg.SEC_SERIALn ≤ o ∧ o < Reg.SEC_SERIALn + 16 then w (Config.serial.toNat / 2 ^ (8 * (o - Reg.SEC_SERIALn)))
  else if Reg.SEC_KEYk ≤ o ∧ o < Reg.SEC_KEYk + 32 then
    let k := (o - Reg.SEC_KEYk) / 4
    if k = 0 then w (2 ^ 31)
    else if k = 1 then w (2 ^ 31 + 16)
    else if k = 2 then w (2 ^ 31 + 14)
    else if k = 3 then w (b2n (bit (s.num Pg.sec Reg.SEC_STAT) 31) * 2 ^ 31)
    else match x.keys.getD (k - 4) none with
      | some y => w (2 ^ 31 + y.usage)
      | none => w 0
  else none

/-! ## Attestation (R651 to R654) -/

/-- A record of a report. -/
def reportRecord (type index : Nat) (data : List Byte) : List Byte := leBytes 2 type ++ leBytes 2 data.length ++ leBytes 4 index ++ data

/-- The copy of the repair map in force. -/
def Repairs.inForce (r : Repairs) : Option (Nat × MapCopy) :=
  if r.a.good ∧ (!r.b.good ∨ r.b.seq ≤ r.a.seq) then some (0, r.a) else if r.b.good then some (1, r.b) else none

/-- Header and entries of a repair map (R562). -/
def MapCopy.image (c : MapCopy) : List Byte :=
  leBytes 4 0x50524D52 ++ leBytes 2 1 ++ leBytes 2 0 ++ leBytes 8 c.seq ++ leBytes 4 c.entries.length ++ List.replicate 44 0 ++ c.entries.flatMap id

def State.firmwareRecord (s : State) (stage : Nat) : List Byte :=
  let data := match s.sec.running with
    | some b =>
      let c := if b then s.sec.b else s.sec.a
      let (i, n) := if stage = 1 then (c.one, s.sec.ctr1) else (c.two, s.sec.ctr2)
      leBytes 4 i.version ++ leBytes 4 i.svn ++ leBytes 4 n ++ leBytes 4 0 ++ hashBytes i.hash
    | none => List.replicate 64 0
  reportRecord 2 stage data

/-- The records of a report, in their order. -/
def State.reportRecords (s : State) : List (List Byte) :=
  let trade := fun (o : Nat) => leBytes 4 (s.num Pg.trade o)
  let dbg := s.num Pg.sec Reg.SEC_DBG_STAT
  [reportRecord 1 0 (leBytes 16 Config.serial.toNat ++ leBytes 1 (if s.steppingB then 0x0B else 0x0A) ++ leBytes 3 0 ++ leBytes 4 (s.fldP Pg.rte Reg.RTE_CFG 31 15)),
   s.firmwareRecord 1, s.firmwareRecord 2]
    ++ ((List.range 256).filterMap fun n => (s.slot? n).map fun x =>
      reportRecord 3 n (leBytes 8 x.base ++ leBytes 8 x.len ++ leBytes 1 x.epoch ++ leBytes 1 (b2n (s.running == some n)) ++ leBytes 6 0
        ++ hashBytes (Config.sha384 (s.bytesAt x.base x.len))))
    ++ [match s.rep.inForce with
        | some (i, c) => reportRecord 4 i (leBytes 8 c.seq ++ leBytes 4 c.entries.length ++ leBytes 4 0 ++ hashBytes (Config.sha384 c.image))
        | none => reportRecord 4 0xFFFFFFFF (List.replicate 64 0),
       reportRecord 5 0 (trade Reg.TRADE_MODE ++ trade Reg.TRADE_PWR_CAP ++ trade Reg.TRADE_VC_WT ++ trade Reg.TRADE_CKPT_CFG ++ trade Reg.TRADE_TEST
         ++ trade Reg.TRADE_SPK)]
    ++ ((List.range 4).filterMap fun k => (s.sec.keys.getD k none).map fun y =>
      reportRecord 6 (4 + k) (leBytes 4 y.usage ++ leBytes 4 0 ++ hashBytes (Config.sha384 y.pub)))
    ++ [reportRecord 7 0 (leBytes 4 (bits dbg 3 0) ++ leBytes 4 (s.sec.pendingDebug.getD 0))]

/-- The report without its signature, as of the present moment. -/
def State.report (s : State) (nonce : List Byte) : List Byte :=
  let l := s.reportRecords
  let body := l.flatMap id
  let flags := b2n (bit (s.num Pg.sec Reg.SEC_DBG_STAT) 31) + 2 * b2n (s.sec.running == some true) + 4 * b2n (inRecovery s)
  leBytes 4 0x54505241 ++ leBytes 2 1 ++ leBytes 2 l.length ++ leBytes 4 (64 + body.length + 96) ++ leBytes 4 flags ++ nonce ++ leBytes 8 s.frameNum
    ++ leBytes 8 s.sec.bootCnt ++ body

/-- Whether a source may ask: a port whose link is up once the module answers, or MCTP from step 4 of bring-up. -/
def State.askable (s : State) (src : Nat) : Bool :=
  let up := s.boot.phase == .ready || s.boot.phase == .recovery
  if src < 2 then up && s.fldP (Pg.pcie src) Reg.PCIE_LINK_STAT 21 21 == 1 else up || s.boot.phase == .powered || s.boot.phase == .halted

/-- An ERROR object; the spec fixes no code for a malformed request or an unavailable identity. -/
def State.doeError (s : State) (type : Nat) : State :=
  let (k, s) := s.draw
  { s with resp := .bytes (leBytes 1 type ++ leBytes 1 0 ++ leBytes 2 (Config.freeNat k % 65536)) }

def State.identity (s : State) : Bool := bit (s.num Pg.sec Reg.SEC_STAT) 31

/-- R653, R654. -/
def execGetReport (t : Nat) (src : Fin 3) (nonce : Vector Byte 32) (s : State) : Host.Outcome State Fault Refusal :=
  let s := s.begin.passTime t
  .next (if !s.askable src then s
    else if !s.identity then s.doeError 1
    else s.setSec { s.sec with requests := s.sec.requests ++ [⟨src, nonce.toList, s.wall, none⟩] })

/-- The response to GET_CERTS: the length of the chain, then the bytes asked for, as far as the chain goes. -/
def certBytes (off len : Nat) : List Byte := leBytes 4 Config.chainLen ++ (List.range (min len (Config.chainLen - off))).map fun i => Config.certByte (off + i)

/-- R654: answered at once, or after the requests that came before it. -/
def execGetCerts (src : Fin 3) (off len : BitVec 32) (s : State) : Host.Outcome State Fault Refusal :=
  let s := s.begin
  .next (if !s.askable src then s
    else if !s.identity ∨ 65536 < len.toNat then s.doeError 2
    else if s.sec.requests.isEmpty then { s with resp := .bytes (certBytes off.toNat len.toNat) }
    else s.setSec { s.sec with requests := s.sec.requests ++ [⟨src, [], s.wall, some (certBytes off.toNat len.toNat)⟩] })

/-- The snapshot of every request accepted and not yet taken (R653). -/
def State.snapshots (s : State) : State :=
  s.setSec { s.sec with requests := s.sec.requests.map fun r => if r.snap.isNone then { r with snap := some (s.report r.nonce) } else r }

/-- R653: with the reference lost, 1 ms after the acceptance. -/
def execSnapshotTimeout (t : Nat) (s : State) : Host.Outcome State Fault Refusal :=
  let s := s.begin.passTime t
  .next (if s.pwr.coast.isSome then
      s.setSec { s.sec with requests := s.sec.requests.map fun r =>
        if r.snap.isNone ∧ r.at_ + 2000000 ≤ s.wall then { r with snap := some (s.report r.nonce) } else r }
    else s)

/-- R653: the oldest request is answered, a report with its signature; signing waits while the entropy source has failed (R655). -/
def execReportReady (t : Nat) (s : State) : Host.Outcome State Fault Refusal :=
  let s := s.begin.passTime t
  .next (match s.sec.requests with
    | r :: rest => (match r.snap with
      | some body =>
        if r.nonce.isEmpty then { s.setSec { s.sec with requests := rest } with resp := .bytes body }
        else if s.entropyFailed then s
        else { (s.setSec { s.sec with requests := rest }).bump Pg.sec Reg.SEC_REPORT_CNT 1 with resp := .bytes (body ++ Config.deviceSign body) }
      | none => s)
    | [] => s)

/-- The objects that the mailbox answers: vendor and type (R654). -/
def doeObjects : List (Nat × Nat) := [(1, 0), (0x1EC7, 1), (0x1EC7, 2), (0x1EC7, 3)]

/-- R654: DOE Discovery, with the next index, 0 after the last. -/
def execDoeDiscovery (port : Fin 2) (index : BitVec 8) (s : State) : Host.Outcome State Fault Refusal :=
  let s := s.begin
  let n := index.toNat
  .next (if s.askable port then
      match doeObjects[n]? with
      | some (v, k) => { s with resp := .bytes (leBytes 2 v ++ leBytes 1 k ++ leBytes 1 (if n + 1 < doeObjects.length then n + 1 else 0)) }
      | none => { s with resp := .bytes (leBytes 2 0xFFFF ++ leBytes 2 0) }
    else s)

end Sys2Proof.Machine
end

