-- ==== Sys2Proof/Machine/Spikelet.lean ====
section
/-!
DEFINITION. The Spikelet check: the operand fill (R224), the chains of four passes that the Tillers run (R223), the reference (R226) and the published bound
(R227).
-/
namespace Sys2Proof.Machine

/-! ## The operand fill (R224) -/

/-- One step of the 32-bit xorshift generator. -/
def xorshift (x : BitVec 32) : BitVec 32 :=
  let x := x ^^^ (x <<< 13)
  let x := x ^^^ (x >>> 17)
  x ^^^ (x <<< 5)

/-- The generator's state for a SEED: 0 is taken as 1. -/
def fillStart (seed : BitVec 32) : BitVec 32 := if seed = 0 then 1 else seed

/-- The generator after n outputs. -/
def fillSkip : Nat → BitVec 32 → BitVec 32
  | 0, x => x
  | n + 1, x => fillSkip n (xorshift x)

/-- The bytes of the next n outputs, least significant first. -/
def fillBytes : Nat → BitVec 32 → List Byte
  | 0, _ => []
  | n + 1, x => let y := xorshift x; leBytes 4 y.toNat ++ fillBytes n y

/-- An element fixed after it is drawn: exponents near the bias, and no NaN and no infinity. Integer elements and FP4 stay as drawn. -/
def fixElement (f : Fmt) (n : Nat) : Nat :=
  let e := f.element
  let n := match e with
    | .bf16 | .fp16 | .e5m2 =>
      let (eb, mb, bias) := e.params
      let field := n / 2 ^ mb % 2 ^ eb
      n - field * 2 ^ mb + (field % 16 + bias - 8) * 2 ^ mb
    | _ => n
  if (e.value n).isFinite then n else 0

/-- An E8M0 scale byte fixed after it is drawn. -/
def fixScale (b : Nat) : Nat := 120 + b % 15

/-- Drawn bytes as packed elements of a format, each fixed. -/
def fixTile (f : Fmt) (l : List Byte) : List Byte := pack f.width ((unpack f.width l (l.length * 8 / f.width)).map (fixElement f))

/-- The operands of one pass: the element bytes of its A and B tiles, and the scale bytes of A's rows and of B's columns, K/32 for each. -/
structure TestPass where
  atile : List Byte
  btile : List Byte
  ascale : List Byte
  bscale : List Byte
  deriving DecidableEq, Repr

/-- Scale bytes of the 128 rows of A, or of the 128 columns of B. -/
def PairCode.scaleBytes (c : PairCode) : Nat := if c.mx then 128 * (c.k / 32) else 0

/-- Outputs that the fill of one pass takes: 16 KiB of A, 16 KiB of B and the scale bytes. -/
def PairCode.passFill (c : PairCode) : Nat := 8192 + 2 * c.scaleBytes / 4

/-- The operands of a pass that its bytes fill: the A tile, then the B tile, then the scale bytes. -/
def testPass (c : PairCode) (l : List Byte) : TestPass :=
  let sc := (l.drop 32768).map fun b => BitVec.ofNat 8 (fixScale b.toNat)
  ⟨fixTile c.a (l.take 16384), fixTile c.b ((l.drop 16384).take 16384), sc.take c.scaleBytes, sc.drop c.scaleBytes⟩

/-- The operands of a chain's four passes, from the generator's state before its first. -/
def testPasses (c : PairCode) (x : BitVec 32) : List TestPass :=
  (List.range 4).map fun k => testPass c (fillBytes c.passFill (fillSkip (k * c.passFill) x))

/-- Row i of a pass's A tile, laid out as R130 has it. -/
def TestPass.row (p : TestPass) (c : PairCode) (i : Nat) : List Byte :=
  (p.atile.drop (128 * i)).take 128 ++ (p.ascale.drop (c.k / 32 * i)).take (if c.mx then c.k / 32 else 0)

/-- The scale block of a pass's B tile, laid out as R133 has it. -/
def TestPass.block (p : TestPass) (c : PairCode) : List Byte :=
  if c.mx then (List.range 1024).map fun i => if i % 8 < c.k / 32 then p.bscale.getD (i / 8 * (c.k / 32) + i % 8) 0 else 0 else []

/-! ## The narrow result (R223) -/

/-- Element (i, j) of the tile that a chain of four passes accumulates, the first of them a PASS_INIT (R136 to R140). -/
def testResult (c : PairCode) (l : List TestPass) (i j : Nat) : Nat :=
  l.foldl (fun st p =>
    if c.int then (accInt false 0 (signed 32 st) (intProduct c (p.row c i) p.btile j)).1
    else accFloat .fp32 (ofFp32 st) (passProduct c (p.row c i) p.btile (p.block c) j)) 0

/-- The value of a stored result. -/
def testValue (c : PairCode) (n : Nat) : Ext := if c.int then Fmt.int32.value n else ofFp32 n

/-! ## The reference and the bound (R226, R227) -/

/-- The exact products of an element, in ascending k within each pass and in pass order. -/
def testProducts (c : PairCode) (l : List TestPass) (i j : Nat) : List Ext :=
  l.flatMap fun p =>
    let row := p.row c i
    let col := (p.btile.drop (128 * j)).take 128
    let blk := p.block c
    (List.range c.k).map fun k =>
      let a := c.a.value (elemAt c.a.width row k)
      let b := c.b.value (elemAt c.b.width col k)
      (if c.mx then a.scaleE8 (row.getD (128 + k / 32) 0).toNat else a).mul (if c.mx then b.scaleE8 (blk.getD (8 * j + k / 32) 0).toNat else b)

/-- R: the products added in FP32 from 0, to nearest with ties to even. -/
def testReference (l : List Ext) : Nat := l.foldl (fun r p => toFp32 ((ofFp32 r).add p)) 0

/-- A: the magnitudes of the products added in FP32 towards +infinity. -/
def testMagnitude (l : List Ext) : Nat := l.foldl (fun r p => toFp32Up ((ofFp32 r).add p.abs)) 0

/-- B of a floating-point tile, exact; an integer tile has none and takes 0. -/
def testBound (c : PairCode) (amag : Nat) : Ext :=
  if c.int then .zero
  else
    let n := 4 * c.k + 4
    ((Ext.fin false n (-23)).mul (ofFp32 amag)).add (.fin false n (-149))

/-- The magnitude of a difference. -/
def testDiff (t r : Ext) : Ext := (t.add r.neg).abs

/-- R227: whether a result agrees with its reference. -/
def testAgrees (c : PairCode) (t r b : Ext) : Bool :=
  if c.int then t.eqv r
  else match t, r with
    | .nan, .nan => true
    | .inf x, .inf y => x == y
    | .inf _, .fin _ m e | .fin _ m e, .inf _ => !(Ext.fin false m e).lt ((Fmt.fp32.value Fmt.fp32.maxFinite).add b.neg)
    | .fin .., .fin .. => !b.lt (testDiff t r)
    | _, _ => false

/-! ## The tiles of a test frame (R225, R579) -/

/-- The pair codes of R135, ascending. -/
def pairCodes : List Nat := (List.range 32).filter fun c => (pairCode c).isSome

/-- The pair code of the chain of this place after the cursor. -/
def pairAt (spk chain : Nat) : Nat := pairCodes.getD ((spk + chain) % pairCodes.length) 0

/-- Outputs that the fill of a die takes before tile t, when n Tillers run chains whose pair codes go on from the cursor. -/
def fillBefore (spk n t : Nat) : Nat :=
  ((List.range t).map fun u => ((pairCode (pairAt spk (u / n))).elim 0 fun c => 4 * c.passFill)).sum

/-- What the check computes for one element of a tile. -/
structure TestElem where
  pair : Nat
  narrow : Nat
  ref : Nat
  bound : Ext
  diff : Ext
  agrees : Bool
  deriving DecidableEq, Repr

/-- Element (i, j) of tile t of a die on which n Tillers run chains, its result standing with the given bits flipped. -/
def testElem (seed : BitVec 32) (spk n t i j : Nat) (flip : BitVec 32) : Option TestElem :=
  let code := pairAt spk (t / n)
  (pairCode code).map fun c =>
    let l := testPasses c (fillSkip (fillBefore spk n t) (fillStart seed))
    let narrow := (BitVec.ofNat 32 (testResult c l i j) ^^^ flip).toNat
    let ps := testProducts c l i j
    let ref := testReference ps
    let t := testValue c narrow
    let b := testBound c (testMagnitude ps)
    ⟨code, narrow, ref, b, testDiff t (ofFp32 ref), testAgrees c t (ofFp32 ref) b⟩

end Sys2Proof.Machine
end

