-- ==== Sys2Proof/Machine/TestWork.lean ====
section
/-!
DEFINITION. The statistics rings (R219 to R222, R350), Seed sets (R580 to R585), and the work of a test frame (R223 to R228, R513, R576, R579).
-/
namespace Sys2Proof.Machine

/-! ## Statistics rings -/

/-- Header address of a die's ring. -/
def State.ringHeader (s : State) (d : Nat) : Nat := s.num64 (Pg.culm d 0) Reg.CULM_RING_HDR_LO

/-- A 64-bit field of a ring's header incremented. -/
def State.countHeader (s : State) (a : Nat) : State := (s.placeBytes a (leBytes 8 (s.natAt a 8 + 1))).servedWrite a 8 2

/-- The error that one access of a ring meets, by the access's number, and the denial that one which fails it is (R299 to R302, R362). -/
def State.ringErr (s : State) (d k a : Nat) (write : Bool) (ecc : List BurstEvent) : State × Option Denial :=
  match burstEvent ecc k with
  | none => (s, none)
  | some e =>
    let bad := s.burstFails a write e
    (s.burstErr a 2 false write e, bad.map fun code => ⟨Pg.culm d 0, ⟨code / 4096, code % 64⟩, some (unalias a / 2048 * 2048), s.culmInfo 0⟩)

/-- An access of a ring: what denies it, and else the errors that it meets. -/
def State.ringAccess (s : State) (d k a n : Nat) (write : Bool) (ecc : List BurstEvent) : State × Option Denial :=
  match s.denial (Pg.culm d 0) (s.culmInfo 0) 2 a n write with
  | some x => (s, some x)
  | none => s.ringErr d k a write ecc

/-- R221: a record whose delivery meets an error response. It counts in DROP, or in CULM_RING_DROP_CNT when the header cannot be written. -/
def State.lostRecord (s : State) (d : Nat) (x : Denial) (ecc : List BurstEvent) : State :=
  let p := Pg.culm d 0
  let s := if x.page = p then s else s.captureDenial x
  let s := (s.raise p x.cause x.addr (s.culmInfo 0)).setInt p 3
  let a := s.ringHeader d + 0x20
  match s.ringAccess d 3 a 8 true ecc with
  | (s, none) => s.countHeader a
  | (s, some _) => s.bump p Reg.CULM_RING_DROP_CNT 1

/-- Whether a SIZE is a power of two from 16 to 16,777,216. -/
def ringSizeOk (n : Nat) : Bool := (List.range 21).any fun k => n == 2 ^ (k + 4)

/-- R220: a record that finds its ring full, or of a SIZE out of range. -/
def State.dropRecord (s : State) (d : Nat) (ecc : List BurstEvent) : State :=
  let a := s.ringHeader d + 0x20
  match s.ringAccess d 2 a 8 true ecc with
  | (s, some x) => s.lostRecord d x ecc
  | (s, none) => (s.countHeader a).setInt (Pg.culm d 0) 3

/-- R220: a record written at an address, and WR after it. -/
def State.writeRecord (s : State) (d a : Nat) (data : List Byte) (ecc : List BurstEvent) : State :=
  let wr := s.ringHeader d + 0x10
  match s.ringAccess d 1 a 64 true ecc with
  | (s, some x) => s.lostRecord d x ecc
  | (s, none) =>
    match ((s.served a 64 2 true).placeBytes a data).ringAccess d 2 wr 8 true ecc with
    | (s, some x) => s.lostRecord d x ecc
    | (s, none) => s.countHeader wr

/-- R220, R221: one record delivered, or discarded with the interrupt bit that each discard sets. The accesses are numbered: 0 the read of the header, 1 the
write of the record, 2 the write of WR or of DROP, 3 the write of DROP after a loss. -/
def State.deliver (s : State) (d : Nat) (data : List Byte) (ecc : List BurstEvent) : State :=
  let p := Pg.culm d 0
  let hdr := s.ringHeader d
  if s.fldP p Reg.CULM_RING_CTRL 0 0 = 0 then (s.bump p Reg.CULM_RING_DROP_CNT 1).setInt p 3
  else match s.ringAccess d 0 hdr 64 false ecc with
    | (s, some x) => s.lostRecord d x ecc
    | (s, none) =>
      let s := s.served hdr 64 2 false
      let size := s.natAt (hdr + 8) 8
      let wr := s.natAt (hdr + 0x10) 8
      if !ringSizeOk size ∨ size ≤ (wr + 2 ^ 64 - s.natAt (hdr + 0x18) 8) % 2 ^ 64 then s.dropRecord d ecc
      else s.writeRecord d (s.natAt hdr 8 + wr % size * 64) data ecc

/-- R219 to R221: the oldest record of a die; it waits while the stacks are in self-refresh (R598). -/
def execRecordDelivery (die : Fin 4) (ecc : List BurstEvent) (s : State) : Host.Outcome State Fault Refusal :=
  let s := s.begin
  .next (match (if s.pwr.coast.isSome then none else s.records.find? fun r => r.1 == die.val) with
    | some r => { s with records := s.records.erase r }.deliver die r.2 ecc
    | none => s)

/-- R350: CULM_RING_CTRL written. -/
def State.ringControl (s : State) (d : Nat) (v : Word) : State :=
  let p := Pg.culm d 0
  let hdr := s.ringHeader d
  if fld v 0 0 = 0 then s.setP p Reg.CULM_RING_CTRL 0 0 0
  else if !(match regionOf hdr with
    | some (.stack _, _) => true
    | _ => false) then s.deny p .WRITE_REFUSED none (s.culmInfo 0)
  else
    let s := s.setP p Reg.CULM_RING_CTRL 0 0 1
    match s.denial p (s.culmInfo 0) 2 (hdr + 0x10) 24 true with
    | some x => s.lostRecord d x []
    | none =>
      let s := ((s.served hdr 16 2 false).placeBytes (hdr + 0x10) (leBytes 8 0)).servedWrite (hdr + 0x10) 8 2
      (s.placeBytes (hdr + 0x20) (leBytes 8 0)).servedWrite (hdr + 0x20) 8 2

/-- R350: a header address register written. -/
def State.ringHdrWrite (s : State) (d o : Nat) (v : Word) : State :=
  let p := Pg.culm d 0
  if s.fldP p Reg.CULM_RING_CTRL 0 0 = 1 then s.deny p .WRITE_REFUSED none (s.culmInfo 0)
  else s.wrP p o (v &&& (if o = Reg.CULM_RING_HDR_LO then 0xFFFFFFC0 else 0xFFFF))

/-! ## Seed sets -/

def SeedSet.field (x : SeedSet) (o n : Nat) : Nat := leAt x.bytes o n
def SeedSet.npat (x : SeedSet) : Nat := x.field 0x10 4
def SeedSet.nblk (x : SeedSet) : Nat := x.field 0x14 4
def SeedSet.id (x : SeedSet) : Nat := x.field 8 4

/-- Offset of pattern k in the package. -/
def patternOff (k : Nat) : Nat := 0x40 + 128 * k

/-- R580, R581: the layout of a package. -/
def SeedSet.layoutOk (x : SeedSet) : Bool :=
  x.field 0 4 == 0x54455353 && x.field 4 2 == 1 && decide (x.field 6 2 < 2) && allZero ((x.bytes.drop 0x18).take 40) && decide (1 ≤ x.npat)
    && decide (x.npat ≤ 8192) && decide (x.nblk ≤ 1024) && x.bytes.length == patternOff x.npat + 128 * x.nblk + 96
    && (List.range x.npat).all fun k => x.field (patternOff k + 3) 1 == 0

/-- Whether the package verifies under a key with SEED usage (R646). -/
def State.seedSigned (s : State) (x : SeedSet) : Bool := s.signedFor 1 (x.bytes.take (x.bytes.length - 96)) (x.bytes.drop (x.bytes.length - 96))

def State.seedState (s : State) (n : Nat) : State := s.setP Pg.trade Reg.TRADE_SEED_STAT 31 29 n

/-- TRADE_SEED_CMD written (R583): LOAD copies the package into the test store; CANCEL discards the set. -/
def State.seedCommand (s : State) (op len : Nat) : State :=
  if op = 1 then
    let a := s.num64 Pg.trade Reg.TRADE_SEED_ADDR_LO
    let (s, bad) := s.takeRead Pg.trade 0 2 a len
    let bytes := if bad.isSome then [] else s.bytesAt a len
    { s with seed := some ⟨bytes, 0, 0, List.replicate 4 0, List.replicate 4 0⟩ }.wrP Pg.trade Reg.TRADE_SEED_STAT (BitVec.ofNat 32 (2 ^ 29))
  else if op = 2 then { s with seed := none }.seedState 0
  else s

/-- R583: the package is verified. -/
def execSeedVerifyDone (t : Nat) (s : State) : Host.Outcome State Fault Refusal :=
  let s := s.begin.passTime t
  .next (match s.seed with
    | some x =>
      if s.fldP Pg.trade Reg.TRADE_SEED_STAT 31 29 ≠ 1 then s
      else if x.layoutOk ∧ s.seedSigned x then (s.seedState 2).wrP Pg.trade Reg.TRADE_SEED_ID (BitVec.ofNat 32 x.id)
      else (({ s with seed := none }.seedState 5).raise Pg.trade .SEED_AUTH none x.id).authFailed
    | none => s)

/-- The words of a pattern, each chain's words joined to its head. -/
def SeedSet.words (x : SeedSet) (k die : Nat) : List Item :=
  let o := patternOff k
  let n := min 4 (x.field (o + 1) 1)
  groupItems n ((List.range n).map fun i => ⟨0, die, i, 0, rawWord (x.field (o + 8 + 16 * i) 16), []⟩)

/-- Whether n bytes at a scratchpad offset lie in the test reservation (R576). -/
def reserved (off n : Nat) : Bool :=
  (decide (0x0BE00000 ≤ off) && decide (off + n ≤ 0x0C000000))
    || (decide (off / 0x200000 < 80) && decide (0xF0000 ≤ off % 0x200000) && decide (off % 0x200000 + n ≤ 0x100000))

/-- R582: a Culm pattern's word that reaches outside the package's block area or the shared part. -/
def SeedSet.culmSkips (x : SeedSet) (w : RawWord) : Bool :=
  let a := culmArgs w.args
  let area := (x.bytes.drop (patternOff x.npat)).take (128 * x.nblk)
  let raw := (area.drop a.blk).take 128
  let b := culmBlock raw
  let steps := if b.alg = 3 ∧ leAt raw 0x5D 1 ≠ 0 then (area.drop b.mprog).take (8 * b.mlen) else []
  let prog := blocksOf 8 b.mlen steps
  decide (area.length < a.blk + 128) || decide (b.alg = 3 ∧ area.length < b.mprog + 8 * b.mlen) || a.rsv != 0 || decide (a.nslot < 3) || decide (26214 < a.nslot)
    || w.op == 0 || decide (6 < w.op) || culmBlockBad w.op raw b prog || (culmArrays w.op b prog).any (fun y => decide (0x200000 < y.addr + y.len))
    || (culmRecords w.op b).any fun r => decide (0x200000 < r.1 + r.2.1)

/-- R584: a pattern that is skipped. -/
def State.skipsPattern (s : State) (x : SeedSet) (k die : Nat) : Bool :=
  let o := patternOff k
  let kind := x.field o 1
  let n := x.field (o + 1) 1
  let len := x.field (o + 0x4C) 4
  let end_ := x.field (o + 0x48) 4 + len
  let sel := x.field (o + 2) 1
  let out := len == 0 || decide (65536 < len) || (if sel = 0 then kind != 1 || decide (0x10000 < end_) else sel != 1 || decide (0x200000 < end_))
  if kind = 0xF then n != 0 || x.field (o + 8) 1 == 0 || decide (7 < x.field (o + 8) 1) || decide (8 < x.field (o + 9) 1) || out
  else if kind = 0 ∨ 3 < kind ∨ n = 0 ∨ 4 < n then true
  else
    let s := s.setP Pg.trade Reg.TRADE_MODE 1 0 0
    let l := x.words k die
    let c := fun (before : List Item) => (⟨die, 0, 0, 15, bit (s.num Pg.trade Reg.TRADE_MODE) 4, 15,
      (before.filter fun y => y.word.op == 8).map fun y => (y.word.unit, (loadBArgs y.word.args).bsel), false⟩ : WordCtx)
    out || (withBefore l).any fun q =>
      let i := q.2
      i.word.kind != kind || (if kind = 3 then x.culmSkips i.word
        else !(s.kindCheck (c q.1) i).isEmpty
          || (s.uses (c q.1) i.word i.chain).touches.any fun y => !reserved (y.lo - spadBase die) y.size)

/-- Units of a kind that are present and active on a die. -/
def State.unitsOf (s : State) (kind die : Nat) : List Nat :=
  if s.dieAbsent die then []
  else if kind = 1 then (List.range 80).filter fun l => !s.tillerAbsent die l
  else if kind = 2 then (List.range 16).filter fun n => !s.awnAbsent die n
  else if kind = 3 then (List.range 3).filter fun n => !s.culmAbsent die n
  else if die = 0 then [0] else []

/-- The page of a unit that ran a pattern. -/
def State.seedPage (s : State) (kind die unit : Nat) : Page :=
  if kind = 1 then Pg.tlr die ((s.physOf die unit).getD unit) else if kind = 2 then Pg.awn die unit else if kind = 3 then Pg.culm die unit else Pg.coll

/-- The head of a Seed set record (R585). -/
def SeedSet.recordHead (x : SeedSet) (s : State) (byte0 die unit : Nat) : List Byte :=
  leBytes 1 byte0 ++ leBytes 1 0 ++ leBytes 1 die ++ leBytes 1 unit ++ leBytes 4 0 ++ leBytes 8 s.frameNum ++ leBytes 4 x.id ++ leBytes 4 (x.field 0xC 4)

/-- A digest that differs from EXPECT (R584). -/
def State.seedMismatch (s : State) (x : SeedSet) (k die unit : Nat) (digest : List Byte) : State :=
  let o := patternOff k
  let kind := x.field o 1
  let p := s.seedPage kind die unit
  let info := if kind = 1 then unit else 0
  let s := (s.raise p .SEED_MISMATCH none info).setP Pg.trade Reg.TRADE_SEED_STAT 28 28 1
  let s := if x.field 6 2 = 1 then s.stopJob (errCode .SEED_MISMATCH p.kind) else s
  s.offerRecord die (x.recordHead s (kind * 16 + 4) die unit ++ leBytes 4 k ++ leBytes 4 0 ++ (digest ++ List.replicate 16 0).take 16
    ++ (x.bytes.drop (o + 0x50)).take 16)

/-- The end of a set: every die's kind 5 record. -/
def State.seedDone (s : State) (x : SeedSet) : State :=
  let run := s.fldP Pg.trade Reg.TRADE_SEED_STAT 13 0
  let s := (List.range 4).foldl (fun s d =>
    s.offerRecord d (x.recordHead s 5 d 0 ++ leBytes 4 run ++ leBytes 4 (x.units.getD d 0) ++ leBytes 4 (x.fails.getD d 0) ++ leBytes 4 x.skipped
      ++ List.replicate 24 0)) s
  (s.seedState 4).setInt Pg.trade 2

/-- One pattern of the set, with the disagreements that it meets. -/
def State.runPattern (s : State) (l : List TestEvent) : State :=
  match s.seed with
  | none => s
  | some x =>
    let k := x.next
    if x.npat ≤ k then s
    else
      let kind := x.field (patternOff k) 1
      let s :=
        if s.skipsPattern x k 0 then { s with seed := some { x with next := k + 1, skipped := x.skipped + 1 } }
        else
          let hits := l.filterMap fun e => match e with
            | .seed q d u g => if q = k ∧ (s.unitsOf kind d).contains u.toNat then some (d.val, u.toNat, g) else none
            | _ => none
          let y := { x with next := k + 1, units := x.units.mapIdx (fun d n => n + (s.unitsOf kind d).length),
                            fails := x.fails.mapIdx fun d n => n + hits.countP fun h => h.1 == d }
          let n := s.fldP Pg.trade Reg.TRADE_SEED_STAT 13 0 + 1
          let s := { s with seed := some y }.setP Pg.trade Reg.TRADE_SEED_STAT 13 0 n
          hits.foldl (fun s h => s.seedMismatch y k h.1 h.2.1 h.2.2) s
      match s.seed with
      | some y => if y.npat ≤ y.next then s.seedDone y else s
      | none => s

/-- R584: up to 16 patterns of a pending or running set. -/
def State.runSeeds (s : State) (l : List TestEvent) : State :=
  let st := s.fldP Pg.trade Reg.TRADE_SEED_STAT 31 29
  if st = 2 ∨ st = 3 then (List.range 16).foldl (fun s _ => s.runPattern l) (s.seedState 3) else s

/-! ## The Spikelet check and the adder test -/

/-- R224, R579: the SEED of a test frame. -/
def State.testSeed (s : State) : BitVec 32 × State :=
  if s.fldP Pg.trade Reg.TRADE_SPK 8 8 = 1 then (BitVec.ofNat 32 (s.num Pg.trade Reg.TRADE_SPK_SEED), s)
  else
    let (k, s) := s.draw
    (Config.freeWord k, s)

/-- Chains per Tiller: values out of range are stored as 2. -/
def State.chainsPer (s : State) : Nat := s.fldP Pg.trade Reg.TRADE_SPK 7 4

/-- The least and greatest FP32 values between which a bound lies; the spec gives the record's field no rounding. -/
def boundBits (up : Bool) (b : Ext) : Nat := if up then toFp32Up b else (convert .fp32 .rdn false b 0).1

/-- R228: an element that disagrees, on the Tiller of its tile. The tile of 64 KiB fills the home slice part of the reservation, from granule 0xF0 (R576). -/
def State.spikelet (s : State) (seed : BitVec 32) (die logical row col : Nat) (x : TestElem) : State :=
  let tile := spadBase die + logical * 0x200000 + 0xF0000
  let p := Pg.tlr die ((s.physOf die logical).getD logical)
  let s := s.raiseCode p (errCode .SPIKELET_MISMATCH .tlr) (some (tile + row * 512)) (tlrInfo 0xF0 row logical)
  let (k, s) := s.draw
  s.offerRecord die (leBytes 1 0x12 ++ leBytes 1 x.pair ++ leBytes 1 die ++ leBytes 1 logical ++ leBytes 4 0 ++ leBytes 8 s.frameNum ++ leBytes 8 tile
    ++ leBytes 4 seed.toNat ++ leBytes 1 row ++ leBytes 1 col ++ leBytes 2 0 ++ leBytes 4 x.narrow ++ leBytes 4 x.ref
    ++ leBytes 4 (boundBits (Config.freeBool k) x.bound) ++ leBytes 4 (toFp32Up x.diff) ++ List.replicate 16 0)

/-- R225: whether a die checks its tile t. -/
def State.checks (s : State) (seed : BitVec 32) (t : Nat) : Bool :=
  let m := 2 ^ s.fldP Pg.trade Reg.TRADE_SPK 3 0
  t % m == (seed.toNat + s.frameNum) % m

/-- R225: tiles of a die that the frame checks. -/
def State.tilesChecked (s : State) (seed : BitVec 32) (die : Nat) : Nat :=
  (List.range ((s.unitsOf 1 die).length * s.chainsPer)).countP (s.checks seed)

/-- The elements of a die that the check finds to disagree: of the elements whose result a Tiller got wrong, those of checked tiles that lie outside the bound.
Tile t is chain t / n of the Tiller of rank t mod n among the n that run (R225). -/
def State.disagreements (s : State) (seed : BitVec 32) (die : Nat) (l : List TestEvent) : List (Nat × Nat × Nat × TestElem) :=
  let units := s.unitsOf 1 die
  l.eraseDups.filterMap fun e => match e with
    | .spikelet d u c i j f =>
      let t := c * units.length + units.idxOf u.val
      if d.val = die ∧ units.contains u.val ∧ c < s.chainsPer ∧ s.checks seed t then
        (testElem seed s.eng.fleet.spk units.length t i.val j.val f).bind fun x => if x.agrees then none else some (u.val, i.val, j.val, x)
      else none
    | _ => none

/-- The Spikelet check of one die: the disagreeing elements, and the kind 3 record (R228). -/
def State.spikeletDie (s : State) (seed : BitVec 32) (l : List TestEvent) (d : Nat) : State :=
  let bad := s.disagreements seed d l
  let n := s.tilesChecked seed d
  let s := bad.foldl (fun s x => s.spikelet seed d x.1 x.2.1 x.2.2.1 x.2.2.2) s
  s.offerRecord d (leBytes 1 0x13 ++ leBytes 1 0 ++ leBytes 1 d ++ leBytes 1 0 ++ leBytes 4 0 ++ leBytes 8 s.frameNum ++ leBytes 8 0 ++ leBytes 4 seed.toNat
    ++ List.replicate 20 0 ++ leBytes 4 n ++ leBytes 4 bad.length ++ List.replicate 8 0)

def State.spikelets (s : State) (seed : BitVec 32) (l : List TestEvent) : State :=
  (List.range 4).foldl (fun s d => s.spikeletDie seed l d) s

/-- The test reservation of every die, left undefined. -/
def State.fogReservation (s : State) : State :=
  (List.range 4).foldl (fun s d =>
    (List.range 80).foldl (fun s l => s.lose (spadBase d + l * 0x200000 + 0xF0000) 0x10000 true) (s.lose (spadBase d + 0x0BE00000) 0x200000 true)) s

/-- The work of a test frame, in the order of R579. -/
def State.testWork (s : State) (l : List TestEvent) : State :=
  let (seed, s) := s.fogReservation.testSeed
  let s := s.spikelets seed l
  let s := if l.any fun e => (match e with
    | .adder => true
    | _ => false) then s.raiseCode Pg.coll (errCode .SPIKELET_MISMATCH .coll) none 0 else s
  let f := s.eng.fleet
  let s := { s with eng := { s.eng with fleet := { f with spk := (f.spk + s.chainsPer) % pairCodes.length } } }
  s.runSeeds l

end Sys2Proof.Machine
end

