-- ==== Sys2Proof/Machine/FrameEnd.lean ====
section
/-!
DEFINITION. What a frame boundary does for the frame that it ends: wall length and counters (R79, R119, R534 to R536), the tick watch of a follower (R105),
test work (R578), the end of a switch frame (R521 to R523), the progress of the frame run (R406, R574) and the refresh debt (R107).
-/
namespace Sys2Proof.Machine

/-! ## Wall length -/

/-- Stretch of the present frame (R79). -/
def Frame.stretch (f : Frame) : Nat := ((f.slip : Int) - (256 + f.trim)).toNat

/-- Wall cycle of the boundary that ends the present frame (R79, R116). -/
def Frame.stop (f : Frame) : Nat := ((f.start : Int) + f.len + f.trim).toNat + f.stretch

/-- Fleet roles of HUB_TICK_CFG.ROLE. -/
def isMaster (r : Nat) : Bool := r == 1
def isFollower (r : Nat) : Bool := r == 2

def State.setFleet (s : State) (f : Fleet) : State := { s with eng := { s.eng with fleet := f } }

/-- The counter runs to the end of the schedulable span, and wall time to the boundary. An open freeze holds both. -/
def State.toBoundary (s : State) : State :=
  let s := s.advance (s.eng.frame.len - 256)
  if s.frozen then s else s.passTime s.eng.frame.stop

/-- What fell due after the schedulable span takes place in order, and nothing stays in flight. -/
def State.lastEffects (s : State) : State :=
  let late := s.eng.due
  let s := { s with eng := s.eng.stopped }
  late.foldl (fun s d => s.apply d.eff) s

/-! ## Counters of the frame -/

/-- Dies of a mask. -/
def diesOf (mask : Nat) : List Nat := (List.range 4).filter fun d => bit mask d

/-- Idle cause of an idle frame's kind (R106). -/
def idleCause (code : Nat) : Nat := if code ≤ 2 then 5 else if code = 3 then 3 else if code = 4 then 2 else 0

/-- DIE_MASK of the running slot (R535). -/
def State.runningMask (s : State) : Nat :=
  match s.running with
  | some n => (s.slot? n).elim 0 fun x => x.dieMask
  | none => 0

/-- A run counter or a cause counter gains the frame's wall length (R535), and a recovery span counts on (R536). -/
def State.countFrame (s : State) (n : Nat) : State :=
  let f := s.eng.frame
  let s := match f.recovering with
    | some since => (diesOf f.recoverMask).foldl (fun s d => s.countIdle d 7 (s.wall - since)) s
    | none => s
  let s := if f.recovering.isSome then s.setFrame { s.eng.frame with recovering := some s.wall } else s
  match f.kind with
  | .image => (diesOf s.runMask).foldl (fun s d => s.bump64 Pg.idle (Reg.IDLE_Dd_RUN_LO + 0x80 * d) n) s
  | .idle =>
    if s.host.run.any (fun r => r.issuing) ∧ f.recovering.isNone then
      (diesOf s.runningMask).foldl (fun s d => s.countIdle d (idleCause f.idleCode) n) s
    else s
  | _ => s

/-- HUB_LAST_SLIP, HUB_LAST_STRETCH, HUB_MAX_STRETCH and HUB_STRETCH_FRAMES (R119). -/
def State.recordSlip (s : State) : State :=
  let f := s.eng.frame
  let x := f.stretch
  let s := (s.wrP Pg.hub Reg.HUB_LAST_SLIP (BitVec.ofNat 32 (min f.slip 0x1FFFFF))).wrP Pg.hub Reg.HUB_LAST_STRETCH (BitVec.ofNat 32 (min x 0x1FFFFF))
  let s := if s.fldP Pg.hub Reg.HUB_MAX_STRETCH 20 0 < x then s.setP Pg.hub Reg.HUB_MAX_STRETCH 20 0 (min x 0x1FFFFF) else s
  if x = 0 then s else s.bump Pg.hub Reg.HUB_STRETCH_FRAMES 1

/-- A follower's frame without a tick (R105). -/
def State.watchTick (s : State) : State :=
  let f := s.eng.fleet
  if isFollower f.role && !s.eng.frame.ticked then
    let s := s.bump Pg.hub Reg.HUB_TICK_MISS_CNT 1
    let s := s.setFleet { f with misses := f.misses + 1 }
    if f.misses + 1 = 16 then
      let s := if s.fldP Pg.hub Reg.HUB_FRAME_STAT 11 11 = 1 then (s.setP Pg.hub Reg.HUB_FRAME_STAT 11 11 0).setInt Pg.hub 12 else s
      s.raise Pg.hub .TICK_LOST none 0
    else s
  else s

/-- R107: the debt at the boundary that ends an image, idle or empty frame; a test or switch frame leaves it. -/
def State.updateDebt (s : State) : State :=
  let f := s.eng.frame
  let debt := s.fldP Pg.hub Reg.HUB_REFRESH_DEBT 20 0
  let band := (s.slot? f.slot).elim 0 fun x => x.band
  let next := match f.kind with
    | .image => debt + refreshWindow f.len f.band - refreshWindow f.len band
    | .idle | .empty => debt - f.len / 4
    | _ => debt
  s.wrP Pg.hub Reg.HUB_REFRESH_DEBT (BitVec.ofNat 32 (min next 0x1FFFFF))

/-! ## The end of a switch frame (R521 to R523) -/

/-- The events that a region of a step meets. -/
def carryEvents (l : List CarryEvent) (restore : Bool) (k : Nat) : List BurstEvent :=
  (l.filter fun e => e.restore == restore && e.region == k).map fun e => e.event

/-- Errors met at a region's save area, up to the first uncorrectable one. -/
def State.carryErrs (s : State) (c : Carry) (write : Bool) : List BurstEvent → State × Nat
  | [] => (s, 0)
  | e :: r =>
    let a := c.save + 2048 * e.burst
    let bad := s.burstFails a write e.err
    let s := s.burstErr a 0 false write e.err
    match bad with
    | some code => (s, code)
    | none => s.carryErrs c write r

/-- The regions of a step copied in order, up to a failure; a resident image refuses the granules that would overwrite it (R97). -/
def State.copyCarries (s : State) (restore : Bool) (ev : List CarryEvent) : List (Nat × Carry) → State × Nat
  | [] => (s, 0)
  | (k, c) :: r =>
    let me := Pg.rch c.die
    let (s, code) := match s.blocked me 0 0 false c.save c.len with
      | some d => (s.captureDenial d, d.code)
      | none => s.carryErrs c (!restore) (carryEvents ev restore k)
    if code ≠ 0 then (s, code)
    else
      let spad := spadBase c.die + c.off
      let s := if restore then s.store spad (s.bytesAt c.save c.len) else s.putFrom ⟨me, 0⟩ c.save (s.bytesAt spad c.len)
      s.copyCarries restore ev r

/-- Every byte of the four scratchpads written with zero. -/
def State.zeroScratch (s : State) : State := (List.range 4).foldl (fun s d => s.lose (spadBase d) spadBytes false) s

def State.carriesOf (s : State) (n : Option Nat) : List (Nat × Carry) :=
  match n with
  | some n => (match s.slot? n with
    | some x => (s.carries x).zipIdx.map fun q => (q.2, q.1)
    | none => [])
  | none => []

/-- The save areas that a failed switch leaves unspecified. -/
def State.loseSaves (s : State) (l : List (Nat × Carry)) : State := l.foldl (fun s c => s.fogRange c.2.save c.2.len) s

/-- R260, R261: the scalar registers as a slot's table loads them. -/
def State.loadScalars (s : State) (x : Slot) : State :=
  let s := (List.range 4).foldl (fun s d => (List.range 256).foldl (fun s n => s.set64 (Pg.rch d) (Reg.RCH_SRn_LO + 8 * n) 0) s) s
  (List.range x.scalarCount).foldl (fun s k =>
    let a := x.base + x.scalarTable + 16 * k
    s.setSreg (s.natAt a 1) (s.natAt (a + 1) 1) (s.natAt (a + 8) 8)) s

/-- Steps 2 to 4 of R521 and the failure of R523: the state, and the code of a failure. -/
def State.switchCopies (s : State) (x : Switching) (ev : List CarryEvent) : State × Nat :=
  let saves := s.carriesOf x.from_
  let (s, code) := s.copyCarries false ev saves
  let s := s.zeroScratch
  if code ≠ 0 then (s.loseSaves saves, code)
  else
    let (s, code) := s.copyCarries true ev (s.carriesOf (some x.slot))
    if code ≠ 0 then (s.zeroScratch.loseSaves saves, code) else (s, 0)

/-- The boundary that ends a switch frame: the slot runs, its scalars are loaded and its streams bound, and the SWITCH completes. -/
def State.endSwitch (s : State) (ev : List CarryEvent) : State :=
  match s.host.switching with
  | some x =>
    if x.inFrame then
      let (s, code) := s.switchCopies x ev
      let s := match s.slot? x.slot with
        | some y =>
          if code = 0 then
            let s := ({ s with running := some x.slot }.loadScalars y)
            (bindingsOf (s.allItems y)).foldl State.bindStream s
          else s
        | none => s
      (s.setHost { s.host with switching := none }).finish x.desc code s.frameNum
    else s
  | none => s

/-! ## The frame run -/

/-- The run counts an image frame that ended, and completes after its last one or by a stop error. -/
def State.runProgress (s : State) : State :=
  let f := s.eng.frame
  match s.host.run with
  | none => s
  | some r =>
    if !r.issuing then s
    else
      let ran := f.kind == .image && !f.aborted
      let count := (s.slot? r.slot).elim 1 fun x => x.frameCount
      let r := if ran then { r with completed := r.completed + 1, left := r.left - 1, next := (r.next + 1) % count } else r
      let s := s.setHost { s.host with run := some r }
      if r.stopCode ≠ 0 then s.completeRun r.stopCode
      else if r.left = 0 then s.completeRun 0
      else s

/-- Everything that the boundary does for the frame that it ends. -/
def State.endFrame (s : State) (carry : List CarryEvent) (tests : List TestEvent) : State :=
  let f := s.eng.frame
  if f.kind = .none then s
  else
    let s := s.lastEffects
    let s := if f.testing then (s.testWork tests).setP Pg.trade Reg.TRADE_STAT 1 1 0 else s
    let s := (s.countFrame (s.wall - f.start)).recordSlip
    let s := if f.kind = .switch then s.endSwitch carry else s
    (s.runProgress.watchTick).updateDebt

end Sys2Proof.Machine
end

