-- ==== Sys2Proof/Machine/Boundary.lean ====
section
/-!
DEFINITION. Frame boundaries (R69 to R72, R83, R99 to R114, R119, R122, R169 to R172, R520, R521, R577, R578): what takes effect at one, the idle, test and
switch decisions, and the frame that begins; and ticks, idle requests, word fetch and stretch.
-/
namespace Sys2Proof.Machine

/-! ## Retirement of Tillers (R169 to R172) -/

def tlrMapOff (d n : Nat) : Nat := (Pg.tlr d n).base + Reg.TLR_MAP

/-- A field of a Tiller's TLR_MAP. -/
def State.tlrMap (s : State) (d n hi lo : Nat) : Nat := fld (s.rd (tlrMapOff d n)) hi lo

def State.setTlrMap (s : State) (d n hi lo v : Nat) : State := s.wr (tlrMapOff d n) (setFld (s.rd (tlrMapOff d n)) hi lo v)

/-- The repair map entry of a retirement (R564): the physical coordinates of R45 and R46. -/
def tillerEntry (d n reason : Nat) : List Byte :=
  let col := if d < 2 then n % 12 else 11 - n % 12
  mapEntry 0x10 d n col (n / 12) 0 0 reason

/-- A Tiller retires: the lowest free spare takes its logical number, which is absent when there is none. The number is answered when it becomes absent. -/
def State.retireNow (s : State) (d n : Nat) : State × Option Nat :=
  let logical := s.tlrMap d n 22 16
  let s := ((s.setTlrMap d n 29 29 0).setTlrMap d n 31 30 3).setTlrMap d n 22 16 0x7F
  if logical = 0x7F then (s, none)
  else
    match (List.range 84).find? fun k => s.tlrMap d k 31 30 == 1 with
    | some k => (((s.setTlrMap d k 31 30 2).setTlrMap d k 22 16 logical).setTlrMap d logical 6 0 k, none)
    | none => (s.setTlrMap d logical 6 0 0x7F, some logical)

/-- Whether an item names a logical Tiller: by its unit, as a Guarded shadow, or in LDSCALE. -/
def State.namesTiller (s : State) (d l : Nat) (i : Item) : Bool :=
  i.die == d && ((i.word.kind == 1 && (i.word.unit == l || (s.prot == 1 && i.word.unit + 40 == l)))
    || (i.word.kind == 5 && i.word.op == 0x17 && bits i.word.args.toNat 14 8 == l))

/-- R172: the images that name an absent number stop. -/
def State.stopImages (s : State) (d l : Nat) : State :=
  { s with slots := s.slots.map fun x =>
      if x.refuses = 0 ∧ (s.allItems x).any (s.namesTiller d l) then { x with refuses := errCode .IMG_UNIT .hub } else x }

/-- R179: the interrupt bits of a retirement that takes effect: the retired Tiller's, and that of a spare that went into service since an earlier state. -/
def State.retireInts (s old : State) (d n : Nat) : State :=
  (List.range 84).foldl (fun (s : State) k => if old.tlrMap d k 31 30 = 1 ∧ s.tlrMap d k 31 30 = 2 then s.setInt (Pg.tlr d k) 3 else s)
    (s.setInt (Pg.tlr d n) 2)

/-- The retirements that wait for the boundary. DESIGN CHOICE (log entry 82): several take effect by ascending die and number. -/
def State.retireBoundary (s : State) : State :=
  (List.range 4).foldl (fun s d => (List.range 84).foldl (fun (s : State) n =>
    if s.tlrMap d n 29 29 = 1 then
      let r := s.retireNow d n
      let s := (r.1.retireInts s d n).noteRepair (tillerEntry d n 0)
      match r.2 with
      | some l => s.stopImages d l
      | none => s
    else s) s) s

/-! ## The width check (R114) -/

/-- A resident image that lacks the bit of a link at half width stops. DESIGN CHOICE (log entry 79): IMG_WIDTH is raised once for every such slot, one that
does not run among them, and ERR_INFO's frame index is the run's next image frame where the run issues on that slot, else 0. -/
def State.widthCheck (s : State) : State :=
  (List.range 4).foldl (fun s d =>
    if s.linkWidth d = 1 then
      s.slots.foldl (fun (s : State) x =>
        if x.refuses = 0 ∧ !bit x.halfWidth d then
          let idx := match s.host.run with
            | some r => if r.slot = x.num ∧ r.issuing then r.next else 0
            | none => 0
          let s := s.raise Pg.hub .IMG_WIDTH (some x.base) (d * 2 ^ 30 + idx % 2 ^ 24)
          { s with slots := s.slots.map fun y => if y.num = x.num then { y with refuses := errCode .IMG_WIDTH .hub } else y }
        else s) s
    else s) s

/-- The active run completes when its slot refuses frame runs, or when the job is stopped. -/
def State.dropRun (s : State) : State :=
  match s.host.run with
  | none => s
  | some r =>
    let code := (s.slot? r.slot).elim 0 fun x => x.refuses
    if code ≠ 0 then s.endRun.finish r.desc code r.completed
    else if s.fldP Pg.trade Reg.TRADE_STAT 0 0 = 1 ∧ !r.issuing then s.endRun.finish r.desc (errCode .JOB_STOPPED .trade) 0
    else s

/-! ## Idle frames (R106 to R112) -/

/-- The power cap in force (R106, R622). -/
def State.powerCap (s : State) : Nat :=
  let cap := s.fldP Pg.trade Reg.TRADE_PWR_CAP 12 0
  let ovr := s.fldP Pg.stb Reg.STB_CAP_OVR 12 0
  if ovr = 0 then cap else min cap ovr

/-- The thermal, power and refresh kinds that fall due, by the codes of LAST_IDLE. -/
def State.dueKinds (s : State) (len : Nat) : List Nat :=
  (if (List.range 12).any fun k => s.fldP (Pg.stack k) Reg.MEMC_STAT 29 29 == 1 then [1] else [])
    ++ (if s.powerCap < s.fldP Pg.stb Reg.STB_PIN_AVG 12 0 then [2] else [])
    ++ (if len / 4 ≤ s.fldP Pg.hub Reg.HUB_REFRESH_DEBT 20 0 then [3] else [])

/-- What the boundary decides about idle frames: the kinds that the frame serves, and whether a follower inserts it on its own. -/
structure IdleChoice where
  kinds : List Nat
  loc : Bool
  deriving DecidableEq, Repr

/-- A follower's idle request of a kind (R111), with the frame number of its boundary (R462). -/
def State.sendIdleReq (s : State) (kind : Nat) : State :=
  s.create s.wall none (Cell.blank 9 (s.fldP Pg.hub Reg.HUB_TICK_CFG 31 16) (leBytes 8 s.frameNum ++ leBytes 1 kind))

/-- Requests that a follower keeps, asks anew and acts on without an answer (R108, R109); a kind that the frame, or one already granted, serves is not asked
for. -/
def followKinds (due served : List Nat) (deep : Bool) (asked : List (Nat × Nat)) : List (Nat × Nat) × List Nat × List Nat :=
  let aged := asked.map fun q => (q.1, q.2 + 1)
  let aged := aged.filter fun q => q.1 != 3 || due.contains 3
  let late := (aged.filter fun q => q.1 != 3 && decide (2 ≤ q.2)).map fun q => q.1
  let kept := aged.filter fun q => !(late.contains q.1)
  let fresh := due.filter fun k => !(served.contains k) && !(aged.any fun q => q.1 == k)
  let kept := kept ++ fresh.map fun k => (k, 0)
  if deep then (kept.filter fun q => q.1 != 3, fresh, late ++ [3]) else (kept, fresh, late)

/-- The idle decision of step 2 of R113 for the frame of fleet number k. DESIGN CHOICE (log entry 80): in a module that is no follower nothing here touches
TICK_LOCK, REQ_PENDING or the outstanding requests, so they stand as they were when ROLE was written. -/
def State.idleDecision (s : State) (len k : Nat) : IdleChoice × State :=
  let f := s.eng.fleet
  let due := s.dueKinds len
  let here := f.idles.filter fun q => q.1 == k
  let granted := !here.isEmpty
  let own := here.flatMap fun q => q.2
  let fleetKinds := if granted then (if own.isEmpty then [5] else own) else []
  let host := if 0 < s.fldP Pg.hub Reg.HUB_IDLE_REQ 15 0 then [4] else []
  let s := s.setFleet { f with idles := f.idles.filter fun q => decide (k < q.1) }
  if isFollower f.role then
    let f := s.eng.fleet
    let deep := decide (len / 2 ≤ s.fldP Pg.hub Reg.HUB_REFRESH_DEBT 20 0) && !granted && f.idles.isEmpty
    let (asked, fresh, late) := followKinds due (fleetKinds ++ f.idles.flatMap fun q => q.2) deep f.asked
    let s := s.setFleet { f with asked := asked }
    let s := fresh.foldl State.sendIdleReq s
    let s := s.setP Pg.hub Reg.HUB_FRAME_STAT 4 4 (b2n (!asked.isEmpty))
    (⟨fleetKinds ++ late ++ host, !granted⟩, s)
  else if isMaster f.role then (⟨fleetKinds ++ host, false⟩, s)
  else (⟨due ++ host, false⟩, s)

/-- The lowest code of a list of kinds: the kind listed first in R106. -/
def firstKind (l : List Nat) : Nat := l.foldl min 5

/-- An idle frame is counted under its first kind (R106, R108, R110, R111, R122). -/
def State.beginIdle (s : State) (c : IdleChoice) : State :=
  let h := Pg.hub
  let flag := fun (s : State) (b : Nat) => (s.setP h Reg.HUB_FRAME_STAT b b 1)
  let k := firstKind c.kinds
  let s := match k with
    | 1 => (flag (s.bump h Reg.HUB_INS_THERM_CNT 1) 8).setInt h 9
    | 2 => (flag (s.bump h Reg.HUB_INS_POWER_CNT 1) 9).setInt h 10
    | 3 => (flag (s.bump h Reg.HUB_INS_REFRESH_CNT 1) 7).setInt h 8
    | 4 => s.bump h Reg.HUB_INS_HOST_CNT 1
    | _ => s.bump h Reg.HUB_INS_FLEET_CNT 1
  let s := if c.kinds.contains 4 then s.setP h Reg.HUB_IDLE_REQ 15 0 (s.fldP h Reg.HUB_IDLE_REQ 15 0 - 1) else s
  if c.loc then (flag s 10).setInt h 11 else s

/-! ## The tick of a master (R100, R111, R460) -/

def tickPayload (k : Nat) (idle : Bool) : List Byte := leBytes 8 k ++ leBytes 1 (b2n idle) ++ List.replicate 55 0

/-- Tick k leaves, with IDLE_NEXT when a follower has asked or a kind of the master's own is due. -/
def State.sendTick (s : State) (len k : Nat) : State :=
  let f := s.eng.fleet
  if isMaster f.role then
    let own := s.dueKinds len
    let idle := s.fab.idleAsked || !own.isEmpty
    let cell : Cell := { Cell.blank 8 (s.fldP Pg.rte Reg.RTE_TICK 11 0) (tickPayload k idle) with mc := true }
    let s := s.create s.wall none cell
    let s := s.setFab { s.fab with idleAsked := false }
    if idle then s.setFleet { f with idles := f.idles ++ [(k + 1, own)] } else s
  else s

/-! ## Test frames (R577, R578) -/

/-- The run whose first or next frame can begin: its slot runs and nothing refuses it. -/
def State.readyRun (s : State) : Option Run :=
  match s.host.run with
  | some r => if s.running = some r.slot then some r else none
  | none => none

/-- Whether the frame would begin as an empty frame (R577). -/
def State.wouldBeEmpty (s : State) : Bool := s.readyRun.isNone && s.host.switching.isNone

/-- Whether a test frame falls due at the boundary of fleet number k. -/
def State.testDue (s : State) (k : Nat) : Bool :=
  let f := s.eng.fleet
  let period := s.fldP Pg.trade Reg.TRADE_TEST 15 0
  decide (f.ready < s.fldP Pg.trade Reg.TRADE_TEST 19 16)
    || (s.wouldBeEmpty && (s.fldP Pg.trade Reg.TRADE_TEST 31 31 == 1 || (f.recovery && s.fldP Pg.trade Reg.TRADE_TEST 24 24 == 1)))
    || (s.prot == 2 && decide (0 < period) && k % period == period - 1
      && !(isFollower f.role && s.fldP Pg.hub Reg.HUB_FRAME_STAT 11 11 == 0))

/-- A frame begins to run the test work. -/
def State.beginTest (s : State) : State :=
  let s := (s.bump Pg.trade Reg.TRADE_TEST_FRAME_CNT 1).setP Pg.trade Reg.TRADE_STAT 1 1 1
  if s.wouldBeEmpty then
    (s.setP Pg.trade Reg.TRADE_TEST 31 31 0).setFleet { s.eng.fleet with recovery := false }
  else s

/-! ## Words of the next frame (R83, R270) -/

/-- A die's fetch reads its bursts in class-0 slots (R287, R288), up to the first that is refused or fails: the code and the address of that one stand in the
second place. -/
def State.countFetch (s : State) (x : Slot) (f d : Nat) : State × Option (Nat × Nat) :=
  ((s.fetchRanges x f d).flatMap fun q => (List.range ((q.1 % 2048 + q.2 + 2047) / 2048)).map fun g => q.1 / 2048 * 2048 + 2048 * g).eraseDups.foldl
    (fun (y : State × Option (Nat × Nat)) a =>
      if y.2.isSome then y
      else
        let r := y.1.readFrom (Pg.rch d) (f % 2 ^ 24) a 2048 0
        (r.1, r.2.map fun code => (code, a))) (s, none)

/-- RCH_STAT of a die as it reads (R270). -/
def State.rchStat (s : State) (d : Nat) : Nat :=
  let raw := s.num (Pg.rch d) Reg.RCH_STAT
  let f := s.eng.frame
  let act := bits raw 2 2
  let issuing := (f.kind != .image || bit s.runMask d) && f.fetched.getD d false
  let idle := f.nextFetched.getD d false
  let fetching := match s.nextImage with
    | some (x, i) => s.hasWords x i d && !idle && f.fetchError.isNone
    | none => false
  setBits (setBits (setBits raw 3 3 (b2n fetching)) act act (b2n issuing)) (1 - act) (1 - act) (b2n idle)

/-! ## The frame that begins -/

/-- The frame record of a frame that begins. The buffer that the frame before filled becomes its issuing buffer, and an error that the fetch of the next image
frame met stays until that frame (R83, R270). -/
def State.newFrame (s : State) (kind : FrameKind) (len idleCode : Nat) (testing : Bool) : State :=
  let old := s.eng.frame
  let s := { s with eng := { s.eng with bbufs := [] } }
  s.setFrame { Frame.fresh with
    kind := kind, start := s.wall, len := len, idleCode := idleCode, testing := testing
    fetched := if kind = .empty then List.replicate 4 false else old.nextFetched
    fetchError := if kind = .empty ∨ kind = .image then none else old.fetchError
    stretchMax := s.fldP Pg.hub Reg.HUB_STRETCH_MAX 20 0,
    band := s.fldP Pg.hub Reg.HUB_FRAME_STAT 1 0, recovering := old.recovering, recoverMask := old.recoverMask }

/-- An image frame begins: its slot and index, the words fetched for it, and the freeze or the abort at cycle 0 (R83, R406). -/
def State.beginImage (s : State) (r : Run) (len : Nat) : State :=
  let old := s.eng.frame
  let s := s.newFrame .image len 0 false
  match s.slot? r.slot with
  | none => s
  | some x =>
    let have_ := (List.range 4).map fun d => old.nextFetched.getD d false || !s.hasWords x r.next d
    let s := s.setFrame { s.eng.frame with slot := r.slot, index := r.next, fetched := have_, recovering := if r.issuing then s.eng.frame.recovering else none }
    let s := s.setHost { s.host with run := some { r with issuing := true } }
    let s := (diesOf x.dieMask).foldl (fun (s : State) d => (s.setP (Pg.rch d) Reg.RCH_STAT 4 4 1).setP (Pg.rch d) Reg.RCH_STAT 31 24 r.slot) s
    match old.fetchError with
    | some e => s.abortFrame e.1
    | none =>
      let late := (diesOf x.dieMask).filter fun d => !have_.getD d true
      let s := late.foldl (fun (s : State) d => (s.bump (Pg.rch d) Reg.RCH_FETCH_LATE_CNT 1).setInt (Pg.rch d) 1) s
      match late with
      | d :: _ => s.freeze .dependency d none .fetch (some (s.wordAddr d 0))
      | [] => s

/-- A switch frame begins (R521 step 1). -/
def State.beginSwitch (s : State) (x : Switching) (len : Nat) : State :=
  let s := s.newFrame .switch len 0 false
  let s := s.bump Pg.idle Reg.IDLE_SWITCH_CNT 1
  let s := if s.running.isSome then s.resetStreams.abortScheduled .SLOT_SWITCH else s
  let s := { s with eng := { s.eng with tdesc := [] } }
  let s := s.setHost { s.host with switching := some { x with from_ := s.running, inFrame := true } }
  { s with running := none }

/-- IMG_BAND (R122). -/
def State.imageBand (s : State) : Nat :=
  match s.running with
  | some n => (s.slot? n).elim 3 fun x => x.band
  | none => 3

/-- Steps 2 to 4 of R113 once the registers of the boundary stand, and whether a follower inserts a local idle frame. -/
def State.chooseFrame (s : State) (len k : Nat) : State × Bool :=
  let (c, s) := s.idleDecision len k
  let idle := !c.kinds.isEmpty
  let kind := firstKind c.kinds
  let due := s.testDue k
  let skip := due && idle && decide (kind ≤ 2)
  let test := due && !skip
  let s := if skip then s.bump Pg.trade Reg.TRADE_TEST_SKIP_CNT 1 else s
  let s := s.widthCheck.dropRun
  let stat := fun (s : State) (v : Nat) => s.setP Pg.hub Reg.HUB_FRAME_STAT 15 12 v
  if idle then
    let s := (stat s kind).beginIdle c
    let s := if test then s.beginTest else s
    (s.newFrame .idle len kind test, c.loc)
  else if test then (s.beginTest.newFrame .test len 0 true, false)
  else match s.host.switching with
    | some x => (s.beginSwitch x len, false)
    | none =>
      match s.readyRun with
      | some r => (s.beginImage r len, false)
      | none => ((stat s 6).newFrame .empty len 0 false, false)

/-! ## The boundary -/

/-- STB_PIN_AVG: the mean over the last 16 frames (R106, R622). -/
def State.pinBoundary (s : State) : State :=
  let p := s.pwr
  let pins := if p.pinNum = 0 then p.pins else (p.pinSum / p.pinNum :: p.pins).take 16
  let s := s.setPwr { p with pins := pins, pinSum := 0, pinNum := 0 }
  let avg := if pins.isEmpty then 0 else pins.sum / pins.length
  s.wrP Pg.stb Reg.STB_PIN_AVG (BitVec.ofNat 32 (min avg 0x1FFF))

/-- IDLE_CTRL.CLEAR: every cause and run counter to 0 (R538). -/
def State.clearIdle (s : State) : State :=
  if s.fldP Pg.idle Reg.IDLE_CTRL 0 0 = 1 then
    let s := s.setP Pg.idle Reg.IDLE_CTRL 0 0 0
    (List.range 4).foldl (fun s d =>
      let s := (List.range 8).foldl (fun (s : State) c => s.set64 Pg.idle (Reg.IDLE_Dd_CNTc_LO + 0x80 * d + 8 * c) 0) s
      s.set64 Pg.idle (Reg.IDLE_Dd_RUN_LO + 0x80 * d) 0) s
  else s

/-- The slots served in the frame that ends are forgotten: a frame's slots are its own. -/
def State.clearServed (s : State) : State := { s with stk := s.stk.map fun (x : Stack) => { x with served := [] } }

/-- What takes effect at every boundary beside the frame decisions. -/
def State.boundaryWork (s : State) : State :=
  let s := s.clearIdle.pinBoundary.clearServed
  let s := (s.linksBoundary.retireBoundary).ownershipBoundary
  let s := (List.range 12).foldl State.switchRemap s
  s.powerBoundary

/-- The boundary itself, at the present wall cycle: the frame before it ends and the next one begins; the snapshots of R653 come after its actions. -/
def State.boundary (s : State) (carry : List CarryEvent) (tests : List TestEvent) : State × Bool :=
  let s := s.endFrame carry tests
  let s := s.boundaryWork
  let f := s.eng.fleet
  let role := s.fldP Pg.hub Reg.HUB_TICK_CFG 1 0
  let s := s.set64 Pg.hub Reg.HUB_FRAME_NUM_LO (s.frameNum + 1)
  let k := if isFollower role then f.num + 1 else s.frameNum
  let misses := if isFollower role then f.misses else 0
  let s := s.setFleet { f with role := role, num := k, misses := misses }
  let s := s.setP Pg.hub Reg.HUB_FRAME_STAT 1 0 s.effectiveBand
  let len := s.frameLen
  let (s, loc) := s.chooseFrame len k
  let s := s.sendTick len k
  let s := s.setFleet { s.eng.fleet with ready := s.eng.fleet.ready + 1 }
  let s := s.setP Pg.hub Reg.HUB_FRAME_STAT 3 2 s.imageBand
  let s := (List.range 4).foldl (fun (s : State) d =>
    let p := Pg.rch d
    let s := s.setP p Reg.RCH_STAT 2 2 (1 - s.fldP p Reg.RCH_STAT 2 2)
    if s.eng.frame.kind = .image then s else s.clearRun d) s
  (s.snapshots, loc)

/-- Whether frames tick: bring-up has ended and the reference is present (R72, R598). -/
def State.ticking (s : State) : Bool := s.boot.phase == .ready && s.pwr.coast.isNone

/-- The boundary reached from the present point of the frame, when nothing holds it. -/
def State.reachBoundary (s : State) : Option State :=
  if !s.ticking then none
  else
    let s := if s.eng.frame.kind = .none then s else s.toBoundary
    if s.frozen then none else some s

/-- R113. -/
def execFrameBoundary (carry : List CarryEvent) (tests : List TestEvent) (s : State) : Host.Outcome State Fault Refusal :=
  let s := s.begin
  match s.reachBoundary with
  | some b => .next (b.boundary carry tests).1
  | none => .next (if s.ticking ∧ s.eng.frame.kind ≠ .none then s.toBoundary else s)

/-- R109: the boundary, when a follower inserts a local idle frame at it. -/
def execLocalIdleInsert (carry : List CarryEvent) (tests : List TestEvent) (s : State) : Host.Outcome State Fault Refusal :=
  let s := s.begin
  match s.reachBoundary with
  | some b =>
    let r := b.boundary carry tests
    .next (if r.2 then r.1 else s)
  | none => .next s

/-- R105: the boundary, when it ends the 16th frame in a row without a tick. -/
def execTickLost (carry : List CarryEvent) (tests : List TestEvent) (s : State) : Host.Outcome State Fault Refusal :=
  let s := s.begin
  match s.reachBoundary with
  | some b =>
    .next (if isFollower b.eng.fleet.role ∧ !b.eng.frame.ticked ∧ b.eng.frame.kind ≠ .none ∧ b.eng.fleet.misses = 15 then (b.boundary carry tests).1 else s)
  | none => .next s

/-! ## Ticks and idle requests (R100 to R105, R111, R460, R461) -/

/-- The tick error of a tick that reached the switch at wall cycle a less its ACC: against the nearest boundary, and whether that is the coming one. -/
def State.tickError (s : State) (a : Int) : Int × Bool :=
  let f := s.eng.frame
  let due := a - (s.fldP Pg.hub Reg.HUB_TICK_DELAY 23 0 : Nat)
  let here : Int := (f.start : Int) - due
  let coming : Int := (f.stop : Int) - due
  if coming.natAbs < here.natAbs then (coming, true) else (here, false)

/-- A tick from the master takes effect on a follower. -/
def State.takeTick (s : State) (a : Arrived) : State :=
  let f := s.eng.fleet
  if !isFollower f.role then s
  else if a.cell.src ≠ s.fldP Pg.hub Reg.HUB_TICK_CFG 31 16 then s.bump Pg.rte Reg.RTE_BAD_TYPE_CNT 1
  else
    let k := leAt a.cell.payload 0 8
    let idle := bit (leAt a.cell.payload 8 1) 0
    let (e, coming) := s.tickError ((a.at_ : Int) - leAt a.cell.payload 12 4)
    let t : Int := if e.natAbs ≤ 16 then -e else -16 * e.sign
    let trims := s.fldP Pg.hub Reg.HUB_TICK_CFG 2 2 == 1
    let s := if 16 < e.natAbs then s.bump Pg.hub Reg.HUB_TICK_BIG_CNT 1 else s
    let err := unsigned 24 (max (-8388607) (min 8388607 e))
    let s := s.setP Pg.hub Reg.HUB_TICK_ERR 23 0 err
    let s := if trims then s.setP Pg.hub Reg.HUB_TICK_ERR 31 24 (unsigned 8 t) else s
    let s := s.setFrame { s.eng.frame with ticked := true, trim := if trims then t else s.eng.frame.trim }
    let s := s.setP Pg.hub Reg.HUB_FRAME_STAT 11 11 1
    let g : Fleet := { f with num := if coming then k - 1 else k, misses := 0 }
    if idle then
      (s.setFleet { g with idles := g.idles ++ [(k + 1, g.asked.map fun q => q.1)], asked := [] }).setP Pg.hub Reg.HUB_FRAME_STAT 4 4 0
    else s.setFleet g

/-- R102, R105: the oldest tick cell delivered here. -/
def execTick (t : Nat) (s : State) : Host.Outcome State Fault Refusal := .next ((s.begin.passTime t).onCell 8 State.takeTick)

/-- R111, R462: the oldest idle request delivered here, which a master grants with its next tick; another module drops and counts it. -/
def execIdleReq (t : Nat) (s : State) : Host.Outcome State Fault Refusal :=
  .next ((s.begin.passTime t).onCell 9 fun s _ => if isMaster s.eng.fleet.role then s.setFab { s.fab with idleAsked := true } else s.bump Pg.rte Reg.RTE_BAD_TYPE_CNT 1)

/-! ## Stretch and fetch (R83, R115) -/

/-- R115: the wall cycle passes in which the stretch of a frozen frame would exceed STRETCH_MAX. -/
def execStretchExceeded (t : Nat) (s : State) : Host.Outcome State Fault Refusal :=
  .next (s.begin.passTime (max t (if s.issuing ∧ s.frozen then s.eng.frame.abortAt else 0)))

/-- A die's fetch for the present frame ends while the frame waits for it. -/
def State.fetchNow (s : State) (d : Nat) : State :=
  let f := s.eng.frame
  match s.slot? f.slot with
  | none => s
  | some x =>
    match s.countFetch x f.index d with
    | (s, some e) => s.abortFrame e.1
    | (s, none) => (s.setFrame { s.eng.frame with fetched := s.eng.frame.fetched.set d true }).wake

/-- A die's fetch for the next frame ends. -/
def State.fetchNext (s : State) (d : Nat) : State :=
  match s.nextImage with
  | none => s
  | some (x, i) =>
    if !s.hasWords x i d ∨ s.eng.frame.nextFetched.getD d false ∨ s.eng.frame.fetchError.isSome then s
    else match s.countFetch x i d with
      | (s, some e) => s.setFrame { s.eng.frame with fetchError := some e }
      | (s, none) => s.setFrame { s.eng.frame with nextFetched := s.eng.frame.nextFetched.set d true }

/-- R83: a die's fetch ends, for the present frame when it waits at cycle 0, else for the next one; its reads meet the errors that the command names. -/
def execFetchComplete (t : Nat) (die : Fin 4) (errs : List AccessErr) (s : State) : Host.Outcome State Fault Refusal :=
  let s := (s.begin.facing errs).passTime t
  let f := s.eng.frame
  let d := die.val
  .next (if s.issuing ∧ bit s.runMask d ∧ !f.fetched.getD d true then s.fetchNow d else s.fetchNext d)

end Sys2Proof.Machine
end

