-- ==== Sys2Proof/Machine/Stubble.lean ====
section
/-!
DEFINITION. The Stubble (R614 to R625): input samples, conditions, rules and their actions, trips and rail faults.
-/
namespace Sys2Proof.Machine

def State.setStb (s : State) (x : Stubble) : State := { s with stb := x }

/-! ## Trips (R625, R661) -/

/-- What the module loses when its rails go: stacks, scratchpads and every register outside the Stubble; the running Granary command ends (R554). -/
def stubbleKeeps (off : Nat) : Bool := decide (0x200000 ≤ off) && decide (off < 0x300000)

/-- Every rail except VAON is off: nothing outside the Stubble and the Granary's flash keeps its contents. -/
def State.dropRails (s : State) : State :=
  let s := s.abortFrame 0
  { s with
      regs := s.regs.filter fun q => stubbleKeeps q.1
      latch := [], mem := [], fog := [⟨0, 2 ^ 50, some s.free, none⟩], free := s.free + 1
      eng := { Engines.fresh with statSeq := s.eng.statSeq }
      host := { HostSide.fresh with perst := s.host.perst }
      slots := [], running := none, traffic := [], records := [], stk := List.replicate 12 Stack.fresh, links := List.replicate 4 Link.fresh, fence := []
      fab := Fabric.fresh, coll := Coll.fresh, pwr := { Power.fresh with saves := s.pwr.saves, pins := s.pwr.pins, coast := s.pwr.coast }
      grn := { s.grn with dir := s.grn.dir.map (fun g => g.filter Generation.committed), run := none, command := none }
      sec := { s.sec with running := none, seeding := [], cmd := none, requests := [], staging := [] }
      tap := ⟨2, 0, none, 0⟩, seed := none, dras := List.replicate 4 none
      boot := { s.boot with phase := .held } }

/-- R625: THERM_TRIP_N asserts, the frame aborts, the record is written and the rails go. -/
def State.trip (s : State) (cause source value : Nat) : State :=
  if s.boot.phase = .held ∨ s.boot.phase = .dead then s
  else
    let s := s.wrP Pg.stb Reg.STB_LAST_TRIP (BitVec.ofNat 32 (cause * 2 ^ 28 + source % 256 * 2 ^ 16 + value % 65536))
    let s := s.dropRails
    { s with boot := { s.boot with tripped := true } }

/-! ## Inputs (R614, R615) -/

def inputOff (i : Nat) : Nat := 0x210000 + 4 * i

/-- The valid range of an analog input, in its unit; rails are valid to 1.5 times their nominal. -/
def inputRange (i : Nat) : Int × Int :=
  let rail := fun (n : Int) => ((0 : Int), n * 3 / 2)
  if i ≤ 0x13 ∨ i = 0x28 then (-160, 600)
  else if i = 0x14 then (0, 8000) else if i = 0x15 then (0, 12000) else if i = 0x16 then (0, 9600)
  else if i ≤ 0x1A then rail 750 else if i = 0x1B then rail 800 else if i = 0x1C then rail 850
  else if i ≤ 0x20 then rail 1100 else if i = 0x21 then rail 1200 else if i = 0x22 then rail 3300 else rail 800

/-- Whether an input is digital. -/
def isDigital (i : Nat) : Bool := i == 0x24 || i == 0x25 || i == 0x26 || i == 0x27

/-- The latest sample of an input. -/
def State.inputVal (s : State) (i : Nat) : Int := signed 16 (s.rd (inputOff i)).toNat

def State.inputValid (s : State) (i : Nat) : Bool := bit (s.rd (inputOff i)).toNat 31

/-- ERR_INFO of the STB page. -/
def stbInfo (input cond rule : Nat) (invalid : Bool) : Nat := input * 2 ^ 24 + cond * 2 ^ 16 + rule * 2 ^ 8 + b2n invalid

/-- An input noted as valid or not; INPUT_RANGE is raised once in each period in which it stays invalid (R615). -/
def State.noteInput (s : State) (i : Nat) (ok : Bool) : State :=
  let l := s.stb.invalid.filter fun k => k != i
  if ok then s.setStb { s.stb with invalid := l }
  else if s.stb.invalid.contains i then s
  else (s.setStb { s.stb with invalid := i :: l }).raise Pg.stb .INPUT_RANGE none (stbInfo i 0xFF 0xFF true)

/-- One input takes a sample, none where its sensor does not answer. -/
def State.setInput (s : State) (i : Nat) (v : Option Int) : State :=
  let (lo, hi) := inputRange i
  match v with
  | some x =>
    let ok := isDigital i || (decide (lo ≤ x) && decide (x ≤ hi))
    (s.wr (inputOff i) (BitVec.ofNat 32 (b2n ok * 2 ^ 31 + unsigned 16 x))).noteInput i ok
  | none => (s.wr (inputOff i) (setFld (s.rd (inputOff i)) 31 31 0)).noteInput i false

/-! ## Conditions (R617 to R619) -/

def condStat (c : Nat) : Nat := 0x212000 + 4 * c

def State.condState (s : State) (c : Nat) : CondState := s.stb.conds.getD c CondState.fresh

def State.setCond (s : State) (c : Nat) (x : CondState) : State := s.setStb { s.stb with conds := s.stb.conds.set c x }

/-- Core cycles of a millisecond in Stubble time (R634). -/
def stubbleMs : Nat := 25000 * stubbleCycle

/-- The raw value of a condition at a sample of its input (R617); xs are its latest samples, newest first. -/
def rawCond (cmp thresh hyst : Int) (avg : Nat) (asserted : Bool) (xs : List Int) : Bool :=
  let l := xs.take (2 ^ avg)
  let n : Int := max 1 l.length
  let sum := l.sum
  if cmp = 0 then xs.headD 0 == 1
  else if cmp = 3 then xs.headD 0 == 0
  else if cmp = 1 then (if asserted then decide ((thresh - hyst) * n < sum) else decide (thresh * n < sum))
  else (if asserted then decide (sum < (thresh + hyst) * n) else decide (sum < thresh * n))

/-- A condition deasserts: STUCK clears with it. -/
def State.deassert (s : State) (c : Nat) : State := s.wr (condStat c) (setFld (s.rd (condStat c)) 31 30 0)

/-- A condition asserts: it is counted, and a condition that asserts too often is masked (R619). -/
def State.condOn (s : State) (c : Nat) : State :=
  let w1 := s.rd (condWord c + 8)
  let hold := fld (s.rd (condWord c + 12)) 15 0
  let x := s.condState c
  let win := fld w1 15 0 * stubbleMs
  let times := s.wall :: x.times.filter fun t => decide (s.wall < t + win)
  let st := s.rd (condStat c)
  let st := setFld (setFld st 31 31 1) 15 0 (min (fld st 15 0 + 1) 0xFFFF)
  let s := s.wr (condStat c) st
  let s := s.setCond c { x with since := s.wall, times := times }
  if fld w1 31 16 ≠ 0 ∧ fld w1 31 16 < times.length then
    let s := s.wr (condStat c) (setFld (setFld st 31 30 0) 29 28 3)
    let s := s.setCond c { s.condState c with held := some (s.wall + hold * stubbleMs), trues := 0, falses := 0 }
    (s.raise Pg.stb .INPUT_CHATTER none (stbInfo (fld (s.rd (condWord c)) 7 0) c 0xFF false)).setInt Pg.stb 3
  else s

/-- A condition takes the new sample of its input. -/
def State.evalCond (s : State) (c : Nat) : State :=
  let w0 := s.rd (condWord c)
  let x := s.condState c
  if !bit w0.toNat 31 ∨ x.held.isSome then s
  else
    let i := fld w0 7 0
    let asserted := s.condAsserted c
    let valid := isDigital i || s.inputValid i
    let s := s.wr (condStat c) (setFld (s.rd (condStat c)) 27 27 (b2n (!valid)))
    if valid then
      let xs := (s.inputVal i :: x.samples).take 128
      let w1 := s.rd (condWord c + 4)
      let raw := rawCond (fld w0 29 28) (signed 16 (fld w1 15 0)) (fld w1 31 16) (fld w0 26 24) asserted xs
      let x := { x with samples := xs, trues := if raw then x.trues + 1 else 0, falses := if raw then 0 else x.falses + 1 }
      let s := s.setCond c x
      let minw := max 1 (fld w0 23 16)
      if !asserted && decide (minw ≤ x.trues) then s.condOn c
      else if asserted && decide (minw ≤ x.falses) then s.deassert c
      else s
    else if bit w0.toNat 27 then (if asserted then s else s.condOn c)
    else (if asserted then s.deassert c else s)

/-! ## Rules (R620 to R622) -/

/-- The expression of a rule. -/
def State.ruleTruth (s : State) (r : Nat) : Bool :=
  let w := s.rd (ruleOff r)
  let a := s.condAsserted (fld w 5 0)
  let b := s.condAsserted (fld w 13 8)
  bit w.toNat 31 && (match fld w 30 29 with
    | 0 => a
    | 1 => a && b
    | 2 => a || b
    | _ => a && !b)

/-- STB_CAP_OVR and STB_STAT as the alerts and overrides stand. -/
def State.stbSync (s : State) : State :=
  let cap := s.stb.caps.foldl (fun (m : Nat) q => if m = 0 then q.2 else min m q.2) 0
  let s := s.wrP Pg.stb Reg.STB_CAP_OVR (BitVec.ofNat 32 cap)
  let alert := b2n (s.num Pg.stb Reg.STB_ALERT_LO != 0 || s.num Pg.stb Reg.STB_ALERT_HI != 0)
  s.wrP Pg.stb Reg.STB_STAT (BitVec.ofNat 32 (s.fldP Pg.stb Reg.STB_CTRL 0 0 + 2 * alert + 4 * b2n (!s.stb.caps.isEmpty)))

/-- The domains of a wake group. -/
def State.groupDomains (s : State) (g : Nat) : List Nat := (List.range domainCount).filter (s.inGroup g)

/-- The action of a rule that fires (R621); woken lists the domains that a WAKE of the same Stubble cycle has set. -/
def State.fireRule (s : State) (woken : List Nat) (r : Nat) : State :=
  let x := s.rd (ruleOff r + 4)
  let arg := fld x 15 0
  match fld x 31 28 with
  | 1 =>
    let blk := arg / 64 % 64
    let go := fun (p : Page) => s.raise p ⟨arg / 4096, arg % 64⟩ none (if p.kind = .stb then stbInfo 0xFF 0xFF r false else r)
    if blk = 3 then go Pg.stb else if blk = 4 then go Pg.clk else if blk = 5 then go Pg.pwr else s
  | 2 =>
    let o := if r < 32 then Reg.STB_ALERT_LO else Reg.STB_ALERT_HI
    ((s.setP Pg.stb o (r % 32) (r % 32) 1).setInt Pg.stb 4).stbSync
  | 3 => (s.setStb { s.stb with caps := (r, max 1000 (min 3900 arg)) :: s.stb.caps.filter fun q => q.1 != r }).stbSync
  | 4 => (s.groupDomains (arg % 8)).foldl (fun s n => s.wakeDomain (s.levelRule r) n) s
  | 5 => ((s.groupDomains (arg % 8)).filter fun n => !woken.contains n).foldl (fun s n => s.requestPower n (if bit arg 8 then 0 else 1)) s
  | 6 => s.trip 3 r 0
  | 7 => s.setInt Pg.stb 1
  | _ => s

/-- The rules after a change of the conditions: those whose expression has become true fire in ascending order, a trip over every other; those whose expression
has become false re-arm, and their override ends. -/
def State.runRules (s : State) : State :=
  if s.fldP Pg.stb Reg.STB_CTRL 0 0 = 0 then s
  else
    let now := (List.range 64).map s.ruleTruth
    let fired := (List.range 64).filter fun r => now.getD r false && !s.stb.truths.getD r false
    let s := s.setStb { s.stb with truths := now, caps := s.stb.caps.filter fun q => now.getD q.1 false }
    let s := s.stbSync
    let act := fun (r : Nat) => fld (s.rd (ruleOff r + 4)) 31 28
    match fired.find? fun r => act r == 6 with
    | some r => s.trip 3 r 0
    | none =>
      let woken := (fired.filter fun r => act r == 4).flatMap fun r => s.groupDomains (fld (s.rd (ruleOff r + 4)) 2 0)
      fired.foldl (fun s r => s.fireRule woken r) s

/-! ## The rows -/

/-- Whether the Stubble runs: its rail is up and the reference has settled. -/
def State.stubbleRuns (s : State) : Bool := s.boot.phase != .dead && s.boot.phase != .settling

/-- R622: the input power of the present frame. -/
def State.samplePower (s : State) : State :=
  if s.inputValid 0x16 then s.setPwr { s.pwr with pinSum := s.pwr.pinSum + (s.inputVal 0x16).toNat, pinNum := s.pwr.pinNum + 1 } else s

/-- R615, R624: the analog inputs are sampled, TMAX is formed, the conditions on them follow, and the fixed limits act. -/
def State.analogSample (s : State) (vals : List (Option Int)) : State :=
  let s := (List.range 0x24).foldl (fun s i => s.setInput i ((vals.getD i none))) s
  let logs := ((List.range 5).filter s.inputValid).map s.inputVal
  let tmax := match logs with
    | [] => none
    | x :: r => some (r.foldl max x)
  let s := s.setInput 0x28 tmax
  let s := s.samplePower
  let hot := s.inputValid 0x28 && decide (500 ≤ s.inputVal 0x28)
  let src := ((List.range 5).find? fun i => s.inputValid i && s.inputVal i == s.inputVal 0x28).getD 0x28
  if hot then
    let s := s.raise Pg.stb .LOGIC_HOT none (stbInfo 0x28 0xFF 0xFF false)
    s.trip 2 src (unsigned 16 (s.inputVal src))
  else
    let on := (List.range 64).filter fun c => let w := s.rd (condWord c); bit w.toNat 31 && !isDigital (fld w 7 0)
    (on.foldl State.evalCond s).runRules

def execStubbleAnalogSample (t : Nat) (vals : List (Option Int)) (s : State) : Host.Outcome State Fault Refusal :=
  let s := s.begin.passTime t
  .next (if s.stubbleRuns then s.analogSample vals else s)

/-- R615: the digital inputs REF, WAKE, LWAKE and FLOW are sampled, and the conditions on them follow. -/
def State.digitalSample (s : State) (wake flow : Bool) : State :=
  let s := { s with boot := { s.boot with wake := wake, flow := flow } }
  let lw := s.fab.ports.any fun p => p.lwake
  let s := s.setInput 0x24 (some (b2n s.pwr.coast.isNone))
  let s := s.setInput 0x25 (some (b2n wake))
  let s := s.setInput 0x26 (some (b2n lw))
  let s := s.setInput 0x27 (some (b2n (!flow)))
  let on := (List.range 64).filter fun c => let w := s.rd (condWord c); bit w.toNat 31 && isDigital (fld w 7 0)
  (on.foldl State.evalCond s).runRules

def execStubbleDigitalSample (t : Nat) (wake flow : Bool) (s : State) : Host.Outcome State Fault Refusal :=
  let s := s.begin.passTime t
  .next (if s.stubbleRuns then s.digitalSample wake flow else s)

/-- R618: a condition asserted for STUCK_T ms. -/
def execInputStuck (t : Nat) (cond : Fin 64) (s : State) : Host.Outcome State Fault Refusal :=
  let s := s.begin.passTime t
  let c := cond.val
  let limit := fld (s.rd (condWord c + 12)) 31 16
  let st := s.rd (condStat c)
  .next (if limit ≠ 0 ∧ bit st.toNat 31 ∧ !bit st.toNat 30 ∧ (s.condState c).since + limit * stubbleMs ≤ s.wall then
      let s := s.wr (condStat c) (setFld st 30 30 1)
      (s.raise Pg.stb .INPUT_STUCK none (stbInfo (fld (s.rd (condWord c)) 7 0) c 0xFF false)).setInt Pg.stb 2
    else s)

/-- R619: the hold-off of a chattering condition ends; it is evaluated afresh from deasserted. -/
def execHoldoffExpiry (t : Nat) (cond : Fin 64) (s : State) : Host.Outcome State Fault Refusal :=
  let s := s.begin.passTime t
  let c := cond.val
  .next (match (s.condState c).held with
    | some e =>
      if e ≤ s.wall then
        (s.wr (condStat c) (setFld (s.rd (condStat c)) 28 28 0)).setCond c { s.condState c with held := none, trues := 0, falses := 0, times := [] }
      else s
    | none => s)

/-- The rails of R614 and the domain, if any, that each serves: a compute die's core, the Sheaf, SRAM, a die's stack supply, I/O, the optics. -/
def State.railServes (s : State) (i : Nat) : Bool :=
  let on := fun (l : List Nat) => l.any s.domainOn
  let die := fun (d : Nat) => ((List.range domainCount).filter fun n => domainDie n == some d)
  if 0x17 ≤ i ∧ i ≤ 0x1A then on ((die (i - 0x17)).filter fun n => decide (n < 160 ∨ 172 ≤ n))
  else if 0x1D ≤ i ∧ i ≤ 0x20 then on ((List.range 3).map fun k => 160 + 3 * (i - 0x1D) + k)
  else if i = 0x22 then on ((List.range 24).map (· + 176))
  else if i = 0x1B ∨ i = 0x1C ∨ i = 0x21 then on (List.range domainCount)
  else false

/-- R624: a rail that serves an on domain has stayed below 93 % of nominal for 2 us. -/
def execRailFault (t : Nat) (input : Fin 41) (mv : BitVec 16) (s : State) : Host.Outcome State Fault Refusal :=
  let s := s.begin.passTime t
  .next (if s.railServes input then
      let s := s.raise Pg.pwr .RAIL_FAULT none (input.val * 2 ^ 24)
      let s := s.wrP Pg.pwr Reg.PWR_RAIL_LAST (BitVec.ofNat 32 (input.val * 2 ^ 24 + mv.toNat))
      s.abortFrame (errCode .RAIL_FAULT .pwr)
    else s)

/-- R616: the ports of a mask send REQ 0xE in their next 1,024 blocks. -/
def State.sendWakes (s : State) (mask : Nat) : State :=
  let s := s.wrP Pg.stb Reg.STB_LINK_WAKE (s.rdP Pg.stb Reg.STB_LINK_WAKE ||| BitVec.ofNat 32 (mask % 2 ^ 24))
  (List.range 24).foldl (fun s p => if bit mask p then s.setPort p { s.port p with wake := 1024 } else s) s

/-- R378: the hub controller's beat, every 25,000 Stubble cycles while it runs. -/
def execCtlrBeat (t : Nat) (s : State) : Host.Outcome State Fault Refusal :=
  let s := s.begin.passTime t
  .next (if s.fldP Pg.hub Reg.BLK_STAT 1 1 = 1 then s.wrP Pg.hub Reg.HUB_CTLR_BEAT (s.rdP Pg.hub Reg.HUB_CTLR_BEAT + 1) else s)

end Sys2Proof.Machine
end

