-- ==== Sys2Proof/Machine/Dras.lean ====
section
/-!
DEFINITION. The stacks' own events (temperature, watch table, remap copies) and the repair access of the DRAS pages (R290 to R296, R303, R304, R311 to R322).
-/
namespace Sys2Proof.Machine

/-! ## Temperature (R290 to R296) -/

/-- A reading that its sensor's self-test and range allow (R296). -/
def validReading (r : Option Int) : Bool :=
  match r with
  | some x => decide (-160 ≤ x) && decide (x ≤ 600)
  | none => false

/-- The 17 readings of a sample; a reading that is not given is a failed self-test. -/
def sampleOf (l : List (Option Int)) : List (Option Int) := (List.range 17).map fun i => (l.getD i none)

/-- The stack temperature of a sample: the highest valid reading (R290). -/
def hottest (l : List (Option Int)) : Option Int :=
  (l.filter validReading).foldl (fun m r => match m, r with
    | some a, some b => some (max a b)
    | none, some b => some b
    | m, none => m) none

/-- ERR_INFO of a thermal error of a stack: source 3. -/
def sensorInfo : Nat := 3 * 2 ^ 5

/-- The sensors that a sample finds newly invalid, and the count (R296). -/
def State.sensorCheck (s : State) (k : Nat) (l : List (Option Int)) : State :=
  let p := Pg.stack k
  let t := s.stackOf k
  let bad := l.map fun r => !validReading r
  let fresh := ((bad.zip t.sensorsFailed).filter fun q => q.1 && !q.2).length
  let s := (List.range fresh).foldl (fun (s : State) _ => (s.raise p .SENSOR_FAIL none sensorInfo).setInt p 5) s
  let n := bad.countP id
  let s := s.setP p Reg.MEMC_STAT 24 20 n
  s.setStack k { s.stackOf k with sensorsFailed := bad, held := t.held || decide (2 < n) }

/-- MEMC_TEMP after a sample with a valid reading (R318). -/
def State.setTemp (s : State) (k : Nat) (t : Int) : State :=
  let p := Pg.stack k
  let old := signed 16 (s.fldP p Reg.MEMC_TEMP 31 16)
  let top := if (s.stackOf k).sampled then max old t else t
  let s := s.wrP p Reg.MEMC_TEMP (BitVec.ofNat 32 (unsigned 16 top * 2 ^ 16 + unsigned 16 t))
  s.setStack k { s.stackOf k with sampled := true }

/-- The band and the forced flag after a sample (R291, R296). -/
def bandStep (held forced : Bool) (band : Nat) (t : Option Int) : Nat × Bool :=
  let forced' := held || (match t with
    | some x => if 420 < x then true else if x ≤ 412 then false else forced
    | none => forced)
  let band' := match t with
    | some x => bandAfter band x
    | none => band
  (if held then 2 else band', forced')

/-- The band, the forced flag and HELD of a stack after a check of its sensors, with its temperature where one was read (R291, R296). -/
def State.setBand (s : State) (k : Nat) (t : Option Int) : State :=
  let p := Pg.stack k
  let band := s.fldP p Reg.MEMC_STAT 31 30
  let forced := s.fldP p Reg.MEMC_STAT 29 29 == 1
  let held := (s.stackOf k).held
  let r := bandStep held forced band t
  let s := if r.1 ≠ band then s.setInt p 1 else s
  let s := if r.2 && !forced then (s.raise p .STACK_HOT none sensorInfo).setInt p 2 else s
  ((s.setP p Reg.MEMC_STAT 31 30 r.1).setP p Reg.MEMC_STAT 29 29 (b2n r.2)).setP p Reg.MEMC_STAT 28 28 (b2n held)

/-- The self-test of a stack's sensors at cold reset (R296): those that fail are invalid, and no temperature is read. -/
def State.selfTest (s : State) (k : Nat) (bad : List Nat) : State :=
  (s.sensorCheck k ((List.range 17).map fun i => if bad.contains i then none else some 0)).setBand k none

/-- One sample of a stack's sensors. -/
def State.tempSample (s : State) (k : Nat) (l : List (Option Int)) : State :=
  let p := Pg.stack k
  let s := s.sensorCheck k l
  let t := hottest l
  let s := (match t with
    | some x => s.setTemp k x
    | none => s).setBand k t
  match t with
  | some x =>
    if 440 ≤ x then
      let s := (s.raise p .STACK_TRIP none sensorInfo).abortFrame (errCode .STACK_TRIP .memc)
      s.trip 1 (5 + k) (unsigned 16 x)
    else s
  | none => s

/-- R291: the memory controller, part of its stack's domain, samples while the domain is on. -/
def execStackTempSample (t : Nat) (stack : Fin 12) (readings : List (Option Int)) (s : State) : Host.Outcome State Fault Refusal :=
  let s := s.begin.passTime t
  .next (if s.domainOn (160 + stack.val) then s.tempSample stack.val (sampleOf readings) else s)

/-- R303: every count of a watch table halves, 2^(16 + WATCH_AGE) frames after it last did. -/
def execWatchAgeHalving (stack : Fin 12) (s : State) : Host.Outcome State Fault Refusal :=
  let s := s.begin
  let k := stack.val
  if (s.stackOf k).halved + 2 ^ (16 + s.fldP (Pg.stack k) Reg.MEMC_CFG 7 4) ≤ s.frameNum then
    let s := s.halveWatch k
    .next (s.setStack k { s.stackOf k with halved := s.frameNum })
  else .next s

/-- The bursts still to copy of the row under remap, in order; copy j is the first of them. -/
def State.remapRest (s : State) (k : Nat) (ecc : List BurstEvent) : Nat → Nat → State
  | _, 0 => s
  | j, n + 1 =>
    match (s.stackOf k).remap with
    | some m => if m.todo.isEmpty then s else (s.remapStep k (burstEvent ecc (2 * j)) (burstEvent ecc (2 * j + 1))).remapRest k ecc (j + 1) n
    | none => s

/-- R304, R306: the copies of the row under remap are made, as many as are due, and what they meet; an uncorrectable error of a read abandons the remap. None
is made while the stacks are in self-refresh (R598). -/
def execRemapCopyDone (t : Nat) (stack : Fin 12) (ecc : List BurstEvent) (s : State) : Host.Outcome State Fault Refusal :=
  let s := s.begin.passTime t
  .next (if s.pwr.coast.isSome then s
    else s.remapRest stack.val ecc 0 (match (s.stackOf stack.val).remap with
      | some m => m.todo.length
      | none => 0))

/-! ## DRAS (R311 to R322) -/

/-- What a test command finds: the failing connections of CONN_TEST, the failing bits of ROW_TEST, the bits of its row that READ_ROW finds wrong, or nothing
said: a free value stands for a test's result, and a row reads right. -/
inductive DrasFind
  | free
  | conns (bad : List Nat)
  | bits (n : Nat)
  | wrong (l : List Nat)
  deriving DecidableEq, Repr

/-- The error of R311, in the DRAS page. -/
def State.drasBlock (s : State) (die : Nat) : State := s.raise (Pg.dras die) .DRAS_TEST_BLOCK none 0

/-- R311: whether a write sets TEST for a stack that a resident image reaches. -/
def State.testReached (s : State) (die v : Nat) : Bool :=
  (List.range 3).any fun i => bit v i && !bit (s.num (Pg.dras die) Reg.DRAS_CTRL) i && s.slots.any fun x => s.imageReaches x (3 * die + i)

/-- Connections that fail: as found, or each by a free value. -/
def State.failing (s : State) (f : DrasFind) : List Nat × State :=
  match f with
  | .conns l => (l.filter fun k => decide (k < 280), s)
  | _ =>
    let n := s.free
    ((List.range 280).filter fun k => Config.freeBool (n + k), { s with free := n + 280 })

/-- Failing bits: as found, or a free value. -/
def State.failBits (s : State) (f : DrasFind) : Nat × State :=
  match f with
  | .bits n => (min n 0xFFFF, s)
  | _ =>
    let (k, s) := s.draw
    (Config.freeNat k % 65536, s)

/-- The bytes of a window of register space words, and the words set from bytes. -/
def State.windowBytes (s : State) (off n : Nat) : List Byte := (List.range (n / 4)).flatMap fun i => leBytes 4 (s.rd (off + 4 * i)).toNat

def State.setWindow (s : State) (off : Nat) (l : List Byte) : State :=
  (List.range ((l.length + 3) / 4)).foldl (fun (s : State) i => s.wr (off + 4 * i) (BitVec.ofNat 32 (leAt l (4 * i) 4))) s

def dieBase (d : Nat) : Nat := 0x1000000 + d * 0x800000

def rowBufferOff (d : Nat) : Nat := dieBase d + 0x0E0000

def connResultOff (d site ch : Nat) : Nat := dieBase d + 0x0E2000 + 64 * (site * 64 + ch)

/-- The target of a command (R322). -/
structure DrasTarget where
  stack : Nat
  ch : Nat
  bank : Nat
  row : Nat
  deriving DecidableEq, Repr

def State.drasTarget (s : State) (die site : Nat) : DrasTarget :=
  let p := Pg.dras die
  ⟨3 * die + site, s.fldP p Reg.DRAS_ADDR 29 24, s.fldP p Reg.DRAS_ADDR 20 16, s.fldP p Reg.DRAS_ADDR 12 0⟩

def DrasTarget.ok (x : DrasTarget) : Bool := decide (x.bank ≤ 16) && decide (x.row < 6176)

/-- The wrong bits of a row, numbered from bit 0 of its byte 0. -/
def DrasFind.flips : DrasFind → List Nat
  | .wrong l => (l.filter fun b => decide (b < 65536)).eraseDups
  | _ => []

/-- Wrong bits in ECC word w of a row (R299). -/
def flipsIn (l : List Nat) (w : Nat) : Nat := l.countP fun b => b / 256 == w

/-- What the on-die code finds in burst k of a row (R299 to R301): a word with two wrong bits or more cannot be corrected. -/
def rowFinds (l : List Nat) (k : Nat) : Option BurstErr :=
  let words := (List.range 64).map fun i => flipsIn l (64 * k + i)
  if words.any fun n => decide (2 ≤ n) then some (.ue false) else if words.any fun n => n == 1 then some .onDie else none

/-- READ_ROW: the physical row, spare rows and spare banks included, into the row buffer. With RAW it is read as it stands, wrong bits and all; without, the code
corrects a word with one wrong bit, and a word with more reads as free bytes. -/
def State.drasRead (s : State) (die : Nat) (x : DrasTarget) (raw : Bool) (l : List Nat) : State × Bool :=
  let (k, s) := s.draw
  let row : RowId := ⟨x.ch, x.bank, x.row⟩
  let bytes := (List.range 8192).map fun b =>
    let v := s.memAt (physKey x.stack x.ch x.bank x.row b)
    if raw then v ^^^ BitVec.ofNat 8 ((l.filter fun i => i / 8 == b).foldl (fun n i => n + 2 ^ (i % 8)) 0)
    else if 2 ≤ flipsIn l (b / 32) then Config.freeByte k b else v
  let met := if raw then [] else (List.range 4).filterMap fun j => (rowFinds l j).map fun e => (j, e)
  let s := met.foldl (fun (s : State) q => s.rowErr x.stack row (rowAddr x.stack (s.stackOf x.stack) row + 2048 * q.1) 0 false false q.2) s
  (s.setWindow (rowBufferOff die) bytes, met.any fun q => q.2 == .ue false)

/-- WRITE_ROW. -/
def State.drasWrite (s : State) (die : Nat) (x : DrasTarget) : State :=
  ((s.windowBytes (rowBufferOff die) 8192).zip (List.range 8192)).foldl
    (fun (s : State) q => s.setCell (physKey x.stack x.ch x.bank x.row q.2) q.1) s

/-- CONN_TEST: bit k of the result window is 1 when connection k failed. -/
def State.connResult (s : State) (die site ch : Nat) (bad : List Nat) : State :=
  (List.range 16).foldl (fun (s : State) w =>
    s.wr (connResultOff die site ch + 4 * w)
      (BitVec.ofNat 32 ((List.range 32).foldl (fun m b => m + b2n (decide (32 * w + b < 280) && bad.contains (32 * w + b)) * 2 ^ b) 0))) s

/-- What a command does and finds: the state, whether it fails, and RESULT. A target or an argument outside its range does nothing and fails. -/
def State.drasAction (s : State) (die op site : Nat) (raw : Bool) (f : DrasFind) : State × Bool × Nat :=
  let x := s.drasTarget die site
  let t := s.stackOf x.stack
  let arg := s.num (Pg.dras die) Reg.DRAS_ARG
  let r : RowId := ⟨x.ch, x.bank, x.row⟩
  if op = 6 then
    let (bad, s) := s.failing f
    (s.connResult die site x.ch bad, !bad.isEmpty, bad.eraseDups.length)
  else if op = 8 then (s.applyStackRepairs x.stack, false, 0)
  else if op = 4 then
    if x.bank < 16 then
      (s.setStack x.stack { t with banks := (x.ch, x.bank) :: t.banks.filter fun b => !(b.1 == x.ch) }, false, 0)
    else (s, true, 0)
  else if op = 5 then
    let conn := bits arg 8 0
    let spare := bits arg 24 16
    if conn < 272 ∧ 272 ≤ spare ∧ spare < 280 then
      (s.setStack x.stack { t with conns := (x.ch, conn, spare) :: t.conns.filter fun c => !(c.1 == x.ch && (c.2.1 == conn || c.2.2 == spare)) }, false, 0)
    else (s, true, 0)
  else if !x.ok then (s, true, 0)
  else if op = 1 then
    let (s, fail) := s.drasRead die x raw f.flips
    (s, fail, 0)
  else if op = 2 then (s.drasWrite die x, false, 0)
  else if op = 3 then
    let spare := bits arg 12 0
    if 6144 ≤ spare ∧ spare < 6176 ∧ x.row < 6144 then
      (s.setStack x.stack { t with rows := (r, spare) :: t.rows.filter fun q => !(q.1 == r) }, false, 0)
    else (s, true, 0)
  else if op = 7 then
    let (n, s) := s.failBits f
    (s.lose (physKey x.stack x.ch x.bank x.row 0) 8192 true, decide (n ≠ 0), n)
  else (s, true, 0)

/-- R312, R322: a write of DRAS_CMD. -/
def State.drasCommand (s : State) (die v : Nat) (f : DrasFind) : State :=
  let p := Pg.dras die
  let op := bits v 31 28
  let site := bits v 27 26
  let s := s.setP p Reg.DRAS_STAT 30 30 0
  if (s.dras.getD die none).isSome ∨ !bit (s.num p Reg.DRAS_CTRL) site then (s.setP p Reg.DRAS_STAT 29 29 1).drasBlock die
  else
    let (s, fail, result) := s.drasAction die op site (bit v 25) f
    let s := ((s.setP p Reg.DRAS_STAT 31 31 1).setP p Reg.DRAS_STAT 29 29 0).setP p Reg.DRAS_STAT 17 16 site
    { s with dras := s.dras.set die (some ⟨op, site, fail, result⟩) }

/-- R312: the running command of a die ends. -/
def execDrasCommandEnd (t : Nat) (die : Fin 4) (s : State) : Host.Outcome State Fault Refusal :=
  let s := s.begin.passTime t
  let p := Pg.dras die.val
  match s.dras.getD die.val none with
  | none => .next s
  | some r =>
    let s := { s with dras := s.dras.set die.val none }
    let s := ((s.setP p Reg.DRAS_STAT 31 31 0).setP p Reg.DRAS_STAT 30 30 1).setP p Reg.DRAS_STAT 29 29 (b2n r.fail)
    .next (s.setP p Reg.DRAS_STAT 15 0 r.result)

end Sys2Proof.Machine
end

