-- ==== Sys2Proof/Machine/BringUp.lean ====
section
/-!
DEFINITION. Resets and bring-up (R3, R4, R639, R661, R668 to R671): power-up and its steps, boot, warm reset, the loss of the input and of the reference.
-/
namespace Sys2Proof.Machine

def State.setPhase (s : State) (p : Phase) : State := { s with boot := { s.boot with phase := p } }

/-- SETTLE of CLK_STAT as the straps give it (R593). -/
def State.strapSettle (s : State) (settle : Nat) : State := s.setP Pg.clk Reg.CLK_STAT 2 0 settle

/-! ## Cold reset -/

/-- What the Granary holds without power: its committed generations, the numbers given and the write budget (R554, R560). -/
def Granary.kept (g : Granary) : Granary := { g with dir := g.dir.map (fun x => x.filter Generation.committed), run := none, command := none }

/-- What the flash dies hold for the security controller (R637, R638). -/
def Security.kept (x : Security) : Security :=
  { Security.fresh with a := x.a, b := x.b, prefB := x.prefB, ctr1 := x.ctr1, ctr2 := x.ctr2, keys := x.keys, pendingDebug := x.pendingDebug, bootCnt := x.bootCnt }

/-- Power-up's register reset: only the flash keeps its contents, and what has left the block stays sent. -/
def State.unpowered (s : State) (p : Phase) : State :=
  { State.reset with
      pending := s.pending, steppingB := s.steppingB, wall := s.wall, free := s.free + 1, fog := [⟨0, 2 ^ 50, some s.free, none⟩], out := s.out,
      rep := { s.rep with current := [], waiting := [] }, grn := s.grn.kept, sec := s.sec.kept,
      boot := { State.reset.boot with phase := p, flow := s.boot.flow, wake := s.boot.wake } }

/-- R670 step 1: VAON comes up, the straps are sampled, and the PUF response gives the device seed or does not (R640, R668). -/
def execPowerUp (t : Nat) (settle : Fin 8) (nodeboot release puf : Bool) (s : State) : Host.Outcome State Fault Refusal :=
  let s := s.begin
  let s := { s with wall := max s.wall t }
  let s := s.unpowered (if release then .settling else .held)
  let s := s.setSec { s.sec with seeded := puf }
  let s := { s with boot := { s.boot with nodeboot := nodeboot } }
  .next (s.strapSettle settle)

/-- R672: the removal of VIN; only the flash keeps its contents. -/
def execVinRemoval (t : Nat) (s : State) : Host.Outcome State Fault Refusal := .next ((s.begin.passTime t).unpowered .dead)

/-- Whether MOD_RESET_N keeps a register: the trip record and the windows of R633. -/
def modResetKeeps (off : Nat) : Bool := off == Pg.stb.base + Reg.STB_LAST_TRIP || (decide (0x210000 ≤ off) && decide (off < 0x215000))

/-- R669: MOD_RESET_N falls. -/
def execModResetAssert (t : Nat) (s : State) : Host.Outcome State Fault Refusal :=
  let s := s.begin.passTime t
  .next (if s.boot.phase = .dead then s
    else
      let s := s.dropRails
      { s with
          regs := s.regs.filter fun q => modResetKeeps q.1
          eng := Engines.fresh
          pwr := Power.fresh
          stb := { s.stb with truths := List.replicate 64 false, caps := [] } })

/-- R669: MOD_RESET_N rises: THERM_TRIP_N clears, and the sequence goes on from step 2. -/
def execModResetRelease (t : Nat) (settle : Fin 8) (nodeboot : Bool) (s : State) : Host.Outcome State Fault Refusal :=
  let s := s.begin.passTime t
  .next (if s.boot.phase = .held then
      ({ s with boot := { s.boot with phase := .settling, warm := false, tripped := false, pinsTaken := false, nodeboot := nodeboot } }).strapSettle settle
    else s)

/-- R670 step 2: the settle count ends, the Stubble clock starts and the PLLs lock (R594). -/
def execSettleDelayExpiry (t : Nat) (s : State) : Host.Outcome State Fault Refusal :=
  let s := s.begin.passTime t
  .next (if s.boot.phase = .settling then
      let s := (List.range 27).foldl (fun s n => s.setP Pg.clk (Reg.CLK_PLLn_STAT + 4 * n) 31 31 1) s
      (s.setP Pg.clk Reg.CLK_STAT 30 29 3).setPhase .locked
    else s)

/-- R670 step 3: the rails rise and PWR_OK asserts. -/
def execRailSequence (t : Nat) (vin : Nat) (flow : Bool) (s : State) : Host.Outcome State Fault Refusal :=
  let s := s.begin.passTime t
  let s := { s with boot := { s.boot with flow := flow } }
  .next (if s.boot.phase = .locked ∧ 4600 ≤ vin ∧ flow then ({ s with boot := { s.boot with okAt := s.wall, warm := false } }).setPhase .powered else s)

/-! ## The repair map (R310, R562 to R564, R644) -/

/-- The repair map copies are read; one that fails raises MAP_AUTH, and the entries of the best are in force. -/
def State.loadMap (s : State) (f : BootFinds) : State :=
  let r := s.rep
  let a : MapCopy := { r.a with good := r.a.good && f.mapA }
  let b : MapCopy := { r.b with good := r.b.good && f.mapB }
  let s := if a.good then s else (s.raise Pg.sec .MAP_AUTH none 0).authFailed
  let s := if b.good then s else (s.raise Pg.sec .MAP_AUTH none 1).authFailed
  let current := if a.good = true ∧ (b.good = false ∨ b.seq < a.seq) then a.entries else if b.good then b.entries else []
  { s with rep := { current := current, a := a, b := b, waiting := [] } }

/-- The Tiller retirements of the map, in its order; an entry whose coordinates disagree is counted. DESIGN CHOICE (log entry 82): they set no interrupt bit of
R179. -/
def State.mapTillers (s : State) : State :=
  (s.rep.current.filter fun e => entryType e == 0x10).foldl (fun s e =>
    let d := leAt e 1 1
    let n := leAt e 2 1
    if d < 4 ∧ n < 84 ∧ (tillerEntry d n 0).take 6 = e.take 6 then (s.retireNow d n).1 else s.bump Pg.grn Reg.GRN_MAP_BAD_CNT 1) s

/-- The stack entries of the map applied to a stack (R310); what a repair replaces has undefined contents. -/
def State.mapStack (s : State) (k : Nat) : State :=
  let old := s.stackOf k
  let s := s.applyStackRepairs k
  let t := s.stackOf k
  let s := t.rows.foldl (fun s r =>
    let bank := if t.banks.contains (r.1.ch, r.1.bank) then 16 else r.1.bank
    s.lose (physKey k r.1.ch bank r.2 0) 8192 true) s
  let s := (t.banks.filter fun b => !old.banks.contains b).foldl (fun s b => s.lose (physKey k b.1 16 0 0) (6176 * 8192) true) s
  (t.conns.filter fun c => !old.conns.contains c).foldl (fun s c => s.loseChannel k c.1) s

/-! ## Saoth's rules (R623) -/

/-- The conditions of Saoth's firmware. -/
def saothConds : List (Nat × Nat) :=
  [ (0x80000000 + 0x10000000 + 4 * 65536 + 0x28, 20 * 65536 + 420), (0x80000000 + 250 * 65536 + 0x27, 0),
    (0x80000000 + 0x20000000 + 10 * 65536 + 0x14, 4800), (0x80000000 + 0x10000000 + 10 * 65536 + 0x14, 6400),
    (0x80000000 + 25 * 65536 + 0x25, 0), (0x80000000 + 25 * 65536 + 0x26, 0),
    (0x80000000 + 0x10000000 + 4 * 65536 + 0x13, 20 * 65536 + 440), (0x80000000 + 0x30000000 + 65536 + 0x24, 0) ]

/-- The rules: both words of each. -/
def saothRules : List (Nat × Nat) :=
  [ (0x80000000, 0x1000A0C5), (0x80000000, 0x30000000 + 3000), (0x80000000, 0x20000000),
    (0x80000001, 0x1000A0C4), (0x80000001, 0x30000000 + 1000), (0x80000001, 0x20000000),
    (0x80000000 + 0x40000000 + 3 * 256 + 2, 0x100080C6), (0x80000000 + 0x40000000 + 3 * 256 + 2, 0x20000000),
    (0x80000004, 0x40000000), (0x80000005, 0x40000000), (0x80000006, 0x20000000), (0x80000007, 0x20000000) ]

/-- The rule table loaded and put in force; wake group 0 holds every domain. -/
def State.loadRules (s : State) : State :=
  let wr := fun (s : State) (o n : Nat) => s.wr o (BitVec.ofNat 32 n)
  let s := (List.range 64).foldl (fun s c =>
    let w := saothConds.getD c (0, 0)
    wr (wr (wr (wr s (condWord c) w.1) (condWord c + 4) w.2) (condWord c + 8) 0) (condWord c + 12) 0) s
  let s := (List.range 64).foldl (fun s r =>
    let w := saothRules.getD r (0, 0)
    wr (wr s (ruleOff r) w.1) (ruleOff r + 4) w.2) s
  let s := (List.range 64).foldl (fun s i => wr s (0x214000 + 4 * i) (if i < 6 then 0xFFFFFFFF else if i = 6 then 0x7FFFF else 0)) s
  (s.setP Pg.stb Reg.STB_CTRL 0 0 1).stbSync

/-! ## Boot (R639, R670 steps 4 to 7) -/

/-- The cause with which a firmware copy fails, 0 when it passes: stage 1, then stage 2 (R639 steps 4 and 5). -/
def Security.copyCause (x : Security) (b : Bool) (f : BootFinds) : Nat :=
  let c := if b then x.b else x.a
  let one := if b then f.b1.val else f.a1.val
  let two := if b then f.b2.val else f.a2.val
  if one ≠ 0 then one else if c.one.svn < x.ctr1 then 3 else if two ≠ 0 then two else if c.two.svn < x.ctr2 then 3 else 0

/-- Boot halts at a step of R639. -/
def State.haltBoot (s : State) (step : Nat) : State := (s.setP Pg.sec Reg.SEC_BOOT_STAT 19 16 step).setPhase .halted

/-- The ROM enters recovery (R639, R641). -/
def State.recover (s : State) : State := (s.setP Pg.sec Reg.SEC_STAT 26 26 1).setPhase .recovery

/-- READY sets (R670 step 7). -/
def State.setReady (s : State) : State :=
  let s := s.setPhase .ready
  (s.setP Pg.hub Reg.BLK_STAT 0 0 1).setInt Pg.hub 3

/-- The Granary as its controller starts: its start-up scrub begins (R559, R670 step 6), and at cold reset it tests the flash dies again (R543, R554). -/
def State.startGranary (s : State) (cold : Bool) (f : BootFinds) : State :=
  let s := s.setGrn { s.grn.kept with starting := true }
  let s := if cold then
      let s := s.setGrn { s.grn with dies := s.grn.dies.map fun (d : FlashDie) => { d with failed := false, isolated := false } }
      (List.range 8).foldl (fun s n => if (s.grn.dies.getD n FlashDie.fresh).bad > 768 ∨ f.flash.any (fun k => k.val == n) then s.flashFail n else s) s
    else s
  if 3 ≤ s.grn.failures then s.setP Pg.grn Reg.ERR_STAT 2 2 1 else s

/-- Every generator is checked and seeded (R250, R251, R344). -/
def State.seedAll (s : State) (f : BootFinds) : State :=
  let failed := fun (culm : Bool) (d n : Nat) => f.kat.any fun k => k.1 == culm && k.2.1.val == d && k.2.2.val == n
  let s := (List.range 64).foldl (fun s i => s.seedEngine (Pg.awn (i / 16) (i % 16)) (failed false (i / 16) (i % 16))) s
  (List.range 12).foldl (fun s i => s.seedEngine (Pg.culm (i / 3) (i % 3)) (failed true (i / 3) (i % 3))) s

/-- The hub controller runs: the repair map, links, stacks, at cold reset the self-test of the sensors, ports, the Granary, the engines, the rule table and the locks; then READY, which waits for
entropy (R655). -/
def State.bringUp (s : State) (cold : Bool) (f : BootFinds) : State :=
  let s := (List.range domainCount).foldl (fun s n => s.setDom n 31 30 2) s
  let s := (s.loadMap f).mapTillers
  let s := (List.range 4).foldl (fun s n =>
    (s.linkTrainStart n).linkTrainEnd n ((f.lanes.filter fun l => l.1.val == n).map fun l => (b2n l.2.1, l.2.2.val))) s
  let s := (List.range 12).foldl State.mapStack s
  let s := (List.range 12).foldl (fun (s : State) k =>
    if cold then s.selfTest k ((f.sensors.filter fun q => q.1.val == k).map fun q => q.2.val) else s) s
  let s := if s.pwr.coast.isNone then (List.range 24).foldl State.portTrain s else s
  let s := (s.startGranary cold f).seedAll f
  let s := s.loadRules
  let scope := s.fldP Pg.sec Reg.SEC_DBG_STAT 3 0
  let lock := fun (s : State) (p : Page) => s.setP p Reg.LOCK 0 0 1
  let s := if bit scope 0 then s else (List.range 4).foldl (fun s d => lock s (Pg.dras d)) s
  let s := if bit scope 1 then s else lock s Pg.stb
  let s := if bit scope 2 then s else lock s Pg.pwr
  if s.entropyFailed then s.setPhase .powered else s.setReady

/-- A firmware copy runs (R639 step 6): a pending debug unlock becomes active and leaves the replay-protected area (R649). -/
def State.runCopy (s : State) (b cold : Bool) (f : BootFinds) : State :=
  let x := s.sec
  let c := if b then x.b else x.a
  let s := s.setSec { x with running := some b, bootCnt := x.bootCnt + 1, pendingDebug := none }
  let s := s.setP Pg.hub Reg.BLK_STAT 2 1 (2 * b2n b + 1)
  let s := s.wrP Pg.hub Reg.HUB_CTLR_VER (BitVec.ofNat 32 c.two.version)
  let s := s.setP Pg.sec Reg.SEC_BOOT_STAT 31 28 3
  let s := match x.pendingDebug with
    | some k => ((s.setP Pg.sec Reg.SEC_DBG_STAT 31 31 1).setP Pg.sec Reg.SEC_DBG_STAT 3 0 k).setInt Pg.sec 3
    | none => s
  s.bringUp cold f

/-- The cause of a failing copy recorded. -/
def State.copyFails (s : State) (b : Bool) (cause : Nat) : State :=
  (if b then s.setP Pg.sec Reg.SEC_BOOT_STAT 23 20 cause else s.setP Pg.sec Reg.SEC_BOOT_STAT 27 24 cause).authFailed

/-- The ROM's order of R639. -/
def State.bootRun (s : State) (cold : Bool) (f : BootFinds) : State :=
  if !f.chain then (s.raise Pg.sec .BOOT_AUTH none 0).authFailed.haltBoot 1
  else if !s.sec.seeded then s.haltBoot 2
  else
    let s := s.setP Pg.sec Reg.SEC_STAT 31 31 1
    let s := if s.entropyFailed then s else s.setP Pg.sec Reg.SEC_STAT 30 30 1
    let s := ((s.newSecNonce).newHoNonce 0).newHoNonce 1
    if !f.rpa then (s.raise Pg.sec .ROLLBACK none 0).haltBoot 3
    else if cold ∧ s.boot.nodeboot then s.recover
    else
      let first := s.sec.prefB
      let k := s.sec.copyCause first f
      if k = 0 then s.runCopy first cold f
      else
        let s := s.copyFails first k
        let j := s.sec.copyCause (!first) f
        if j = 0 then s.runCopy (!first) cold f
        else
          let s := s.copyFails (!first) j
          (s.raise Pg.sec (if k = 3 then .ROLLBACK else .BOOT_AUTH) none k).recover

/-- R670 step 4 onward, after a cold reset or after a warm reset that a register write commanded. -/
def execBoot (t : Nat) (finds : BootFinds) (s : State) : Host.Outcome State Fault Refusal :=
  let s := s.begin.passTime t
  .next (if s.boot.phase = .powered ∧ s.fldP Pg.hub Reg.BLK_STAT 1 1 = 0 then s.bootRun (!s.boot.warm) finds else s)

/-- R655: the source passes its tests; READY sets when it waited. -/
def execEntropyTestPass (t : Nat) (s : State) : Host.Outcome State Fault Refusal :=
  let s := (s.begin.passTime t).entropyBack
  .next (if s.boot.phase = .powered ∧ s.fldP Pg.hub Reg.BLK_STAT 1 1 = 1 then s.setReady else s)

/-! ## Warm reset (R4, R377) -/

/-- A write through the standby port refused (R391). -/
def State.standbyReject (s : State) (port : Nat) : State :=
  ((s.bump (Pg.pcie port) Reg.PCIE_STANDBY_REJ_CNT 1).deny (Pg.pcie port) .NOT_OWNER none 0).reported port

/-- The registers after a warm reset. -/
def warmRegs (l : List (Nat × Word)) : List (Nat × Word) :=
  l.filterMap fun q =>
    let keep := if q.1 = Pg.clk.base + Reg.CLK_STAT then 0x78000007
      else if q.1 = Pg.sec.base + Reg.SEC_STAT then 0x60000000
      else if Pg.clk.base + Reg.CLK_PLLn_STAT ≤ q.1 ∧ q.1 < Pg.clk.base + Reg.CLK_PLLn_STAT + 108 then 0xC0000000
      else warmKeep q.1
    let v := (q.2 &&& keep) ||| (regReset q.1 &&& ~~~keep)
    if v = regReset q.1 then none else some (q.1, v)

/-- A stack held at band 4x with its forced flag set stays so until the next cold reset (R296). -/
def State.keepHeld (s : State) : State :=
  (List.range 12).foldl (fun (s : State) k => if (s.stackOf k).held then s.setP (Pg.stack k) Reg.MEMC_STAT 31 28 0xB else s) s

/-- The warm reset itself, before the hub controller boots: a pending handover passes first (R396); transfers in flight end with their destinations
unspecified (R284, R554); stack memory stays, scratchpads are left undefined. -/
def State.warmReset (s : State) : State :=
  let s := match (List.range 2).find? fun n => s.fldP (Pg.pcie n) Reg.PCIE_OWN 1 1 == 1 with
    | some n => s.passOwnership n
    | none => s
  let s := s.pendingRanges.foldl (fun (s : State) r => s.fogRange r.1 r.2) s
  let s := s.traffic.foldl (fun (s : State) x => match x.issuer with
    | .checkpoint | .restore => s
    | _ => s.fogRange x.dst x.len) s
  let s := match s.grn.run with
    | some r => if r.restore then r.places.foldl (fun (s : State) (p : Nat × Nat) => s.fogRange p.1 p.2) s else s
    | none => s
  let s := (s.pwr.trans.filter fun (x : Transit) => x.target == 0).foldl (fun (s : State) (x : Transit) => s.loseDomain x.dom) s
  let s := s.flushMaps
  let s := (List.range 2).foldl State.pcieDown s
  let s := (List.range 4).foldl (fun (s : State) d => s.lose (spadBase d) spadBytes true) s
  State.keepHeld { s with
      regs := warmRegs s.regs
      latch := [], eng := { Engines.fresh with statSeq := s.eng.statSeq, fleet := { Fleet.fresh with spk := s.eng.fleet.spk } }
      host := { HostSide.fresh with perst := s.host.perst }
      slots := [], running := none, traffic := [], records := []
      stk := s.stk.map fun (x : Stack) =>
        { Stack.fresh with rows := x.rows, banks := x.banks, conns := x.conns, sampled := x.sampled, held := x.held, halved := x.halved }
      links := List.replicate 4 Link.fresh, fab := Fabric.fresh, coll := s.coll.remembered
      grn := s.grn.kept
      boot := { s.boot with phase := .powered, warm := true }
      pwr := { Power.fresh with coast := s.pwr.coast, pins := s.pwr.pins }
      sec := { s.sec with running := none, seeding := [], nonceDue := false, hoNonceDue := [], staging := [], cmd := none, requests := [] }
      seed := none, dras := List.replicate 4 none }

/-- Whether a warm reset can be commanded: the hub is powered and its firmware, or the ROM, answers. -/
def Phase.commandable (p : Phase) : Bool := p == .powered || p == .halted || p == .recovery || p == .ready

/-- R377. -/
def execWarmReset (t : Nat) (port : Fin 2) (tap : Bool) (finds : BootFinds) (s : State) : Host.Outcome State Fault Refusal :=
  let s := s.begin.passTime t
  .next (if !s.boot.phase.commandable then s
    else if !tap && port.val != s.owner then s.standbyReject port
    else { s.warmReset.bootRun false finds with resp := .done })

/-! ## Losing the input (R661) -/

/-- VIN falls below 42 V: the rails go with the effects of a trip, without a trip record. -/
def execVinLow (t : Nat) (s : State) : Host.Outcome State Fault Refusal :=
  let s := s.begin.passTime t
  .next (if s.boot.phase.commandable then
      let was := s
      let s := s.dropRails.wrP Pg.clk Reg.CLK_STAT (was.rdP Pg.clk Reg.CLK_STAT &&& 0x78000007)
      let s := (List.range 27).foldl (fun s n => s.setP Pg.clk (Reg.CLK_PLLn_STAT + 4 * n) 31 30 (was.fldP Pg.clk (Reg.CLK_PLLn_STAT + 4 * n) 31 30)) s
      s.setPhase .locked
    else s)

/-! ## Losing the reference (R597 to R599) -/

/-- R598. -/
def execRefLost (t : Nat) (pll : Option (Fin 27)) (s : State) : Host.Outcome State Fault Refusal :=
  let s := s.begin.passTime t
  .next (if (s.boot.phase.commandable ∨ s.boot.phase = .locked) ∧ s.pwr.coast.isNone then
      let s := s.setP Pg.clk Reg.CLK_STAT 27 27 1
      let num := s.frameNum
      let s := s.abortFrame (errCode .REF_LOST .clk)
      let s := s.raise Pg.clk .REF_LOST none (match pll with
        | some n => n.val
        | none => 0xFF)
      let s := (List.range 24).foldl (fun s p => (s.setPort p { s.port p with line := if (s.port p).line = .off then .off else .down }).portSync p) s
      let s := (List.range 2).foldl State.pcieDown s
      let s := (s.setP Pg.clk Reg.CLK_STAT 31 28 9).bump Pg.clk Reg.CLK_REF_LOST_CNT 1
      let s := s.set64 Pg.clk Reg.CLK_LOST_FRAME_LO num
      let s := (List.range 27).foldl (fun s n =>
        let o := Reg.CLK_PLLn_STAT + 4 * n
        let mine := match pll with
          | some k => k.val == n
          | none => false
        let s := s.setP Pg.clk o 31 30 1
        if mine then s.setP Pg.clk o 7 0 (min 255 (s.fldP Pg.clk o 7 0 + 1)) else s) s
      (s.setPwr { s.pwr with coast := some s.wall }).setInt Pg.clk 1
    else s)

/-- R599. -/
def execReferenceRelock (t : Nat) (s : State) : Host.Outcome State Fault Refusal :=
  let s := s.begin.passTime t
  .next (match s.pwr.coast with
    | none => s
    | some began =>
      let s := (s.setP Pg.clk Reg.CLK_STAT 30 27 12).bump Pg.clk Reg.CLK_COAST_US ((s.wall - began) / 2000)
      let s := (List.range 27).foldl (fun s n => s.setP Pg.clk (Reg.CLK_PLLn_STAT + 4 * n) 31 30 2) s
      let s := (s.setPwr { s.pwr with coast := none }).setInt Pg.clk 2
      if s.boot.phase = .ready then
        let s := (List.range 24).foldl (fun s p => if (s.port p).line = .down then s.portTrain p else s) s
        let s := (List.range domainCount).foldl (fun s n => if s.domainOn n then s.setDom n 19 16 4 else s) s
        s.setFrame { s.eng.frame with kind := .none }
      else s)

end Sys2Proof.Machine
end

