-- ==== Sys2Proof/Machine/Culm.lean ====
section
/-!
DEFINITION. Culm words at issue (R326 to R331, R346 to R348, R571).
-/
namespace Sys2Proof.Machine

/-- SCALE of an INT32 tensor that starts on a granule of an accumulator region, at issue (R194). -/
def State.tensorScale (s : State) (fmt a : Nat) : Nat :=
  if fmt ≠ 6 then 0
  else match regionOf a with
    | some (.spad d, base, _) =>
      let o := a - base
      if o / 0x200000 < 80 ∧ o % 0x200000 < 0x100000 ∧ o % 0x1000 = 0 then s.tdesc d (o / 0x200000) (o % 0x200000 / 0x1000) % 32 else 0
    | _ => 0

/-- The destination of element e, where a disagreement is reported (R572). -/
def culmElemAddr (op : Nat) (b : CulmBlock) (e : Nat) : Nat :=
  let (a, f) := if op ≤ 3 then (b.a, b.fmtA) else (b.d, b.fmtD)
  a + e * (match Fmt.ofCode f with
    | some f => f.width
    | none => 8) / 8

/-- The stack bursts that an operation writes: those of its arrays, then those of its small records. -/
def culmWrites (op : Nat) (b : CulmBlock) (prog : List (List Byte)) : List Nat :=
  let run := fun (a n : Nat) => if a < 0x00C000000000 then (List.range (ceilDiv (a % 2048 + n) 2048)).map fun k => a / 2048 * 2048 + 2048 * k else []
  ((culmArrays op b prog).filter fun x => x.wr).flatMap (fun x => run x.addr x.len)
    ++ ((culmRecords op b).filter fun r => r.2.2).flatMap fun r => run r.1 r.2.1

/-- The operation issues: it computes at the start of its span; errors of its reads fall due as the span starts,
those of its writes, numbered after the reads, as it ends, and a disagreement within it. -/
def State.startCulm (s : State) (w : SWord) (op : Nat) (dis : Option Nat) (ecc : List BurstEvent) : State :=
  let a := culmArgs w.args
  let raw := s.culmBytes (s.issueCtx w.die) w.args
  let b := culmBlock (raw.take 128)
  let prog := blocksOf 8 b.mlen (raw.drop 128)
  let d := w.die.val
  let u := w.unit.toNat
  let bursts := culmBursts op b prog
  let writes := culmWrites op b prog
  let begin_ := 40 * a.fslot
  let s := ecc.foldl (fun s e => match bursts[e.burst]? with
    | some x => s.later begin_ (.burst x false e.err)
    | none => match writes[e.burst - bursts.length]? with
      | some x => s.later (a.spanEnd - 1) (.burst x true e.err)
      | none => s) s
  let c : CulmOp := { die := d, unit := u, stamp := w.stamp.toNat, op := op, args := w.args, block := raw, scale := s.tensorScale b.fmtA b.a,
                      stop := a.spanEnd }
  let s := { s with eng := { s.eng with culms := s.eng.culms ++ [c] } }
  match dis with
  | some e =>
    if s.prot = 1 ∧ e < b.n then
      let cyc := min (a.spanEnd - 1) (begin_ + 40 + ceilDiv ((e + 1) * culmCpe op b 1) 1024)
      s.later cyc (.abort (Pg.culm d u) (errCode .GUARD_MISMATCH .culm) (some (culmElemAddr op b e)) (s.culmInfo op) (some (guardWord 3 d u u)))
    else s
  | none => s

def State.culmWord (s : State) (w : SWord) (op : Nat) (dis : Option Nat) (ecc : List BurstEvent) : State :=
  s.issue w 3 op 0 (fun s => ⟨Pg.culm w.die w.unit.toNat, s.culmInfo op⟩) State.culmCheck (fun s => s.startCulm w op dis ecc)

/-- OP 0x01. -/
def execOpt (w : SWord) (dis : Option Nat) (ecc : List BurstEvent) (s : State) : Host.Outcome State Fault Refusal := .next (s.culmWord w 1 dis ecc)
/-- OP 0x02. -/
def execAmax (w : SWord) (dis : Option Nat) (ecc : List BurstEvent) (s : State) : Host.Outcome State Fault Refusal := .next (s.culmWord w 2 dis ecc)
/-- OP 0x03. -/
def execCount (w : SWord) (dis : Option Nat) (ecc : List BurstEvent) (s : State) : Host.Outcome State Fault Refusal := .next (s.culmWord w 3 dis ecc)
/-- OP 0x04. -/
def execCulmAdd (w : SWord) (dis : Option Nat) (ecc : List BurstEvent) (s : State) : Host.Outcome State Fault Refusal := .next (s.culmWord w 4 dis ecc)
/-- OP 0x05. -/
def execQuant (w : SWord) (dis : Option Nat) (ecc : List BurstEvent) (s : State) : Host.Outcome State Fault Refusal := .next (s.culmWord w 5 dis ecc)
/-- OP 0x06. -/
def execDequant (w : SWord) (dis : Option Nat) (ecc : List BurstEvent) (s : State) : Host.Outcome State Fault Refusal := .next (s.culmWord w 6 dis ecc)

end Sys2Proof.Machine
end

