-- ==== Sys2Proof/Machine/Fence.lean ====
section
/-!
DEFINITION. The firewall of the fenced dies (R373 to R376) and the sideband windows of the optical engines (R467).
-/
namespace Sys2Proof.Machine

/-- R374 to R376: a rejected transaction of a fenced die; at the limit the die is isolated, its port marked down or its flash die failed. -/
def State.fenceReject (s : State) (id kind : Nat) (addr : Option Nat) : State :=
  if !fenceId id ∨ s.isolated id then s
  else
    let s := s.fenceLog id kind addr
    if s.fenceDue id then
      let s := (s.setP Pg.hub Reg.HUB_FENCE_ISO (isoBit id) (isoBit id) 1).setInt Pg.hub 2
      if id < 24 then s.portSync id
      else
        let s := match s.grn.dies[id - 0x20]? with
          | some d => s.setGrn { s.grn with dies := s.grn.dies.set (id - 0x20) { d with isolated := true } }
          | none => s
        s.flashFail (id - 0x20)
    else s

/-- A rejection put in its place among those of its cycle: by ascending firewall ID (R375). -/
def insertTry (x : FenceTry) : List FenceTry → List FenceTry
  | [] => [x]
  | y :: l => if x.id < y.id then x :: y :: l else y :: insertTry x l

/-- The rejections of one cycle, in the order in which they are logged. -/
def tryOrder (l : List FenceTry) : List FenceTry := l.foldl (fun o x => insertTry x o) []

/-- R374, R375. -/
def execFenceReject (t : Nat) (tries : List FenceTry) (s : State) : Host.Outcome State Fault Refusal :=
  .next ((tryOrder tries).foldl (fun (s : State) x => s.fenceReject x.id x.kind x.addr) (s.begin.passTime t))

/-- Whether an offset of a FAB page is a register that the page's engine writes (R467). -/
def sidebandReg (o : Nat) : Bool := o == Reg.FAB_SB_TEMP || (decide (Reg.FAB_SB_RXPWRW ≤ o) && decide (o < Reg.FAB_SB_RXPWRW + 36) && o % 4 == 0)

/-- R467: an engine writes its sideband window; a sideband address outside it is rejected (R374), and an isolated engine's writes are dropped (R376). -/
def execEngineSidebandWrite (port : Fin 24) (off : BitVec 12) (v : BitVec 32) (s : State) : Host.Outcome State Fault Refusal :=
  let s := s.begin
  let o := off.toNat
  .next (if s.isolated port then s
    else if o < Reg.FAB_SB_TEMP then s.fenceReject port 3 none
    else if sidebandReg o then s.wrP (Pg.fab port) o (BitVec.ofNat 32 (v.toNat % 65536)) else s)

end Sys2Proof.Machine
end

