-- ==== Sys2Proof/Machine/Views.lean ====
section
/-!
DEFINITION. What registers and table windows read (R15, R16, R18 to R21, R29): the values that the page keeps, and those that are formed from the block's state.
-/
namespace Sys2Proof.Machine

/-! ## Engines -/

/-- TLR_STAT (R176): rows of the pass in flight that the hold buffer keeps, whether its replay holds the counter, and whether a pass is in flight. -/
def State.tlrStat (s : State) (d n : Nat) : Nat :=
  let mine := s.eng.passes.filter fun p => p.die == d && (s.tillerPages d p.phys p.logical).contains (Pg.tlr d n)
  let holds := s.eng.frame.frozen.filter fun f => f.reason == .replay && f.die == d && f.stop.any fun e => decide (s.wall < e)
  -- A squashed pass has its rows restored, and writes them anew from its re-issue in the freeze (R160, R161).
  let held := fun (p : Pass) => min (s.eng.frame.count - (p.stamp + 143)) (p.redo.elim (s.eng.frame.count) fun r => s.wall - (r + 143))
  let rows := (mine.map fun p => min (passArgs p.args).m (held p)).foldl max 0
  rows * 256 + 2 * b2n (!holds.isEmpty && mine.any fun p => p.redo.isSome) + b2n (!mine.isEmpty)

/-- TLR_TDESCg (R178). -/
def State.tdescView (s : State) (d n g : Nat) : Nat :=
  let st := s.tlrMap d n 31 30
  let l := s.tlrMap d n 22 16
  if st = 1 ∨ st = 3 ∨ 80 ≤ l then 0 else s.tdesc d l g

/-- Whether an engine's generators are seeded and running. -/
def State.seeded (s : State) (p : Page) : Bool := s.eng.gens.any fun g => g.page == p

/-- The tags of a page's operations whose last read is done and whose results are not yet visible. -/
def State.ending (s : State) (p : Page) : List Nat := s.eng.due.filterMap fun q => match q.eff with
  | .ends g tag => if g = p then some tag else none
  | _ => none

/-- AWN_STAT (R268). In Guarded mode a shadow runs its unit's chains. -/
def State.awnStat (s : State) (d n : Nat) : Nat :=
  let u := if s.prot = 1 ∧ 8 ≤ n then n - 8 else n
  let mine := ((s.eng.chains.filter fun c => c.die == d && c.unit == u).map fun c => (chainPlan c.words).head.rnd) ++ s.ending (Pg.awn d u)
  let rnd := fun (k : Nat) => mine.contains k
  s.fldP (Pg.awn d n) Reg.AWN_STAT 31 31 * 2 ^ 31 + b2n (s.seeded (Pg.awn d n)) * 2 ^ 30 + 4 * b2n (rnd 3) + 2 * b2n (rnd 2) + b2n (!mine.isEmpty)

/-- CULM_STAT (R352). -/
def State.culmStat (s : State) (d n : Nat) : Nat :=
  let mine := s.ending (Pg.culm d n) ++ (s.eng.culms.filter fun c => c.die == d && c.unit == n).map fun c => c.op
  let op := mine.headD 0 % 16
  s.fldP (Pg.culm d n) Reg.CULM_STAT 31 31 * 2 ^ 31 + b2n (s.seeded (Pg.culm d n)) * 2 ^ 30 + op * 256 + 2 * b2n (!mine.isEmpty && s.frozen) + b2n (!mine.isEmpty)

/-! ## Stacks -/

/-- MEMC_SPARE_ROWS: the 32 spare rows of each of 17 banks in 64 channels, less those that serve a row, take a copy or are promised by the repair map. -/
def State.spareRows (s : State) (k : Nat) : Nat :=
  let t := s.stackOf k
  let mapped := (s.rep.current.filter fun e => entryType e == 1 && leAt e 1 1 == k).map fun e => (leAt e 2 1, leAt e 3 1, leAt e 6 2)
  let used := t.rows.map (fun r => (r.1.ch, r.1.bank, r.2)) ++ (t.remap.map fun m => (m.row.ch, m.row.bank, m.spare)).toList ++ mapped
  64 * 17 * 32 - used.eraseDups.length

/-! ## Fabric and collectives -/

/-- A word of a send stream's status (R473). -/
def SendStream.word (x : SendStream) (k : Nat) : Nat :=
  if !x.bound then 0
  else match k with
    | 0 => 2 ^ 31 + b2n x.failed * 2 ^ 30 + x.dstream % 256 * 2 ^ 16 + x.dst % 65536
    | 1 => x.next % 2 ^ 24
    | 2 => (match x.cells with
      | c :: _ => c.n
      | [] => x.next) % 2 ^ 24
    | _ => min x.timer.retries 15 * 2 ^ 28 + x.timer.srtt.getD 0 % 2 ^ 24

/-- A word of a receive stream's status (R473). -/
def RecvStream.word (x : RecvStream) (k : Nat) : Nat :=
  if !x.bound then 0
  else match k with
    | 0 => 2 ^ 31 + x.sstream % 256 * 2 ^ 16 + x.src % 65536
    | 1 => x.c % 2 ^ 24
    | 2 => x.p % 2 ^ 24
    | _ => x.lowest % 2 ^ 24

/-- A word of an instance (R517). -/
def Inst.word (x : Inst) (active : Bool) (k : Nat) : Nat :=
  match k with
  | 0 => b2n active * 2 ^ 31 + b2n x.agreed * 2 ^ 30 + b2n x.flag * 2 ^ 29 + b2n x.aborted * 2 ^ 28 + x.epoch % 256 * 2 ^ 16 + x.id % 65536
  | 1 => x.cseq
  | 2 => x.release % 2 ^ 15
  | _ => x.written % 2 ^ 15

def State.instWord (s : State) (i k : Nat) : Nat :=
  match s.coll.insts.find? fun x => x.entry == i with
  | some x => x.word true k
  | none => (match s.coll.ended.find? fun x => x.entry == i with
    | some x => x.word false k
    | none => 0)

/-! ## Slots and trade-offs -/

/-- A word of a slot's status (R539). -/
def State.slotWord (s : State) (n k : Nat) : Nat :=
  match s.slot? n with
  | none => 0
  | some x => (match k with
    | 0 => 2 ^ 31 + b2n (s.running == some n) * 2 ^ 30 + b2n (s.host.switching.any fun y => y.slot == n) * 2 ^ 29
        + b2n (s.host.run.any fun r => r.slot == n) * 2 ^ 28 + x.epoch % 256 * 2 ^ 16 + x.dieMask % 16
    | 1 => x.base % 2 ^ 32
    | 2 => x.base / 2 ^ 32 % 65536
    | _ => min x.runs 0xFFFFFFFF)

/-- TRADE_CKPT_GUIDE (R589). -/
def ckptGuide (written shard life : Nat) : Nat :=
  if shard = 0 ∨ life = 0 then 0
  else
    let n := (budgetBytes - written) / (shard * 10 ^ 9)
    if n = 0 then 0xFFFF else min (ceilDiv (life * 43830) n) 0xFFFF

/-- TRADE_SPARE_TLR: the free Tiller spares of each die. -/
def State.freeTillers (s : State) : Nat :=
  (List.range 4).foldl (fun m d => m + ((List.range 84).countP fun n => s.tlrMap d n 31 30 == 1) * 2 ^ (3 * d)) 0

/-! ## Pages -/

/-- The header registers that are formed (R20, R21, R29). -/
def State.headerView (s : State) (p : Page) (o : Nat) : Option Nat :=
  if o = Reg.BLK_ID then some (0x53470000 + p.ident)
  else if o = Reg.BLK_VER then some ((if s.steppingB then 0x0B000000 else 0x0A000000) + 0x100)
  else if o = Reg.PWR_STATE then some (match domainOf p with
    | some n => s.domain n
    | none => 2)
  else if o = Reg.PWR_REQ then some (match domainOf p with
    | some n => s.domFld n 29 28
    | none => 0)
  else none

/-- The registers of a page that are formed. -/
def State.pageView (s : State) (p : Page) (o : Nat) : Option Nat :=
  match p.kind with
  | .tlr =>
    if o = Reg.TLR_STAT then some (s.tlrStat p.die p.inst)
    else if Reg.TLR_TDESCg ≤ o ∧ o < Reg.TLR_TDESCg + 1024 then some (s.tdescView p.die p.inst ((o - Reg.TLR_TDESCg) / 4))
    else none
  | .awn => if o = Reg.AWN_STAT then some (s.awnStat p.die p.inst) else none
  | .culm => if o = Reg.CULM_STAT then some (s.culmStat p.die p.inst) else if 0x80 ≤ o ∧ p.inst ≠ 0 then some 0 else none
  | .rch =>
    if o = Reg.RCH_STAT then some (s.rchStat p.die)
    else if Reg.RCH_SRn_LO ≤ o ∧ o < Reg.RCH_SRn_LO + 2048 then
      let n := (o - Reg.RCH_SRn_LO) / 8
      some (if (o - Reg.RCH_SRn_LO) % 8 = 0 then s.sreg p.die n % 2 ^ 32 else s.sreg p.die n / 2 ^ 32 % 2 ^ 32)
    else none
  | .memc =>
    let k := 3 * p.die + p.inst
    if o = Reg.MEMC_SPARE_ROWS then some (s.spareRows k)
    else if o = Reg.MEMC_SPARE_STAT then some ((s.stackOf k).banks.length * 1024 + (s.stackOf k).conns.length)
    else if o = Reg.MEMC_STAT then some (setBits (s.num p o) 15 0 (min (s.stackQueued k) 0xFFFF))
    else none
  | .pwr =>
    if o = Reg.PWR_STAT then
      some (((List.range domainCount).countP fun n => s.domain n == 3) + ((List.range domainCount).countP fun n => s.domFld n 27 27 == 1) * 256)
    else none
  | .clk =>
    if o = Reg.CLK_COAST_US then some (min 0xFFFFFFFF (s.num p o + s.pwr.coast.elim 0 fun began => (s.wall - began) / 2000)) else none
  | .d2d => if o = Reg.D2D_FREEZE_CNT then some (min 0xFFFFFFFF (s.num p o + s.eng.frame.linkFrozen p.die s.wall)) else none
  | .rte => if o = Reg.RTE_POOL then some (524288 - s.storeUsed) else none
  | .coll =>
    if o = Reg.COLL_SLOTS then some (8192 - s.slotsUsed) else if o = Reg.COLL_ACTIVE then some s.coll.insts.length else none
  | .trade =>
    if o = Reg.TRADE_CKPT_GUIDE then some (ckptGuide s.grn.written (s.fldP Pg.trade Reg.TRADE_CKPT_CFG 15 0) (s.fldP Pg.trade Reg.TRADE_CKPT_CFG 31 16))
    else if o = Reg.TRADE_SPARE_TLR then some s.freeTillers
    else none
  | .grn => (s.grnView o).map fun w => w.toNat
  | .sec => (s.secView o).map fun w => w.toNat
  | _ => none

/-- A register as it reads: formed, or as kept, with write-only bits 0. -/
def State.regValue (s : State) (p : Page) (o : Nat) : Word :=
  match (if o < 0x40 then s.headerView p o else s.pageView p o) with
  | some n => BitVec.ofNat 32 n
  | none => (match rowOf p.kind o with
    | some r => s.rdP p o &&& ~~~(BitVec.ofNat 32 r.wo)
    | none => 0)

/-! ## Table windows -/

/-- A word of a table window as it reads; off is its register space offset and o its offset in the window. -/
def State.windowValue (s : State) (w : Window) (off o : Nat) : Word :=
  match w with
  | .events | .eventAdd => BitVec.ofNat 32 (s.event (o / 4))
  | .sendStat => BitVec.ofNat 32 ((s.fab.sends.getD (o / 16) SendStream.fresh).word (o % 16 / 4))
  | .recvStat => BitVec.ofNat 32 ((s.fab.recvs.getD (o / 16) RecvStream.idle).word (o % 16 / 4))
  | .instStat => BitVec.ofNat 32 (s.instWord (o / 16) (o % 16 / 4))
  | .slotStat => BitVec.ofNat 32 (s.slotWord (o / 16) (o % 16 / 4))
  | .directory => s.directoryWord o
  | .domains => setFld (s.rd off) 26 26 (b2n (s.sleeping (o / 4)))
  | _ => s.rd off

/-! ## 64-bit counters (R15) -/

/-- The half latched by the latest read of a counter's _LO, by the offset of _HI. -/
def State.latched (s : State) (off : Nat) : Option Word := (s.latch.find? fun q => q.1 == off).map fun q => q.2

end Sys2Proof.Machine
end

