-- ==== Sys2Proof/Machine/Bus.lean ====
section
/-!
DEFINITION. Accesses to register space (R14 to R18, R22, R25, R28 to R32, R63, R371, R391, R641): who may access what, what a read answers, and what a write
does to each register.
-/
namespace Sys2Proof.Machine

/-- How an access reaches register space: BAR0 of a port, the register space alias with the page of the block that issues it, or REGACC of the test access
port. -/
inductive Via
  | port (n : Nat)
  | inside (issuer : Page)
  | tap
  deriving DecidableEq, Repr

/-- The page that captures an error for the issuer (R63, R389, R679). -/
def Via.page : Via → Page
  | .port n => Pg.pcie n
  | .inside p => p
  | .tap => Pg.hub

/-- Whether an access comes by, or acts for, the owner port (R391, R679). -/
def State.byOwner (s : State) : Via → Bool
  | .port n => n == s.owner
  | .inside _ => false
  | .tap => true

/-! ## What denies an access -/

/-- The header and registers of HUB and SEC answer in recovery, on PCIE0 and the test access port (R641, R679). -/
def State.recoveryDenies (s : State) (via : Via) (off : Nat) : Bool :=
  inRecovery s && !(via != .port 1 && (decide (off < 0x1000) || (decide (0x100000 ≤ off) && decide (off < 0x101000))))

/-- The compute die that an offset belongs to (R61). -/
def dieRegion (off : Nat) : Option Nat := if 0x1000000 ≤ off ∧ off < 0x3000000 then some ((off - 0x1000000) / 0x800000) else none

/-- The standby port's writes that R391 allows: INT_EN, INT_STAT, ERR_STAT, PCIE_HO_CMD and the record window of its own page. -/
def standbyMay (port off : Nat) : Bool :=
  let b := (Pg.pcie port).base
  let o := off - b
  decide (b ≤ off) && (o == Reg.INT_EN || o == Reg.INT_STAT || o == Reg.ERR_STAT || o == Reg.PCIE_HO_CMD
    || (decide (Reg.PCIE_HO_REC ≤ o) && decide (o < Reg.PCIE_HO_REC + 192)))

/-- ERR_INFO with which a page captures a refused access to its own registers, by the layout of its chapter: a TLR page names its Tiller's logical number
(R180), an AWN page no stage (R266), a CULM or RCH page the image frame index (R348, R266), a MEMC page a power source, and where no ring, class, stream or
die applies the field says so. -/
def State.refusedInfo (s : State) (p : Page) : Nat :=
  match p.kind with
  | .tlr => tlrInfo 0 0 (s.fldP p Reg.TLR_MAP 22 16)
  | .awn => awnInfo 0 0xF 0
  | .culm => s.culmInfo 0
  | .rch => s.eng.frame.index % 2 ^ 24
  | .memc => memcInfo ⟨0, 0, 0⟩ 4 0 false
  | .rte => 0xFF000000
  | .fab => fabInfo 0xF 0xF
  | .grn => grnInfo 0xFF 0
  | .stb => stbInfo 0xFF 0xFF 0xFF false
  | _ => 0

/-- What denies an access at an offset, before its register is looked at: its alignment, recovery, a missing page, a link, or the state of the page's domain
(R14, R32, R63, R367, R371, R641). -/
def State.regDenial (s : State) (via : Via) (off : Nat) : Option Denial :=
  let a := regsBase + off
  if off % 4 ≠ 0 then some ⟨via.page, .ACCESS_SIZE, none, 0⟩
  else if s.recoveryDenies via off then some ⟨(match pageOf off with
    | some (p, _) => p
    | none => via.page), .POWER_STATE, none, 0⟩
  else if (pageOf off).isNone ∧ (windowOf off).isNone then some ⟨via.page, .NO_PAGE, some a, 0⟩
  else
    match (dieRegion off).bind fun d => s.linkDenial via.page 0 d a with
    | some x => some x
    | none =>
      match pageOf off with
      | some (p, o) => if 0x40 ≤ o ∧ !s.pageOn p then some ⟨p, .POWER_STATE, none, s.refusedInfo p⟩ else none
      | none => none

/-- An access denied; a port reports it (R389), and for the test access port the HUB page captures (R679) beside the page that denies it (R14 to R32). -/
def State.denyVia (s : State) (via : Via) (d : Denial) : State :=
  match via with
  | .tap => (if d.page = Pg.hub then s else s.raise d.page d.cause d.addr d.info).deny Pg.hub d.cause d.addr 0
  | .port n => (s.deny d.page d.cause d.addr d.info).reported n
  | .inside _ => s.deny d.page d.cause d.addr d.info

/-! ## Reads -/

/-- A read of an aligned word: the value, and the state after it. A counter's _LO latches its _HI (R15), and the owner's read of a condition status word clears
CHATTER (R619). -/
def State.readWord (s : State) (via : Via) (off : Nat) : Word × State :=
  match pageOf off with
  | some (p, o) =>
    if counterLo p.kind o then
      let hi := s.regValue p (o + 4)
      (s.regValue p o, { s with latch := (off + 4, hi) :: s.latch.filter fun q => q.1 != off + 4 })
    else if 4 ≤ o ∧ counterLo p.kind (o - 4) then ((s.latched off).getD (s.regValue p o), s)
    else (s.regValue p o, s)
  | none =>
    match windowOf off with
    | some (.stbCondStat, _) => (s.rd off, if s.byOwner via then s.wr off (setFld (s.rd off) 29 29 0) else s)
    | some (w, o) => (s.windowValue w off o, s)
    | none => (0, s)

/-- R5, R389: a read of register space. -/
def State.busRead (s : State) (via : Via) (off : Nat) : State :=
  if !s.boot.phase.commandable then s
  else match s.regDenial via off with
    | some d => s.denyVia via d
    | none =>
      let (w, s) := s.readWord via off
      { s with resp := .word w }

/-! ## Writes by access code (R18) -/

/-- A register written by its access codes alone. -/
def State.plainWrite (s : State) (p : Page) (o : Nat) (v : Word) : State :=
  match rowOf p.kind o with
  | none => s
  | some r =>
    if r.rl ≠ 0 ∧ s.fldP p Reg.LOCK 0 0 = 1 then s.deny p .LOCKED none (s.refusedInfo p)
    else
      let rw := BitVec.ofNat 32 r.rw
      let x := (s.rdP p o &&& ~~~rw) ||| (v &&& rw)
      let x := x &&& ~~~(v &&& BitVec.ofNat 32 r.w1c)
      s.wrP p o (x ||| (v &&& BitVec.ofNat 32 r.w1s))

/-- A field of a written value replaced when it lies outside its range. -/
def storedAs (v : Word) (hi lo least most dflt : Nat) : Word := if fld v hi lo < least ∨ most < fld v hi lo then setFld v hi lo dflt else v

/-- A write refused by the register's own rule. -/
def State.writeRefused (s : State) (p : Page) : State := s.deny p .WRITE_REFUSED none (s.refusedInfo p)

/-! ## The header -/

def State.headerWrite (s : State) (p : Page) (o : Nat) (v : Word) : State :=
  if o = Reg.ERR_STAT then
    if fld v 0 0 = 1 then s.setP p o 1 0 0 else if fld v 1 1 = 1 then s.setP p o 1 1 0 else s
  else if o = Reg.INT_EN then s.setInts p (s.rdP p Reg.INT_STAT) v
  else if o = Reg.INT_STAT then s.setInts p (s.rdP p o &&& ~~~v) (s.rdP p Reg.INT_EN)
  else if o = Reg.PWR_REQ then
    match domainOf p with
    | some n => s.requestPower n (fld v 1 0)
    | none => s
  else if o = Reg.PWR_REFUSE_CNT then (if fld v 31 16 = 0 then s else s.setP p o 31 16 0)
  else s.plainWrite p o v

/-! ## Registers with behaviour of their own -/

/-- HUB: WARM_RESET (R377), LEN_LOG2 (R71), STRETCH_MAX (R121), ROLE (R124) and D (R101). -/
def State.hubWrite (s : State) (via : Via) (o : Nat) (v : Word) : State :=
  let p := Pg.hub
  if o = Reg.BLK_CTRL then
    if fld v 0 0 = 0 then s
    else match via with
      | .inside _ => s.writeRefused p
      | _ => s.warmReset
  else if o = Reg.HUB_FRAME_CFG then
    let n := fld v 4 0
    if s.slots.isEmpty ∧ 14 ≤ n ∧ n ≤ 20 then s.plainWrite p o v else s.writeRefused p
  else if o = Reg.HUB_STRETCH_MAX then s.plainWrite p o (setFld v 20 0 (min (fld v 20 0) 0x100000))
  else if o = Reg.HUB_TICK_CFG then s.plainWrite p o (if fld v 1 0 = 3 then setFld v 1 0 (s.fldP p o 1 0) else v)
  else if o = Reg.HUB_TICK_DELAY then (if fld v 23 0 < s.frameLen / 2 then s.plainWrite p o v else s.writeRefused p)
  else s.plainWrite p o v

/-- STB: alerts, the rule enable and link-wakes (R616, R621). -/
def State.stbWrite (s : State) (o : Nat) (v : Word) : State :=
  if o = Reg.STB_LINK_WAKE then s.sendWakes v.toNat
  else if o = Reg.STB_ALERT_LO ∨ o = Reg.STB_ALERT_HI ∨ o = Reg.STB_CTRL then (s.plainWrite Pg.stb o v).stbSync
  else s.plainWrite Pg.stb o v

/-- A PCIE page: the handover command (R392, R394) and the ring registers (R398, R399). -/
def State.pcieWrite (s : State) (via : Via) (n o : Nat) (v : Word) : State :=
  if o = Reg.PCIE_HO_CMD then s.handoverGo n (s.byOwner via) v
  else if 0x100 ≤ o ∧ o < 0x500 then
    let ring := (o - 0x100) / 64
    let x := 0x100 + (o - 0x100) % 64
    if x = Reg.PCIE_SQq_CFG then s.ringCfg n ring false v
    else if x = Reg.PCIE_CQq_CFG then s.ringCfg n ring true v
    else if x = Reg.PCIE_SQq_BASE_LO ∨ x = Reg.PCIE_SQq_BASE_HI then s.ringBase n ring false x v
    else if x = Reg.PCIE_CQq_BASE_LO ∨ x = Reg.PCIE_CQq_BASE_HI then s.ringBase n ring true x v
    else if x = Reg.PCIE_SQq_TAIL then s.ringTail n ring v
    else s.plainWrite (Pg.pcie n) o v
  else s.plainWrite (Pg.pcie n) o v

/-- A FAB page: RETRAIN and ADMIN_DOWN (R430, R432), and the allocations of R443. -/
def State.fabWrite (s : State) (n o : Nat) (v : Word) : State :=
  let p := Pg.fab n
  if o = Reg.FAB_CFG then
    let s := s.plainWrite p o v
    if fld v 30 30 = 1 then (if s.portCode n = 5 then s.setP p o 30 30 0 else s.portTrain n) else s.portSync n
  else if Reg.FAB_CREDv ≤ o ∧ o < Reg.FAB_CREDv + 16 then
    let total := (List.range 4).foldl (fun m k =>
      let w := if Reg.FAB_CREDv + 4 * k = o then v else s.rdP p (Reg.FAB_CREDv + 4 * k)
      m + fld w 28 16 + fld w 12 0) 0
    if total ≤ 8192 then s.plainWrite p o v else s.writeRefused p
  else s.plainWrite p o v

/-- RTE: the node ID (R442), the limits of R470, echoes and management messages (R463, R465). -/
def State.rteWrite (s : State) (o : Nat) (v : Word) : State :=
  let p := Pg.rte
  if o = Reg.RTE_CFG then
    if s.slots.isEmpty ∨ fld v 31 15 = s.fldP p o 31 15 then s.plainWrite p o (storedAs v 5 0 1 63 1) else s.writeRefused p
  else if o = Reg.RTE_HOLD then s.plainWrite p o (storedAs v 15 0 64 65535 64)
  else if o = Reg.RTE_STALL then s.plainWrite p o (storedAs v 4 0 10 30 20)
  else if o = Reg.RTE_RETRY then s.plainWrite p o (storedAs (storedAs v 15 8 1 255 1) 3 0 1 15 1)
  else if o = Reg.RTE_ECHO_CMD then s.echoGo v.toNat
  else if o = Reg.RTE_MGMT_CMD then s.mgmtGo v.toNat
  else if o = Reg.RTE_MGMT_POP then s.mgmtPop v.toNat
  else s.plainWrite p o v

/-- TRADE: the mode register (R588), the power cap, the Spikelet settings and Seed set commands (R583, R587). -/
def State.tradeWrite (s : State) (o : Nat) (v : Word) : State :=
  let p := Pg.trade
  if o = Reg.TRADE_MODE then
    if s.slots.isEmpty = false ∧ (fld v 1 0 ≠ s.fldP p o 1 0 ∧ fld v 1 0 ≠ 3 ∨ fld v 4 4 ≠ s.fldP p o 4 4) then s.writeRefused p
    else
      let v := if fld v 1 0 = 3 then setFld v 1 0 (s.fldP p o 1 0) else v
      s.plainWrite p o (if fld v 3 2 = 3 then setFld v 3 2 (s.fldP p o 3 2) else v)
  else if o = Reg.TRADE_PWR_CAP then s.plainWrite p o (setFld v 12 0 (max 1000 (min 3900 (fld v 12 0))))
  else if o = Reg.TRADE_SPK then s.plainWrite p o (storedAs v 7 4 1 8 2)
  else if o = Reg.TRADE_SEED_CMD then s.seedCommand (fld v 31 28) (fld v 20 0)
  else s.plainWrite p o v

/-- DRAS: TEST (R311) and the command register (R322). -/
def State.drasWriteReg (s : State) (d o : Nat) (v : Word) (f : DrasFind) : State :=
  let p := Pg.dras d
  if o = Reg.DRAS_CMD then s.drasCommand d v.toNat f
  else if o = Reg.DRAS_CTRL ∧ s.fldP p Reg.LOCK 0 0 = 0 ∧ s.testReached d v.toNat then s.deny p .DRAS_TEST_BLOCK none 0
  else s.plainWrite p o v

/-- A write of CLK_COAST_US during a coast: the count goes on from the value written. -/
def State.recount (s : State) (o : Nat) : State :=
  if o = Reg.CLK_COAST_US then { s with pwr := { s.pwr with coast := s.pwr.coast.map fun _ => s.wall } } else s

/-- A block-specific register of a page written. -/
def State.pageWrite (s : State) (via : Via) (p : Page) (o : Nat) (v : Word) (f : DrasFind) : State :=
  match p.kind with
  | .hub => s.hubWrite via o v
  | .sec => if o = Reg.SEC_CMD then s.secCommand (fld v 31 28) (fld v 24 0) else s.plainWrite p o v
  | .stb => s.stbWrite o v
  | .clk => if o = Reg.CLK_STAT ∧ s.fldP p o 28 28 = 1 then s else (s.plainWrite p o v).recount o
  | .pcie => s.pcieWrite via p.inst o v
  | .fab => s.fabWrite p.inst o v
  | .rte => s.rteWrite o v
  | .coll => s.plainWrite p o (if o = Reg.COLL_CFG then storedAs v 4 0 10 30 22 else v)
  | .grn => if o = Reg.GRN_CMD then s.grnCommand (fld v 31 28) else s.plainWrite p o v
  | .d2d => s.plainWrite p o (if o = Reg.D2D_CFG then storedAs v 4 0 10 30 20 else v)
  | .trade => s.tradeWrite o v
  | .tlr => if o = Reg.TLR_MAP ∧ s.tlrMap p.die p.inst 31 30 = 3 then s else s.plainWrite p o v
  | .culm =>
    if 0x80 ≤ o ∧ p.inst ≠ 0 then s
    else if o = Reg.CULM_RING_CTRL then s.ringControl p.die v
    else if o = Reg.CULM_RING_HDR_LO ∨ o = Reg.CULM_RING_HDR_HI then s.ringHdrWrite p.die o v
    else s.plainWrite p o v
  | .dras => s.drasWriteReg p.die o v f
  | _ => s.plainWrite p o v

/-! ## Table windows -/

/-- The writable bits of a collective table word (R475). -/
def collTableMask (k : Nat) : Word := if k = 0 then 0xF01FFFFF else if k = 1 then 0x00FFFFFF else 0xFFFFFFFF

/-- A write to the collective table (R478). -/
def State.collTableWrite (s : State) (off o : Nat) (v : Word) : State :=
  let i := o / 64
  if s.coll.insts.any fun x => x.entry == i then s.deny Pg.coll .WRITE_REFUSED none (fld (s.rd (off - o % 64)) 15 0 * 65536)
  else s.wr off (v &&& collTableMask (o % 64 / 4))

/-- A route entry as stored (R439). -/
def routeStored (v : Word) : Word :=
  let v := v &&& 0xC0001F1F
  if 23 < fld v 4 0 ∨ 23 < fld v 12 8 then setFld v 31 31 0 else v

/-- The writable bits of a word of a condition or a rule (R634). -/
def condMask (k : Nat) : Word := if k = 0 then 0xFFFF00FF else 0xFFFFFFFF
def ruleMask (k : Nat) : Word := if k = 0 then 0xE0003F3F else 0xF000FFFF

/-- The writable bits of a word of a wake group: domains 0 to 210 in seven words, and an unassigned eighth word (R16, R633). -/
def groupMask (k : Nat) : Word := if k < 6 then 0xFFFFFFFF else if k = 6 then 0x0007FFFF else 0

/-- A write to a window that the STB page's LOCK guards (R633). -/
def State.stbWindowWrite (s : State) (off : Nat) (v : Word) : State :=
  if s.fldP Pg.stb Reg.LOCK 0 0 = 1 then s.deny Pg.stb .LOCKED none (stbInfo 0xFF 0xFF 0xFF false) else s.wr off v

/-- A domain window entry written (R630). -/
def State.domainWrite (s : State) (off n : Nat) (v : Word) : State :=
  let mask : Word := if (domainInfo n).kind ≤ 2 then 0x00700000 else 0x00500000
  let s := s.wr off ((s.rd off &&& ~~~mask) ||| (v &&& mask))
  s.requestPower n (fld v 29 28)

def State.windowWrite (s : State) (w : Window) (off o : Nat) (v : Word) : State :=
  match w with
  | .events => (s.wr off v).wake
  | .eventAdd => (s.signal (o / 4) v.toNat).wake
  | .route => s.wr off (routeStored v)
  | .mcast => s.wr off (v &&& 0x81FFFFFF)
  | .collTable => s.collTableWrite off o v
  | .domains => s.domainWrite off (o / 4) v
  | .stbConds => s.stbWindowWrite off (if o % 16 = 0 then storedAs (v &&& condMask 0) 23 16 1 255 1 else v)
  | .stbRules => s.stbWindowWrite off (v &&& ruleMask (o % 8 / 4))
  | .stbGroups => s.stbWindowWrite off (v &&& groupMask (o % 32 / 4))
  | .rowBuffer => s.wr off v
  | _ => s

/-! ## A write -/

/-- A write that nothing denies, at an aligned offset. -/
def State.writeWord (s : State) (via : Via) (off : Nat) (v : Word) (f : DrasFind) : State :=
  match pageOf off with
  | some (p, o) => if o < 0x40 ∧ ¬(p.kind = .hub ∧ o = Reg.BLK_CTRL) then s.headerWrite p o v else s.pageWrite via p o v f
  | none =>
    match windowOf off with
    | some (w, o) => s.windowWrite w off o v
    | none => s

/-- A refusal by a register's own rule, as the test access port has it: the HUB page captures it (R679). -/
def State.tapRefusal (s after : State) : State :=
  match after.resp with
  | .error code => s.deny Pg.hub ⟨code / 4096, code % 64⟩ none 0
  | _ => after

/-- The standby port, where its write is none that R391 allows. -/
def State.standbyBlocks (s : State) (via : Via) (off : Nat) : Option Nat :=
  match via with
  | .port n => if n ≠ s.owner ∧ !standbyMay n off then some n else none
  | _ => none

/-- A write of register space (R5, R391). -/
def State.busWrite (s : State) (via : Via) (off : Nat) (v : Word) (f : DrasFind) : State :=
  if !s.boot.phase.commandable then s
  else
    match s.standbyBlocks via off with
    | some n => s.standbyReject n
    | none =>
      match s.regDenial via off with
      | some d => s.denyVia via d
      | none =>
        let after := { s with resp := .done }.writeWord via off v f
        match via with
        | .tap => s.tapRefusal after
        | .port n => after.reported n
        | .inside _ => after

/-! ## Sizes (R14) -/

/-- An access of n bytes that is neither an aligned one of 4 bytes nor an aligned one of 8. -/
def sizeBad (off n : Nat) : Bool := !((n == 4 || n == 8) && off % n == 0)

/-- A read of n bytes: of 8, both words at once, the second as the first has latched it. -/
def State.busReadN (s : State) (via : Via) (off n : Nat) : State :=
  if !s.boot.phase.commandable then s
  else if sizeBad off n then s.denyVia via ⟨via.page, .ACCESS_SIZE, none, 0⟩
  else
    let a := s.busRead via off
    if n = 4 then a
    else match a.resp with
      | .word lo =>
        let b := a.busRead via (off + 4)
        (match b.resp with
         | .word hi => { b with resp := .bytes (leBytes 4 lo.toNat ++ leBytes 4 hi.toNat) }
         | _ => b)
      | _ => a

/-- A write of n bytes: of 8, the lower word and, unless that gets an error response, the upper one. -/
def State.busWriteN (s : State) (via : Via) (off : Nat) (v : BitVec 64) (n : Nat) : State :=
  if !s.boot.phase.commandable then s
  else match s.standbyBlocks via off with
    | some p => s.standbyReject p
    | none =>
      if sizeBad off n then s.denyVia via ⟨via.page, .ACCESS_SIZE, none, 0⟩
      else
        let a := s.busWrite via off (v.setWidth 32) .free
        if n = 4 then a
        else match a.resp with
          | .error _ => a
          | _ => a.busWrite via (off + 4) ((v >>> 32).setWidth 32) .free

/-- An access by a port in wall cycle t. -/
def State.portWrite (s : State) (t port off : Nat) (v : Word) : State := (s.begin.passTime t).busWrite (.port port) off v .free

/-- A write by a port of a register of a page. -/
def State.pagePortWrite (s : State) (t port : Nat) (p : Page) (o : Nat) (v : Word) : State := s.portWrite t port (p.base + o) v

end Sys2Proof.Machine
end

