-- ==== Sys2Proof/Machine/Management.lean ====
section
/-!
DEFINITION. Management: the I3C target and its MCTP messages (R675, R676), and the test access port (R677 to R680).
-/
namespace Sys2Proof.Machine

def State.setTap (s : State) (x : Tap) : State := { s with tap := x }

/-- PWR_OK is asserted, and the hub is past step 4 of R670. -/
def State.pwrOk (s : State) : Bool := s.boot.phase.commandable

/-! ## I3C addresses (R675) -/

/-- The provisional ID, most significant byte first; its bit 32 is 0. -/
def provisionalId : List Byte := (leBytes 6 (0x02E7 * 2 ^ 33 + Config.serial.toNat % 2 ^ 32)).reverse

/-- ENTDAA: a target without a dynamic address answers with its provisional ID and takes the address given. -/
def execI3cEntdaa (addr : BitVec 7) (s : State) : Host.Outcome State Fault Refusal :=
  let s := s.begin
  .next (if s.pwrOk ∧ s.tap.i3c.isNone then { s.setTap { s.tap with i3c := some addr.toNat } with resp := .bytes provisionalId } else s)

/-- SETDASA to static address 0x3A. -/
def execI3cSetdasa (static : BitVec 7) (addr : BitVec 7) (s : State) : Host.Outcome State Fault Refusal :=
  let s := s.begin
  .next (if s.pwrOk ∧ s.tap.i3c.isNone ∧ static = 0x3A then { s.setTap { s.tap with i3c := some addr.toNat } with resp := .done } else s)

/-! ## MCTP (R675, R676) -/

/-- A control message's answer (DSP0236): the completion code and what follows it, with the endpoint ID after the message. -/
def mctpAnswer (eid version command : Nat) (data : List Byte) : List Byte × Nat :=
  let n := data.length
  let arg := leAt data 0 1
  if command = 1 then
    if n ≠ 2 then ([3], eid)
    else
      let e := leAt data 1 1
      if 1 < arg ∨ e = 0 ∨ e = 0xFF then ([2], eid) else ([0, 0] ++ leBytes 1 e ++ [0], e)
  else if command = 2 then (if n ≠ 0 then [3] else [0] ++ leBytes 1 eid ++ [0, 0], eid)
  else if command = 4 then (if n ≠ 1 then [3] else if arg = 0xFF ∨ arg = 0 ∨ arg = 0x7E then [0, 1] ++ leBytes 4 version else [0x80], eid)
  else if command = 5 then (if n ≠ 0 then [3] else [0, 1, 0x7E], eid)
  else if command = 6 then (if n ≠ 1 then [3] else if arg = 0 then [0, 0xFF, 0, 0x1E, 0xC7] ++ leBytes 2 (version / 2 ^ 32) else [2], eid)
  else ([5], eid)

/-- R675: the target answers a control message at its dynamic address; the version numbers are not stated. -/
def execMctpControl (command : BitVec 8) (data : List Byte) (s : State) : Host.Outcome State Fault Refusal :=
  let s := s.begin
  .next (if s.pwrOk ∧ s.tap.i3c.isSome then
      let (l, e) := mctpAnswer s.tap.eid (Config.freeNat 0) command.toNat data
      { s.setTap { s.tap with eid := e } with resp := .bytes l }
    else s)

/-- Words read from an offset up, as BAR0 returns them, or the code of the error response that a read would receive. -/
def State.readWords (s : State) (off : Nat) : Nat → List Byte × State × Nat
  | 0 => ([], s, 0)
  | n + 1 =>
    match s.regDenial (.port 0) off with
    | some d => ([], s, d.code)
    | none =>
      let (w, s) := s.readWord (.inside Pg.sec) off
      match s.readWords (off + 4) n with
      | (l, s, code) => (leBytes 4 w.toNat ++ l, s, code)

/-- R676: a malformed request and a read that would meet an error are answered with ERROR; requests are served in order (R654). -/
def execRead32 (t : Nat) (off : BitVec 32) (count : BitVec 16) (s : State) : Host.Outcome State Fault Refusal :=
  let s := s.begin.passTime t
  let n := count.toNat
  .next (if !s.pwrOk ∨ s.tap.i3c.isNone then s
    else if n = 0 ∨ 64 < n then s.doeError 0x10
    else match s.readWords off.toNat n with
      | (l, s, code) =>
        let answer := if code = 0 then l else leBytes 1 0x10 ++ leBytes 1 0 ++ leBytes 2 code
        if s.sec.requests.isEmpty then { s with resp := .bytes answer }
        else s.setSec { s.sec with requests := s.sec.requests ++ [⟨2, [], s.wall, some answer⟩] })

/-! ## The test access port -/

/-- An instruction register load. -/
def State.setIr (s : State) (code : Nat) : State := s.setTap { s.tap with ir := code }

/-- An instruction selected while the port works. -/
def State.selectIr (s : State) (code : Nat) : State :=
  let s := s.begin
  if s.pwrOk then s.setIr code else s

/-- An instruction that takes the pins from the device (R680). -/
def State.takePins (s : State) (code : Nat) : State :=
  let s := s.begin
  if s.pwrOk then { s.setIr code with boot := { s.boot with pinsTaken := true } } else s

/-- R677: the port's reset selects IDCODE. -/
def execTrst (s : State) : Host.Outcome State Fault Refusal := .next (s.selectIr 2)

def execExtest (s : State) : Host.Outcome State Fault Refusal := .next (s.takePins 0)

def execSamplePreload (s : State) : Host.Outcome State Fault Refusal := .next (s.selectIr 1)

/-- R677: the identity of the stepping. -/
def execIdcode (s : State) : Host.Outcome State Fault Refusal :=
  let r := s.selectIr 2
  .next (if r.pwrOk then { r with resp := .word (if r.steppingB then 0x157349CB else 0x057349CB) } else r)

def execClamp (s : State) : Host.Outcome State Fault Refusal := .next (s.takePins 3)

def execHighz (s : State) : Host.Outcome State Fault Refusal := .next (s.takePins 4)

def execExtestPulse (s : State) : Host.Outcome State Fault Refusal := .next (s.takePins 5)

def execExtestTrain (s : State) : Host.Outcome State Fault Refusal := .next (s.takePins 6)

/-- R678: the debug port, or bypass unless SCOPE FWDEBUG is active. -/
def execHubdbg (s : State) : Host.Outcome State Fault Refusal :=
  let open_ := s.fldP Pg.sec Reg.SEC_DBG_STAT 31 31 = 1 ∧ s.fldP Pg.sec Reg.SEC_DBG_STAT 3 3 = 1
  .next (s.selectIr (if open_ then 0x41 else 0xFF))

def execBypass (s : State) : Host.Outcome State Fault Refusal := .next (s.selectIr 0xFF)

/-- What the REGACC data register holds after an access: the data read, or written, and ERR (R679). -/
def State.regaccAfter (s : State) (dr : BitVec 64) : State :=
  let keep := dr.toNat / 2 ^ 32 % 2 ^ 24 * 2 ^ 32 + dr.toNat / 2 ^ 63 * 2 ^ 63
  match s.resp with
  | .word w => s.setTap { s.tap with regacc := BitVec.ofNat 64 (keep + w.toNat) }
  | .error _ =>
    if dr.toNat / 2 ^ 63 = 1 then s.setTap { s.tap with regacc := BitVec.ofNat 64 (keep + 2 ^ 62 + dr.toNat % 2 ^ 32) }
    else
      let (k, s) := s.draw
      s.setTap { s.tap with regacc := BitVec.ofNat 64 (keep + 2 ^ 62 + (Config.freeWord k).toNat) }
  | _ => s.setTap { s.tap with regacc := BitVec.ofNat 64 (keep + dr.toNat % 2 ^ 32) }

/-- R679: Update-DR of REGACC. -/
def execRegacc (t : Nat) (dr : BitVec 64) (s : State) : Host.Outcome State Fault Refusal :=
  let s := s.begin.passTime t
  .next (if !s.pwrOk then s
    else
      let s := s.setIr 0x40
      let off := dr.toNat / 2 ^ 32 % 2 ^ 24 * 4
      let r := if dr.toNat / 2 ^ 63 = 1 then s.busWrite .tap off (BitVec.ofNat 32 dr.toNat) .free else s.busRead .tap off
      r.regaccAfter dr)

end Sys2Proof.Machine
end

