-- ==== Sys2Proof/Machine/Rachis.lean ====
section
/-!
DEFINITION. Rachis scalar operations (R263 to R265).
-/
namespace Sys2Proof.Machine

/-- An operation counted at its issue (R269). -/
def State.countOp (s : State) (w : SWord) : State := s.bump64 (Pg.rch w.die) Reg.RCH_OP_CNT_LO 1

/-- The issue of a Rachis word: its effect after the checks, and the count of the operation. -/
def State.rachis (s : State) (w : SWord) (op : Nat) (effect : State → State) : State :=
  s.issue w 5 op 0 (rchBlame w) State.rachisCheck (fun s => effect (s.countOp w))

/-- An operation that writes SR[DST] with a value of its operands, visible at issue + 4 (R265). -/
def State.scalarOp (s : State) (w : SWord) (op : Nat) (f : Nat → Nat → Nat → Nat) : State :=
  s.rachis w op fun s =>
    let r := rachisArgs w.args
    s.later (w.stamp.toNat + 4) (.sreg w.die r.dst (f (s.sreg w.die r.sa) (s.sreg w.die r.sb) r.imm % 2 ^ 64))

/-- An FP operation on bits 31:0: the result in bits 31:0, the rest 0. -/
def fpOp (f : Ext → Ext → Ext) (a b _imm : Nat) : Nat := toFp32 (f (ofFp32 (a % 2 ^ 32)) (ofFp32 (b % 2 ^ 32)))

/-- A load of n bytes, read at issue (R264). -/
def State.loadOp (s : State) (w : SWord) (op : Nat) : State :=
  s.rachis w op fun s =>
    let r := rachisArgs w.args
    s.later (w.stamp.toNat + 4) (.sreg w.die r.dst (s.natAt (s.rachisAddr w.die r) (accessSize op)))

/-- A store, visible at issue + 4 (R264). -/
def State.storeOp (s : State) (w : SWord) (op : Nat) : State :=
  s.rachis w op fun s =>
    let r := rachisArgs w.args
    s.later (w.stamp.toNat + 4) (.bytes (s.rachisAddr w.die r) (leBytes (accessSize op) (s.sreg w.die r.sb)))

/-- OP 0x01. -/
def execMovi (w : SWord) (s : State) : Host.Outcome State Fault Refusal := .next (s.scalarOp w 0x01 fun _ _ i => i)
/-- OP 0x02. -/
def execAdd (w : SWord) (s : State) : Host.Outcome State Fault Refusal := .next (s.scalarOp w 0x02 fun a b _ => a + b)
/-- OP 0x03. -/
def execAddi (w : SWord) (s : State) : Host.Outcome State Fault Refusal := .next (s.scalarOp w 0x03 fun a _ i => a + i)
/-- OP 0x04. -/
def execSub (w : SWord) (s : State) : Host.Outcome State Fault Refusal := .next (s.scalarOp w 0x04 fun a b _ => a + 2 ^ 64 - b)
/-- OP 0x05. -/
def execMul (w : SWord) (s : State) : Host.Outcome State Fault Refusal := .next (s.scalarOp w 0x05 fun a b _ => a * b)
/-- OP 0x06. -/
def execAnd (w : SWord) (s : State) : Host.Outcome State Fault Refusal := .next (s.scalarOp w 0x06 fun a b _ => Nat.land a b)
/-- OP 0x07. -/
def execOr (w : SWord) (s : State) : Host.Outcome State Fault Refusal := .next (s.scalarOp w 0x07 fun a b _ => Nat.lor a b)
/-- OP 0x08. -/
def execXor (w : SWord) (s : State) : Host.Outcome State Fault Refusal := .next (s.scalarOp w 0x08 fun a b _ => Nat.xor a b)
/-- OP 0x09. -/
def execShli (w : SWord) (s : State) : Host.Outcome State Fault Refusal := .next (s.scalarOp w 0x09 fun a _ i => a * 2 ^ (i % 64))
/-- OP 0x0A. -/
def execShri (w : SWord) (s : State) : Host.Outcome State Fault Refusal := .next (s.scalarOp w 0x0A fun a _ i => a / 2 ^ (i % 64))
/-- OP 0x0B. -/
def execFadd (w : SWord) (s : State) : Host.Outcome State Fault Refusal := .next (s.scalarOp w 0x0B (fpOp Ext.add))
/-- OP 0x0C. -/
def execFsub (w : SWord) (s : State) : Host.Outcome State Fault Refusal := .next (s.scalarOp w 0x0C (fpOp fun a b => a.add b.neg))
/-- OP 0x0D. -/
def execFmul (w : SWord) (s : State) : Host.Outcome State Fault Refusal := .next (s.scalarOp w 0x0D (fpOp Ext.mul))
/-- OP 0x0E. -/
def execFdiv (w : SWord) (s : State) : Host.Outcome State Fault Refusal := .next (s.scalarOp w 0x0E (fpOp numDiv))
/-- OP 0x0F. -/
def execFmax (w : SWord) (s : State) : Host.Outcome State Fault Refusal := .next (s.scalarOp w 0x0F (fpOp numMax))
/-- OP 0x10. -/
def execFmin (w : SWord) (s : State) : Host.Outcome State Fault Refusal := .next (s.scalarOp w 0x10 (fpOp numMin))
/-- OP 0x11. -/
def execI2f (w : SWord) (s : State) : Host.Outcome State Fault Refusal :=
  .next (s.scalarOp w 0x11 fun a _ _ => toFp32 (Fmt.int32.value (a % 2 ^ 32)))
/-- OP 0x12. -/
def execF2i (w : SWord) (s : State) : Host.Outcome State Fault Refusal :=
  .next (s.scalarOp w 0x12 fun a _ _ => unsigned 64 (signed 32 (convertInt .int32 .rne (ofFp32 (a % 2 ^ 32)) 0).1))
/-- OP 0x13. -/
def execLd32 (w : SWord) (s : State) : Host.Outcome State Fault Refusal := .next (s.loadOp w 0x13)
/-- OP 0x14. -/
def execLd64 (w : SWord) (s : State) : Host.Outcome State Fault Refusal := .next (s.loadOp w 0x14)
/-- OP 0x15. -/
def execSt32 (w : SWord) (s : State) : Host.Outcome State Fault Refusal := .next (s.storeOp w 0x15)
/-- OP 0x16. -/
def execSt64 (w : SWord) (s : State) : Host.Outcome State Fault Refusal := .next (s.storeOp w 0x16)
/-- OP 0x17: SCALE of a granule as it stands at issue (R144, R145). -/
def execLdscale (w : SWord) (s : State) : Host.Outcome State Fault Refusal :=
  .next (s.rachis w 0x17 fun s =>
    let r := rachisArgs w.args
    s.later (w.stamp.toNat + 4) (.sreg w.die r.dst (s.tdesc w.die (r.imm / 256) (r.imm % 256) % 32)))

end Sys2Proof.Machine
end

