-- ==== Sys2Proof/Machine/Arbiter.lean ====
section
/-!
DEFINITION. Who is served (R274 to R277, R287, R288, R293, R372, R681): the slots in which a channel serves an unscheduled burst, the flits that a link's
direction leaves free, and the choice among the requests that wait.
-/
namespace Sys2Proof.Machine

/-! ## The next access of a transfer -/

/-- An access that waits: its first byte, its length and whether it writes. -/
structure Access where
  addr : Nat
  len : Nat
  write : Bool
  deriving DecidableEq, Repr

def isRegs (a : Nat) : Bool := decide (regsBase ≤ a ∧ a < regsBase + regsBytes)

/-- Bytes of a chunk at two addresses: up to the next granule of either, or a word where registers are reached. -/
def chunkLen (rest a b : Nat) : Nat :=
  if isRegs a || isRegs b then min rest 4 else min rest (min (2048 - a % 2048) (2048 - b % 2048))

/-- The next access of a transfer: the write of what it holds, else the read of its next chunk; a RESTORE only writes and a CHECKPOINT only reads. -/
def State.nextAccess (s : State) (x : Transfer) : Option Access :=
  if x.err ≠ 0 ∨ x.len ≤ x.moved then none
  else match x.issuer with
    | .checkpoint | .restore =>
      s.grn.run.map fun r =>
        let q := placeAt r.places x.moved
        ⟨q.1, chunkLen q.2 q.1 q.1, r.restore⟩
    | _ =>
      let a := x.src + x.moved
      let b := x.dst + x.moved
      if x.held.isEmpty then some ⟨a, chunkLen (x.len - x.moved) a b, false⟩ else some ⟨b, x.held.length, true⟩

/-! ## The slots of a channel (R276, R277, R293) -/

/-- A request of a stack channel: its bank and physical row, slots, class, and the wall cycle since which it waits; `key` orders requests of one age. -/
structure Request where
  key : Nat
  bank : Nat
  row : Nat
  slots : Nat
  cls : Nat
  since : Nat
  deriving DecidableEq, Repr

/-- The schedule cycle at which the frame stands: a frame that issues no schedule work counts every cycle. -/
def State.frameCycle (s : State) : Nat := if s.issuing then s.eng.frame.count else s.wall - s.eng.frame.start

/-- What the schedule books of stack n in the present frame: its bursts and its Culm spans. -/
def State.stackBookings (s : State) (n : Nat) : List SlotUse × List SpanUse :=
  match s.slot? s.eng.frame.slot with
  | some x =>
    if s.issuing then
      let l := (s.frameBookings x s.eng.frame.index).map fun q => q.2.uses
      ((l.flatMap fun u => u.slots).filter fun u => u.stack == n, (l.flatMap fun u => u.spans).filter fun p => p.stack == n)
    else ([], [])
  | none => ([], [])

/-- A slot in which a channel may serve: the schedule cycle and the wall cycle at which it begins. In a freeze slots are whole wall slots from its beginning, or
from the end of a booked burst that it caught in its slot, and the latest that has ended is the one served (R277). -/
def State.presentSlot (s : State) (booked : List SlotUse) : Option (Nat × Nat) :=
  let f := s.eng.frame
  if s.issuing && s.frozen then
    let late := if f.count % 40 ≠ 0 ∧ booked.any (fun u => u.slot == f.count / 40) then 40 - f.count % 40 else 0
    let gone := s.wall + 1 - (f.freezeStart + late)
    if gone < 40 then none else some (f.count, f.freezeStart + late + (gone / 40 - 1) * 40)
  else
    let c := s.frameCycle
    some (c / 40 * 40, s.wall - c % 40)

/-- Cycles from a slot to the beginning of a scheduled slot, negative when that has begun. -/
def State.distance (s : State) (at_ : Nat × Nat) (slot : Nat) : Int :=
  if 40 * slot < at_.1 ∧ s.frozen then (40 * slot : Int) - at_.1 - ((at_.2 : Int) - s.eng.frame.freezeStart) else (40 * slot : Int) - at_.1

/-- The end of the refresh of a stack in the present frame, and the end of the refresh window, which closes every bank (R275, R293). In a frame that is no image
frame the stacks refresh as needed (R75). -/
def State.refreshEnd (s : State) (n : Nat) : Nat × Nat :=
  let f := s.eng.frame
  match s.slot? f.slot with
  | some x =>
    if f.kind = .image then
      (refreshWindow f.len (min (s.fldP (Pg.stack n) Reg.MEMC_STAT 31 30) x.band), refreshWindow f.len x.band)
    else (0, 0)
  | none => (0, 0)

/-- Whether a scheduled row of a bank is held at a schedule cycle: a burst of it has begun, a later one of the bank is to come, and no span has closed it. -/
def heldRow (booked : List SlotUse) (spans : List SpanUse) (bank cycle : Nat) : Bool :=
  let past := booked.filter fun u => u.bank == bank && decide (40 * u.slot ≤ cycle)
  past.any fun u => (booked.any fun v => v.bank == bank && decide (cycle < 40 * v.slot))
    && !(spans.any fun p => decide (u.slot < p.first + p.count) && decide (40 * p.first ≤ cycle))

/-- The open row of a bank at a slot: the row of its latest burst, unless a span or the end of the refresh window has closed it since. -/
def openRow (booked : List SlotUse) (spans : List SpanUse) (served : List Served) (bank : Nat) (at_ : Nat × Nat) (closed : Nat) : Option Nat :=
  let sched := (booked.filter fun u => u.bank == bank && decide (40 * u.slot < at_.1)).map fun u => (40 * u.slot, u.row)
  let own := (served.filter fun v => v.bank == bank && decide (v.wall < at_.2)).map fun v => (v.count, v.row)
  let last := (own ++ sched).foldl (fun m x => match m with
    | some (y : Nat × Nat) => if y.1 ≤ x.1 then some x else some y
    | none => some x) none
  match last with
  | some (c, row) =>
    if (c < closed ∧ closed ≤ at_.1) ∨ spans.any (fun p => decide (c < 40 * (p.first + p.count)) && decide (40 * p.first ≤ at_.1)) then none else some row
  | none => none

/-- R275 with one activation more at a slot: the bank's others start at least 4 slots apart, and no 8 slots hold three. -/
def activationFits (same others : List Int) : Bool :=
  same.all (fun d => decide (160 ≤ d) || decide (d ≤ -160))
    && (List.range 8).all fun k => decide (((others.filter fun d => decide (-(40 * k : Int) ≤ d) && decide (d < 320 - (40 * k : Int)))).length ≤ 1)

/-- Whether a channel may serve a burst of a bank's row in a slot: the four conditions of R276, the refresh, and the slots it has already served. -/
def State.slotAllows (s : State) (n ch bank row : Nat) (at_ : Nat × Nat) : Bool :=
  let all := s.stackBookings n
  let booked := all.1.filter fun u => u.ch == ch
  let spans := all.2
  let served := (s.stackOf n).served.filter fun v => v.ch == ch
  let frozen := s.issuing && s.frozen
  let ends := s.refreshEnd n
  let inSlot := !frozen && (booked.any (fun u => u.slot == at_.1 / 40) || spans.any fun p => decide (40 * p.first ≤ at_.1) && decide (at_.1 < 40 * (p.first + p.count)))
  let taken := served.any fun v => v.wall == at_.2
  let acts := activations spans (booked.foldl (fun l u => insertSlot u l) []) 0 []
  let soon := acts.any fun u => u.bank == bank && decide (at_.1 ≤ 40 * u.slot) && decide (40 * u.slot ≤ at_.1 + 160)
  let fits :=
    openRow booked spans served bank at_ ends.2 == some row
      || (activationFits
            (((acts.filter fun u => u.bank == bank).map fun u => s.distance at_ u.slot)
              ++ (served.filter fun v => v.act && v.bank == bank).map fun v => (v.wall : Int) - at_.2)
            ((acts.map fun u => s.distance at_ u.slot) ++ (served.filter fun v => v.act).map fun v => (v.wall : Int) - at_.2)
          && !(spans.any fun p => decide (40 * p.first ≤ at_.1 + 280) && decide (at_.1 < 40 * (p.first + p.count) + 280)))
  decide (ends.1 ≤ at_.1) && !inSlot && !taken && !heldRow booked spans bank at_.1 && !soon && fits

/-- Whether a request may be served in a slot; a write of part of an ECC word takes the slot after it too (R274). -/
def State.allows (s : State) (n ch : Nat) (r : Request) (at_ : Nat × Nat) : Bool :=
  s.slotAllows n ch r.bank r.row at_
    && (r.slots == 1 || s.slotAllows n ch r.bank r.row (if s.issuing && s.frozen then (at_.1, at_.2 + 40) else (at_.1 + 40, at_.2 + 40)))

/-! ## The choice (R288, R372) -/

/-- Requests older first, then by their key. -/
def Request.older (x y : Request) : Bool := decide (x.since < y.since) || (x.since == y.since && decide (x.key ≤ y.key))

/-- The request served: the oldest that has waited long enough, else the oldest of the lowest class; and whether age chose it. -/
def chooseRequest (l : List Request) (now limit : Nat) : Option (Request × Bool) :=
  let first := fun (le : Request → Request → Bool) (l : List Request) => l.foldl (fun m x => match m with
    | some y => if le y x then some y else some x
    | none => some x) none
  match first Request.older (l.filter fun x => decide (limit ≠ 0) && decide (x.since + limit ≤ now)) with
  | some x => some (x, true)
  | none => (first (fun x y => decide (x.cls < y.cls) || (x.cls == y.cls && x.older y)) l).map fun x => (x, false)

/-- Whether an access writes part of a 32-byte ECC word. -/
def Access.partWord (a : Access) : Bool := a.write && decide (a.addr % 32 ≠ 0 ∨ (a.addr + a.len) % 32 ≠ 0)

/-- The request that a transfer's next access makes of a channel. -/
def State.requestOf (s : State) (n ch : Nat) (x : Transfer) : Option Request :=
  match s.nextAccess x with
  | some a =>
    let l := locate a.addr
    if stackAddr a.addr ∧ l.stack = n ∧ l.ch = ch then
      let r := s.physRow a.addr
      some ⟨x.id, r.bank, r.row, if a.partWord then 2 else 1, x.cls, x.since⟩
    else none
  | none => none

/-- The requests that wait at a channel: of transfers, and of a row remap's copies, which are of class 3 (R287). -/
def State.requests (s : State) (n ch : Nat) : List Request :=
  (s.traffic.filterMap (s.requestOf n ch))
    ++ (match (s.stackOf n).remap with
      | some m => if m.row.ch = ch ∧ !m.todo.isEmpty then [⟨0, m.row.bank, m.row.row, 1, 3, m.since⟩] else []
      | none => [])

/-- The slot in which a channel serves a transfer's request now, and whether age chose it (R288). -/
def State.channelGrants (s : State) (x : Transfer) (a : Access) : Option ((Nat × Nat) × Bool) :=
  let l := locate a.addr
  match s.presentSlot ((s.stackBookings l.stack).1.filter fun u => u.ch == l.ch) with
  | some at_ =>
    let able := (s.requests l.stack l.ch).filter fun r => s.allows l.stack l.ch r at_
    (match chooseRequest able at_.2 (40 * s.fldP (Pg.stack l.stack) Reg.MEMC_CFG 31 20) with
     | some (r, aged) => if r.key = x.id ∧ s.requestOf l.stack l.ch x = some r then some (at_, aged) else none
     | none => none)
  | none => none

/-- Flits that a direction of a link has free in the present cycle: none while the link retrains, or holds the counter for its own flits (R363, R365). -/
def State.freeFlits (s : State) (d dir : Nat) : Nat :=
  let l := s.link d
  if l.resume.any (fun e => decide (s.wall < e)) ∨ s.wall < l.busy.getD dir 0
      ∨ s.eng.frame.frozen.any (fun f => f.reason == .degraded && f.die == d) then 0
  else flitSlots (s.halfWide d) - (if s.issuing ∧ !s.frozen then l.booked dir s.eng.frame.count else 0)

/-- Whether a direction of a link carries a transfer's flits next, among those that their channels would serve now (R372). -/
def State.linkGrants (s : State) (x : Transfer) (a : Access) : Bool :=
  let d := dieOf a.addr
  let dir := b2n a.write
  let rivals := s.traffic.filterMap fun y => match s.nextAccess y with
    | some b =>
      if dieAddr b.addr ∧ dieOf b.addr = d ∧ b.write = a.write ∧ (!stackAddr b.addr || (s.channelGrants y b).isSome) then
        some ⟨y.id, 0, 0, 1, y.cls, y.since⟩
      else none
    | none => none
  decide (0 < s.freeFlits d dir)
    && (match chooseRequest rivals s.wall (s.fldP (Pg.d2d d) Reg.D2D_CFG 31 20) with
      | some (r, _) => r.key == x.id
      | none => false)

/-- Whether a transfer's next access is served now, and whether its channel chose it by age: an access behind a die's link needs flits, and one of a stack a slot. -/
def State.grants (s : State) (x : Transfer) (a : Access) : Option Bool :=
  if !dieAddr a.addr then some false
  else if !s.linkGrants x a then none
  else if stackAddr a.addr then (s.channelGrants x a).map fun g => g.2
  else some false

/-- A served access noted: the slot it took, whether it activated, and the cycles for which its flits fill the link. -/
def State.noteServed (s : State) (x : Transfer) (a : Access) : State :=
  let d := dieOf a.addr
  let dir := b2n a.write
  let link := s.link d
  let l := locate a.addr
  let r := s.physRow a.addr
  let note := match s.channelGrants x a with
    | some (at_, _) =>
      let all := s.stackBookings l.stack
      let served := (s.stackOf l.stack).served
      let act := openRow (all.1.filter fun u => u.ch == l.ch) all.2 (served.filter fun v => v.ch == l.ch) r.bank at_ (s.refreshEnd l.stack).2 != some r.row
      ⟨l.ch, r.bank, r.row, at_.1, at_.2, act⟩ :: (if a.partWord then [⟨l.ch, r.bank, r.row, at_.1 + 40, at_.2 + 40, false⟩] else [])
    | none => []
  let s := if dieAddr a.addr then
      s.setLink d { link with busy := link.busy.set dir (s.wall + ceilDiv (ceilDiv a.len 64) (max 1 (s.freeFlits d dir))) }
    else s
  if stackAddr a.addr then s.setStack l.stack { s.stackOf l.stack with served := note ++ (s.stackOf l.stack).served } else s

end Sys2Proof.Machine
end

