-- ==== Sys2Proof/Machine/Transfers.lean ====
section
/-!
DEFINITION. Unscheduled transfers as they move and end (R284, R287 to R289, R301, R302, R372, R408, R549, R552 to R554).
-/
namespace Sys2Proof.Machine

/-! ## One end of a chunk -/

/-- Why a chunk ends its transfer: the error's code, its cause and address, and whether an access rule refused it. -/
structure ChunkFail where
  code : Nat
  cause : Cause
  addr : Option Nat
  rule : Bool
  deriving DecidableEq, Repr

/-- What an access through the register space alias answered. -/
def State.aliasFail (s : State) (a : Nat) : Option ChunkFail :=
  match s.resp with
  | .error c => some ⟨c, ⟨c / 4096, c % 64⟩, some a, true⟩
  | _ => none

/-- A denial captured, as the failure of a chunk. -/
def State.chunkDenied (s : State) (d : Denial) : State × Option ChunkFail := (s.captureDenial d, some ⟨d.code, d.cause, d.addr, true⟩)

/-- What a burst meets, with the failure that an uncorrectable error is: of the stack at its granule (R301, R302), or of a flit (R362). -/
def State.burstMeets (s : State) (a cls : Nat) (write : Bool) (e : Option BurstErr) : State × Option ChunkFail :=
  match e with
  | none => (s, none)
  | some x =>
    (s.burstErr a cls false write x,
      (s.burstFails a write x).map fun c => ⟨c, ⟨c / 4096, c % 64⟩, some (if c / 64 % 64 = PageKind.memc.code then unalias a / 2048 * 2048 else a), false⟩)

/-- n bytes read for an issuer's page, within one granule; the register space alias is read a word at a time. -/
def State.readPiece (s : State) (me : Page) (info cls a n : Nat) (aged : Bool) (e : Option BurstErr) : List Byte × State × Option ChunkFail :=
  if isRegs a then
    if n ≠ 4 then
      let (s, f) := s.chunkDenied ⟨me, .ACCESS_SIZE, none, info⟩
      ([], s, f)
    else
      let r := s.busRead (.inside me) (a - regsBase)
      let l := match r.resp with
        | .word w => leBytes 4 w.toNat
        | _ => leBytes 4 0
      (l, { r with resp := s.resp }, r.aliasFail a)
  else match s.denial me info cls a n false with
    | some d =>
      let (s, f) := s.chunkDenied d
      ([], s, f)
    | none =>
      match (s.servedBurst a n cls false aged).burstMeets a cls false e with
      | (s, some f) => ([], s, some f)
      | (s, none) =>
        let (l, s) := s.fetchBytes a n
        (l, s, none)

/-- Bytes written for an issuer's page, within one granule. -/
def State.writePiece (s : State) (me : Page) (info cls a : Nat) (l : List Byte) (aged : Bool) (e : Option BurstErr) : State × Option ChunkFail :=
  if isRegs a then
    if l.length ≠ 4 then s.chunkDenied ⟨me, .ACCESS_SIZE, none, info⟩
    else
      let r := s.busWrite (.inside me) (a - regsBase) (BitVec.ofNat 32 (leNat l)) .free
      ({ r with resp := s.resp }, r.aliasFail a)
  else match s.denial me info cls a l.length true with
    | some d => s.chunkDenied d
    | none =>
      match ((s.servedBurst a l.length cls true aged).servedPart a l.length cls).burstMeets a cls true e with
      | (s, some f) => (s, some f)
      | (s, none) => (s.placeBytes a l, none)

/-! ## One chunk -/

/-- The page and the information with which a transfer's issuer captures an error. -/
def State.issuerOf (s : State) : Issuer → Page × Nat
  | .descriptor p q i => (Pg.pcie p, ringInfo q i)
  | .xfer d u => (Pg.rch d, u * 2 ^ 29 + 2 ^ 28 + s.eng.frame.index % 2 ^ 24)
  | _ => (Pg.grn, grnInfo 0xFF 0)

/-- A transfer after a part of its next chunk: what has moved and what it holds, and why it ends, if it does. -/
structure Moved where
  state : State
  moved : Nat
  held : List Byte
  fail : Option ChunkFail
  deriving DecidableEq, Repr

/-- The read of the next chunk of a copy from SRC to DST; both ranges obey R53 as a whole. -/
def State.copyRead (s : State) (x : Transfer) (aged : Bool) (re : Option BurstErr) : Moved :=
  let (me, info) := s.issuerOf x.issuer
  match pairUnpopulated x.src x.len x.dst x.len with
  | some a =>
    let (s, f) := s.chunkDenied ⟨me, .UNPOPULATED, some a, info⟩
    ⟨s, x.moved, [], f⟩
  | none =>
    let a := x.src + x.moved
    match s.readPiece me info x.cls a (chunkLen (x.len - x.moved) a (x.dst + x.moved)) aged re with
    | (l, s, f) => ⟨s, x.moved, l, f⟩

/-- The write of what a copy holds. -/
def State.copyWrite (s : State) (x : Transfer) (aged : Bool) (we : Option BurstErr) : Moved :=
  let (me, info) := s.issuerOf x.issuer
  match s.writePiece me info x.cls (x.dst + x.moved) x.held aged we with
  | (s, some f) => ⟨s, x.moved, [], some f⟩
  | (s, none) => ⟨s, x.moved + x.held.length, [], none⟩

/-- The next chunk of a CHECKPOINT: read into the generation that is written. -/
def State.saveChunk (s : State) (x : Transfer) (aged : Bool) (re : Option BurstErr) : Moved :=
  match s.grn.run with
  | none => ⟨s, x.moved, [], none⟩
  | some r =>
    let (a, left) := placeAt r.places x.moved
    let n := chunkLen left a a
    match s.readPiece Pg.grn (grnInfo 0xFF 0) 3 a n aged re with
    | (_, s, some f) => ⟨s, x.moved, [], some f⟩
    | (l, s, none) => ⟨s.setGrn { s.grn with run := some { r with data := r.data ++ l } }, x.moved + n, [], none⟩

/-- The next chunk of a RESTORE, up to a limit. -/
def State.putChunk (s : State) (x : Transfer) (limit : Nat) (aged : Bool) (we : Option BurstErr) : Moved :=
  match s.grn.run with
  | none => ⟨s, x.moved, [], none⟩
  | some r =>
    let (a, left) := placeAt r.places x.moved
    let n := chunkLen (min left (limit - x.moved)) a a
    match s.writePiece Pg.grn (grnInfo 0xFF 0) 3 a ((r.data.drop x.moved).take n) aged we with
    | (s, some f) => ⟨s, x.moved, [], some f⟩
    | (s, none) => ⟨s, x.moved + n, [], none⟩

/-- The next access of a transfer made: a copy that holds nothing reads, and one that holds a chunk writes it. -/
def State.access (s : State) (x : Transfer) (limit : Nat) (aged : Bool) (re we : Option BurstErr) : Moved :=
  match x.issuer with
  | .checkpoint => s.saveChunk x aged re
  | .restore => s.putChunk x limit aged we
  | _ => if x.held.isEmpty then s.copyRead x aged re else s.copyWrite x aged we

/-- A transfer that an error has ended: an XFER's error is captured in its die's RCH page too, when an access rule made it (R284). -/
def State.chunkEnds (s : State) (x : Transfer) (f : ChunkFail) : State × Transfer :=
  let s := match x.issuer with
    | .xfer d _ =>
      let (me, info) := s.issuerOf x.issuer
      if f.rule ∧ f.code ≠ errCode f.cause me.kind then s.raise (Pg.rch d) f.cause f.addr info else s
    | _ => s
  (s, { x with err := f.code, errAddr := f.addr })

/-- A transfer as an access of it leaves it. -/
def Moved.settle (m : Moved) (x : Transfer) : State × Transfer :=
  let y := { x with moved := m.moved, held := m.held, since := m.state.wall }
  match m.fail with
  | some f => m.state.chunkEnds y f
  | none => (m.state, y)

/-- Chunks of a transfer moved up to a limit; chunk k meets event 2k on its read and event 2k + 1 on its write, counted from the first one moved here. -/
def State.moveRest (ecc : List BurstEvent) (limit : Nat) : Nat → Nat → State → Transfer → State × Transfer
  | 0, _, s, x => (s, x)
  | fuel + 1, k, s, x =>
    if x.err ≠ 0 ∨ limit ≤ x.moved then (s, x)
    else
      let q := (s.access x limit false (burstEvent ecc (2 * k)) (burstEvent ecc (2 * k + 1))).settle x
      State.moveRest ecc limit fuel (if q.2.held.isEmpty then k + 1 else k) q.1 q.2

/-- The rest of a transfer. -/
def State.moveAll (s : State) (x : Transfer) (limit : Nat) (ecc : List BurstEvent) : State × Transfer :=
  State.moveRest ecc limit (2 * (limit - x.moved)) 0 s x

def State.transfer? (s : State) (id : Nat) : Option Transfer := s.traffic.find? fun x => x.id == id

def State.dropTransfer (s : State) (id : Nat) : State := { s with traffic := s.traffic.filter fun x => x.id != id }

def State.setTransfer (s : State) (x : Transfer) : State := { s with traffic := s.traffic.map fun y => if y.id = x.id then x else y }

/-! ## Bursts and ends -/

/-- The Granary's own end of a chunk moved: GRN_PROGRESS (R565). -/
def State.progress (s : State) (x : Transfer) : State :=
  match x.issuer with
  | .checkpoint | .restore => s.set64 Pg.grn Reg.GRN_PROGRESS_LO x.moved
  | _ => s

/-- Whether the next access of a transfer is denied, which needs no slot and no flit. -/
def State.turnedAway (s : State) (x : Transfer) (a : Access) : Bool :=
  let (me, info) := s.issuerOf x.issuer
  match x.issuer with
  | .checkpoint | .restore => (s.denial me info x.cls a.addr a.len a.write).isSome
  | _ => (pairUnpopulated x.src x.len x.dst x.len).isSome || (!isRegs a.addr && (s.denial me info x.cls a.addr a.len a.write).isSome)

/-- The accesses that one grant serves: a read into a range that is behind no die's link is followed by its write at once. -/
def State.serve (s : State) (x : Transfer) (aged : Bool) (re we : Option BurstErr) : State × Transfer :=
  let q := (s.access x x.len aged re we).settle x
  if q.2.err = 0 ∧ !q.2.held.isEmpty ∧ x.held.isEmpty ∧ !dieAddr (x.dst + x.moved) then (q.1.access q.2 x.len aged re we).settle q.2 else q

/-- Whether a transfer waits for a stack: while the reference is lost every stack is in self-refresh (R598). -/
def State.stalled (s : State) (x : Transfer) : Bool := s.pwr.coast.isSome && (s.transferRanges x).any fun q => decide (q.2 ≠ 0) && stackAddr q.1

/-- R288, R372: the next access of a transfer, served if the channel of its stack and the link of its die choose it in this cycle. -/
def execUnscheduledBurst (t : Nat) (id : Nat) (read write : Option BurstErr) (s : State) : Host.Outcome State Fault Refusal :=
  let s := s.begin.passTime t
  .next (match s.transfer? id with
    | none => s
    | some x =>
      match s.nextAccess x with
      | none => s
      | some a =>
        if s.turnedAway x a then
          let q := s.serve x false read write
          q.1.setTransfer q.2
        else match (if s.stalled x then none else s.grants x a) with
          | none => s
          | some aged =>
            let q := (s.noteServed x a).serve x aged read write
            (q.1.setTransfer q.2).progress q.2)

/-- R284: the end of an XFER: its counter is signalled once, unless an error has ended it. -/
def execXferComplete (t : Nat) (id : Nat) (ecc : List BurstEvent) (s : State) : Host.Outcome State Fault Refusal :=
  let s := s.begin.passTime t
  .next (match s.transfer? id with
    | none => s
    | some x =>
      match x.signal with
      | none => s
      | some (c, n) =>
        if s.stalled x then s
        else
          let (s, x) := s.moveAll x x.len ecc
          let s := s.dropTransfer id
          if x.err = 0 then (s.signal c n).wake else s)

/-- The job that a transfer belongs to. -/
def State.jobOf (s : State) (w : Work) : Option Job := s.host.jobs.find? fun j => j.work == w

/-- A started descriptor completes and leaves the jobs. -/
def State.endJob (s : State) (j : Job) (code info : Nat) : State :=
  ((s.setHost { s.host with jobs := s.host.jobs.filter fun y => y != j }).finish j.desc code info).wake

/-- R408: the end of a DMA; INFO holds the bytes moved. -/
def execDmaComplete (t : Nat) (id : Nat) (ecc : List BurstEvent) (s : State) : Host.Outcome State Fault Refusal :=
  let s := s.begin.passTime t
  .next (match s.transfer? id, s.jobOf (.dma id) with
    | some x, some j =>
      if s.stalled x then s
      else
        let (s, x) := s.moveAll x x.len ecc
        (s.dropTransfer id).endJob j x.err x.moved
    | _, _ => s)

/-! ## The Granary's commands -/

/-- The Granary's running command over: its transfer and its place go. -/
def State.endGrn (s : State) (x : Transfer) (j : Job) (code info : Nat) : State :=
  let s := (s.progress x).dropTransfer x.id
  (s.setGrn { s.grn with run := none }).endJob j code info

/-- R549 to R554: the rest of the regions read, the manifest and the commit record written. -/
def State.checkpointEnd (s : State) (r : GrnRun) (x : Transfer) (j : Job) (ecc : List BurstEvent) : State :=
  let (s, x) := s.moveAll x x.len ecc
  let data := match s.grn.run with
    | some q => q.data
    | none => r.data
  let gone := fun (s : State) => s.setGrn (s.grn.drop r.gen)
  if x.err ≠ 0 then (gone s).endGrn x j x.err 0
  else if 2 ≤ s.grn.failures then (gone (s.raise Pg.grn .GRN_DEGRADED none (grnInfo 0xFF 0))).endGrn x j (errCode .GRN_DEGRADED .grn) 0
  else
    let pin := bit (r.desc.field 0x24 1) 0
    let s := s.setGrn (s.grn.update r.gen fun g => { g with committed := true, pinned := pin, data := data })
    let s := s.charge (x.len + manifestLen (r.places.length) x.len)
    s.endGrn x j 0 r.gen

def execCheckpointComplete (t : Nat) (ecc : List BurstEvent) (s : State) : Host.Outcome State Fault Refusal :=
  let s := s.begin.passTime t
  .next (match s.grn.run with
    | none => s
    | some r =>
      if r.restore then s
      else match s.transfer? r.transfer, s.jobOf .checkpoint with
        | some x, some j => if s.stalled x then s else s.checkpointEnd r x j ecc
        | _, _ => s)

/-- The chunk at which a RESTORE stops, when it lies in its data and no byte of it is written: a manifest has none (R553). -/
def GrnRun.badChunk (r : GrnRun) (x : Transfer) (bad : Option (Nat × Bool)) : Option (Nat × Bool) :=
  if r.desc.restoreMode = 2 then none
  else bad.filter fun b => decide (b.1 * chunkBytes < x.len) && decide (x.moved ≤ b.1 * chunkBytes)

/-- R552, R553: the rest of the data written, up to the chunk that fails. -/
def State.restoreEnd (s : State) (r : GrnRun) (x : Transfer) (j : Job) (bad : Option (Nat × Bool)) (ecc : List BurstEvent) : State :=
  let bad := r.badChunk x bad
  let limit := match bad with
    | some b => b.1 * chunkBytes
    | none => x.len
  let (s, x) := s.moveAll x limit ecc
  if x.err ≠ 0 then s.endGrn x j x.err x.moved
  else match bad with
    | some (c, unreadable) =>
      let e : Cause := if unreadable then .GRN_CHUNK_UNREADABLE else .GRN_CHUNK_HASH
      (s.raise Pg.grn e none (grnInfo 0xFF c)).endGrn x j (errCode e .grn) x.moved
    | none =>
      let s := { s with eng := { s.eng with fleet := { s.eng.fleet with recovery := true } } }
      (if r.desc.restoreMode = 0 then s.zeroLost else s).endGrn x j 0 x.moved

/-- A RESTORE whose flash has failed under it completes with GRN_DEGRADED (R543); pages rebuilt on the way are counted (R542). -/
def execRestoreComplete (t : Nat) (bad : Option (Nat × Bool)) (rebuilt : Nat) (ecc : List BurstEvent) (s : State) : Host.Outcome State Fault Refusal :=
  let s := s.begin.passTime t
  .next (match s.grn.run with
    | none => s
    | some r =>
      if !r.restore then s
      else match s.transfer? r.transfer, s.jobOf .restore with
        | some x, some j =>
          if s.stalled x then s
          else
            let s := s.bump Pg.grn Reg.GRN_REBUILD_CNT rebuilt
            if 3 ≤ s.grn.failures then (s.raise Pg.grn .GRN_DEGRADED none (grnInfo 0xFF 0)).endGrn x j (errCode .GRN_DEGRADED .grn) x.moved
            else s.restoreEnd r x j bad ecc
        | _, _ => s)

end Sys2Proof.Machine
end

