-- ==== Sys2Proof/Machine/Window.lean ====
section
/-!
DEFINITION. Host accesses of a port's BAR2, BAR4 and configuration space (R383, R384, R386, R387, R389, R391, R641).
-/
namespace Sys2Proof.Machine

/-! ## BAR2 -/

/-- The granule-wise pieces of an access: the offset and the length of each. -/
def piecesOf (a n : Nat) : List (Nat × Nat) :=
  if n = 0 then []
  else (List.range ((a % 2048 + n - 1) / 2048 + 1)).map fun g =>
    let lo := if g = 0 then a else a / 2048 * 2048 + g * 2048
    (lo - a, min (a + n) (a / 2048 * 2048 + (g + 1) * 2048) - lo)

/-- A read by a port, piece by piece: an error response delivers no part of its data. -/
def State.windowRead (s : State) (me : Page) (ecc : List BurstEvent) (a : Nat) : List ((Nat × Nat) × Nat) → List Byte → State
  | [], l => { s with resp := .bytes l }
  | ((o, n), k) :: r, l =>
    match s.readPiece me 0 2 (a + o) n false (burstEvent ecc k) with
    | (_, s, some f) => s.refuse f.code
    | (b, s, none) => s.windowRead me ecc a r (l ++ b)

/-- A write by a port, piece by piece, up to the first error response. -/
def State.windowStore (s : State) (me : Page) (ecc : List BurstEvent) (a : Nat) (data : List Byte) : List ((Nat × Nat) × Nat) → State
  | [] => { s with resp := .done }
  | ((o, n), k) :: r =>
    match s.writePiece me 0 2 (a + o) ((data.drop o).take n) false (burstEvent ecc k) with
    | (s, some f) => s.refuse f.code
    | (s, none) => s.windowStore me ecc a data r

/-- R641: BAR2 in recovery is the staging buffer. -/
def State.stagingAccess (s : State) (port off len : Nat) (data : Option (List Byte)) : State :=
  if port ≠ 0 ∨ 0x1000000 < off + len then s.deny (Pg.pcie port) .POWER_STATE none 0
  else match data with
    | some l =>
      let m := (l.zip (List.range l.length)).foldl (fun m q => Sparse.put (fun _ => 0) m (off + q.2) q.1) s.sec.staging
      { s.setSec { s.sec with staging := m } with resp := .done }
    | none => { s with resp := .bytes ((List.range len).map fun i => s.stagingByte (off + i)) }

/-- R387: an access of n bytes at a device address. -/
def State.windowAccess (s : State) (port a n : Nat) (data : Option (List Byte)) (ecc : List BurstEvent) : State :=
  let me := Pg.pcie port
  if n = 0 then s
  else match unpopulated a n with
    | some x => s.deny me .UNPOPULATED (some x) 0
    | none =>
      if isRegs a ∧ ¬((n = 4 ∨ n = 8) ∧ a % n = 0) then s.deny me .ACCESS_SIZE none 0
      else
        let pieces := (if isRegs a then (List.range (n / 4)).map fun i => (4 * i, 4) else piecesOf a n).zipIdx
        match (if isRegs a then none else s.denial me 0 2 a n data.isSome) with
        | some d => s.deny d.page d.cause d.addr d.info
        | none =>
          match data with
          | some l => s.windowStore me ecc a l pieces
          | none => s.windowRead me ecc a pieces []

/-! ## BAR4 (R386, R416) -/

/-- Byte k of a number, the lowest first. -/
def leByte (v k : Nat) : Byte := BitVec.ofNat 8 (v / 256 ^ k)

/-- Words of the MSI-X table, four for each of 64 vectors. -/
def msixWords : Nat := 256

/-- The bits of word i of the MSI-X table that can be written. PRESUMED (log entry 66): the base specification lays the entry out. -/
def msixMask (i : Nat) : Word := if i % 4 = 0 then 0xFFFFFFFC else if i % 4 = 3 then 1 else 0xFFFFFFFF

/-- Word i of BAR4: the MSI-X table at 0x0000, the pending bit array at 0x8000. -/
def PciPort.bar4Word (p : PciPort) (i : Nat) : Word :=
  if i < msixWords then p.word i
  else if i = 0x2000 ∨ i = 0x2001 then BitVec.ofNat 32 ((p.waiting.filter fun v => v / 32 == i - 0x2000).foldl (fun n v => n ||| 2 ^ (v % 32)) 0)
  else 0

/-- A word of the MSI-X table written. -/
def PciPort.setWord (p : PciPort) (i : Nat) (v : Word) : PciPort :=
  { p with table := Sparse.put (fun k => if k % 4 = 3 then 1 else 0) p.table i (v &&& msixMask i) }

/-- Bytes written over those of a word that begins at offset o. -/
def overWord (was : Word) (o off : Nat) (l : List Byte) : Word :=
  BitVec.ofNat 32 (leNat ((List.range 4).map fun k => if off ≤ o + k ∧ o + k < off + l.length then l.getD (o + k - off) 0 else leByte was.toNat k))

/-- R386: an access of BAR4; a write reaches the MSI-X table, and sends what an unmasked vector has waited with. -/
def State.bar4Access (s : State) (port off n : Nat) (data : Option (List Byte)) : State :=
  let p := s.pci port
  match data with
  | none => { s with resp := .bytes ((List.range n).map fun k => leByte (p.bar4Word ((off + k) / 4)).toNat ((off + k) % 4)) }
  | some l =>
    let words := ((List.range (l.length / 4 + 2)).map fun k => off / 4 + k).filter fun i => decide (i < msixWords) && decide (4 * i < off + l.length)
    { (s.setPci port (words.foldl (fun p i => p.setWord i (overWord (p.word i) (4 * i) off l)) p)).msixFlush port with resp := .done }

/-! ## Configuration space (R384) -/

/-- Byte o of a function's configuration space: the header fields that R384 and R386 give; k numbers the free values of the rest. PRESUMED (log entry 66): the
base specification places them. -/
def State.configByte (s : State) (port k o : Nat) : Byte :=
  let free := Config.freeByte k o
  match o with
  | 0 | 1 => leByte 0x1EC7 o
  | 2 | 3 => leByte 0x5734 (o - 2)
  | 4 => (free &&& 0xFB) ||| (if (s.pci port).cfg.master then 4 else 0)
  | 8 => leByte (s.regValue (Pg.pcie port) Reg.BLK_VER).toNat 3
  | 9 | 10 | 11 => leByte 0x120000 (o - 9)
  | 14 => 0
  | 0x10 | 0x20 => 4
  | 0x18 => 0xC
  | _ => free

/-- R384, R391: an access of configuration space; a write reaches Bus Master Enable. Until READY the answer is Configuration Request Retry Status (R671);
DEDUCED (log entry 66): not in recovery, in which READY never sets and the port's BARs answer (R641). -/
def State.configAccess (s : State) (port off n : Nat) (data : Option (List Byte)) : State :=
  if s.boot.phase ≠ .ready ∧ s.boot.phase ≠ .recovery then { s with resp := .retry }
  else match data with
  | none =>
    let (k, s) := s.draw
    { s with resp := .bytes ((List.range n).map fun i => s.configByte port k (off + i)) }
  | some l =>
    let p := s.pci port
    if off ≤ 4 ∧ 4 < off + l.length then
      { (s.setPci port { p with cfg := { p.cfg with master := bit (l.getD (4 - off) 0).toNat 2 } }).msixFlush port with resp := .done }
    else { s with resp := .done }

/-! ## The command -/

/-- Bytes of a space: BAR2 has the size that the host has given it (R383), BAR4 64 KiB, and configuration space 4 KiB. -/
def State.spaceBytes (s : State) (port : Nat) : HostSpace → Nat
  | .bar2 => 2 ^ (30 + (s.pci port).cfg.bar2.val)
  | .bar4 => 0x10000
  | .config => 0x1000

/-- R384, R386, R387, R389, R391. -/
def execHostWindowAccess (t : Nat) (port : Fin 2) (space : HostSpace) (off : BitVec 40) (len : Nat) (data : Option (List Byte)) (ecc : List BurstEvent)
    (s : State) : Host.Outcome State Fault Refusal :=
  let s := s.begin.passTime t
  let n := match data with
    | some l => l.length
    | none => len
  .next (if !s.boot.phase.commandable ∨ s.spaceBytes port space < off.toNat + n then s
    else match space with
      | .config => s.configAccess port off.toNat n data
      | .bar4 => s.bar4Access port off.toNat n data
      | .bar2 =>
        if port.val ≠ s.owner then s.standbyReject port
        else (if inRecovery s then s.stagingAccess port off.toNat n data
          else s.windowAccess port (s.num64 (Pg.pcie port) Reg.PCIE_WIN_BASE_LO + off.toNat) n data ecc).reported port)

end Sys2Proof.Machine
end

