-- ==== Sys2Proof/Machine/Writes.lean ====
section
/-!
DEFINITION. The commands that are accesses of BAR0 by a port: each is a write or a read of one register, with all that the access rules lay down.
-/
namespace Sys2Proof.Machine

/-! ## Any register -/

/-- R14, R18: a write of n bytes at a register space offset. -/
def execRegisterWrite (t : Nat) (port : Fin 2) (off : BitVec 26) (v : BitVec 64) (n : Nat) (s : State) : Host.Outcome State Fault Refusal :=
  .next ((s.begin.passTime t).busWriteN (.port port) off.toNat v n)

/-- R14, R15: a read of n bytes, with the latch of a counter's other half. -/
def execCounterLoRead (t : Nat) (port : Fin 2) (off : BitVec 26) (n : Nat) (s : State) : Host.Outcome State Fault Refusal :=
  .next ((s.begin.passTime t).busReadN (.port port) off.toNat n)

/-- R25: a write of 1 to ERR_STAT.VALID. -/
def execErrRearm (t : Nat) (port : Fin 2) (off : BitVec 26) (s : State) : Host.Outcome State Fault Refusal := .next (s.portWrite t port off.toNat 1)

/-- R31: a write of 1 to LOCK. -/
def execLock (t : Nat) (port : Fin 2) (off : BitVec 26) (s : State) : Host.Outcome State Fault Refusal := .next (s.portWrite t port off.toNat 1)

/-! ## HUB -/

/-- R71. -/
def execFrameLenWrite (t : Nat) (port : Fin 2) (v : BitVec 32) (s : State) : Host.Outcome State Fault Refusal :=
  .next (s.pagePortWrite t port Pg.hub Reg.HUB_FRAME_CFG v)

/-- R101. -/
def execTickDelayWrite (t : Nat) (port : Fin 2) (v : BitVec 32) (s : State) : Host.Outcome State Fault Refusal :=
  .next (s.pagePortWrite t port Pg.hub Reg.HUB_TICK_DELAY v)

/-! ## Rings, events and the handover -/

/-- R399. -/
def execSqTailWrite (t : Nat) (port : Fin 2) (ring : Fin 16) (v : BitVec 32) (s : State) : Host.Outcome State Fault Refusal :=
  .next (s.pagePortWrite t port (Pg.pcie port) (ringReg Reg.PCIE_SQq_TAIL ring) v)

/-- R398: SQq_CFG or CQq_CFG. -/
def execRingEnable (t : Nat) (port : Fin 2) (ring : Fin 16) (cq : Bool) (v : BitVec 32) (s : State) : Host.Outcome State Fault Refusal :=
  .next (s.pagePortWrite t port (Pg.pcie port) (ringReg (if cq then Reg.PCIE_CQq_CFG else Reg.PCIE_SQq_CFG) ring) v)

/-- R401. -/
def execCqHeadWrite (t : Nat) (port : Fin 2) (ring : Fin 16) (v : BitVec 32) (s : State) : Host.Outcome State Fault Refusal :=
  .next (s.pagePortWrite t port (Pg.pcie port) (ringReg Reg.PCIE_CQq_HEAD ring) v)

/-- R411. -/
def execEventCounterWrite (t : Nat) (port : Fin 2) (ctr : Fin 4096) (v : BitVec 32) (s : State) : Host.Outcome State Fault Refusal :=
  .next (s.portWrite t port (0x410000 + 4 * ctr) v)

def execEventCounterAdd (t : Nat) (port : Fin 2) (ctr : Fin 4096) (v : BitVec 32) (s : State) : Host.Outcome State Fault Refusal :=
  .next (s.portWrite t port (0x420000 + 4 * ctr) v)

/-- R392: GO of the port's own page. -/
def execHandoverGo (t : Nat) (port : Fin 2) (v : BitVec 32) (s : State) : Host.Outcome State Fault Refusal :=
  .next (s.pagePortWrite t port (Pg.pcie port) Reg.PCIE_HO_CMD v)

/-! ## Fabric and collectives -/

/-- R463. -/
def execEchoGo (t : Nat) (port : Fin 2) (v : BitVec 32) (s : State) : Host.Outcome State Fault Refusal :=
  .next (s.pagePortWrite t port Pg.rte Reg.RTE_ECHO_CMD v)

/-- R465. -/
def execMgmtGo (t : Nat) (port : Fin 2) (v : BitVec 32) (s : State) : Host.Outcome State Fault Refusal :=
  .next (s.pagePortWrite t port Pg.rte Reg.RTE_MGMT_CMD v)

def execMgmtPop (t : Nat) (port : Fin 2) (v : BitVec 32) (s : State) : Host.Outcome State Fault Refusal :=
  .next (s.pagePortWrite t port Pg.rte Reg.RTE_MGMT_POP v)

/-- R442. -/
def execNodeIdWrite (t : Nat) (port : Fin 2) (v : BitVec 32) (s : State) : Host.Outcome State Fault Refusal :=
  .next (s.pagePortWrite t port Pg.rte Reg.RTE_CFG v)

/-- R443. -/
def execCreditAllocationWrite (t : Nat) (port : Fin 2) (p : Fin 24) (vc : Fin 4) (v : BitVec 32) (s : State) : Host.Outcome State Fault Refusal :=
  .next (s.pagePortWrite t port (Pg.fab p) (Reg.FAB_CREDv + 4 * vc) v)

/-- R439. -/
def execRouteTableWrite (t : Nat) (port : Fin 2) (dst : BitVec 16) (v : BitVec 32) (s : State) : Host.Outcome State Fault Refusal :=
  .next (s.portWrite t port (0x530000 + 4 * dst.toNat) v)

/-- R478. -/
def execCollTableWrite (t : Nat) (port : Fin 2) (entry : Fin 4096) (word : Fin 16) (v : BitVec 32) (s : State) : Host.Outcome State Fault Refusal :=
  .next (s.portWrite t port (0x610000 + 64 * entry + 4 * word) v)

/-- R430: RETRAIN set, the port's other settings kept. -/
def execRetrain (t : Nat) (port : Fin 2) (p : Fin 24) (s : State) : Host.Outcome State Fault Refusal :=
  let s := s.begin.passTime t
  .next (s.busWrite (.port port) ((Pg.fab p).base + Reg.FAB_CFG) (s.rdP (Pg.fab p) Reg.FAB_CFG ||| 0x40000000) .free)

/-! ## Power, clocks and the Stubble -/

/-- R603: REQ of a domain's window entry, its clock gates kept. -/
def execPwrReq (t : Nat) (port : Fin 2) (dom : Fin 211) (req : Fin 4) (s : State) : Host.Outcome State Fault Refusal :=
  let s := s.begin.passTime t
  .next (s.busWrite (.port port) (domOff dom) (setFld (s.rd (domOff dom)) 29 28 req) .free)

/-- R599. -/
def execRefLostClear (t : Nat) (port : Fin 2) (s : State) : Host.Outcome State Fault Refusal :=
  .next (s.pagePortWrite t port Pg.clk Reg.CLK_STAT 0x80000000)

/-- R619. -/
def execConditionStatusRead (t : Nat) (port : Fin 2) (cond : Fin 64) (s : State) : Host.Outcome State Fault Refusal :=
  .next ((s.begin.passTime t).busRead (.port port) (condStat cond))

/-- R616. -/
def execLinkWakeSend (t : Nat) (port : Fin 2) (mask : BitVec 24) (s : State) : Host.Outcome State Fault Refusal :=
  .next (s.pagePortWrite t port Pg.stb Reg.STB_LINK_WAKE (BitVec.ofNat 32 mask.toNat))

/-! ## Tillers, statistics and repair access -/

/-- R171. -/
def execRetire (t : Nat) (port : Fin 2) (die : Fin 4) (tiller : Fin 84) (s : State) : Host.Outcome State Fault Refusal :=
  .next (s.pagePortWrite t port (Pg.tlr die tiller) Reg.TLR_MAP 0x20000000)

/-- R350. -/
def execStatRingEnable (t : Nat) (port : Fin 2) (die : Fin 4) (v : BitVec 32) (s : State) : Host.Outcome State Fault Refusal :=
  .next (s.pagePortWrite t port (Pg.culm die 0) Reg.CULM_RING_CTRL v)

/-- R538. -/
def execCounterClear (t : Nat) (port : Fin 2) (s : State) : Host.Outcome State Fault Refusal := .next (s.pagePortWrite t port Pg.idle Reg.IDLE_CTRL 1)

/-- R311. -/
def execDrasCtrlWrite (t : Nat) (port : Fin 2) (die : Fin 4) (v : BitVec 32) (s : State) : Host.Outcome State Fault Refusal :=
  .next (s.pagePortWrite t port (Pg.dras die) Reg.DRAS_CTRL v)

/-- R312: a write of DRAS_CMD. -/
def State.drasWrite32 (s : State) (t port die op site : Nat) (raw : Bool) (f : DrasFind) : State :=
  (s.begin.passTime t).busWrite (.port port) ((Pg.dras die).base + Reg.DRAS_CMD) (BitVec.ofNat 32 (op * 2 ^ 28 + site * 2 ^ 26 + b2n raw * 2 ^ 25)) f

def execReadRow (t : Nat) (port : Fin 2) (die : Fin 4) (site : Fin 4) (raw : Bool) (wrong : List (Fin 65536)) (s : State) : Host.Outcome State Fault Refusal :=
  .next (s.drasWrite32 t port die 1 site raw (.wrong (wrong.map fun b => b.val)))

def execWriteRow (t : Nat) (port : Fin 2) (die : Fin 4) (site : Fin 4) (s : State) : Host.Outcome State Fault Refusal :=
  .next (s.drasWrite32 t port die 2 site false .free)

def execMapRow (t : Nat) (port : Fin 2) (die : Fin 4) (site : Fin 4) (s : State) : Host.Outcome State Fault Refusal :=
  .next (s.drasWrite32 t port die 3 site false .free)

def execMapBank (t : Nat) (port : Fin 2) (die : Fin 4) (site : Fin 4) (s : State) : Host.Outcome State Fault Refusal :=
  .next (s.drasWrite32 t port die 4 site false .free)

def execMapConn (t : Nat) (port : Fin 2) (die : Fin 4) (site : Fin 4) (s : State) : Host.Outcome State Fault Refusal :=
  .next (s.drasWrite32 t port die 5 site false .free)

def execConnTest (t : Nat) (port : Fin 2) (die : Fin 4) (site : Fin 4) (bad : List (Fin 280)) (s : State) : Host.Outcome State Fault Refusal :=
  .next (s.drasWrite32 t port die 6 site false (.conns (bad.map fun k => k.val)))

def execRowTest (t : Nat) (port : Fin 2) (die : Fin 4) (site : Fin 4) (bad : BitVec 16) (s : State) : Host.Outcome State Fault Refusal :=
  .next (s.drasWrite32 t port die 7 site false (.bits bad.toNat))

def execDrasRestore (t : Nat) (port : Fin 2) (die : Fin 4) (site : Fin 4) (s : State) : Host.Outcome State Fault Refusal :=
  .next (s.drasWrite32 t port die 8 site false .free)

/-! ## TRADE -/

/-- R588. -/
def execTradeModeWrite (t : Nat) (port : Fin 2) (v : BitVec 32) (s : State) : Host.Outcome State Fault Refusal :=
  .next (s.pagePortWrite t port Pg.trade Reg.TRADE_MODE v)

/-- R575. -/
def execStopClear (t : Nat) (port : Fin 2) (s : State) : Host.Outcome State Fault Refusal := .next (s.pagePortWrite t port Pg.trade Reg.TRADE_STAT 1)

/-- R577: REQ set, the other settings kept. -/
def execTestReq (t : Nat) (port : Fin 2) (s : State) : Host.Outcome State Fault Refusal :=
  let s := s.begin.passTime t
  .next (s.busWrite (.port port) (Pg.trade.base + Reg.TRADE_TEST) (s.rdP Pg.trade Reg.TRADE_TEST ||| 0x80000000) .free)

/-- R583. -/
def execSeedLoad (t : Nat) (port : Fin 2) (len : BitVec 21) (errs : List AccessErr) (s : State) : Host.Outcome State Fault Refusal :=
  .next (((s.begin.facing errs).passTime t).busWrite (.port port) (Pg.trade.base + Reg.TRADE_SEED_CMD) (BitVec.ofNat 32 (0x10000000 + len.toNat)) .free)

def execSeedCancel (t : Nat) (port : Fin 2) (s : State) : Host.Outcome State Fault Refusal :=
  .next (s.pagePortWrite t port Pg.trade Reg.TRADE_SEED_CMD 0x20000000)

/-! ## Granary and security commands -/

/-- R567. -/
def execPin (t : Nat) (port : Fin 2) (s : State) : Host.Outcome State Fault Refusal := .next (s.pagePortWrite t port Pg.grn Reg.GRN_CMD 0x10000000)

def execUnpin (t : Nat) (port : Fin 2) (s : State) : Host.Outcome State Fault Refusal := .next (s.pagePortWrite t port Pg.grn Reg.GRN_CMD 0x20000000)

def execDelete (t : Nat) (port : Fin 2) (s : State) : Host.Outcome State Fault Refusal := .next (s.pagePortWrite t port Pg.grn Reg.GRN_CMD 0x30000000)

/-- R642. -/
def execFwUpdate (t : Nat) (port : Fin 2) (len : BitVec 25) (s : State) : Host.Outcome State Fault Refusal :=
  .next (s.pagePortWrite t port Pg.sec Reg.SEC_CMD (BitVec.ofNat 32 (0x10000000 + len.toNat)))

/-- R643. -/
def execCommit (t : Nat) (port : Fin 2) (s : State) : Host.Outcome State Fault Refusal := .next (s.pagePortWrite t port Pg.sec Reg.SEC_CMD 0x20000000)

/-- R647. -/
def execKey (t : Nat) (port : Fin 2) (s : State) : Host.Outcome State Fault Refusal := .next (s.pagePortWrite t port Pg.sec Reg.SEC_CMD 0x30000000)

/-- R649. -/
def execDebugUnlock (t : Nat) (port : Fin 2) (s : State) : Host.Outcome State Fault Refusal := .next (s.pagePortWrite t port Pg.sec Reg.SEC_CMD 0x40000000)

def execDebugCancel (t : Nat) (port : Fin 2) (s : State) : Host.Outcome State Fault Refusal := .next (s.pagePortWrite t port Pg.sec Reg.SEC_CMD 0x50000000)

end Sys2Proof.Machine
end

