-- ==== Sys2Proof/Machine/Dispatch.lean ====
section
/-!
DEFINITION. One arm per command: its meaning, called directly.
-/
namespace Sys2Proof.Machine

/-- The effect of a command on everything but the queue. -/
def exec (i : Instr) (s : State) : Host.Outcome State Fault Refusal :=
  match i with
  | .powerUp t settle nodeboot release puf => Sys2Proof.Machine.execPowerUp t settle nodeboot release puf s
  | .modResetAssert t => Sys2Proof.Machine.execModResetAssert t s
  | .modResetRelease t settle nodeboot => Sys2Proof.Machine.execModResetRelease t settle nodeboot s
  | .settleDelayExpiry t => Sys2Proof.Machine.execSettleDelayExpiry t s
  | .railSequence t vin flow => Sys2Proof.Machine.execRailSequence t vin flow s
  | .boot t finds => Sys2Proof.Machine.execBoot t finds s
  | .warmReset t port tap finds => Sys2Proof.Machine.execWarmReset t port tap finds s
  | .vinLow t => Sys2Proof.Machine.execVinLow t s
  | .refLost t pll => Sys2Proof.Machine.execRefLost t pll s
  | .referenceRelock t => Sys2Proof.Machine.execReferenceRelock t s
  | .railFault t input mv => Sys2Proof.Machine.execRailFault t input mv s
  | .perstAssert t port => Sys2Proof.Machine.execPerstAssert t port s
  | .pcieLinkDown t port => Sys2Proof.Machine.execPcieLinkDown t port s
  | .frameBoundary carry tests => Sys2Proof.Machine.execFrameBoundary carry tests s
  | .localIdleInsert carry tests => Sys2Proof.Machine.execLocalIdleInsert carry tests s
  | .tickLost carry tests => Sys2Proof.Machine.execTickLost carry tests s
  | .stretchExceeded t => Sys2Proof.Machine.execStretchExceeded t s
  | .fetchComplete t die errs => Sys2Proof.Machine.execFetchComplete t die errs s
  | .noOperationWord w => Sys2Proof.Machine.execNoOperationWord w s
  | .pass w dis => Sys2Proof.Machine.execPass w dis s
  | .passInit w dis => Sys2Proof.Machine.execPassInit w dis s
  | .passMax w dis => Sys2Proof.Machine.execPassMax w dis s
  | .passMin w dis => Sys2Proof.Machine.execPassMin w dis s
  | .passMaxInit w dis => Sys2Proof.Machine.execPassMaxInit w dis s
  | .passMinInit w dis => Sys2Proof.Machine.execPassMinInit w dis s
  | .passAdopt w dis => Sys2Proof.Machine.execPassAdopt w dis s
  | .loadB w => Sys2Proof.Machine.execLoadB w s
  | .passCommit die logical => Sys2Proof.Machine.execPassCommit die logical s
  | .chain w more dis => Sys2Proof.Machine.execChain w more dis s
  | .movi w => Sys2Proof.Machine.execMovi w s
  | .add w => Sys2Proof.Machine.execAdd w s
  | .addi w => Sys2Proof.Machine.execAddi w s
  | .sub w => Sys2Proof.Machine.execSub w s
  | .mul w => Sys2Proof.Machine.execMul w s
  | .and w => Sys2Proof.Machine.execAnd w s
  | .or w => Sys2Proof.Machine.execOr w s
  | .xor w => Sys2Proof.Machine.execXor w s
  | .shli w => Sys2Proof.Machine.execShli w s
  | .shri w => Sys2Proof.Machine.execShri w s
  | .fadd w => Sys2Proof.Machine.execFadd w s
  | .fsub w => Sys2Proof.Machine.execFsub w s
  | .fmul w => Sys2Proof.Machine.execFmul w s
  | .fdiv w => Sys2Proof.Machine.execFdiv w s
  | .fmax w => Sys2Proof.Machine.execFmax w s
  | .fmin w => Sys2Proof.Machine.execFmin w s
  | .i2f w => Sys2Proof.Machine.execI2f w s
  | .f2i w => Sys2Proof.Machine.execF2i w s
  | .ld32 w => Sys2Proof.Machine.execLd32 w s
  | .ld64 w => Sys2Proof.Machine.execLd64 w s
  | .st32 w => Sys2Proof.Machine.execSt32 w s
  | .st64 w => Sys2Proof.Machine.execSt64 w s
  | .ldscale w => Sys2Proof.Machine.execLdscale w s
  | .copy w => Sys2Proof.Machine.execCopy w s
  | .stread w ecc => Sys2Proof.Machine.execStread w ecc s
  | .stwrite w ecc => Sys2Proof.Machine.execStwrite w ecc s
  | .xfer w => Sys2Proof.Machine.execXfer w s
  | .xferComplete t id ecc => Sys2Proof.Machine.execXferComplete t id ecc s
  | .opt w dis ecc => Sys2Proof.Machine.execOpt w dis ecc s
  | .amax w dis ecc => Sys2Proof.Machine.execAmax w dis ecc s
  | .count w dis ecc => Sys2Proof.Machine.execCount w dis ecc s
  | .culmAdd w dis ecc => Sys2Proof.Machine.execCulmAdd w dis ecc s
  | .quant w dis ecc => Sys2Proof.Machine.execQuant w dis ecc s
  | .dequant w dis ecc => Sys2Proof.Machine.execDequant w dis ecc s
  | .recordDelivery die ecc => Sys2Proof.Machine.execRecordDelivery die ecc s
  | .send w => Sys2Proof.Machine.execSend w s
  | .recv w => Sys2Proof.Machine.execRecv w s
  | .cstart w => Sys2Proof.Machine.execCstart w s
  | .cwait w => Sys2Proof.Machine.execCwait w s
  | .eventWait w => Sys2Proof.Machine.execEventWait w s
  | .eventSignal w => Sys2Proof.Machine.execEventSignal w s
  | .stackTempSample t stack readings => Sys2Proof.Machine.execStackTempSample t stack readings s
  | .watchAgeHalving stack => Sys2Proof.Machine.execWatchAgeHalving stack s
  | .unscheduledBurst t id read write => Sys2Proof.Machine.execUnscheduledBurst t id read write s
  | .remapCopyDone t stack ecc => Sys2Proof.Machine.execRemapCopyDone t stack ecc s
  | .drasCtrlWrite t port die v => Sys2Proof.Machine.execDrasCtrlWrite t port die v s
  | .readRow t port die site raw wrong => Sys2Proof.Machine.execReadRow t port die site raw wrong s
  | .writeRow t port die site => Sys2Proof.Machine.execWriteRow t port die site s
  | .mapRow t port die site => Sys2Proof.Machine.execMapRow t port die site s
  | .mapBank t port die site => Sys2Proof.Machine.execMapBank t port die site s
  | .mapConn t port die site => Sys2Proof.Machine.execMapConn t port die site s
  | .connTest t port die site bad => Sys2Proof.Machine.execConnTest t port die site bad s
  | .rowTest t port die site bad => Sys2Proof.Machine.execRowTest t port die site bad s
  | .drasRestore t port die site => Sys2Proof.Machine.execDrasRestore t port die site s
  | .laneFail t link down lane bits => Sys2Proof.Machine.execLaneFail t link down lane bits s
  | .d2dRetrainComplete link => Sys2Proof.Machine.execD2dRetrainComplete link s
  | .d2dUe t link down slot lanes addr transfer => Sys2Proof.Machine.execD2dUe t link down slot lanes addr transfer s
  | .fenceReject t tries => Sys2Proof.Machine.execFenceReject t tries s
  | .hostWindowAccess t port space off len data ecc => Sys2Proof.Machine.execHostWindowAccess t port space off len data ecc s
  | .sqTailWrite t port ring v => Sys2Proof.Machine.execSqTailWrite t port ring v s
  | .descriptorFetch t port ring bytes => Sys2Proof.Machine.execDescriptorFetch t port ring bytes s
  | .ringEnable t port ring cq v => Sys2Proof.Machine.execRingEnable t port ring cq v s
  | .cqHeadWrite t port ring v => Sys2Proof.Machine.execCqHeadWrite t port ring v s
  | .completionWrite t port ring => Sys2Proof.Machine.execCompletionWrite t port ring s
  | .nop t port ring => Sys2Proof.Machine.execNop t port ring s
  | .frameRun t port ring => Sys2Proof.Machine.execFrameRun t port ring s
  | .load t port ring errs => Sys2Proof.Machine.execLoad t port ring errs s
  | .switch t port ring => Sys2Proof.Machine.execSwitch t port ring s
  | .unload t port ring => Sys2Proof.Machine.execUnload t port ring s
  | .dma t port ring => Sys2Proof.Machine.execDma t port ring s
  | .dmaComplete t id ecc => Sys2Proof.Machine.execDmaComplete t id ecc s
  | .collective t port ring errs => Sys2Proof.Machine.execCollective t port ring errs s
  | .checkpoint t port ring errs => Sys2Proof.Machine.execCheckpoint t port ring errs s
  | .checkpointComplete t ecc => Sys2Proof.Machine.execCheckpointComplete t ecc s
  | .restore t port ring manifest => Sys2Proof.Machine.execRestore t port ring manifest s
  | .restoreComplete t bad rebuilt ecc => Sys2Proof.Machine.execRestoreComplete t bad rebuilt ecc s
  | .barrier t port ring => Sys2Proof.Machine.execBarrier t port ring s
  | .eventCounterWrite t port ctr v => Sys2Proof.Machine.execEventCounterWrite t port ctr v s
  | .eventCounterAdd t port ctr v => Sys2Proof.Machine.execEventCounterAdd t port ctr v s
  | .handoverGo t port v => Sys2Proof.Machine.execHandoverGo t port v s
  | .handoverVerifyDone t port => Sys2Proof.Machine.execHandoverVerifyDone t port s
  | .tick t => Sys2Proof.Machine.execTick t s
  | .idleReq t => Sys2Proof.Machine.execIdleReq t s
  | .blockReceive t port moved errs ctrl cells => Sys2Proof.Machine.execBlockReceive t port moved errs ctrl cells s
  | .wlFail t port wl lock => Sys2Proof.Machine.execWlFail t port wl lock s
  | .laserLow t source => Sys2Proof.Machine.execLaserLow t source s
  | .portTraining t port lock far rtt => Sys2Proof.Machine.execPortTraining t port lock far rtt s
  | .link t port => Sys2Proof.Machine.execLink t port s
  | .linkCellTimer t port => Sys2Proof.Machine.execLinkCellTimer t port s
  | .cellForward t => Sys2Proof.Machine.execCellForward t s
  | .cellAgeDrop t => Sys2Proof.Machine.execCellAgeDrop t s
  | .creditStall t port => Sys2Proof.Machine.execCreditStall t port s
  | .data t errs => Sys2Proof.Machine.execData t errs s
  | .ackTimer t stream => Sys2Proof.Machine.execAckTimer t stream s
  | .ack t => Sys2Proof.Machine.execAck t s
  | .resendTimeout t stream => Sys2Proof.Machine.execResendTimeout t stream s
  | .echoGo t port v => Sys2Proof.Machine.execEchoGo t port v s
  | .echoReq t => Sys2Proof.Machine.execEchoReq t s
  | .echoRsp t => Sys2Proof.Machine.execEchoRsp t s
  | .echoTimeout t => Sys2Proof.Machine.execEchoTimeout t s
  | .mgmtGo t port v => Sys2Proof.Machine.execMgmtGo t port v s
  | .mgmt t => Sys2Proof.Machine.execMgmt t s
  | .mgmtPop t port v => Sys2Proof.Machine.execMgmtPop t port v s
  | .cfpr t => Sys2Proof.Machine.execCfpr t s
  | .fingerprintAccept t entry errs => Sys2Proof.Machine.execFingerprintAccept t entry errs s
  | .cup t dis errs => Sys2Proof.Machine.execCup t dis errs s
  | .cdn t errs => Sys2Proof.Machine.execCdn t errs s
  | .cack t errs => Sys2Proof.Machine.execCack t errs s
  | .cackTimer t entry leg => Sys2Proof.Machine.execCackTimer t entry leg s
  | .legResendTimeout t entry leg => Sys2Proof.Machine.execLegResendTimeout t entry leg s
  | .collTimeout t entry => Sys2Proof.Machine.execCollTimeout t entry s
  | .cabt t => Sys2Proof.Machine.execCabt t s
  | .cabtResend t => Sys2Proof.Machine.execCabtResend t s
  | .segmentWritten t entry seg errs => Sys2Proof.Machine.execSegmentWritten t entry seg errs s
  | .fenceDrain t errs => Sys2Proof.Machine.execFenceDrain t errs s
  | .stubbleAnalogSample t vals => Sys2Proof.Machine.execStubbleAnalogSample t vals s
  | .stubbleDigitalSample t wake flow => Sys2Proof.Machine.execStubbleDigitalSample t wake flow s
  | .inputStuck t cond => Sys2Proof.Machine.execInputStuck t cond s
  | .holdoffExpiry t cond => Sys2Proof.Machine.execHoldoffExpiry t cond s
  | .conditionStatusRead t port cond => Sys2Proof.Machine.execConditionStatusRead t port cond s
  | .pwrReq t port dom req => Sys2Proof.Machine.execPwrReq t port dom req s
  | .powerEntryComplete t dom => Sys2Proof.Machine.execPowerEntryComplete t dom s
  | .powerExitComplete t dom ecc kat lanes => Sys2Proof.Machine.execPowerExitComplete t dom ecc kat lanes s
  | .ctlrBeat t => Sys2Proof.Machine.execCtlrBeat t s
  | .retire t port die tiller => Sys2Proof.Machine.execRetire t port die tiller s
  | .retrain t port p => Sys2Proof.Machine.execRetrain t port p s
  | .linkWakeSend t port mask => Sys2Proof.Machine.execLinkWakeSend t port mask s
  | .testReq t port => Sys2Proof.Machine.execTestReq t port s
  | .counterClear t port => Sys2Proof.Machine.execCounterClear t port s
  | .statRingEnable t port die v => Sys2Proof.Machine.execStatRingEnable t port die v s
  | .errRearm t port off => Sys2Proof.Machine.execErrRearm t port off s
  | .lock t port off => Sys2Proof.Machine.execLock t port off s
  | .frameLenWrite t port v => Sys2Proof.Machine.execFrameLenWrite t port v s
  | .tickDelayWrite t port v => Sys2Proof.Machine.execTickDelayWrite t port v s
  | .nodeIdWrite t port v => Sys2Proof.Machine.execNodeIdWrite t port v s
  | .creditAllocationWrite t port p vc v => Sys2Proof.Machine.execCreditAllocationWrite t port p vc v s
  | .routeTableWrite t port dst v => Sys2Proof.Machine.execRouteTableWrite t port dst v s
  | .collTableWrite t port entry word v => Sys2Proof.Machine.execCollTableWrite t port entry word v s
  | .tradeModeWrite t port v => Sys2Proof.Machine.execTradeModeWrite t port v s
  | .stopClear t port => Sys2Proof.Machine.execStopClear t port s
  | .refLostClear t port => Sys2Proof.Machine.execRefLostClear t port s
  | .registerWrite t port off v n => Sys2Proof.Machine.execRegisterWrite t port off v n s
  | .counterLoRead t port off n => Sys2Proof.Machine.execCounterLoRead t port off n s
  | .seedLoad t port len errs => Sys2Proof.Machine.execSeedLoad t port len errs s
  | .seedVerifyDone t => Sys2Proof.Machine.execSeedVerifyDone t s
  | .seedCancel t port => Sys2Proof.Machine.execSeedCancel t port s
  | .pin t port => Sys2Proof.Machine.execPin t port s
  | .unpin t port => Sys2Proof.Machine.execUnpin t port s
  | .delete t port => Sys2Proof.Machine.execDelete t port s
  | .scrub t die rewrite rebuilt last => Sys2Proof.Machine.execScrub t die rewrite rebuilt last s
  | .scrubLate t => Sys2Proof.Machine.execScrubLate t s
  | .blockBad t die => Sys2Proof.Machine.execBlockBad t die s
  | .wearMove t die hi lo => Sys2Proof.Machine.execWearMove t die hi lo s
  | .fwUpdate t port len => Sys2Proof.Machine.execFwUpdate t port len s
  | .commit t port => Sys2Proof.Machine.execCommit t port s
  | .key t port => Sys2Proof.Machine.execKey t port s
  | .debugUnlock t port => Sys2Proof.Machine.execDebugUnlock t port s
  | .debugCancel t port => Sys2Proof.Machine.execDebugCancel t port s
  | .entropyTestFail t => Sys2Proof.Machine.execEntropyTestFail t s
  | .getReport t src nonce => Sys2Proof.Machine.execGetReport t src nonce s
  | .getCerts src off len => Sys2Proof.Machine.execGetCerts src off len s
  | .read32 t off count => Sys2Proof.Machine.execRead32 t off count s
  | .i3cEntdaa addr => Sys2Proof.Machine.execI3cEntdaa addr s
  | .i3cSetdasa static addr => Sys2Proof.Machine.execI3cSetdasa static addr s
  | .mctpControl command data => Sys2Proof.Machine.execMctpControl command data s
  | .trst => Sys2Proof.Machine.execTrst s
  | .extest => Sys2Proof.Machine.execExtest s
  | .samplePreload => Sys2Proof.Machine.execSamplePreload s
  | .idcode => Sys2Proof.Machine.execIdcode s
  | .clamp => Sys2Proof.Machine.execClamp s
  | .highz => Sys2Proof.Machine.execHighz s
  | .extestPulse => Sys2Proof.Machine.execExtestPulse s
  | .extestTrain => Sys2Proof.Machine.execExtestTrain s
  | .regacc t dr => Sys2Proof.Machine.execRegacc t dr s
  | .hubdbg => Sys2Proof.Machine.execHubdbg s
  | .bypass => Sys2Proof.Machine.execBypass s
  | .perstDeassert t port => Sys2Proof.Machine.execPerstDeassert t port s
  | .pcieLinkUp t port speed width cfg => Sys2Proof.Machine.execPcieLinkUp t port speed width cfg s
  | .pcieLinkPowerState t port l1 l0p => Sys2Proof.Machine.execPcieLinkPowerState t port l1 l0p s
  | .vinRemoval t => Sys2Proof.Machine.execVinRemoval t s
  | .laserReturn t source => Sys2Proof.Machine.execLaserReturn t source s
  | .blockTransmit t port => Sys2Proof.Machine.execBlockTransmit t port s
  | .dividerHoldInterval t => Sys2Proof.Machine.execDividerHoldInterval t s
  | .entropyTestPass t => Sys2Proof.Machine.execEntropyTestPass t s
  | .engineSidebandWrite port off v => Sys2Proof.Machine.execEngineSidebandWrite port off v s
  | .doeDiscovery port index => Sys2Proof.Machine.execDoeDiscovery port index s
  | .reportReady t => Sys2Proof.Machine.execReportReady t s
  | .snapshotTimeout t => Sys2Proof.Machine.execSnapshotTimeout t s
  | .secCommandEnd t errs => Sys2Proof.Machine.execSecCommandEnd t errs s
  | .grnCommandEnd t => Sys2Proof.Machine.execGrnCommandEnd t s
  | .drasCommandEnd t die => Sys2Proof.Machine.execDrasCommandEnd t die s

end Sys2Proof.Machine
end

