-- ==== Sys2Proof/Safety.lean ====
section
/-!
DEFINITION. What the statements call a sound state, and the terms in which they say when a command takes effect: its sparse parts are in canonical form, so
that equal contents are equal data.
-/
namespace Sys2Proof.Machine

/-- The register file and memory are in canonical form. -/
def State.Sound (s : State) : Prop := Regs.wf s = true ∧ Memory.wf s = true

/-- A step that ends in a next state. -/
def Runs (s t : State) : Prop := step s = .next t

/-- A step that stops. -/
def Stops (s : State) : Prop := ∀ t, step s ≠ .next t

/-! ## Words of the schedule -/

/-- The state in which a word is looked at: no answer, and the counter advanced to its stamp. -/
def State.atWord (s : State) (w : SWord) : State := s.begin.advance w.stamp.toNat

/-- The state in which a word that may freeze is looked at: another reason may hold the counter at its stamp (R78). -/
def State.atWait (s : State) (w : SWord) : State := s.begin.comeTo w.stamp.toNat

/-- A word is free to issue (R67, R87, R98): its frame issues, the counter stands at its stamp and nothing holds it, its die has a stream, and no check
of R98 fails. -/
def State.MayIssue (u : State) (w : SWord) (kind op : Nat) (check : State → WordCtx → RawWord → List Finding) : Prop :=
  u.canIssue w.stamp.toNat = true ∧ u.runsOn w.die = true ∧
    firstFinding (u.unitCheck w.die kind w.unit.toNat ++ badWord (decide (lastStamp u.eng.frame.len < w.stamp.toNat))
      ++ check u (u.issueCtx w.die) ⟨w.stamp.toNat, kind, w.unit.toNat, op, w.args⟩) = none

/-- A wait word is free to be examined: as a word that issues, but another reason may hold the counter at its stamp. -/
def State.MayWait (u : State) (w : SWord) (kind op : Nat) (check : State → WordCtx → RawWord → List Finding) : Prop :=
  u.issuing = true ∧ u.eng.frame.count = w.stamp.toNat ∧ u.runsOn w.die = true ∧
    firstFinding (u.unitCheck w.die kind w.unit.toNat ++ badWord (decide (lastStamp u.eng.frame.len < w.stamp.toNat))
      ++ check u (u.issueCtx w.die) ⟨w.stamp.toNat, kind, w.unit.toNat, op, w.args⟩) = none

/-! ## Accesses of BAR0 -/

/-- The state in which a timed command acts: no answer, and wall time passed to its cycle. -/
def State.atTime (s : State) (t : Nat) : State := s.begin.passTime t

/-- The state in which a timed command acts whose accesses meet errors. -/
def State.atFacing (s : State) (errs : List AccessErr) (t : Nat) : State := (s.begin.facing errs).passTime t

/-- An access of BAR0 by the owner port that nothing denies (R32, R63, R391). -/
def State.Accepts (u : State) (port off : Nat) : Prop :=
  u.boot.phase.commandable = true ∧ port = u.owner ∧ u.regDenial (.port port) off = none

/-- R18: what a register holds after a write, by its access codes alone. -/
def codedWrite (p : Page) (o : Nat) (old v : Word) : Word :=
  match rowOf p.kind o with
  | none => old
  | some r =>
    (((old &&& ~~~BitVec.ofNat 32 r.rw) ||| (v &&& BitVec.ofNat 32 r.rw)) &&& ~~~(v &&& BitVec.ofNat 32 r.w1c)) ||| (v &&& BitVec.ofNat 32 r.w1s)

/-- The register's LOCK does not hold it (R31). -/
def State.Unlocked (u : State) (p : Page) (o : Nat) : Prop := ∀ r, rowOf p.kind o = some r → r.rl = 0 ∨ u.fldP p Reg.LOCK 0 0 ≠ 1

/-- A register written by its access codes. -/
def State.coded (u : State) (p : Page) (o : Nat) (v : Word) : State := u.wrP p o (codedWrite p o (u.rdP p o) v)

/-- The answer of an accepted write. -/
def State.answered (u : State) : State := { u with resp := .done }

/-! ## Cells -/

/-- The oldest delivered cell of a collective TYPE is a good one of a valid entry n, and came by its leg l; v is the state without it. -/
def State.CollCell (u : State) (typ : Nat) (fromNext : Cell → Bool) (a : Arrived) (v : State) (n : Nat) (l : Leg) : Prop :=
  u.takeHere typ = some (a, v) ∧ a.cell.good = true ∧ n = a.cell.ctx % 4096 ∧ (v.collEntry n).valid = true ∧ (v.collEntry n).id = a.cell.ctx
    ∧ (v.collEntry n).legFrom a (fromNext a.cell) = some l

/-! ## Descriptors -/

/-- A descriptor of a kind stands first in its ring, may start, is no duplicate, passes the checks of R404 and has its wait met. -/
def State.Starts (u : State) (port ring kind : Nat) (bad : Desc → Bool) (d : Desc) : Prop :=
  u.front port ring kind = some d ∧ u.seen d = none ∧ (d.headerBad || bad d) = false ∧ u.waitMet d = true

end Sys2Proof.Machine
end

