-- ==== Sys2Proof/Certificates/Slice0/Obligations.lean ====
section
/-!
DEFINITION. The statements about the block: what each command does where it takes effect, what the shared operations do, and what every step keeps.
-/
open Sys2Proof Sys2Proof.Machine

/-- The queue is first in, first out: a step is the front command's meaning on the state whose queue is the rest. -/
def Obligations.StepRunsFront : Prop :=
  ∀ (c : Instr) (rest : List Instr) (s : State), step { s with pending := c :: rest } = exec c { s with pending := rest }

/-- With no command pending nothing changes; the model's choice (log entry 1). -/
def Obligations.EmptyQueueIdles : Prop :=
  ∀ s : State, s.pending = [] → step s = .next s

/-- R263, R265: integer arithmetic is on 64 bits and wraps; the operands are read at issue, and the result is visible at issue + 4. -/
def Obligations.IntegerWords : Prop :=
  ∀ (s : State) (w : SWord),
    let u := s.atWord w
    let r := rachisArgs w.args
    let a : BitVec 64 := BitVec.ofNat 64 (u.sreg w.die r.sa)
    let b : BitVec 64 := BitVec.ofNat 64 (u.sreg w.die r.sb)
    let i : BitVec 64 := BitVec.ofNat 64 r.imm
    let result (v : BitVec 64) : Host.Outcome State Fault Refusal :=
      .next ((u.countOp w).later (w.stamp.toNat + 4) (.sreg w.die r.dst v.toNat)).reads
    Regs.wf u = true →
      (u.MayIssue w 5 0x01 State.rachisCheck → exec (.movi w) s = result i)
      ∧ (u.MayIssue w 5 0x02 State.rachisCheck → exec (.add w) s = result (a + b))
      ∧ (u.MayIssue w 5 0x03 State.rachisCheck → exec (.addi w) s = result (a + i))
      ∧ (u.MayIssue w 5 0x04 State.rachisCheck → exec (.sub w) s = result (a - b))
      ∧ (u.MayIssue w 5 0x05 State.rachisCheck → exec (.mul w) s = result (a * b))
      ∧ (u.MayIssue w 5 0x06 State.rachisCheck → exec (.and w) s = result (a &&& b))
      ∧ (u.MayIssue w 5 0x07 State.rachisCheck → exec (.or w) s = result (a ||| b))
      ∧ (u.MayIssue w 5 0x08 State.rachisCheck → exec (.xor w) s = result (a ^^^ b))
      ∧ (u.MayIssue w 5 0x09 State.rachisCheck → exec (.shli w) s = result (a <<< (r.imm % 64)))
      ∧ (u.MayIssue w 5 0x0A State.rachisCheck → exec (.shri w) s = result (a >>> (r.imm % 64)))

/-- R263: FP operations act on bits 31:0 and round to nearest, ties to even; F2I saturates and sign-extends. -/
def Obligations.FloatWords : Prop :=
  ∀ (s : State) (w : SWord),
    let u := s.atWord w
    let r := rachisArgs w.args
    let a : Ext := ofFp32 (u.sreg w.die r.sa % 2 ^ 32)
    let b : Ext := ofFp32 (u.sreg w.die r.sb % 2 ^ 32)
    let result (v : Nat) : Host.Outcome State Fault Refusal :=
      .next ((u.countOp w).later (w.stamp.toNat + 4) (.sreg w.die r.dst (v % 2 ^ 64))).reads
    Regs.wf u = true →
      (u.MayIssue w 5 0x0B State.rachisCheck → exec (.fadd w) s = result (toFp32 (a.add b)))
      ∧ (u.MayIssue w 5 0x0C State.rachisCheck → exec (.fsub w) s = result (toFp32 (a.add b.neg)))
      ∧ (u.MayIssue w 5 0x0D State.rachisCheck → exec (.fmul w) s = result (toFp32 (a.mul b)))
      ∧ (u.MayIssue w 5 0x0E State.rachisCheck → exec (.fdiv w) s = result (toFp32 (numDiv a b)))
      ∧ (u.MayIssue w 5 0x0F State.rachisCheck → exec (.fmax w) s = result (toFp32 (numMax a b)))
      ∧ (u.MayIssue w 5 0x10 State.rachisCheck → exec (.fmin w) s = result (toFp32 (numMin a b)))
      ∧ (u.MayIssue w 5 0x11 State.rachisCheck →
          exec (.i2f w) s = result (toFp32 (Fmt.int32.value (u.sreg w.die r.sa % 2 ^ 32))))
      ∧ (u.MayIssue w 5 0x12 State.rachisCheck →
          exec (.f2i w) s = result (unsigned 64 (signed 32 (convertInt .int32 .rne a 0).1)))

/-- R264: the address is taken in bits 47:0; a store is visible at issue + 4 too. -/
def Obligations.ScalarMemoryWords : Prop :=
  ∀ (s : State) (w : SWord),
    let u := s.atWord w
    let r := rachisArgs w.args
    let addr := (r.imm + u.sreg w.die r.sa) % 2 ^ 48
    let b := u.sreg w.die r.sb
    let result (e : Effect) : Host.Outcome State Fault Refusal := .next ((u.countOp w).later (w.stamp.toNat + 4) e).reads
    Regs.wf u = true →
      (u.MayIssue w 5 0x13 State.rachisCheck → exec (.ld32 w) s = result (.sreg w.die r.dst (u.natAt addr 4)))
      ∧ (u.MayIssue w 5 0x14 State.rachisCheck → exec (.ld64 w) s = result (.sreg w.die r.dst (u.natAt addr 8)))
      ∧ (u.MayIssue w 5 0x15 State.rachisCheck → exec (.st32 w) s = result (.bytes addr (leBytes 4 b)))
      ∧ (u.MayIssue w 5 0x16 State.rachisCheck → exec (.st64 w) s = result (.bytes addr (leBytes 8 b)))
      ∧ (u.MayIssue w 5 0x17 State.rachisCheck →
          exec (.ldscale w) s = result (.sreg w.die r.dst (u.tdesc w.die (bits r.imm 14 8) (bits r.imm 7 0) % 32)))

/-- R259. -/
def Obligations.ScalarRegisters : Prop :=
  ∀ (s : State) (d e n m v : Nat), Regs.wf s = true → d < 4 → e < 4 → n < 256 → m < 256 →
    s.sreg d 0 = 0 ∧ (252 ≤ n → s.sreg d n = 0) ∧ s.sreg d 248 = d
    ∧ (n = 0 ∨ 248 ≤ n → s.setSreg d n v = s)
    ∧ (n ≠ 0 → n < 248 → (s.setSreg d n v).sreg d n = v % 2 ^ 64)
    ∧ ((e, m) ≠ (d, n) → (s.setSreg d n v).sreg e m = s.sreg e m)
    ∧ (s.setSreg d n v).mem = s.mem

/-- R412. -/
def Obligations.EventWords : Prop :=
  ∀ (s : State) (w : SWord),
    let u := s.atWord w
    let e := eventArgs w.args
    (u.MayIssue w 0x9 0 (eventCheck false) → exec (.eventSignal w) s = .next (u.later (w.stamp.toNat + 2) (.event e.ctr e.value)).reads)
    ∧ (u.MayIssue w 0 0 (fun _ _ r => badWord (r.args != 0)) → exec (.noOperationWord w) s = .next u.reads)
    ∧ (let x := s.atWait w
      x.MayWait w 0x8 0 (eventCheck true) →
        (x.eventMet e.ctr e.value = true → exec (.eventWait w) s = .next x)
        ∧ (x.eventMet e.ctr e.value = false →
            exec (.eventWait w) s = .next (x.freeze (if e.host then .hostWait else .dependency) w.die none (.event w)
              (some (x.wordAddr w.die w.idx.toNat)))))

/-- R281 to R284. -/
def Obligations.MoverWords : Prop :=
  ∀ (s : State) (w : SWord) (ecc : List BurstEvent),
    let u := s.atWord w
    let c := copyArgs w.args
    let t := stArgs w.args
    let b := u.bytesAt (spadBase w.die + bits w.args.toNat 87 64 * 32) 32
    let me : Writer := ⟨Pg.rch w.die, moverInfo w + u.eng.frame.index % 2 ^ 24⟩
    (u.MayIssue w 4 1 State.moverCheck →
        let v := u.bookFlits w (copyUses (rawOf w 4 1) w.die)
        exec (.copy w) s = .next ({ v with eng := { v.eng with moves := v.eng.moves ++
          [({ die := w.die, stamp := w.stamp.toNat, src := spadBase c.sdie + c.soff, dst := spadBase c.ddie + c.doff, len := 512 * c.len, visible := w.stamp.toNat + (if c.sdie = c.ddie then 25 else 201), step := 0, data := [] } : Move)] } }).reads)
    ∧ (u.MayIssue w 4 2 State.moverCheck →
        exec (.stread w ecc) s = .next ((List.range t.nb).foldl (fun v n =>
          v.later (40 * t.slot n) (.copy (t.burst n) (spadBase t.sdie + t.spoff + 2048 * n) 2048 (t.visible n) me false))
          ((u.bookFlits w (streadUses (rawOf w 4 2) w.die)).burstEvents t false ecc)).reads)
    ∧ (u.MayIssue w 4 3 State.moverCheck →
        exec (.stwrite w ecc) s = .next ((List.range t.nb).foldl (fun v n => if burstLost ecc n then v else v.writePieces me t n)
          ((u.bookFlits w (stwriteUses (rawOf w 4 3) w.die)).burstEvents t true ecc)).reads)
    ∧ (u.MayIssue w 4 5 State.moverCheck → xferBad b = false →
        exec (.xfer w) s = .next ({ u with traffic := u.traffic ++
          [({ id := u.freshTransfer, issuer := .xfer w.die w.unit.toNat, cls := leAt b 0x1A 1, src := leAt b 0 8, dst := leAt b 8 8, len := leAt b 0x10 8, moved := 0, held := [], since := u.wall, err := 0, errAddr := none, signal := some (leAt b 0x18 2, 1) } : Transfer)] }).reads)

/-- R151, R165: a pass reads its scale at issue. -/
def Obligations.PassWords : Prop :=
  ∀ (s : State) (w : SWord) (dis : Option (Fin 256)),
    ∀ q ∈ [(1, Instr.pass w dis), (2, Instr.passInit w dis), (3, Instr.passMax w dis), (4, Instr.passMin w dis), (5, Instr.passMaxInit w dis),
        (6, Instr.passMinInit w dis), (7, Instr.passAdopt w dis)],
      let u := s.atWord w
      let p := passArgs w.args
      let l := w.unit.toNat
      let d := w.die.val
      let phys := (u.physOf d l).getD l
      let pg := Pg.tlr d phys
      u.MayIssue w 1 q.1 State.passCheck →
        (∀ scale, u.passScale d l q.1 p = some scale →
          let b := u.bbuf d l p.bsel
          let x : Pass := { die := d, logical := l, phys := phys, op := q.1, stamp := w.stamp.toNat, args := w.args, word := u.wordAddr d w.idx.toNat, scale := scale, btile := if isSumPass q.1 then b.data else [], bscale := if isSumPass q.1 then b.scales else [], step := 0, arows := [], out := [], satRow := none, replay := false, redo := none, dis := dis.map fun r => r.val }
          let v := { u with eng := { u.eng with passes := u.eng.passes ++ [x] } }
          exec q.2 s = .next (match dis with
            | some r =>
              if u.prot = 1 ∧ r.val < p.m then
                (v.later (w.stamp.toNat + r.val + 144) (.abort pg (errCode .GUARD_MISMATCH .tlr) (some (x.rowAddr r.val)) (tlrInfo p.gran r.val l)
                  (some (guardWord 1 d phys ((u.physOf d (l + 40)).getD (l + 40)))))).reads
              else v.reads
            | none => v.reads))
        ∧ (u.passScale d l q.1 p = none →
          exec q.2 s = .next (((u.tillerPages d phys l).foldl (fun (y : State) g => y.bump g Reg.TLR_SQUASH_CNT 1) u).raise pg .SCALE_RANGE (some (spadBase d + accOff l p)) (tlrInfo p.gran 0 l)).reads)

/-- R154, R155. -/
def Obligations.LoadBWord : Prop :=
  ∀ s : State,
    (∀ w : SWord,
      let u := s.atWord w
      let l := loadBArgs w.args
      let d := w.die.val
      let b : BBuf := { die := d, logical := w.unit.toNat, sel := l.bsel, stamp := w.stamp.toNat, off := spadBase d + l.bOff, soff := if l.mx then some (spadBase d + l.bsOff) else none, step := 0, data := [], scales := if l.mx then [] else List.replicate 1024 127, ready := w.stamp.toNat + 48 }
      u.MayIssue w 1 8 State.loadBCheck →
        exec (.loadB w) s = .next ({ u with eng := { u.eng with
          bbufs := b :: u.eng.bbufs.filter fun x => !(x.die == d && x.logical == w.unit.toNat && x.sel == l.bsel) } }).reads)
    ∧ (∀ b : BBuf, b.stamp + b.step = s.eng.frame.count →
        (b.step < 32 → s.readLoad b = { b with data := b.data ++ s.bytesAt (b.off + 512 * b.step) 512, step := b.step + 1 })
        ∧ (∀ a, b.soff = some a → 32 ≤ b.step → b.step < 34 →
            s.readLoad b = { b with scales := b.scales ++ s.bytesAt (a + 512 * (b.step - 32)) 512, step := b.step + 1 }))

/-- R159, R160, R144. -/
def Obligations.PassCommits : Prop :=
  (∀ (s : State) (d : Fin 4) (l : Fin 80) (p : Pass), s.begin.oldestPass d l = some p →
      p.commitAt = p.stamp + (passArgs p.args).m + 144
      ∧ exec (.passCommit d l) s = .next (s.begin.advance p.commitAt)
      ∧ (s.issuing = true → s.eng.frame.frozen = [] → s.eng.frame.count < p.commitAt → s.eng.passes = [p] → p.step = (passArgs p.args).m + 128 →
          s.eng.bbufs = [] → s.eng.chains = [] → s.eng.moves = [] → s.eng.culms = [] → s.eng.due = [] → (∀ x ∈ s.links, x.resume = none) →
          let v := s.begin.countTo p.commitAt
          (p.satRow = none → exec (.passCommit d l) s = .next (v.commitPass p))
          ∧ (∀ r, p.satRow = some r → (p.replay = true ∨ 30 ≤ p.scale) → exec (.passCommit d l) s = .next (v.commitPass p))))
    ∧ (∀ (s : State) (p : Pass) (r : Nat), p ∈ s.eng.passes → p.satRow = some r → p.replay = false → p.scale < 30 →
        (s.startReplay p).eng.frame.frozen ≠ []
        ∧ ∃ q ∈ (s.startReplay p).eng.passes, q.stamp = p.stamp ∧ q.replay = true ∧ q.scale = p.scale + 2 ∧ q.redo = some (s.wall + 8))
    ∧ (∀ (s : State) (p : Pass), s.Sound → p.satRow = none →
        let w := passArgs p.args
        let v := ({ s with eng := { s.eng with passes := s.eng.passes.filter fun q => !(q.die == p.die && q.logical == p.logical && q.stamp == p.stamp) } }
          ).store (p.rowAddr 0) p.out
        let x := s.commitPass p
        x.regs = ((v.tillerPages p.die p.phys p.logical).foldl (fun (y : State) g => y.bump64 g Reg.TLR_PASS_CNT_LO 1) v).regs ∧ x.mem = v.mem ∧ x.eng.passes = v.eng.passes
          ∧ (isSumPass p.op = true → w.acc = 2 → Sparse.wf (fun _ => 0) s.eng.tdesc = true → p.scale < 32 → x.tdesc p.die p.logical w.gran % 32 = p.scale))

/-- R230, R262. -/
def Obligations.ChainGroup : Prop :=
  ∀ (s : State) (w : SWord) (more : List ChainWord) (dis : Option (Nat × Nat)),
    let u := s.atWord w
    let words := chainWords w more
    let p := chainPlan words
    let d := w.die.val
    let pg := Pg.awn d w.unit.toNat
    let t := w.stamp.toNat
    let exps := u.chainExps d p
    let out := fun (e : Int) => decide (e < -64) || decide (63 < e)
    u.MayIssue w 2 1 (fun v c _ => v.chainCheck c words) →
      (exps.any out = true →
        let v := u.raise pg .SCALE_RANGE none (awnInfo (1 + exps.findIdx out) 0xF 0)
        exec (.chain w more dis) s = .next ((v.laterEach (t + p.cycles + p.delay) (v.awnPages d w.unit.toNat) fun a =>
          .count64 (a.base + Reg.AWN_CHAIN_CNT_LO) 1).later (t + p.cycles + p.delay) (.ends pg p.head.rnd)).reads)
      ∧ (exps.any out = false →
        let c : Chain := { die := d, unit := w.unit.toNat, stamp := t, words := words, scalars := p.stages.map fun st => u.sreg d st.sreg, exps := exps, thresh := p.outs.map fun o => if o.ten then u.bytesAt (spadBase d + o.toff) 16 else [], step := 0, walls := [], inputs := [], stream := [], dis := dis }
        let v := { u with eng := { u.eng with chains := u.eng.chains ++ [c] } }
        let v := if p.head.rnd = 3 ∧ !headerOk p (u.bytesAt (spadBase d + p.head.soff) 64) then
            ((v.later (t + 8) (.count32 (pg.base + Reg.AWN_STREAM_ERR_CNT) 1)).later (t + 8) (.int pg 1)).later (t + 8)
              (.abort pg (errCode .STREAM_MISMATCH .awn) (some (spadBase d + p.head.soff)) (awnInfo 0 0xF 8) none)
          else v
        (dis = none → exec (.chain w more dis) s = .next v.reads)
        ∧ (∀ k o q, dis = some (k, o) → p.outs[o]? = some q → u.prot = 1 → k < p.cycles →
            exec (.chain w more dis) s = .next (v.later (t + k + p.delay) (.abort pg (errCode .GUARD_MISMATCH .awn) (some (chunkAddr d q k))
              (awnInfo (1 + p.head.nin + o) 0xF (k + p.delay)) (some (guardWord 2 d w.unit.toNat (w.unit.toNat + 8))))).reads)
        ∧ (dis.isSome = true → u.prot ≠ 1 → exec (.chain w more dis) s = .next v.reads))

/-- R326, R331. -/
def Obligations.CulmWords : Prop :=
  ∀ (s : State) (w : SWord) (dis : Option Nat) (ecc : List BurstEvent),
    ∀ q ∈ [(1, Instr.opt w dis ecc), (2, Instr.amax w dis ecc), (3, Instr.count w dis ecc), (4, Instr.culmAdd w dis ecc), (5, Instr.quant w dis ecc),
        (6, Instr.dequant w dis ecc)],
      let u := s.atWord w
      let a := culmArgs w.args
      let raw := u.culmBytes (u.issueCtx w.die) w.args
      let b := culmBlock (raw.take 128)
      let bursts := culmBursts q.1 b (blocksOf 8 b.mlen (raw.drop 128))
      let writes := culmWrites q.1 b (blocksOf 8 b.mlen (raw.drop 128))
      let v := ecc.foldl (fun v e => match bursts[e.burst]? with
        | some x => v.later (40 * a.fslot) (.burst x false e.err)
        | none => match writes[e.burst - bursts.length]? with
          | some x => v.later (a.spanEnd - 1) (.burst x true e.err)
          | none => v) u
      let c : CulmOp := { die := w.die.val, unit := w.unit.toNat, stamp := w.stamp.toNat, op := q.1, args := w.args, block := raw, scale := u.tensorScale b.fmtA b.a, stop := a.spanEnd }
      let x := { v with eng := { v.eng with culms := v.eng.culms ++ [c] } }
      u.MayIssue w 3 q.1 State.culmCheck →
        (dis = none → exec q.2 s = .next x.reads)
        ∧ (∀ e, dis = some e → u.prot = 1 → e < b.n →
          exec q.2 s = .next (x.later (min (a.spanEnd - 1) (40 * a.fslot + 40 + ceilDiv ((e + 1) * culmCpe q.1 b 1) 1024))
            (.abort (Pg.culm w.die.val w.unit.toNat) (errCode .GUARD_MISMATCH .culm) (some (culmElemAddr q.1 b e)) (u.culmInfo q.1)
              (some (guardWord 3 w.die.val w.unit.toNat w.unit.toNat)))).reads)
        ∧ (∀ e, dis = some e → u.prot ≠ 1 ∨ b.n ≤ e → exec q.2 s = .next x.reads)

/-- R450, R454, R486, R487. -/
def Obligations.FabricWords : Prop :=
  ∀ (s : State) (w : SWord),
    let u := s.atWord w
    let a := sendArgs w.args
    let st := streamOf w
    let x := u.sendStream st
    let t := w.stamp.toNat
    let n := (recvArgs w.args).nc
    let on (v : State) : Host.Outcome State Fault Refusal := .next (if v.issuing then v.reads else v)
    (u.MayIssue w 6 1 State.fabricCheck →
        (u.storeUsed + a.nc ≤ storeCells → x.failed = false →
          let v := u.bookFlits w (sendUses (rawOf w 6 1) w.die)
          let fresh := (List.range a.nc).map fun c => ({ n := x.next + c, payload := List.replicate 64 0, epoch := u.runEpoch, sent := none, resent := false } : SendCell)
          let v := v.setSend st { x with next := x.next + a.nc, cells := x.cells ++ fresh }
          let v := (List.range (ceilDiv a.nc 8)).foldl (fun v j =>
            v.later (t + j) (.gather st (x.next + 8 * j) (min 8 (a.nc - 8 * j)) (spadBase w.die + a.soff + 512 * j))) v
          let v := (List.range a.nc).foldl (fun v c => v.later (t + 120 + 4 * c / 5) (.depart st (x.next + c))) v
          exec (.send w) s = on v.settle)
        ∧ (storeCells < u.storeUsed + a.nc →
          exec (.send w) s = on (((u.raise Pg.rte .STORE_FULL none (rteInfo st a.dst)).setInt Pg.rte 5).abortFrame (errCode .STORE_FULL .rte)).settle))
    ∧ (let x := s.atWait w
      x.MayWait w 7 1 State.fabricCheck →
        let y := x.recvStream st
        let v := x.setRecv st { y with c := y.p }
        let z := v.recvStream st
        (z.has n = true → exec (.recv w) s = .next (v.setRecv st (z.consume n)))
        ∧ (z.has n = false → exec (.recv w) s = .next (v.freeze .peerLate w.die none (.recv w) (some (v.wordAddr w.die w.idx.toNat)))))
    ∧ (u.MayIssue w 6 0x10 State.fabricCheck →
        let c := u.issueCtx w.die
        let b := u.collBlockOf c (rawOf w 6 0x10)
        u.tableServes b = true → u.storeUsed + (u.wireCells b + 1) ≤ storeCells →
          let cseq := (b.cseq + u.sreg w.die b.sreg) % 2 ^ 32
          let m : Member := { starter := .word w.die (collBlk w.args), src := b.src, dst := b.dst, dfmt := b.dfmt, mode := b.mode, store := [], ready := 0, taken := 0, entered := false }
          let i := u.newInst b cseq u.runEpoch m
          let v := (u.bookFlits w (u.cstartUses c (rawOf w 6 0x10) t)).beginInst i
          let v := (List.range (ceilDiv (u.giveBytes b) 512)).foldl (fun v j =>
            v.later (t + j) (.collect i.entry cseq (b.src + 512 * j) (min 512 (u.giveBytes b - 512 * j)))) v
          let v := v.later (t + 120) (.enter i.entry cseq 0)
          exec (.cstart w) s = on ((v.ownCells i).zipIdx.foldl (fun v c => v.later (t + 120 + 4 * c.1 / 5) (.enter i.entry cseq (c.2 + 1))) v).settle)
    ∧ (let x := s.atWait w
      x.MayWait w 7 0x10 State.fabricCheck →
        (x.cwaitMet w.die (collBlk w.args) = true → exec (.cwait w) s = .next x)
        ∧ (x.cwaitMet w.die (collBlk w.args) = false →
            exec (.cwait w) s = .next (x.freeze .peerLate w.die none (.cwait w) (some (x.wordAddr w.die w.idx.toNat)))))

/-- R455, R511. -/
def Obligations.StreamData : Prop :=
  ∀ (s : State) (t : Nat) (errs : List AccessErr) (a : Arrived) (v : State),
    let u := s.atFacing errs t
    let c := a.cell
    let st := c.ctx % 256
    let x := v.recvStream st
    let d := v.epochDist c.epoch
    let i := unwrap x.c c.seq
    let n := i.toNat
    let current := behind d = false ∧ ahead d = false
    let ours := x.bound = true ∧ x.src = c.src ∧ x.sstream = c.ctx / 256
    u.takeHere 1 = some (a, v) →
      (behind d = true → exec (.data t errs) s = .next (v.staleCell st none).wake)
      ∧ (behind d = false → ahead d = true → exec (.data t errs) s = .next (v.bump Pg.coll Reg.COLL_EARLY_CNT 1).wake)
      ∧ (current → c.good = false → exec (.data t errs) s = .next (v.bump Pg.rte Reg.RTE_CRC_DROP_CNT 1).wake)
      ∧ (current → c.good = true → ¬ours → exec (.data t errs) s = .next (v.bump Pg.rte Reg.RTE_UNBOUND_DROP_CNT 1).wake)
      ∧ (current → c.good = true → ours → (i < x.c ∨ n < x.p ∨ n ∈ x.present) → exec (.data t errs) s = .next (v.dupData st).wake)
      ∧ (current → c.good = true → ours → (x.c : Int) ≤ i → x.p ≤ n → n ∉ x.present → x.c + ringCells x.log ≤ n →
          exec (.data t errs) s = .next (v.bump Pg.rte Reg.RTE_WIN_DROP_CNT 1).wake)
      ∧ (current → c.good = true → ours → (x.c : Int) ≤ i → x.p ≤ n → n ∉ x.present → n < x.c + ringCells x.log →
          let at_ := spadBase (st / 64) + x.base + 64 * (n % ringCells x.log)
          ∀ z : State,
            (v.writeTo Pg.rte (st * 2 ^ 24) at_ 64 1 = (z, none) →
              let y := (z.write at_ c.payload).setRecv st
                { x with present := n :: x.present, fresh := x.fresh + 1, since := some (x.since.getD (z.write at_ c.payload).wall) }
              exec (.data t errs) s = .next (if 32 ≤ x.fresh + 1 then y.sendAck st else y).wake)
            ∧ (∀ code, v.writeTo Pg.rte (st * 2 ^ 24) at_ 64 1 = (z, some code) → exec (.data t errs) s = .next z.wake))

/-- R456 to R458. -/
def Obligations.StreamAcks : Prop :=
  ∀ (s : State) (t : Nat) (st : Fin 256),
    let u := s.atTime t
    (∀ k, (u.recvStream st).since = some k → k + 256 ≤ u.wall → exec (.ackTimer t st) s = .next (u.sendAck st))
    ∧ (∀ (a : Arrived) (v : State), u.takeHere 2 = some (a, v) →
        let c := a.cell
        let x := v.sendStream (c.ctx / 256)
        c.good = true → x.bound = true → x.dst = c.src → x.dstream = c.ctx % 256 →
          let covered := fun (y : SendCell) => ackCovers (unwrap x.next c.seq).toNat (leNat c.payload) y.n && y.sent.isSome
          let tm := match (x.cells.filter covered).find? fun y => !y.resent with
            | some y => x.timer.sample (a.at_ - y.sent.getD 0)
            | none => x.timer
          exec (.ack t) s = .next (v.setSend (c.ctx / 256) { x with cells := x.cells.filter fun y => !covered y, timer := if x.cells.head?.any covered then { tm with rto := none, retries := 0 } else tm }))
    ∧ (∀ (y : SendCell) (r : List SendCell) (k : Nat), let x := u.sendStream st; x.cells = y :: r → y.sent = some k → k + u.rtoOf x.timer ≤ u.wall →
        (u.retryMax ≤ x.timer.retries →
          exec (.resendTimeout t st) s = .next (((u.setSend st { x with failed := true, cells := [] }).raise Pg.rte .STREAM_FAIL none (rteInfo st x.dst)).setInt Pg.rte 1))
        ∧ (x.timer.retries < u.retryMax →
          let l := (x.cells.filter fun z => z.sent.isSome).take u.retryBurst
          exec (.resendTimeout t st) s = .next ((l.zipIdx.foldl (fun v z => v.sendCellAt st z.1.n (v.wall + 4 * z.2 / 5) true)
            (u.setSend st { x with timer := u.dueAgain x.timer })).bump Pg.rte Reg.RTE_RESEND_CNT l.length)))

/-- R463. -/
def Obligations.Echoes : Prop :=
  ∀ (s : State) (t : Nat),
    let u := s.atTime t
    (∀ (port : Fin 2) (v : BitVec 32), u.Accepts port (Pg.rte.base + Reg.RTE_ECHO_CMD) →
        let w := u.answered
        let n := (u.fab.echoNum + 1) % 65536
        (bit v.toNat 31 = true → u.fab.echo = none →
          exec (.echoGo t port v) s = .next (((w.setFab { u.fab with echoNum := n, echo := some ⟨n, bits v.toNat 15 0, bit v.toNat 30, u.wall⟩ }).wrP Pg.rte
            Reg.RTE_ECHO_RES 0).create u.wall none { Cell.blank 0xA (bits v.toNat 15 0) [] with ctx := n }))
        ∧ (bit v.toNat 31 = false ∨ u.fab.echo.isSome = true → exec (.echoGo t port v) s = .next w))
    ∧ (∀ (a : Arrived) (v : State), u.takeHere 0xA = some (a, v) → a.cell.good = true →
        exec (.echoReq t) s = .next (v.create a.at_ none { Cell.blank 0xB a.cell.src a.cell.payload with ctx := a.cell.ctx }))
    ∧ (∀ (a : Arrived) (v : State) (e : Echo), u.takeHere 0xB = some (a, v) → a.cell.good = true → v.fab.echo = some e → a.cell.ctx = e.num →
        let fix := a.at_ - e.at_ - leAt a.cell.payload 12 4
        let x := v.echoEnd (2 ^ 31 + fix % 2 ^ 24)
        exec (.echoRsp t) s = .next (if e.setDelay ∧ e.target = x.fldP Pg.hub Reg.HUB_TICK_CFG 31 16 ∧ fix / 2 < x.frameLen / 2 then
          x.setP Pg.hub Reg.HUB_TICK_DELAY 23 0 (fix / 2) else x))
    ∧ (∀ e : Echo, u.fab.echo = some e → e.at_ + 2 ^ 20 ≤ u.wall →
        exec (.echoTimeout t) s = .next (((u.setFab { u.fab with echo := none }).wrP Pg.rte Reg.RTE_ECHO_RES 0x40000000).setInt Pg.rte 4))

/-- R465. -/
def Obligations.ManagementMessages : Prop :=
  ∀ (s : State) (t : Nat),
    let u := s.atTime t
    (∀ (port : Fin 2) (v : BitVec 32), u.Accepts port (Pg.rte.base + Reg.RTE_MGMT_CMD) → bit v.toNat 31 = true →
        exec (.mgmtGo t port v) s = .next (u.answered.create u.wall none
          { Cell.blank 0xC (bits v.toNat 15 0) ((List.range 16).flatMap fun k => leBytes 4 (u.num Pg.rte (Reg.RTE_MGMT_TX + 4 * k))) with mc := bit v.toNat 30 }))
    ∧ (∀ (a : Arrived) (v : State), u.takeHere 0xC = some (a, v) → a.cell.good = true →
        let n := v.fldP Pg.rte Reg.RTE_MGMT_STAT 3 0
        let o := Reg.RTE_MGMT_RXn + 128 * ((v.fldP Pg.rte Reg.RTE_MGMT_STAT 6 4 + n) % 8)
        (8 ≤ n → exec (.mgmt t) s = .next (v.bump Pg.rte Reg.RTE_MGMT_DROP_CNT 1))
        ∧ (n < 8 → exec (.mgmt t) s = .next (((((List.range 16).foldl (fun x i => x.wrP Pg.rte (o + 4 * i) (BitVec.ofNat 32 (leAt a.cell.payload (4 * i) 4)))
            v).wrP Pg.rte (o + 0x40) (BitVec.ofNat 32 a.cell.src)).setP Pg.rte Reg.RTE_MGMT_STAT 3 0 (n + 1)).setInt Pg.rte 3)))
    ∧ (∀ (port : Fin 2) (v : BitVec 32), u.Accepts port (Pg.rte.base + Reg.RTE_MGMT_POP) → bit v.toNat 0 = true →
        let n := u.fldP Pg.rte Reg.RTE_MGMT_STAT 3 0
        (n ≠ 0 → exec (.mgmtPop t port v) s = .next ((u.answered.setP Pg.rte Reg.RTE_MGMT_STAT 3 0 (n - 1)).setP Pg.rte Reg.RTE_MGMT_STAT 6 4
          (u.fldP Pg.rte Reg.RTE_MGMT_STAT 6 4 + 1)))
        ∧ (n = 0 → exec (.mgmtPop t port v) s = .next u.answered))

/-- R493 to R496. -/
def Obligations.CollectiveAgreement : Prop :=
  ∀ (s : State) (t : Nat),
    let u := s.atTime t
    (∀ (a : Arrived) (v : State) (n : Nat) (l : Leg) (i : Inst), u.CollCell 3 (fun _ => false) a v n l → v.inst? n = some i →
        let fp := a.cell.payload.take 32
        (l ≠ .parent → (i.leg l).fp = none →
          let r := v.cack (i.setLeg { i.leg l with fp := some fp }) l
          exec (.cfpr t) s = .next (r.1.touched r.2))
        ∧ (l = .parent → bit (leAt a.cell.payload 0x20 1) 0 = true → i.inst = cellInst a.cell → i.agreed = false →
          let r := v.cack (i.setLeg { i.leg l with fp := some fp }) l
          ((r.2.member.isSome = true ∧ fpAgree fp (r.1.ownFp r.2) = false) →
            exec (.cfpr t) s = .next ((r.1.putInst r.2).collAbort r.2 .FP_MISMATCH (some (leAt fp 0x14 2)) fp none))
          ∧ (r.2.member = none ∨ fpAgree fp (r.1.ownFp r.2) = true →
            let j := { r.2 with agreed := true, ref := some (r.2.ref.getD fp) }
            let q := j.legs.foldl (fun (x : State × Inst) y => match y.leg with
              | .child _ => x.1.sendFp x.2 y.leg
              | _ => x) (r.1, j)
            exec (.cfpr t) s = .next (q.1.touched q.2))))
    ∧ (∀ (e : Fin 4096) (errs : List AccessErr) (i : Inst), let w := s.atFacing errs t
        w.inst? e = some i → i.accepted = false → i.ref.isSome = true →
        (w.slotsUsed + i.w ≤ 8192 → exec (.fingerprintAccept t e errs) s = .next (State.shareAbort ((w.putInst { i with accepted := true }).touchEntry e)))
        ∧ (8192 < w.slotsUsed + i.w → i.waited = false →
            exec (.fingerprintAccept t e errs) s = .next ((w.putInst { i with waited := true }).bump Pg.coll Reg.COLL_SLOT_WAIT_CNT 1))
        ∧ (8192 < w.slotsUsed + i.w → i.waited = true → exec (.fingerprintAccept t e errs) s = .next w))

/-- R497, R500. -/
def Obligations.CollectiveCells : Prop :=
  ∀ (s : State) (t : Nat) (dis : Bool) (errs : List AccessErr) (a : Arrived) (v : State) (n : Nat) (l : Leg),
    let u := s.atFacing errs t
    let c := a.cell
    let current (x : State) : Prop := behind (x.epochDist c.epoch) = false ∧ ahead (x.epochDist c.epoch) = false
    (∀ i : Inst, u.CollCell 4 (fun _ => false) a v n l → v.inst? n = some i → i.accepted = true → i.inst = cellInst c →
        cellSeg c < v.segCount i → cellNum c < v.segCells i (cellSeg c) →
        ((v.collEntry n).ring = false → (v.expected i (cellSeg c)).contains l = true →
          ((v.collEntry i.entry).isMember = true ∨ (v.collEntry i.entry).isMember = false ∧ c.epoch = i.epoch) →
            exec (.cup t dis errs) s = .next (v.takeCell i l c false dis).wake)
        ∧ ((v.collEntry n).ring = true → (v.collEntry i.entry).isMember = true → current v →
            exec (.cup t dis errs) s = .next (v.takeCell i l c true dis).wake))
    ∧ (u.CollCell 4 (fun _ => false) a v n l → v.inst? n = none → v.lateCell n (cellInst c) l true = none →
        exec (.cup t dis errs) s = .next (v.bump Pg.coll Reg.COLL_EARLY_CNT 1).wake)
    ∧ (∀ i : Inst, u.CollCell 5 (fun _ => false) a v n .parent → v.inst? n = some i → i.accepted = true → i.inst = cellInst c →
        ((v.collEntry i.entry).isMember = true ∧ current v ∨ (v.collEntry i.entry).isMember = false ∧ c.epoch = i.epoch) →
        cellSeg c < v.segCount i → cellNum c < v.segCells i (cellSeg c) →
          exec (.cdn t errs) s = .next (v.takeCell i .parent c true false).wake)
    ∧ (∀ (i : Inst) (down : Bool),
        let g := i.seg (cellSeg c)
        let taken := (if down then g.down else g.up).any fun p => p.leg == l && p.cell == cellNum c
        ((cellSeg c < i.release ∨ taken = true) → v.takeCell i l c down dis = v.dupCell i l)
        ∧ (i.release ≤ cellSeg c → taken = false → i.release + i.w ≤ cellSeg c → v.takeCell i l c down dis = v.bump Pg.coll Reg.COLL_EARLY_CNT 1)
        ∧ (i.release ≤ cellSeg c → taken = false → cellSeg c < i.release + i.w →
            let p := v.takePiece i l c down
            let q := if p.2 then v.legDone p.1 l (cellSeg c) else (v, p.1)
            let h := q.2.seg (cellSeg c)
            let j := if p.2 = true ∧ down = true then
                q.2.setSeg (if (q.1.collEntry i.entry).ring then { h with down := inOrder h.down } else { h with res := some (inOrder h.down) })
              else q.2
            let bad := dis = true ∧ q.1.prot = 1 ∧ down = false ∧ q.1.complete j (j.seg (cellSeg c)) = true
            p.1 = i.setSeg (if down then { g with down := g.down ++ [⟨l, cellNum c, c.payload, cellTop c⟩] }
              else { g with up := g.up ++ [⟨l, cellNum c, c.payload, cellTop c⟩] })
            ∧ (¬bad → v.takeCell i l c down dis = q.1.touched j)
            ∧ (bad → v.takeCell i l c down dis = (q.1.putInst j).collAbort j .ADDER_MISMATCH (some q.1.node) (q.1.ownFp j) (some (cellSeg c)))))

/-- R501 to R503. -/
def Obligations.CollectiveAcks : Prop :=
  ∀ (s : State) (t : Nat),
    let u := s.atTime t
    (∀ (errs : List AccessErr) (a : Arrived) (v : State) (n : Nat) (l : Leg) (i : Inst), (s.atFacing errs t).CollCell 6 (fun c => !cellTop c) a v n l →
        v.inst? n = some i → i.inst = cellInst a.cell →
        (i.leg l).sends = true → ((l = .parent ∨ l = .next) ∧ cellTop a.cell = false ∨ (∃ p, l = .child p) ∧ cellTop a.cell = true) →
        let x := i.leg l
        let hit := fun (q : SentSeg) => if q.num < 0 then bit (leAt a.cell.payload 62 1) 0
          else ackCovers (cellSeg a.cell) (leNat (a.cell.payload.take 60)) q.num.toNat && decide (q.num.toNat ≤ cellSeg a.cell + 480)
        let tm := match (x.sent.filter hit).find? fun q => !q.resent with
          | some q => x.timer.sample (a.at_ - q.at_)
          | none => x.timer
        exec (.cack t errs) s = .next (v.touched (i.setLeg { x with sent := x.sent.filter fun q => !hit q, acked := (x.sent.filter hit).map (fun q => q.num) ++ x.acked, rel := bits (leAt a.cell.payload 60 2) 14 0, timer := if x.sent.head?.any hit then { tm with rto := none, retries := 0 } else tm })).wake)
    ∧ (∀ (e : Fin 4096) (leg : LegName) (i : Inst) (k : Nat), u.inst? e = some i → (i.leg (legOf leg)).since = some k → k + 256 ≤ u.wall →
        let r := u.cack i (legOf leg)
        exec (.cackTimer t e leg) s = .next (r.1.putInst r.2))
    ∧ (∀ (e : Fin 4096) (leg : LegName) (i : Inst) (q : SentSeg) (r : List SentSeg), u.inst? e = some i → let x := i.leg (legOf leg)
        x.sent = q :: r → q.at_ + u.rtoOf x.timer ≤ u.wall →
        exec (.legResendTimeout t e leg) s = .next (State.shareAbort (u.legDue i (legOf leg)).touchFresh)
        ∧ (u.retryMax ≤ x.timer.retries →
            let c := u.collEntry i.entry
            let far := match legOf leg with
              | .parent => u.fldP (Pg.fab c.parent) Reg.FAB_NBR 31 16
              | .child p => u.fldP (Pg.fab p) Reg.FAB_NBR 31 16
              | .next => c.next
              | _ => c.prev
            u.legDue i (legOf leg) = u.collAbort i .LEG_FAIL (some far) [] none)
        ∧ (x.timer.retries < u.retryMax →
            let go := (x.sent.filter fun z => decide (z.num < ((x.rel + i.w : Nat) : Int))).take u.retryBurst
            let y := go.foldl (fun (y : State × Nat) z => ((y.1.resendUnit i (legOf leg) z).1, y.2 + (y.1.resendUnit i (legOf leg) z).2)) (u, 0)
            let v := y.1.bump Pg.coll Reg.COLL_RESEND_CNT y.2
            u.legDue i (legOf leg) = v.putInst (i.setLeg { x with sent := x.sent.map fun z => if go.any (fun m => m.num == z.num) then { z with at_ := v.wall, resent := true } else z, timer := v.dueAgain x.timer })))
    ∧ (∀ (errs : List AccessErr) (e : Fin 4096) (n : Fin 32768) (i : Inst) (m : Member), let y := s.atFacing errs t
        y.inst? e = some i → i.member = some m → (i.seg n).dlv = .pending →
        let g := i.seg n
        let d := y.delivery i m g
        let flags := (g.res.getD []).countP fun p => p.flag
        ∀ z : State,
          (y.writeTo Pg.coll (i.id * 65536) d.1 d.2.length 1 = (z, none) →
            let v := (z.store d.1 d.2).bump Pg.coll Reg.COLL_FLAG_CNT flags
            let j := { i.setSeg { g with dlv := .written } with written := i.written + 1, flag := i.flag || flags != 0 }
            let v := if v.whole j then v.finishColl j m 0 else v
            exec (.segmentWritten t e n errs) s = .next (State.shareAbort ((v.putInst j).touchEntry e)).wake)
          ∧ (∀ code, y.writeTo Pg.coll (i.id * 65536) d.1 d.2.length 1 = (z, some code) →
            exec (.segmentWritten t e n errs) s = .next (State.shareAbort ((z.putInst { i with failed := some (code, n) }).touchEntry e)).wake))

/-- R504, R505. -/
def Obligations.CollectiveAborts : Prop :=
  ∀ (s : State) (t : Nat),
    let u := s.atTime t
    (∀ (e : Fin 4096) (i : Inst), u.inst? e = some i → i.active + 2 ^ u.fldP Pg.coll Reg.COLL_CFG 4 0 ≤ u.wall →
        exec (.collTimeout t e) s = .next (State.shareAbort (u.collAbort i .TIMEOUT none [] none).touchFresh))
    ∧ (∀ (a : Arrived) (v : State) (n : Nat) (l : Leg) (i : Inst), u.CollCell 7 (fun _ => false) a v n l → v.inst? n = some i → i.inst = cellInst a.cell →
        let pl := a.cell.payload
        let code := leAt pl 0 2
        let x := v.abortInst i code (leAt pl 2 2) (if bit (leAt pl 6 1) 0 then some (leAt pl 4 2) else none) ((pl.drop 0x10).take 32) (some l) none
        let x := if stopError code then x.stopJob code else x
        exec (.cabt t) s = .next (State.shareAbort (if v.ofFrame i then x.abortFrame code else x).touchFresh))
    ∧ (let now := u.coll.aborts.filter fun x => x.due ≤ u.wall
       exec (.cabtResend t) s = .next (now.foldl (fun v x => v.arrive 24 x.cell.cls v.wall x.direct x.cell)
         (u.setColl { u.coll with aborts := u.coll.aborts.filter fun x => !(x.due ≤ u.wall) })))

/-- R426: a codeword with at most 15 symbol errors is corrected. -/
def Obligations.BlockReception : Prop :=
  ∀ (s : State) (t : Nat) (port : Fin 24) (moved : Bool) (errs : List Nat) (ctrl : BitVec 160) (cells : List (List Byte)),
    let u := s.atTime t
    let x := u.port port
    let pg := Pg.fab port
    let c := ctrl.toNat
    let req := if x.wide then bits c 147 144 else bits c 67 64
    let spoiled := ∃ e ∈ errs, 15 < e
    let map := match x.ask with
      | some w => if moved then x.rxFailed else x.rxFailed - x.rxFailed / 2 ^ w % 2 * 2 ^ w
      | none => x.rxFailed
    let v := errs.zipIdx.foldl (fun v e => match laneWl map e.2 with
      | some w => if 0 < e.1 ∧ e.1 ≤ 15 then v.countSymbols port w e.1 else v
      | none => v) u
    let now (y : State) := exec (.blockReceive t port moved errs ctrl cells) s = .next y
    (u.isolated port = true ∨ x.line = .off ∨ x.line = .down → now u)
    ∧ (u.isolated port = false → x.line = .retention → (spoiled → now u) ∧ (¬spoiled → now (u.takeWake port req)))
    ∧ (u.isolated port = false → x.line = .training ∨ x.line = .full ∨ x.line = .half →
        (spoiled → let w := v.bump pg Reg.FAB_FEC_UBLK_CNT 1
          (2 ≤ (w.port port).spoiled → now (w.portTrain port))
          ∧ ((w.port port).spoiled < 2 → now (w.setPort port { w.port port with spoiled := (w.port port).spoiled + 1, moved := 0 })))
        ∧ (¬spoiled → let w := v.takeWake port req
          let y : FabPort := { (creditFields x.wide c).foldl (fun (y : FabPort) f => y.takeCredit w.wall f) (w.port port) with spoiled := 0, heard := true }
          let w := (w.setPort port (y.countMoved moved)).bump64 pg Reg.FAB_RX_CELL_LO cells.length
          now ((cells.foldl (fun (z : State) l => let k := Cell.ofBytes l
            if y.line = .training ∧ k.typ ≠ 0xD then z else z.arrive port k.cls z.wall none k) w).takeRequest port req)))

/-- R425, R445. -/
def Obligations.BlockTransmission : Prop :=
  ∀ (s : State) (t : Nat) (port : Fin 24),
    let u := s.atTime t
    let pg := Pg.fab port
    let code := u.fldP pg Reg.FAB_STAT 31 29
    (code = 0 ∨ 3 < code → exec (.blockTransmit t port) s = .next u)
    ∧ (code = 1 ∨ code = 2 ∨ code = 3 →
        let x := u.port port
        let x := match x.txNext with
          | some m => if x.bseq % 64 = 0 then { x with txFailed := m, txNext := none } else x
          | none => x
        let r := u.picks (if x.wide then 64 else 32) x
        let l := r.1
        let y := r.2
        let cells := l.zipIdx.map fun a => (addWait a.1.cell (u.wall + slotTime y.wide a.2 - a.1.at_ - 100)).bytes
        let ctrl : BlockCtrl := { bseq := y.bseq, valid := 2 ^ l.length - 1, credit := y.released.map fun f => f / 2, req := if y.wake ≠ 0 then 0xE else y.ask.getD 0xF, fault := !y.heard }
        let v := u.setPort port { y with bseq := (y.bseq + 1) % 65536, wake := y.wake - 1 }
        let v := if y.wake = 1 then v.setP Pg.stb Reg.STB_LINK_WAKE port port 0 else v
        let v := l.foldl State.releaseCell (v.bump64 pg Reg.FAB_TX_CELL_LO l.length)
        exec (.blockTransmit t port) s = .next ({ v with out := v.out ++ [Out.block port (blockLanes y.wide cells (ctrl.word y.wide))] }.portSync port))

/-- R427 to R431. -/
def Obligations.PortLife : Prop :=
  ∀ (s : State) (t : Nat) (port : Fin 24),
    let u := s.atTime t
    let pg := Pg.fab port
    let x := u.port port
    (∀ (wl : Fin 9) (lock : Bool), (x.line = .full ∨ x.line = .half) → bit x.rxFailed wl = false →
        (lock = true ∨ u.fldP pg Reg.FAB_CFG 15 8 ≠ 0 ∧ x.window = u.wall / 2 ^ 20 ∧ 256 * u.fldP pg Reg.FAB_CFG 15 8 ≤ x.csym.getD wl 0) →
        let m := Nat.lor x.rxFailed (2 ^ wl.val)
        let least := min (goodWl m) (goodWl x.txFailed)
        let v := ((((u.bump pg Reg.FAB_WL_FAIL_CNT 1).raise pg .WL_FAIL none (fabInfo 0xF wl)).setInt pg 2).noteRepair (wlEntry port wl (b2n lock))).setPort port
          { x with rxFailed := m, ask := some wl.val, moved := 0 }
        exec (.wlFail t port wl lock) s = .next (if least < 4 then (v.setPort port { v.port port with line := .down, ask := none }).portSync port
          else if least < 8 then v.portHalf port else v.portSync port))
    ∧ (∀ (lock far : BitVec 9) (rtt : BitVec 16), u.fldP pg Reg.FAB_STAT 31 29 = 1 →
        let lost := (List.range 9).filter fun w => !bit (u.mappedWl port 0) w && !bit lock.toNat w
        let v := lost.foldl (fun v w => (v.noteRepair (wlEntry port w 2)).setInt pg 2) u
        let rx := lost.foldl (fun m w => Nat.lor m (2 ^ w)) (u.mappedWl port 0)
        let tx := Nat.lor (v.mappedWl port 1) (Nat.xor (far.toNat % 512) 511)
        let w := v.wrP pg Reg.FAB_LINK_RTT (BitVec.ofNat 32 rtt.toNat)
        let y := v.port port
        exec (.portTraining t port lock far rtt) s = .next (if min (goodWl rx) (goodWl tx) < 4
          then ((w.setPort port { y with rxFailed := rx, txFailed := tx, line := .down }).setP pg Reg.FAB_CFG 30 30 0).portSync port
          else ((w.setPort port { y with rxFailed := rx, txFailed := tx, wide := decide (8 ≤ min (goodWl rx) (goodWl tx)) }).portSync port).portAlign port))
    ∧ (∀ a : Arrived, u.fab.inbox.find? (isLinkFrom port) = some a →
        let v := u.setFab { u.fab with inbox := u.fab.inbox.erase a }
        let y := v.port port
        let pl := a.cell.payload
        let nbr := leAt pl 0 2 * 65536 + leAt pl 2 1 % 32
        let v := if v.num pg Reg.FAB_NBR = nbr ∧ v.fldP pg Reg.FAB_STAT 28 28 = 1 then v else v.setInt pg 3
        let v := (v.wrP pg Reg.FAB_NBR (BitVec.ofNat 32 nbr)).setP pg Reg.FAB_STAT 28 28 1
        let far := (List.range 8).map fun c => leAt pl (4 + 2 * c) 2
        (y.line = .training → y.aligned = true → bit (leAt pl 3 1) 1 = !y.wide →
          exec (.link t port) s = .next (((v.setPort port { y with line := if y.wide then .full else .half, credits := far, farAlloc := far }).setP pg
            Reg.FAB_CFG 30 30 0).portSync port))
        ∧ (y.line = .training → y.aligned = true → bit (leAt pl 3 1) 1 = y.wide →
          exec (.link t port) s = .next ((v.setPort port { y with wide := false }).portAlign port))
        ∧ (y.line ≠ .training ∨ y.aligned = false → exec (.link t port) s = .next (v.releaseCell a)))
    ∧ (u.portUp port = true → x.linkAt + 2 ^ 24 ≤ u.wall → exec (.linkCellTimer t port) s = .next (u.queueLink port))

/-- R421, R432, R467. -/
def Obligations.LasersAndSideband : Prop :=
  ∀ s : State,
    (∀ (t : Nat) (source : Fin 2), let u := s.atTime t
        exec (.laserLow t source) s = .next (((List.range 12).map (· + 12 * source.val)).foldl (fun v p =>
          if v.fldP (Pg.fab p) Reg.FAB_STAT 27 27 = 1 then v
          else ((v.setP (Pg.fab p) Reg.FAB_STAT 27 27 1).raise (Pg.fab p) .LASER_LOW none (fabInfo 0xF 0xF)).portSync p) u)
        ∧ exec (.laserReturn t source) s = .next (((List.range 12).map (· + 12 * source.val)).foldl (fun v p =>
          if v.fldP (Pg.fab p) Reg.FAB_STAT 27 27 = 0 then v
          else
            let w := v.setP (Pg.fab p) Reg.FAB_STAT 27 27 0
            if (w.port p).line = .off ∨ (w.port p).line = .retention then w.portSync p else w.portTrain p) u))
    ∧ (∀ (port : Fin 24) (off : BitVec 12) (v : BitVec 32),
        let u := s.begin
        let named := off.toNat = Reg.FAB_SB_TEMP ∨ ∃ k < 9, off.toNat = Reg.FAB_SB_RXPWRW + 4 * k
        (u.isolated port = true → exec (.engineSidebandWrite port off v) s = .next u)
        ∧ (u.isolated port = false → off.toNat < Reg.FAB_SB_TEMP → exec (.engineSidebandWrite port off v) s = .next (u.fenceReject port 3 none))
        ∧ (u.isolated port = false → named → exec (.engineSidebandWrite port off v) s = .next (u.wrP (Pg.fab port) off.toNat (BitVec.ofNat 32 (v.toNat % 65536))))
        ∧ (Reg.FAB_SB_TEMP ≤ off.toNat → ¬named → exec (.engineSidebandWrite port off v) s = .next u))

/-- R436, R438, R439. -/
def Obligations.CellsRouted : Prop :=
  ∀ (s : State) (t : Nat) (a : Arrived),
    let u := s.atTime t
    let v := u.setFab { u.fab with inbox := u.fab.inbox.erase a }
    let e := u.routeOf a.cell.dst
    let pri := bits e 4 0
    let alt := bits e 12 8
    let now (x : State) := exec (.cellForward t) s = .next x
    let unicast := a.cell.wellTyped = true ∧ a.direct = none ∧ a.cell.mc = false
    let away := unicast ∧ ¬(u.nodeValid = true ∧ a.cell.dst = u.node)
    u.fab.inbox.find? (fun b => b.cell.typ != 0xD) = some a →
      (a.cell.wellTyped = false → now ((v.bump Pg.rte Reg.RTE_BAD_TYPE_CNT 1).releaseCell a))
      ∧ (unicast → u.nodeValid = true → a.cell.dst = u.node → now ((v.setFab { v.fab with here := v.fab.here ++ [a] }).releaseCell a))
      ∧ (away → bit e 31 = false → now ((v.bump Pg.rte Reg.RTE_NOROUTE_CNT 1).releaseCell a))
      ∧ (away → bit e 31 = true → u.portUp pri = true → now (v.queueOn a pri))
      ∧ (away → bit e 31 = true → u.portUp pri = false → bit e 30 = true → u.portUp alt = true → now (v.queueOn a alt))
      ∧ (away → bit e 31 = true → u.portUp pri = false → ¬(bit e 30 = true ∧ u.portUp alt = true) →
          now ((v.bump (Pg.fab pri) Reg.FAB_DOWN_DROP_CNT 1).releaseCell a))
      ∧ (∀ out, a.cell.hops = 0 → v.queueOn a out = (v.bump Pg.rte Reg.RTE_HOPS_DROP_CNT 1).releaseCell a)
      ∧ (∀ out, a.cell.hops ≠ 0 → v.queueOn a out = v.setPort out { v.port out with queue := (v.port out).queue ++
          [{ a with cell := { a.cell with hops := a.cell.hops - 1, dl := v.dlFor a out } }] })

/-- R441, R448. -/
def Obligations.CellsAgeAndStall : Prop :=
  ∀ (s : State) (t : Nat),
    let u := s.atTime t
    (let old := u.fab.inbox.filter u.aged ++ u.fab.ports.flatMap fun x => x.queue.filter u.aged
     let keep := fun (l : List Arrived) => l.filter fun a => !u.aged a
     let v := u.setFab { u.fab with inbox := keep u.fab.inbox, ports := u.fab.ports.map fun x => { x with queue := keep x.queue } }
     ∃ y, exec (.cellAgeDrop t) s = .next y ∧ y = old.foldl (fun w a =>
        (if a.port < 24 then w.bump (Pg.fab a.port) Reg.FAB_AGE_DROP_CNT 1 else w.bump Pg.rte Reg.RTE_NOROUTE_CNT 1).releaseCell a) v
      ∧ (∀ a ∈ y.fab.inbox, u.aged a = false) ∧ (∀ x ∈ y.fab.ports, ∀ a ∈ x.queue, u.aged a = false))
    ∧ (∀ port : Fin 24, ∃ y, exec (.creditStall t port) s = .next y ∧ y.mem = u.mem ∧ y.eng = u.eng ∧ y.host = u.host
        ∧ ((∀ c < 8, ∀ a ∈ (u.port port).queue, a.cell.cls = c → (u.port port).credits.getD c 0 ≠ 0) → y = u))
    ∧ (∀ (port : Fin 24) (c : Fin 8) (a : Arrived), (u.port port).queue = [a] → a.cell.cls = c.val → (u.port port).credits.getD c.val 0 = 0 →
        max a.at_ ((u.port port).creditAt.getD c.val 0) + 2 ^ u.fldP Pg.rte Reg.RTE_STALL 4 0 ≤ u.wall →
        exec (.creditStall t port) s = .next (((u.setPort port { u.port port with creditAt := (u.port port).creditAt.set c.val u.wall }).raise (Pg.fab port)
          .CREDIT_STALL none (fabInfo c.val 0xF)).setInt Pg.rte 2))

/-- R113. -/
def Obligations.FrameBoundaries : Prop :=
  ∀ (s b : State) (carry : List CarryEvent) (tests : List TestEvent), s.begin.reachBoundary = some b →
    let e := (b.endFrame carry tests).boundaryWork
    let role := e.fldP Pg.hub Reg.HUB_TICK_CFG 1 0
    let n := e.set64 Pg.hub Reg.HUB_FRAME_NUM_LO (e.frameNum + 1)
    let k := if isFollower role then e.eng.fleet.num + 1 else n.frameNum
    let v := n.setFleet { e.eng.fleet with role := role, num := k, misses := if isFollower role then e.eng.fleet.misses else 0 }
    let v := v.setP Pg.hub Reg.HUB_FRAME_STAT 1 0 v.effectiveBand
    let c := v.chooseFrame v.frameLen k
    let x := c.1.sendTick v.frameLen k
    let x := x.setFleet { x.eng.fleet with ready := x.eng.fleet.ready + 1 }
    let x := x.setP Pg.hub Reg.HUB_FRAME_STAT 3 2 x.imageBand
    let x := (List.range 4).foldl (fun (y : State) d =>
      let y := y.setP (Pg.rch d) Reg.RCH_STAT 2 2 (1 - y.fldP (Pg.rch d) Reg.RCH_STAT 2 2)
      if y.eng.frame.kind = .image then y else y.clearRun d) x
    let x := x.snapshots
    exec (.frameBoundary carry tests) s = .next x
    ∧ (c.2 = true → exec (.localIdleInsert carry tests) s = .next x)
    ∧ (isFollower b.eng.fleet.role = true → b.eng.frame.ticked = false → b.eng.frame.kind ≠ .none → b.eng.fleet.misses = 15 →
        exec (.tickLost carry tests) s = .next x)

/-- R69, R72: a frame follows each boundary. -/
def Obligations.AFrameBegins : Prop :=
  ∀ (b : State) (carry : List CarryEvent) (tests : List TestEvent), (b.boundary carry tests).1.eng.frame.kind ≠ .none

/-- R83, R115. -/
def Obligations.StretchAndFetch : Prop :=
  ∀ s : State,
    (∀ t : Nat, exec (.stretchExceeded t) s = .next (s.begin.passTime (max t (if s.issuing = true ∧ s.frozen = true then s.eng.frame.abortAt else 0))))
    ∧ (∀ t : Nat, let f := s.eng.frame; let e := f.abortAt; let x := f.pendingFreeze e
        s.issuing = true → s.frozen = true → (f.freezeEnd.all fun y => decide (e < y)) = true → s.wall < e → t ≤ e →
          exec (.stretchExceeded t) s = .next ((State.raise { s.begin with wall := e } Pg.hub .STRETCH_EXCEEDED x.wordAddr
            (x.die % 4 * 2 ^ 30 + x.reason.rank * 2 ^ 24 + f.index)).abortFrame (errCode .STRETCH_EXCEEDED .hub)))
    ∧ (∀ (t : Nat) (d : Fin 4) (errs : List AccessErr), let u := s.atFacing errs t; let f := u.eng.frame
        let waits := u.issuing = true ∧ bit u.runMask d = true ∧ f.fetched.getD d true = false
        (∀ (x : Slot) (z : State), waits → u.slot? f.slot = some x →
          (u.countFetch x f.index d = (z, none) →
            exec (.fetchComplete t d errs) s = .next (z.setFrame { z.eng.frame with fetched := z.eng.frame.fetched.set d true }).wake)
          ∧ (∀ e, u.countFetch x f.index d = (z, some e) → exec (.fetchComplete t d errs) s = .next (z.abortFrame e.1)))
        ∧ (∀ (x : Slot) (i : Nat) (z : State), ¬waits → u.nextImage = some (x, i) → u.hasWords x i d = true → f.nextFetched.getD d false = false →
            f.fetchError = none →
          (u.countFetch x i d = (z, none) →
            exec (.fetchComplete t d errs) s = .next (z.setFrame { z.eng.frame with nextFetched := z.eng.frame.nextFetched.set d true }))
          ∧ (∀ e, u.countFetch x i d = (z, some e) →
            exec (.fetchComplete t d errs) s = .next (z.setFrame { z.eng.frame with fetchError := some e }))))

/-- R102, R104, R111. -/
def Obligations.TicksAndIdleRequests : Prop :=
  ∀ (s : State) (t : Nat) (a : Arrived) (v : State), let u := s.atTime t
    (u.takeHere 8 = some (a, v) → a.cell.good = true →
      (isFollower v.eng.fleet.role = false → exec (.tick t) s = .next v)
      ∧ (isFollower v.eng.fleet.role = true → a.cell.src ≠ v.fldP Pg.hub Reg.HUB_TICK_CFG 31 16 → exec (.tick t) s = .next (v.bump Pg.rte Reg.RTE_BAD_TYPE_CNT 1))
      ∧ (isFollower v.eng.fleet.role = true → a.cell.src = v.fldP Pg.hub Reg.HUB_TICK_CFG 31 16 →
        let k := leAt a.cell.payload 0 8
        let e := (v.tickError ((a.at_ : Int) - leAt a.cell.payload 12 4)).1
        let coming := (v.tickError ((a.at_ : Int) - leAt a.cell.payload 12 4)).2
        let trims := v.fldP Pg.hub Reg.HUB_TICK_CFG 2 2 == 1
        let m : Int := if e.natAbs ≤ 16 then -e else -16 * e.sign
        let w := if 16 < e.natAbs then v.bump Pg.hub Reg.HUB_TICK_BIG_CNT 1 else v
        let w := w.setP Pg.hub Reg.HUB_TICK_ERR 23 0 (unsigned 24 (max (-8388607) (min 8388607 e)))
        let w := if trims then w.setP Pg.hub Reg.HUB_TICK_ERR 31 24 (unsigned 8 m) else w
        let w := w.setFrame { w.eng.frame with ticked := true, trim := if trims then m else w.eng.frame.trim }
        let w := w.setP Pg.hub Reg.HUB_FRAME_STAT 11 11 1
        let f := v.eng.fleet
        let g : Fleet := { f with num := if coming then k - 1 else k, misses := 0 }
        (bit (leAt a.cell.payload 8 1) 0 = false → exec (.tick t) s = .next (w.setFleet g))
        ∧ (bit (leAt a.cell.payload 8 1) 0 = true →
            exec (.tick t) s = .next ((w.setFleet { g with idles := f.idles ++ [(k + 1, f.asked.map fun q => q.1)], asked := [] }).setP Pg.hub Reg.HUB_FRAME_STAT 4 4 0))))
    ∧ (u.takeHere 9 = some (a, v) → a.cell.good = true →
      (isMaster v.eng.fleet.role = true → exec (.idleReq t) s = .next (v.setFab { v.fab with idleAsked := true }))
      ∧ (isMaster v.eng.fleet.role = false → exec (.idleReq t) s = .next (v.bump Pg.rte Reg.RTE_BAD_TYPE_CNT 1)))

/-- R670 step 1, R672. -/
def Obligations.ColdReset : Prop :=
  ∀ (s : State) (t : Nat) (settle : Fin 8) (nodeboot release puf : Bool),
    let blank (x : State) : Prop := x.mem = [] ∧ x.slots = [] ∧ x.traffic = [] ∧ x.records = [] ∧ x.running = none ∧ x.eng = State.reset.eng
      ∧ x.host = State.reset.host ∧ x.fab = State.reset.fab ∧ x.coll = State.reset.coll ∧ x.pwr = State.reset.pwr ∧ x.links = State.reset.links
      ∧ (∀ g, g ∈ x.grn.dir → ∀ y, g = some y → y.committed = true) ∧ x.pending = s.pending ∧ x.steppingB = s.steppingB
    (∃ x, exec (.powerUp t settle nodeboot release puf) s = .next x ∧ blank x ∧ x.boot.phase = (if release then .settling else .held)
      ∧ x.boot.nodeboot = nodeboot ∧ x.sec.seeded = puf ∧ x.fldP Pg.clk Reg.CLK_STAT 2 0 = settle.val
      ∧ (∀ off, off ≠ Pg.clk.base + Reg.CLK_STAT → x.rd off = regReset off))
    ∧ (∃ x, exec (.vinRemoval t) s = .next x ∧ blank x ∧ x.boot.phase = .dead ∧ ∀ off, x.rd off = regReset off)

/-- R669, R670 steps 2 and 3. -/
def Obligations.BringUpSteps : Prop :=
  ∀ (s : State) (t : Nat), let u := s.atTime t
    (u.boot.phase ≠ .dead → u.Sound → ∃ x, exec (.modResetAssert t) s = .next x ∧ x.boot.phase = .held ∧ x.slots = [] ∧ x.mem = [] ∧ x.traffic = []
        ∧ x.running = none ∧ x.eng = Engines.fresh ∧ x.pwr = Power.fresh ∧ x.stb.caps = []
        ∧ (∀ off, modResetKeeps off = false → x.rd off = regReset off) ∧ (∀ off, modResetKeeps off = true → x.rd off = (u.abortFrame 0).rd off))
    ∧ (∀ (settle : Fin 8) (nodeboot : Bool), u.boot.phase = .held →
        exec (.modResetRelease t settle nodeboot) s = .next ({ u with boot := { u.boot with phase := .settling, warm := false, tripped := false, pinsTaken := false, nodeboot := nodeboot } }.setP
          Pg.clk Reg.CLK_STAT 2 0 settle))
    ∧ (u.boot.phase = .settling →
        let v := (List.range 27).foldl (fun v n => v.setP Pg.clk (Reg.CLK_PLLn_STAT + 4 * n) 31 31 1) u
        exec (.settleDelayExpiry t) s = .next ((v.setP Pg.clk Reg.CLK_STAT 30 29 3).setPhase .locked))
    ∧ (∀ vin : Nat, u.boot.phase = .locked → 4600 ≤ vin →
        exec (.railSequence t vin true) s = .next { u with boot := { u.boot with flow := true, okAt := u.wall, warm := false, phase := .powered } })

/-- R639, R641, R670 steps 4 to 7, R655. -/
def Obligations.BootRuns : Prop :=
  ∀ (s : State) (t : Nat) (f : BootFinds), let u := s.atTime t
    let cold := !u.boot.warm
    (u.boot.phase = .powered → u.fldP Pg.hub Reg.BLK_STAT 1 1 = 0 →
      (f.chain = false → exec (.boot t f) s = .next ((((u.raise Pg.sec .BOOT_AUTH none 0).authFailed).setP Pg.sec Reg.SEC_BOOT_STAT 19 16 1).setPhase .halted))
      ∧ (f.chain = true → u.sec.seeded = false → exec (.boot t f) s = .next ((u.setP Pg.sec Reg.SEC_BOOT_STAT 19 16 2).setPhase .halted))
      ∧ (f.chain = true → u.sec.seeded = true →
        let y := u.setP Pg.sec Reg.SEC_STAT 31 31 1
        let v := (((if y.entropyFailed then y else y.setP Pg.sec Reg.SEC_STAT 30 30 1).newSecNonce).newHoNonce 0).newHoNonce 1
        (f.rpa = false → exec (.boot t f) s = .next (((v.raise Pg.sec .ROLLBACK none 0).setP Pg.sec Reg.SEC_BOOT_STAT 19 16 3).setPhase .halted))
        ∧ (f.rpa = true → cold = true → v.boot.nodeboot = true → exec (.boot t f) s = .next ((v.setP Pg.sec Reg.SEC_STAT 26 26 1).setPhase .recovery))
        ∧ (f.rpa = true → (cold = false ∨ v.boot.nodeboot = false) →
            let a := v.sec.copyCause v.sec.prefB f
            let x := v.copyFails v.sec.prefB a
            let b := x.sec.copyCause (!v.sec.prefB) f
            (a = 0 → exec (.boot t f) s = .next (v.runCopy v.sec.prefB cold f))
            ∧ (a ≠ 0 → b = 0 → exec (.boot t f) s = .next (x.runCopy (!v.sec.prefB) cold f))
            ∧ (a ≠ 0 → b ≠ 0 → exec (.boot t f) s =
                .next ((((x.copyFails (!v.sec.prefB) b).raise Pg.sec (if a = 3 then .ROLLBACK else .BOOT_AUTH) none a).setP Pg.sec Reg.SEC_STAT 26 26 1).setPhase
                  .recovery)))))
    ∧ (∀ (z : State) (b c : Bool), z.Sound → let y := z.runCopy b c f
        y.boot.phase = (if y.entropyFailed then .powered else .ready) ∧ (y.entropyFailed = false → y.fldP Pg.hub Reg.BLK_STAT 0 0 = 1))

/-- R4, R377. -/
def Obligations.WarmReset : Prop :=
  ∀ (s : State) (t : Nat) (port : Fin 2) (tap : Bool) (f : BootFinds), let u := s.atTime t
    let w := u.warmReset
    u.boot.phase.commandable = true →
      (tap = true ∨ port.val = u.owner → exec (.warmReset t port tap f) s = .next { w.bootRun false f with resp := .done })
      ∧ (tap = false → port.val ≠ u.owner → exec (.warmReset t port tap f) s = .next (u.standbyReject port))
      ∧ w.slots = [] ∧ w.running = none ∧ w.traffic = [] ∧ w.records = [] ∧ w.latch = [] ∧ w.fab = Fabric.fresh ∧ w.coll = u.coll.remembered
      ∧ w.links = List.replicate 4 Link.fresh ∧ w.eng.due = [] ∧ w.eng.passes = [] ∧ w.eng.chains = [] ∧ w.eng.frame = Frame.fresh ∧ w.host.run = none
      ∧ w.host.jobs = [] ∧ w.sec.cmd = none ∧ w.seed = none ∧ w.dras = List.replicate 4 none ∧ w.boot.phase = .powered ∧ w.boot.warm = true
      ∧ w.stk.length = u.stk.length
      ∧ (u.Sound → ∀ off, warmKeep off = 0 → off ≠ Pg.clk.base + Reg.CLK_STAT → off ≠ Pg.sec.base + Reg.SEC_STAT →
          (off < Pg.clk.base + Reg.CLK_PLLn_STAT ∨ Pg.clk.base + Reg.CLK_PLLn_STAT + 108 ≤ off) → (∀ k, k < 12 → off ≠ (Pg.stack k).base + Reg.MEMC_STAT) →
          w.rd off = regReset off)
      ∧ (u.Sound → u.pendingRanges = [] → u.traffic = [] → u.grn.run = none → u.pwr.trans = [] →
          ∀ a, (∀ d, d < 4 → a < spadBase d ∨ spadBase d + spadBytes ≤ a) → w.memAt a = u.memAt a)

/-- R661, R597 to R599. -/
def Obligations.InputAndReferenceLosses : Prop :=
  ∀ (s : State) (t : Nat), let u := s.atTime t
    (u.boot.phase.commandable = true →
        let v := u.dropRails.wrP Pg.clk Reg.CLK_STAT (u.rdP Pg.clk Reg.CLK_STAT &&& 0x78000007)
        exec (.vinLow t) s = .next (((List.range 27).foldl (fun v n => v.setP Pg.clk (Reg.CLK_PLLn_STAT + 4 * n) 31 30
          (u.fldP Pg.clk (Reg.CLK_PLLn_STAT + 4 * n) 31 30)) v).setPhase .locked))
    ∧ (∀ pll : Option (Fin 27), (u.boot.phase.commandable = true ∨ u.boot.phase = .locked) → u.pwr.coast = none → 
        let v := (u.setP Pg.clk Reg.CLK_STAT 27 27 1).abortFrame (errCode .REF_LOST .clk)
        let v := v.raise Pg.clk .REF_LOST none (pll.elim 0xFF fun n => n.val)
        let v := (List.range 24).foldl (fun v p => (v.setPort p { v.port p with line := if (v.port p).line = .off then .off else .down }).portSync p) v
        let v := ((((v.pcieDown 0).pcieDown 1).setP Pg.clk Reg.CLK_STAT 31 28 9).bump Pg.clk Reg.CLK_REF_LOST_CNT 1).set64 Pg.clk Reg.CLK_LOST_FRAME_LO
          (u.setP Pg.clk Reg.CLK_STAT 27 27 1).frameNum
        let v := (List.range 27).foldl (fun v n =>
          let o := Reg.CLK_PLLn_STAT + 4 * n
          let w := v.setP Pg.clk o 31 30 1
          if pll.map (fun k => k.val) = some n then w.setP Pg.clk o 7 0 (min 255 (w.fldP Pg.clk o 7 0 + 1)) else w) v
        exec (.refLost t pll) s = .next ((v.setPwr { v.pwr with coast := some v.wall }).setInt Pg.clk 1))
    ∧ (∀ began : Nat, u.pwr.coast = some began →
        let v := (u.setP Pg.clk Reg.CLK_STAT 30 27 12).bump Pg.clk Reg.CLK_COAST_US ((u.wall - began) / 2000)
        let v := (List.range 27).foldl (fun v n => v.setP Pg.clk (Reg.CLK_PLLn_STAT + 4 * n) 31 30 2) v
        let v := (v.setPwr { v.pwr with coast := none }).setInt Pg.clk 2
        (u.boot.phase ≠ .ready → exec (.referenceRelock t) s = .next v)
        ∧ (u.boot.phase = .ready →
          let w := (List.range 24).foldl (fun w p => if (w.port p).line = .down then w.portTrain p else w) v
          let w := (List.range domainCount).foldl (fun w n => if w.domainOn n then w.setDom n 19 16 4 else w) w
          exec (.referenceRelock t) s = .next (w.setFrame { w.eng.frame with kind := .none })))

/-- R600, R605 to R613. -/
def Obligations.PowerDomains : Prop :=
  ∀ (s : State) (t : Nat) (dom : Fin 211) (x : Transit), let u := s.atTime t
    let n := x.dom
    (u.transit? dom = some x → x.stop ≤ u.wall →
      (x.target ≠ 2 →
        let v := (u.dropTransit n).setDom n 31 30 x.target
        let v := if x.target = 0 then v.loseDomain n else v
        let v := if x.target = 0 ∧ 176 ≤ n ∧ n < 200 then (v.setPort (n - 176) { v.port (n - 176) with line := .off }).portSync (n - 176) else v
        let pend := v.domFld n 27 27 == 1 && v.pwr.coast.isNone
        let w := v.setDom n 27 27 0
        let w := if pend then (w.bump Pg.pwr Reg.PWR_PEND_ON_CNT 1).setInt Pg.pwr 1 else w
        exec (.powerEntryComplete t dom) s = .next (if pend || (x.honoured && w.pwr.coast.isNone) then w.beginExit n x.target else w))
      ∧ (x.target = 2 → ∀ (ecc kat : Bool) (lanes : List (Bool × Fin 1632)),
        let v := ((u.dropTransit n).restoreDomain n ecc).setDom n 19 16 4
        let v := v.setPwr { v.pwr with holds := (n, 0) :: v.pwr.holds.filter fun q => q.1 != n }
        (n < 84 ∨ (172 ≤ n ∧ n < 176) ∨ (203 ≤ n ∧ n < 207) → exec (.powerExitComplete t dom ecc kat lanes) s = .next v)
        ∧ (∀ p, 84 ≤ n → n < 160 → (domainInfo n).owner = some p → exec (.powerExitComplete t dom ecc kat lanes) s = .next (v.seedEngine p kat))
        ∧ (160 ≤ n → n < 172 → exec (.powerExitComplete t dom ecc kat lanes) s = .next (if x.from_ = 0 then v.applyStackRepairs (n - 160) else v))
        ∧ (176 ≤ n → n < 200 → x.from_ = 0 → exec (.powerExitComplete t dom ecc kat lanes) s = .next (v.portTrain (n - 176)))
        ∧ (176 ≤ n → n < 200 → x.from_ ≠ 0 → let k := goodWl (v.port (n - 176)).rxFailed
            exec (.powerExitComplete t dom ecc kat lanes) s = .next ((v.setPort (n - 176) { v.port (n - 176) with line := if (v.port (n - 176)).wide = true ∧ 8 ≤ k
              then .full else if 4 ≤ k then .half else .down }).portSync (n - 176)))
        ∧ (200 ≤ n → n < 202 → exec (.powerExitComplete t dom ecc kat lanes) s = .next (if ecc then v.setPci (n - 200) PciPort.fresh else v))
        ∧ (n = 202 → exec (.powerExitComplete t dom ecc kat lanes) s = .next (v.setGrn { v.grn with
            dir := if x.from_ = 0 then v.grn.dir.map (fun g => g.filter Generation.committed) else v.grn.dir, starting := true }))
        ∧ (207 ≤ n → x.from_ ≠ 0 → exec (.powerExitComplete t dom ecc kat lanes) s = .next v)
        ∧ (207 ≤ n → x.from_ = 0 → exec (.powerExitComplete t dom ecc kat lanes) s =
            .next ((v.linkTrainStart (n - 207)).linkTrainEnd (n - 207) (lanes.map fun l => (b2n l.1, l.2.val))))))
    ∧ (u.eng.frame.kind = .none → u.eng.fleet.ready = 0 → (u.boot.phase = .powered ∨ u.boot.phase = .ready) →
        exec (.dividerHoldInterval t) s = .next ((List.range domainCount).foldl State.rampDomain u))

/-- R615 to R624, R378. A Stubble millisecond is 2,000,000 core cycles (R634). -/
def Obligations.StubbleSamples : Prop :=
  ∀ (s : State) (t : Nat), let u := s.atTime t
    (u.stubbleRuns = true → ∀ vals : List (Option Int),
        let v := (List.range 0x24).foldl (fun v i => v.setInput i (vals.getD i none)) u
        let logs := ((List.range 5).filter v.inputValid).map v.inputVal
        let w := (v.setInput 0x28 (logs.head?.map fun x => logs.tail.foldl max x)).samplePower
        let on := (List.range 64).filter fun c => bit (w.rd (condWord c)).toNat 31 && !isDigital (fld (w.rd (condWord c)) 7 0)
        let hot := w.inputValid 0x28 = true ∧ 500 ≤ w.inputVal 0x28
        let src := ((List.range 5).find? fun i => w.inputValid i && w.inputVal i == w.inputVal 0x28).getD 0x28
        (¬hot → exec (.stubbleAnalogSample t vals) s = .next (on.foldl State.evalCond w).runRules)
        ∧ (hot → exec (.stubbleAnalogSample t vals) s =
            .next (let y := w.raise Pg.stb .LOGIC_HOT none (stbInfo 0x28 0xFF 0xFF false); y.trip 2 src (unsigned 16 (y.inputVal src)))))
    ∧ (u.stubbleRuns = true → ∀ wake flow : Bool,
        let v : State := { u with boot := { u.boot with wake := wake, flow := flow } }
        let w := (((v.setInput 0x24 (some (b2n u.pwr.coast.isNone))).setInput 0x25 (some (b2n wake))).setInput 0x26
          (some (b2n (u.fab.ports.any fun p => p.lwake)))).setInput 0x27 (some (b2n !flow))
        let on := (List.range 64).filter fun c => bit (w.rd (condWord c)).toNat 31 && isDigital (fld (w.rd (condWord c)) 7 0)
        exec (.stubbleDigitalSample t wake flow) s = .next (on.foldl State.evalCond w).runRules)
    ∧ (∀ c : Fin 64, let st := u.rd (condStat c); let limit := fld (u.rd (condWord c + 12)) 31 16
        limit ≠ 0 → bit st.toNat 31 = true → bit st.toNat 30 = false → (u.condState c).since + limit * 2000000 ≤ u.wall →
        exec (.inputStuck t c) s = .next (let v := u.wr (condStat c) (setFld st 30 30 1)
          (v.raise Pg.stb .INPUT_STUCK none (stbInfo (fld (v.rd (condWord c)) 7 0) c 0xFF false)).setInt Pg.stb 2))
    ∧ (∀ (c : Fin 64) (e : Nat), (u.condState c).held = some e → e ≤ u.wall →
        exec (.holdoffExpiry t c) s = .next (let v := u.wr (condStat c) (setFld (u.rd (condStat c)) 28 28 0)
          v.setCond c { v.condState c with held := none, trues := 0, falses := 0, times := [] }))
    ∧ (∀ (i : Fin 41) (mv : BitVec 16), u.railServes i = true →
        exec (.railFault t i mv) s = .next (((u.raise Pg.pwr .RAIL_FAULT none (i.val * 2 ^ 24)).wrP Pg.pwr Reg.PWR_RAIL_LAST
          (BitVec.ofNat 32 (i.val * 2 ^ 24 + mv.toNat))).abortFrame (errCode .RAIL_FAULT .pwr)))
    ∧ (u.fldP Pg.hub Reg.BLK_STAT 1 1 = 1 → exec (.ctlrBeat t) s = .next (u.wrP Pg.hub Reg.HUB_CTLR_BEAT (u.rdP Pg.hub Reg.HUB_CTLR_BEAT + 1)))

/-- R383, R385, R671. -/
def Obligations.PciePorts : Prop :=
  ∀ (s : State) (t : Nat) (port : Fin 2), let u := s.atTime t
    let p := Pg.pcie port
    let d := ((u.wrP p Reg.PCIE_LINK_STAT 0).setPci port PciPort.fresh).discardFetched port
    let down := if u.fldP p Reg.PCIE_LINK_STAT 21 21 = 1 then d.setInt p 1 else d
    let lo := p.base + Reg.PCIE_SQq_BASE_LO
    exec (.pcieLinkDown t port) s = .next down
    ∧ exec (.perstAssert t port) s = .next (({ down with regs := down.regs.filter fun q => !(decide (lo ≤ q.1) && decide (q.1 < lo + 0x400)) }).setHost
        { down.host with perst := down.host.perst.set port true })
    ∧ exec (.perstDeassert t port) s = .next (u.setHost { u.host with perst := u.host.perst.set port false })
    ∧ (u.linkMayRise port = true → ∀ (speed : Fin 6) (width : Fin 4) (cfg : HostConfig),
        exec (.pcieLinkUp t port speed width cfg) s = .next (((u.wrP p Reg.PCIE_LINK_STAT
          (BitVec.ofNat 32 ((speed.val + 1) * 2 ^ 28 + [1, 4, 8, 16].getD width 16 * 2 ^ 22 + 2 ^ 21))).setPci port { u.pci port with cfg := cfg }).msixFlush port))
    ∧ (u.fldP p Reg.PCIE_LINK_STAT 21 21 = 1 → ∀ l1 l0p : Bool,
        exec (.pcieLinkPowerState t port l1 l0p) s = .next ((u.setP p Reg.PCIE_LINK_STAT 20 20 (b2n l0p)).setP p Reg.PCIE_LINK_STAT 19 19 (b2n l1)))

/-- R398 to R401, R415. -/
def Obligations.Rings : Prop :=
  ∀ (s : State) (t : Nat) (port : Fin 2) (ring : Fin 16), let u := s.atTime t
    let p := Pg.pcie port
    let cfg := fun (cq : Bool) => ringReg (if cq then Reg.PCIE_CQq_CFG else Reg.PCIE_SQq_CFG) ring
    (∀ (cq : Bool) (v : BitVec 32), u.Accepts port (p.base + cfg cq) →
        let was := u.rdP p (cfg cq)
        let bad := (fld was 31 31 = 1 ∧ fld v 4 0 ≠ fld was 4 0) ∨ (fld v 31 31 = 1 ∧ (fld v 4 0 < 6 ∨ 16 < fld v 4 0))
        let w := u.answered.wrP p (cfg cq) (v &&& (if cq then 0xC000001F else 0x8000001F))
        (bad → exec (.ringEnable t port ring cq v) s = .next ((u.answered.deny p .RING_CFG none (ring.val * 2 ^ 28 + 2 ^ 27)).reported port))
        ∧ (¬bad → fld v 31 31 = 0 → exec (.ringEnable t port ring cq v) s = .next w)
        ∧ (¬bad → fld v 31 31 ≠ 0 → exec (.ringEnable t port ring cq v) s = .next (if cq
            then (w.wrP p (ringReg Reg.PCIE_CQq_HEAD ring) 0).wrP p (ringReg Reg.PCIE_CQq_TAIL ring) 0x10000
            else (w.wrP p (ringReg Reg.PCIE_SQq_HEAD ring) 0).wrP p (ringReg Reg.PCIE_SQq_TAIL ring) 0)))
    ∧ (∀ v : BitVec 32, u.Accepts port (p.base + ringReg Reg.PCIE_SQq_TAIL ring) →
        exec (.sqTailWrite t port ring v) s = .next (if fld v 15 0 < u.ringSize port Reg.PCIE_SQq_CFG ring
          then u.answered.wrP p (ringReg Reg.PCIE_SQq_TAIL ring) (BitVec.ofNat 32 (fld v 15 0))
          else u.answered.raise p .RING_CFG none (ringInfo ring (fld v 15 0))))
    ∧ (∀ v : BitVec 32, u.Accepts port (p.base + ringReg Reg.PCIE_CQq_HEAD ring) →
        exec (.cqHeadWrite t port ring v) s = .next (u.answered.coded p (ringReg Reg.PCIE_CQq_HEAD ring) v))
    ∧ (∀ bytes : Vector Byte 64, u.mayFetch port ring = true →
        let head := u.fldP p (ringReg Reg.PCIE_SQq_HEAD ring) 15 0
        let d : Desc := { port := port, ring := ring, index := head, seq := u.host.fetchSeq, bytes := bytes.toList }
        let v := u.setRing port ring { u.ring port ring with fetched := (u.ring port ring).fetched ++ [d] }
        exec (.descriptorFetch t port ring bytes) s = .next (((v.setHost { v.host with fetchSeq := v.host.fetchSeq + 1 }).wrP p (ringReg Reg.PCIE_SQq_HEAD ring)
          (BitVec.ofNat 32 ((head + 1) % u.ringSize port Reg.PCIE_SQq_CFG ring))).sweepRing port ring 32))
    ∧ (∀ (c : Completion) (rest : List Completion), (u.ring port ring).held = c :: rest →
        (u.hostUp port = false → exec (.completionWrite t port ring) s =
          .next (((u.setRing port ring { u.ring port ring with held := rest }).bump p Reg.PCIE_CPL_DROP_CNT 1).sweepRing port ring 32))
        ∧ (u.hostUp port = true → u.cqRoom port ring = true →
          let tail := u.fldP p (ringReg Reg.PCIE_CQq_TAIL ring) 15 0
          let phase := u.fldP p (ringReg Reg.PCIE_CQq_TAIL ring) 16 16
          let base := u.num p (ringReg Reg.PCIE_CQq_BASE_LO ring) + 2 ^ 32 * u.num p (ringReg Reg.PCIE_CQq_BASE_HI ring)
          let next := (tail + 1) % u.ringSize port Reg.PCIE_CQq_CFG ring
          let v : State := { u with out := u.out ++ [Out.host port (base + 32 * tail) (completionBytes c phase)] }
          let v := v.wrP p (ringReg Reg.PCIE_CQq_TAIL ring) (BitVec.ofNat 32 ((if next = 0 then 1 - phase else phase) * 65536 + next))
          let v := v.setRing port ring { u.ring port ring with held := rest }
          exec (.completionWrite t port ring) s = .next ((if c.irq = true ∧ v.fldP p (ringReg Reg.PCIE_CQq_CFG ring) 30 30 = 1 then v.msix port (1 + ring.val) else v).sweepRing
            port ring 32)))

/-- R400, R408. -/
def Obligations.SimpleDescriptors : Prop :=
  ∀ (s : State) (t : Nat) (port : Fin 2) (ring : Fin 16) (d : Desc), let u := s.atTime t
    (u.Starts port ring 0 (fun d => !d.restZero []) d → exec (.nop t port ring) s = .next ((u.atOnce d 0 0).sweepRing port ring 32))
    ∧ (u.Starts port ring 7 (fun d => decide (1 < d.field 0x18 1) || !d.restZero [(0x18, 1)]) d →
        exec (.barrier t port ring) s = .next ((if u.barrierClear d then u.atOnce d 0 0 else u).sweepRing port ring 32))
    ∧ (u.Starts port ring 3 Desc.dmaBad d →
        let src := d.field 0x18 8
        let dst := d.field 0x20 8
        let len := d.field 0x28 8
        (pairUnpopulated src len dst len = none →
          let v := u.startNow d
          exec (.dma t port ring) s = .next ((({ v with traffic := v.traffic ++ [({ id := v.freshTransfer, issuer := .descriptor d.port d.ring d.index, cls := 2, src := src, dst := dst, len := len, moved := 0, held := [], since := v.wall, err := 0, errAddr := none, signal := none } : Transfer)] } : State).addJob d (.dma v.freshTransfer)).sweepRing port ring 32))
        ∧ (∀ a, pairUnpopulated src len dst len = some a →
          exec (.dma t port ring) s = .next (((u.raise (Pg.pcie d.port) .UNPOPULATED (some a) (ringInfo d.ring d.index)).atOnce d (errCode .UNPOPULATED .pcie) 0).sweepRing
            port ring 32)))

/-- R406, R682. -/
def Obligations.FrameRunDescriptor : Prop :=
  ∀ (s : State) (t : Nat) (port : Fin 2) (ring : Fin 16) (d : Desc), let u := s.atTime t
    let now (v : State) := exec (.frameRun t port ring) s = .next (v.sweepRing port ring 32)
    let stopped := u.fldP Pg.trade Reg.TRADE_STAT 0 0 = 1
    u.Starts port ring 1 (fun _ => false) d → u.host.run = none → d.runBad = false → behind (u.epochDist d.epoch) = false → ahead (u.epochDist d.epoch) = false →
      (stopped → now (u.turnAway d (errCode .JOB_STOPPED .trade)))
      ∧ (¬stopped → u.slot? (d.field 0x18 1) = none → now (u.turnAway d (errCode .SLOT_NOT_RUNNING .hub)))
      ∧ (∀ x : Slot, ¬stopped → u.slot? (d.field 0x18 1) = some x →
        (x.frameCount ≤ d.field 0x1C 4 → now (u.turnAway d (errCode .SLOT_NOT_RUNNING .hub)))
        ∧ (d.field 0x1C 4 < x.frameCount → x.refuses ≠ 0 → now (u.turnAway d x.refuses))
        ∧ (d.field 0x1C 4 < x.frameCount → x.refuses = 0 → d.epoch ≠ x.epoch → now (u.turnAway d (errCode .EPOCH_MISMATCH .coll)))
        ∧ (d.field 0x1C 4 < x.frameCount → x.refuses = 0 → d.epoch = x.epoch → d.field 0x24 4 ≤ x.seqBound →
          let v := u.startNow d
          let w := v.setHost { v.host with run := some { desc := d, slot := d.field 0x18 1, next := d.field 0x1C 4, left := d.field 0x20 4, completed := 0, issuing := false, stopCode := 0 } }
          now ((w.setFrame { w.eng.frame with nextFetched := List.replicate 4 false, fetchError := none }).setP
            Pg.hub Reg.HUB_FRAME_STAT 5 5 1)))

/-- R407, R519, R520. -/
def Obligations.SlotDescriptors : Prop :=
  ∀ (s : State) (t : Nat) (port : Fin 2) (ring : Fin 16) (d : Desc), let u := s.atTime t
    let n := d.field 0x19 1
    let done (v : State) : Host.Outcome State Fault Refusal := .next (v.sweepRing port ring 32)
    (∀ errs : List AccessErr, let y := s.atFacing errs t
      y.Starts port ring 2 Desc.slotBad d → d.field 0x18 1 = 0 →
        ((y.slot? n).isSome = true → exec (.load t port ring errs) s = done (y.atOnce d (errCode .SLOT_BUSY .hub) 0))
        ∧ (y.slot? n = none →
          let r := y.readSlotImage d (d.field 0x20 8)
          let x := r.1.header n (d.field 0x20 8)
          (∀ code, r.2 = some code → exec (.load t port ring errs) s = done (r.1.atOnce d code 0))
          ∧ (r.2 = none → r.1.admission x = none → exec (.load t port ring errs) s = done (({ r.1 with slots := r.1.slots ++ [x] } : State).atOnce d 0 0))
          ∧ (∀ f, r.2 = none → r.1.admission x = some f → exec (.load t port ring errs) s = done ((r.1.admitError f).1.atOnce d (r.1.admitError f).2 0))))
    ∧ (u.Starts port ring 2 Desc.slotBad d →
      (d.field 0x18 1 = 1 → u.host.switching = none → (∀ r, u.host.run = some r → r.issuing = false) →
        (u.slot? n = none → exec (.switch t port ring) s = done (u.atOnce d (errCode .SLOT_EMPTY .hub) 0))
        ∧ ((u.slot? n).isSome = true → u.running = some n → exec (.switch t port ring) s = done (u.atOnce d 0 0))
        ∧ ((u.slot? n).isSome = true → u.running ≠ some n →
            exec (.switch t port ring) s = done ((u.startNow d).setHost { (u.startNow d).host with switching := some { desc := d, slot := n, from_ := none, inFrame := false, failed := 0 } })))
      ∧ (d.field 0x18 1 = 2 →
        (u.slot? n = none → exec (.unload t port ring) s = done (u.atOnce d (errCode .SLOT_EMPTY .hub) 0))
        ∧ ((u.slot? n).isSome = true → u.slotHeld n = true → exec (.unload t port ring) s = done (u.atOnce d (errCode .SLOT_BUSY .hub) 0))
        ∧ ((u.slot? n).isSome = true → u.slotHeld n = false →
            exec (.unload t port ring) s = done (({ u with slots := u.slots.filter fun x => x.num != n } : State).atOnce d 0 0))))

/-- R483, R510, R549, R552. -/
def Obligations.LongDescriptors : Prop :=
  ∀ (s : State) (t : Nat) (port : Fin 2) (ring : Fin 16) (d : Desc), let u := s.atTime t
    let present := behind (u.epochDist d.epoch) = false ∧ ahead (u.epochDist d.epoch) = false
    (∀ errs : List AccessErr, let u := s.atFacing errs t
      u.Starts port ring 4 u.collBad d → present → u.tableServes d.collective = true →
        let b := d.collective
        pairUnpopulated b.src (u.giveBytes b) b.dst (destBytes b.op b.sfmt b.dfmt b.count (u.membersOf b.id)) = none →
          let v := (u.startNow d).addJob d (.collective (b.id % 4096))
          let m : Member := { starter := .descriptor d, src := b.src, dst := b.dst, dfmt := b.dfmt, mode := b.mode, store := [], ready := 32767, taken := 0, entered := true }
          exec (.collective t port ring errs) s = .next ((State.shareAbort (v.beginInst (v.newInst b b.cseq d.epoch m)).touchFresh).sweepRing port ring 32).wake)
    ∧ (∀ errs : List AccessErr, let u := s.atFacing errs t
      u.Starts port ring 5 Desc.checkpointBad d → present → u.grnIdle = true → u.fldP Pg.trade Reg.TRADE_STAT 0 0 ≠ 1 → u.domainOn 202 = true → u.grn.failures < 2 →
        let list := d.field 0x18 8
        let n := d.field 0x20 4
        let r := u.takeRead Pg.grn (grnInfo 0xFF 0) 3 list (16 * n)
        let l := r.1.regionList list n
        let v := r.1.setGrn { r.1.grn with nextGen := r.1.grn.nextGen + 1 }
        let g : Generation := { num := r.1.grn.nextGen, label := d.field 0x28 8, frame := v.frameNum, epoch := d.epoch, pinned := false, committed := false, regions := l, data := [] }
        let h := v.grn.reclaim g.room 64
        r.2 = none → regionsBad l = false → v.firstDenial l false = none → h.hasRoom g.room = true →
          exec (.checkpoint t port ring errs) s = .next (((v.setGrn (h.enter g)).startGrn d false r.1.grn.nextGen g.bytes l []).sweepRing port ring 32))
    ∧ (∀ g : Generation, u.Starts port ring 6 Desc.restoreBad d → present → u.grnIdle = true → u.domainOn 202 = true → u.grn.failures < 3 →
        (if d.field 0x18 8 = 0 then u.grn.latest else u.grn.find (d.field 0x18 8)) = some g →
        let data := if d.restoreMode = 2 then g.manifest else g.data
        let places := if d.restoreMode = 0 then g.regions else [(d.field 0x28 8, data.length)]
        ¬(d.restoreMode ≠ 0 ∧ d.field 0x30 8 < data.length) → places.findSome? (fun r => unpopulated r.1 r.2) = none →
          exec (.restore t port ring true) s = .next ((u.startGrn d true g.num data.length places data).sweepRing port ring 32))
    ∧ (∀ errs : List AccessErr, let u := s.atFacing errs t
      u.host.fenceWaiting = some d → u.drained = true →
        let v := (u.setHost { u.host with fenceWaiting := none }).moveEpoch d
        (d.kind = 1 → exec (.fenceDrain t errs) s = .next ((v.startRun d).sweepRing d.port d.ring 32))
        ∧ (d.kind = 4 → exec (.fenceDrain t errs) s = .next ((v.startColl d).sweepRing d.port d.ring 32))
        ∧ (d.kind = 5 → exec (.fenceDrain t errs) s = .next ((v.startCheckpoint d).sweepRing d.port d.ring 32))
        ∧ (d.kind ≠ 1 → d.kind ≠ 4 → d.kind ≠ 5 → exec (.fenceDrain t errs) s = .next (v.sweepRing d.port d.ring 32)))

/-- R284, R288, R408, R549, R552. -/
def Obligations.TransfersMoveAndEnd : Prop :=
  ∀ (s : State) (t id : Nat) (ecc : List BurstEvent) (x : Transfer), let u := s.atTime t
    (∀ re we : Option BurstErr, let burst := exec (.unscheduledBurst t id re we) s
      (u.transfer? id = none → burst = .next u)
      ∧ (u.transfer? id = some x → u.nextAccess x = none → burst = .next u)
      ∧ (∀ a, u.transfer? id = some x → u.nextAccess x = some a →
        (u.turnedAway x a = true → let q := u.serve x false re we
          burst = .next (q.1.setTransfer q.2))
        ∧ (u.turnedAway x a = false → u.stalled x = true ∨ u.grants x a = none → burst = .next u)
        ∧ (∀ aged, u.turnedAway x a = false → u.stalled x = false → u.grants x a = some aged → let q := (u.noteServed x a).serve x aged re we
          burst = .next ((q.1.setTransfer q.2).progress q.2)
          ∧ (q.2.err = 0 → x.issuer ≠ .checkpoint → x.issuer ≠ .restore → q.2.moved + q.2.held.length = x.moved + (if x.held = [] then a.len else x.held.length)))))
    ∧ (∀ c n, u.transfer? id = some x → x.signal = some (c, n) → u.stalled x = false →
        let r := u.moveAll x x.len ecc
        let v := r.1.dropTransfer id
        exec (.xferComplete t id ecc) s = .next (if r.2.err = 0 then (v.signal c n).wake else v))
    ∧ (∀ j : Job, u.transfer? id = some x → u.jobOf (.dma id) = some j → u.stalled x = false →
        let r := u.moveAll x x.len ecc
        exec (.dmaComplete t id ecc) s = .next ((r.1.dropTransfer id).endJob j r.2.err r.2.moved))
    ∧ (∀ (g : GrnRun) (j : Job), u.grn.run = some g → g.restore = false → u.transfer? g.transfer = some x → u.jobOf .checkpoint = some j → u.stalled x = false →
        let r := u.moveAll x x.len ecc
        let data := (r.1.grn.run.map fun q => q.data).getD g.data
        (r.2.err = 0 → r.1.grn.failures < 2 →
          let v := r.1.setGrn (r.1.grn.update g.gen fun y => { y with committed := true, pinned := bit (g.desc.field 0x24 1) 0, data := data })
          exec (.checkpointComplete t ecc) s = .next ((v.charge (r.2.len + manifestLen g.places.length r.2.len)).endGrn r.2 j 0 g.gen))
        ∧ (r.2.err = 0 → 2 ≤ r.1.grn.failures → let v := r.1.raise Pg.grn .GRN_DEGRADED none 0xFF000000
          exec (.checkpointComplete t ecc) s = .next ((v.setGrn (v.grn.drop g.gen)).endGrn r.2 j (errCode .GRN_DEGRADED .grn) 0))
        ∧ (r.2.err ≠ 0 → exec (.checkpointComplete t ecc) s = .next ((r.1.setGrn (r.1.grn.drop g.gen)).endGrn r.2 j r.2.err 0)))
    ∧ (∀ (g : GrnRun) (j : Job) (rebuilt : Nat), u.grn.run = some g → g.restore = true → u.transfer? g.transfer = some x → u.jobOf .restore = some j →
        u.stalled x = false →
        let v := u.bump Pg.grn Reg.GRN_REBUILD_CNT rebuilt
        (3 ≤ u.grn.failures → exec (.restoreComplete t none rebuilt ecc) s =
          .next ((v.raise Pg.grn .GRN_DEGRADED none 0xFF000000).endGrn x j (errCode .GRN_DEGRADED .grn) x.moved))
        ∧ (u.grn.failures < 3 →
          let r := v.moveAll x x.len ecc
          let w : State := { r.1 with eng := { r.1.eng with fleet := { r.1.eng.fleet with recovery := true } } }
          (r.2.err = 0 → exec (.restoreComplete t none rebuilt ecc) s = .next ((if g.desc.restoreMode = 0 then w.zeroLost else w).endGrn r.2 j 0 r.2.moved))
          ∧ (r.2.err ≠ 0 → exec (.restoreComplete t none rebuilt ecc) s = .next (r.1.endGrn r.2 j r.2.err r.2.moved))))

/-- R384, R386, R387, R391, R671. -/
def Obligations.HostWindow : Prop :=
  ∀ (s : State) (t : Nat) (port : Fin 2) (off : BitVec 40) (len : Nat) (l : List Byte), let u := s.atTime t
    let a := u.num64 (Pg.pcie port) Reg.PCIE_WIN_BASE_LO + off.toNat
    let access (x : HostSpace) (data : Option (List Byte)) := exec (.hostWindowAccess t port x off len data []) s
    u.boot.phase.commandable = true →
      (port.val ≠ u.owner → (off.toNat + len ≤ u.spaceBytes port .bar2 → access .bar2 none = .next (u.standbyReject port))
        ∧ (off.toNat + l.length ≤ u.spaceBytes port .bar2 → access .bar2 (some l) = .next (u.standbyReject port)))
      ∧ (port.val = u.owner → inRecovery u = false → isRegs a = false →
        (off.toNat + len ≤ u.spaceBytes port .bar2 → len ≠ 0 → a % 2048 + len ≤ 2048 → u.denial (Pg.pcie port) 0 2 a len false = none →
          let r := (u.servedBurst a len 2 false false).fetchBytes a len
          access .bar2 none = .next { r.2 with resp := .bytes r.1 })
        ∧ (off.toNat + l.length ≤ u.spaceBytes port .bar2 → l ≠ [] → a % 2048 + l.length ≤ 2048 → u.denial (Pg.pcie port) 0 2 a l.length true = none →
          access .bar2 (some l) = .next { ((u.servedBurst a l.length 2 true false).servedPart a l.length 2).placeBytes a l with resp := .done }))
      ∧ (off.toNat + len ≤ 0x10000 → access .bar4 none =
          .next { u with resp := .bytes ((List.range len).map fun k => leByte ((u.pci port).bar4Word ((off.toNat + k) / 4)).toNat ((off.toNat + k) % 4)) })
      ∧ (∀ (i : Fin 256) (v : Word), off.toNat = 4 * i.val → access .bar4 (some (leBytes 4 v.toNat)) =
          .next { (u.setPci port ((u.pci port).setWord i v)).msixFlush port with resp := .done })
      ∧ (off.toNat + len ≤ 0x1000 → u.boot.phase ≠ .ready → u.boot.phase ≠ .recovery → access .config none = .next { u with resp := .retry })
      ∧ (off.toNat + len ≤ 0x1000 → u.boot.phase = .ready ∨ u.boot.phase = .recovery → access .config none =
          .next { u with free := u.free + 1, resp := .bytes ((List.range len).map fun i => u.configByte port u.free (off.toNat + i)) })
      ∧ (∀ k, (List.range 4).map (u.configByte port k) = [0xC7, 0x1E, 0x34, 0x57] ∧ (List.range 3).map (fun i => u.configByte port k (9 + i)) = [0, 0, 0x12])

/-- R392 to R394, R411. -/
def Obligations.EventsAndHandover : Prop :=
  ∀ (s : State) (t : Nat) (port : Fin 2) (v : BitVec 32), let u := s.atTime t
    let p := Pg.pcie port
    (∀ c : Fin 4096, (u.Accepts port (0x410000 + 4 * c) → exec (.eventCounterWrite t port c v) s = .next ((u.answered.wr (0x410000 + 4 * c) v).wake.reported port))
        ∧ (u.Accepts port (0x420000 + 4 * c) → exec (.eventCounterAdd t port c v) s = .next ((u.answered.wr (0x410000 + 4 * c) (u.rd (0x410000 + 4 * c) + v)).wake.reported port)))
    ∧ (u.boot.phase.commandable = true → u.regDenial (.port port) (p.base + Reg.PCIE_HO_CMD) = none → fld v 0 0 = 1 →
        (port.val ≠ u.owner → u.hoState port ≠ 1 → u.hoState port ≠ 2 → exec (.handoverGo t port v) s = .next (u.answered.wrP p Reg.PCIE_HO_STAT 0x40000000))
        ∧ (port.val = u.owner ∨ u.hoState port = 1 ∨ u.hoState port = 2 →
            exec (.handoverGo t port v) s = .next (u.answered.setP p Reg.PCIE_HO_STAT 15 0 (errCode .HANDOVER_BUSY .pcie))))
    ∧ (u.hoState port = 1 →
        (u.handoverGood port = true →
          exec (.handoverVerifyDone t port) s = .next ((((u.wrP p Reg.PCIE_HO_STAT 0x80000000).setP p Reg.PCIE_OWN 1 1 1).setInt p 2).newHoNonce port))
        ∧ (u.handoverGood port = false →
          exec (.handoverVerifyDone t port) s = .next (((((u.wrP p Reg.PCIE_HO_STAT (BitVec.ofNat 32 (3 * 2 ^ 30 + errCode .HANDOVER_AUTH .pcie))).raise p
            .HANDOVER_AUTH none 0).setInt p 3).authFailed).newHoNonce port)))

/-- R23. An error that the same command has already raised in the page falls under R24 and is no case of this statement. -/
def Obligations.ErrorsCaptured : Prop :=
  ∀ (s : State) (p : Page) (c : Cause) (addr : Option Nat) (info : Nat), s.Sound → s.captured.contains (p.base, s.wall) = false →
    let t := s.raise p c addr info
    t.num p Reg.ERR_CNT = min (s.num p Reg.ERR_CNT + 1) 0xFFFFFFFF
    ∧ (s.fldP p Reg.ERR_STAT 0 0 = 0 →
        t.rdP p Reg.ERR_CODE = BitVec.ofNat 32 (errCode c p.kind) ∧ t.rdP p Reg.ERR_ADDR_LO = BitVec.ofNat 32 (addr.getD 0)
        ∧ t.rdP p Reg.ERR_ADDR_HI = BitVec.ofNat 32 (addr.elim 0 fun a => 2 ^ 31 + a / 2 ^ 32 % 2 ^ 16) ∧ t.rdP p Reg.ERR_INFO = BitVec.ofNat 32 info
        ∧ t.fldP p Reg.ERR_STAT 0 0 = 1 ∧ t.fldP p Reg.ERR_STAT 1 1 = s.fldP p Reg.ERR_STAT 1 1)
    ∧ (s.fldP p Reg.ERR_STAT 0 0 = 1 →
        t.rdP p Reg.ERR_CODE = s.rdP p Reg.ERR_CODE ∧ t.rdP p Reg.ERR_ADDR_LO = s.rdP p Reg.ERR_ADDR_LO ∧ t.rdP p Reg.ERR_ADDR_HI = s.rdP p Reg.ERR_ADDR_HI
        ∧ t.rdP p Reg.ERR_INFO = s.rdP p Reg.ERR_INFO ∧ t.fldP p Reg.ERR_STAT 0 0 = 1 ∧ t.fldP p Reg.ERR_STAT 1 1 = 1)
    ∧ (∀ o, o < p.base ∨ p.base + 0x40 ≤ o → t.rd o = s.rd o) ∧ t.mem = s.mem ∧ t.fog = s.fog

/-- R25. -/
def Obligations.CaptureRearms : Prop :=
  ∀ (s : State) (t : Nat) (port : Fin 2) (off : BitVec 26) (p : Page), let u := s.atTime t
    u.Sound → u.boot.phase.commandable = true → port.val = u.owner ∨ standbyMay port off.toNat = true → u.regDenial (.port port) off.toNat = none →
      pageOf off.toNat = some (p, Reg.ERR_STAT) →
      let v := u.answered.setP p Reg.ERR_STAT 1 0 0
      exec (.errRearm t port off) s = .next v
      ∧ v.fldP p Reg.ERR_STAT 1 0 = 0 ∧ (∀ o, o ≠ p.base + Reg.ERR_STAT → v.rd o = u.rd o) ∧ v.mem = u.mem
      ∧ ∀ (c : Cause) (addr : Option Nat) (info : Nat), (v.raise p c addr info).rdP p Reg.ERR_CODE = BitVec.ofNat 32 (errCode c p.kind)

/-- R14, R15, R18, R31, R32, R391. -/
def Obligations.RegisterAccess : Prop :=
  ∀ (s : State) (t : Nat) (port : Fin 2) (off : BitVec 26) (v : BitVec 64), let u := s.atTime t
    let o := off.toNat
    let w := v.setWidth 32
    (u.boot.phase.commandable = true →
      (∀ d, u.regDenial (.port port) o = some d → exec (.counterLoRead t port off 4) s = .next ((u.deny d.page d.cause d.addr d.info).reported port)
        ∧ (port.val = u.owner → exec (.registerWrite t port off v 4) s = .next ((u.deny d.page d.cause d.addr d.info).reported port)))
      ∧ (∀ n, port.val ≠ u.owner → standbyMay port o = false → exec (.registerWrite t port off v n) s =
          .next (((u.bump (Pg.pcie port) Reg.PCIE_STANDBY_REJ_CNT 1).deny (Pg.pcie port) .NOT_OWNER none 0).reported port))
      ∧ (∀ n, (n ≠ 4 ∧ n ≠ 8) ∨ o % n ≠ 0 → exec (.counterLoRead t port off n) s = .next ((u.deny (Pg.pcie port) .ACCESS_SIZE none 0).reported port)
        ∧ (port.val = u.owner → exec (.registerWrite t port off v n) s = .next ((u.deny (Pg.pcie port) .ACCESS_SIZE none 0).reported port))))
    ∧ (∀ (p : Page) (x : Nat), u.boot.phase.commandable = true → u.regDenial (.port port) o = none → pageOf o = some (p, x) →
      (counterLo p.kind x = true →
        let latch := (o + 4, u.regValue p (x + 4)) :: u.latch.filter fun q => q.1 != o + 4
        exec (.counterLoRead t port off 4) s = .next { u with latch := latch, resp := .word (u.regValue p x) }
        ∧ (o % 8 = 0 → pageOf (o + 4) = some (p, x + 4) → counterLo p.kind (x + 4) = false → u.regDenial (.port port) (o + 4) = none →
          exec (.counterLoRead t port off 8) s =
            .next { u with latch := latch, resp := .bytes (leBytes 4 (u.regValue p x).toNat ++ leBytes 4 (u.regValue p (x + 4)).toNat) }))
      ∧ (counterLo p.kind x = false → 4 ≤ x → counterLo p.kind (x - 4) = true → exec (.counterLoRead t port off 4) s =
          .next { u with resp := .word ((u.latched o).getD (u.regValue p x)) })
      ∧ (counterLo p.kind x = false → (x < 4 ∨ counterLo p.kind (x - 4) = false) → exec (.counterLoRead t port off 4) s = .next { u with resp := .word (u.regValue p x) }))
    ∧ (∀ (p : Page) (x : Nat) (r : RegRow), u.Accepts port o → pageOf o = some (p, x) → rowOf p.kind x = some r →
      (0x40 ≤ x → p.kind ∈ [.pwr, .idle, .awn, .rch, .spd, .memc] →
        (u.Unlocked p x → exec (.registerWrite t port off v 4) s = .next (u.answered.coded p x w))
        ∧ (¬u.Unlocked p x → exec (.registerWrite t port off v 4) s = .next ((u.answered.deny p .LOCKED none (u.answered.refusedInfo p)).reported port)))
      ∧ (x = Reg.LOCK → exec (.lock t port off) s = .next (u.answered.coded p Reg.LOCK 1)))

/-- R71, R101, R439, R442, R443, R478, R588. -/
def Obligations.FrameAndFabricSettings : Prop :=
  ∀ (s : State) (t : Nat) (port : Fin 2) (v : BitVec 32), let u := s.atTime t
    let a := u.answered
    let ok (p : Page) (o : Nat) := u.Accepts port (p.base + o) ∧ u.Unlocked p o
    let refused (p : Page) (info : Nat) : Host.Outcome State Fault Refusal := .next ((a.deny p .WRITE_REFUSED none info).reported port)
    (ok Pg.hub Reg.HUB_FRAME_CFG →
        (u.slots = [] → 14 ≤ fld v 4 0 → fld v 4 0 ≤ 20 → exec (.frameLenWrite t port v) s = .next (a.coded Pg.hub Reg.HUB_FRAME_CFG v))
        ∧ (u.slots ≠ [] ∨ fld v 4 0 < 14 ∨ 20 < fld v 4 0 → exec (.frameLenWrite t port v) s = refused Pg.hub 0))
    ∧ (ok Pg.hub Reg.HUB_TICK_DELAY →
        (fld v 23 0 < u.frameLen / 2 → exec (.tickDelayWrite t port v) s = .next (a.coded Pg.hub Reg.HUB_TICK_DELAY v))
        ∧ (u.frameLen / 2 ≤ fld v 23 0 → exec (.tickDelayWrite t port v) s = refused Pg.hub 0))
    ∧ (ok Pg.rte Reg.RTE_CFG →
        (u.slots = [] ∨ fld v 31 15 = u.fldP Pg.rte Reg.RTE_CFG 31 15 →
          let w := if fld v 5 0 = 0 then setFld v 5 0 1 else v
          exec (.nodeIdWrite t port v) s = .next (a.coded Pg.rte Reg.RTE_CFG w))
        ∧ (u.slots ≠ [] → fld v 31 15 ≠ u.fldP Pg.rte Reg.RTE_CFG 31 15 → exec (.nodeIdWrite t port v) s = refused Pg.rte 0xFF000000))
    ∧ (∀ (f : Fin 24) (c : Fin 4), ok (Pg.fab f) (Reg.FAB_CREDv + 4 * c) →
        let held (k : Nat) := if k = c.val then v else u.rdP (Pg.fab f) (Reg.FAB_CREDv + 4 * k)
        let total := ((List.range 4).map fun k => fld (held k) 28 16 + fld (held k) 12 0).sum
        (total ≤ 8192 → exec (.creditAllocationWrite t port f c v) s = .next (a.coded (Pg.fab f) (Reg.FAB_CREDv + 4 * c) v))
        ∧ (8192 < total → exec (.creditAllocationWrite t port f c v) s = refused (Pg.fab f) (fabInfo 0xF 0xF)))
    ∧ (∀ dst : BitVec 16, u.Accepts port (0x530000 + 4 * dst.toNat) →
        let w := v &&& 0xC0001F1F
        exec (.routeTableWrite t port dst v) s = .next (a.wr (0x530000 + 4 * dst.toNat) (if 23 < fld v 4 0 ∨ 23 < fld v 12 8 then setFld w 31 31 0 else w)))
    ∧ (∀ (e : Fin 4096) (k : Fin 16), u.Accepts port (0x610000 + 64 * e + 4 * k) →
        ((∀ x ∈ u.coll.insts, x.entry ≠ e.val) → exec (.collTableWrite t port e k v) s =
          .next (a.wr (0x610000 + 64 * e + 4 * k) (v &&& (if k.val = 0 then 0xF01FFFFF else if k.val = 1 then 0x00FFFFFF else 0xFFFFFFFF))))
        ∧ ((∃ x ∈ u.coll.insts, x.entry = e.val) → exec (.collTableWrite t port e k v) s = refused Pg.coll (fld (u.rd (0x610000 + 64 * e)) 15 0 * 65536)))
    ∧ (ok Pg.trade Reg.TRADE_MODE →
        let old := u.rdP Pg.trade Reg.TRADE_MODE
        (u.slots = [] ∨ (fld v 1 0 = fld old 1 0 ∧ fld v 4 4 = fld old 4 4) → fld v 1 0 ≠ 3 → fld v 3 2 ≠ 3 →
          exec (.tradeModeWrite t port v) s = .next (a.coded Pg.trade Reg.TRADE_MODE v))
        ∧ (u.slots ≠ [] → fld v 1 0 ≠ 3 → fld v 1 0 ≠ fld old 1 0 ∨ fld v 4 4 ≠ fld old 4 4 → exec (.tradeModeWrite t port v) s = refused Pg.trade 0))

/-- R171, R350, R430, R538, R575, R577, R599, R603, R616, R619. -/
def Obligations.ControlsAndClears : Prop :=
  ∀ (s : State) (t : Nat) (port : Fin 2), let u := s.atTime t
    let a := u.answered
    let ok (p : Page) (o : Nat) := u.Accepts port (p.base + o) ∧ u.Unlocked p o
    (ok Pg.trade Reg.TRADE_STAT → exec (.stopClear t port) s = .next (a.coded Pg.trade Reg.TRADE_STAT 1))
    ∧ (ok Pg.clk Reg.CLK_STAT → exec (.refLostClear t port) s = .next (if u.fldP Pg.clk Reg.CLK_STAT 28 28 = 1 then a else a.coded Pg.clk Reg.CLK_STAT 0x80000000))
    ∧ (ok Pg.trade Reg.TRADE_TEST → exec (.testReq t port) s = .next (a.coded Pg.trade Reg.TRADE_TEST (u.rdP Pg.trade Reg.TRADE_TEST ||| 0x80000000)))
    ∧ (ok Pg.idle Reg.IDLE_CTRL → exec (.counterClear t port) s = .next (a.coded Pg.idle Reg.IDLE_CTRL 1))
    ∧ (∀ (die : Fin 4) (n : Fin 84), ok (Pg.tlr die n) Reg.TLR_MAP → u.tlrMap die n 31 30 ≠ 3 →
        exec (.retire t port die n) s = .next (a.coded (Pg.tlr die n) Reg.TLR_MAP 0x20000000))
    ∧ (∀ f : Fin 24, ok (Pg.fab f) Reg.FAB_CFG → 
        let v := a.coded (Pg.fab f) Reg.FAB_CFG (u.rdP (Pg.fab f) Reg.FAB_CFG ||| 0x40000000)
        exec (.retrain t port f) s = .next (if v.portCode f = 5 then v.setP (Pg.fab f) Reg.FAB_CFG 30 30 0 else v.portTrain f))
    ∧ (∀ mask : BitVec 24, u.Accepts port (Pg.stb.base + Reg.STB_LINK_WAKE) →
        let v := a.wrP Pg.stb Reg.STB_LINK_WAKE (u.rdP Pg.stb Reg.STB_LINK_WAKE ||| BitVec.ofNat 32 mask.toNat)
        exec (.linkWakeSend t port mask) s = .next ((List.range 24).foldl (fun (s : State) p => if bit mask.toNat p then s.setPort p { s.port p with wake := 1024 } else s) v))
    ∧ (∀ (dom : Fin 211) (req : Fin 4), u.Accepts port (domOff dom) → u.Sound →
        (u.transit? dom = none → req.val < 3 → ∃ v, exec (.pwrReq t port dom req) s = .next v ∧ v.Sound ∧ v.rd (domOff dom) = setFld (u.rd (domOff dom)) 29 28 req
          ∧ (∀ o, o ≠ domOff dom → v.rd o = u.rd o) ∧ v.mem = u.mem ∧ v.pwr = u.pwr ∧ v.resp = .done)
        ∧ (∀ x, u.transit? dom = some x → x.target ≠ 2 → req.val = 2 → ∃ v, exec (.pwrReq t port dom req) s = .next v ∧ v.Sound
          ∧ v.rd (domOff dom) = setFld (setFld (u.rd (domOff dom)) 29 28 2) 27 27 1 ∧ (∀ o, o ≠ domOff dom → v.rd o = u.rd o) ∧ v.mem = u.mem ∧ v.pwr = u.pwr))
    ∧ (∀ c : Fin 64, u.boot.phase.commandable = true → u.regDenial (.port port) (condStat c) = none →
        let v := if port.val = u.owner then u.wr (condStat c) (setFld (u.rd (condStat c)) 29 29 0) else u
        exec (.conditionStatusRead t port c) s = .next { v with resp := .word (u.rd (condStat c)) })
    ∧ (∀ (die : Fin 4) (v : BitVec 32), u.Accepts port ((Pg.culm die 0).base + Reg.CULM_RING_CTRL) →
        let p := Pg.culm die 0
        let h := u.ringHeader die
        (fld v 0 0 = 0 → exec (.statRingEnable t port die v) s = .next (a.setP p Reg.CULM_RING_CTRL 0 0 0))
        ∧ (∀ (n b z : Nat), fld v 0 0 = 1 → regionOf h = some (.stack n, b, z) →
          let w := a.setP p Reg.CULM_RING_CTRL 0 0 1
          w.denial p (w.culmInfo 0) 2 (h + 0x10) 24 true = none →
          let y := ((w.served h 16 2 false).placeBytes (h + 0x10) (leBytes 8 0)).servedWrite (h + 0x10) 8 2
          exec (.statRingEnable t port die v) s = .next (((y.placeBytes (h + 0x20) (leBytes 8 0)).servedWrite (h + 0x20) 8 2).reported port)))

/-- R311, R312, R322. -/
def Obligations.RepairAccess : Prop :=
  ∀ (s : State) (t : Nat) (port : Fin 2) (die site : Fin 4), let u := s.atTime t
    let p := Pg.dras die
    let a := u.answered.setP p Reg.DRAS_STAT 30 30 0
    let x := a.drasTarget die site
    let k := a.stackOf x.stack
    let arg := a.num p Reg.DRAS_ARG
    let starts (w : State) (op : Nat) (fail : Bool) (result : Nat) : Host.Outcome State Fault Refusal :=
      let r := ((w.setP p Reg.DRAS_STAT 31 31 1).setP p Reg.DRAS_STAT 29 29 0).setP p Reg.DRAS_STAT 17 16 site
      .next (State.reported { r with dras := r.dras.set die (some ⟨op, site, fail, result⟩) } port)
    (∀ v : BitVec 32, u.Accepts port (p.base + Reg.DRAS_CTRL) →
        (u.fldP p Reg.LOCK 0 0 = 0 → u.answered.testReached die v.toNat = false → exec (.drasCtrlWrite t port die v) s = .next (u.answered.coded p Reg.DRAS_CTRL v))
        ∧ (u.fldP p Reg.LOCK 0 0 = 0 → u.answered.testReached die v.toNat = true →
            exec (.drasCtrlWrite t port die v) s = .next ((u.answered.deny p .DRAS_TEST_BLOCK none 0).reported port))
        ∧ (u.fldP p Reg.LOCK 0 0 = 1 → exec (.drasCtrlWrite t port die v) s = .next ((u.answered.deny p .LOCKED none 0).reported port)))
    ∧ (u.Accepts port (p.base + Reg.DRAS_CMD) →
      ((a.dras.getD die none).isSome = true ∨ bit (a.num p Reg.DRAS_CTRL) site = false →
          ∀ (raw : Bool) (wrong : List (Fin 65536)) (conns : List (Fin 280)) (fails : BitVec 16),
            ∀ i ∈ [Instr.readRow t port die site raw wrong, .writeRow t port die site, .mapRow t port die site, .mapBank t port die site, .mapConn t port die site,
                .connTest t port die site conns, .rowTest t port die site fails, .drasRestore t port die site],
              exec i s = .next (((a.setP p Reg.DRAS_STAT 29 29 1).raise p .DRAS_TEST_BLOCK none 0).reported port))
      ∧ ((a.dras.getD die none).isSome = false → bit (a.num p Reg.DRAS_CTRL) site = true →
        (∀ (raw : Bool) (wrong : List (Fin 65536)),
            let l := (wrong.map fun b => b.val).eraseDups
            let held (b : Nat) := a.memAt (physKey x.stack x.ch x.bank x.row b)
            let buffered (bytes : Nat → Byte) : State := State.setWindow { a with free := a.free + 1 } (rowBufferOff die) ((List.range 8192).map bytes)
            (x.ok = false → exec (.readRow t port die site raw wrong) s = starts a 1 true 0)
            ∧ (x.ok = true → wrong = [] → exec (.readRow t port die site raw wrong) s = starts (buffered held) 1 false 0)
            ∧ (x.ok = true → raw = true → exec (.readRow t port die site raw wrong) s =
                starts (buffered fun b => held b ^^^ BitVec.ofNat 8 ((l.filter fun i => i / 8 == b).map fun i => 2 ^ (i % 8)).sum) 1 false 0)
            ∧ (x.ok = true → raw = false → let r := a.drasRead die x false l
                exec (.readRow t port die site raw wrong) s = starts r.1 1 r.2 0 ∧ (r.2 = true ↔ ∃ w, 2 ≤ flipsIn l w)))
        ∧ exec (.writeRow t port die site) s = (if x.ok = true then starts (a.drasWrite die x) 2 false 0 else starts a 2 true 0)
        ∧ exec (.mapRow t port die site) s = (if x.ok = true ∧ 6144 ≤ bits arg 12 0 ∧ bits arg 12 0 < 6176 ∧ x.row < 6144
            then starts (a.setStack x.stack { k with rows := (⟨x.ch, x.bank, x.row⟩, bits arg 12 0) :: k.rows.filter fun q => !(q.1 == ⟨x.ch, x.bank, x.row⟩) }) 3 false 0 else starts a 3 true 0)
        ∧ exec (.mapBank t port die site) s = (if x.bank < 16
            then starts (a.setStack x.stack { k with banks := (x.ch, x.bank) :: k.banks.filter fun b => !(b.1 == x.ch) }) 4 false 0 else starts a 4 true 0)
        ∧ exec (.mapConn t port die site) s = (if bits arg 8 0 < 272 ∧ 272 ≤ bits arg 24 16 ∧ bits arg 24 16 < 280
            then starts (a.setStack x.stack { k with conns := (x.ch, bits arg 8 0, bits arg 24 16) :: k.conns.filter fun c => !(c.1 == x.ch && (c.2.1 == bits arg 8 0 || c.2.2 == bits arg 24 16)) }) 5 false 0
            else starts a 5 true 0)
        ∧ (∀ conns : List (Fin 280), exec (.connTest t port die site conns) s =
            starts (a.connResult die site x.ch (conns.map fun c => c.val)) 6 (!conns.isEmpty) (conns.map fun c => c.val).eraseDups.length)
        ∧ (∀ fails : BitVec 16, exec (.rowTest t port die site fails) s = if x.ok = true
            then starts (a.lose (physKey x.stack x.ch x.bank x.row 0) 8192 true) 7 (decide (fails.toNat ≠ 0)) fails.toNat else starts a 7 true 0)
        ∧ exec (.drasRestore t port die site) s = starts (a.applyStackRepairs x.stack) 8 false 0))
    ∧ (u.dras.getD die none = none → exec (.drasCommandEnd t die) s = .next u)
    ∧ (∀ r, u.dras.getD die none = some r → exec (.drasCommandEnd t die) s =
        let v : State := { u with dras := u.dras.set die none }
        .next ((((v.setP p Reg.DRAS_STAT 31 31 0).setP p Reg.DRAS_STAT 30 30 1).setP p Reg.DRAS_STAT 29 29 (b2n r.fail)).setP p Reg.DRAS_STAT 15 0 r.result))

/-- R219 to R221, R290, R291, R303, R304, R360 to R363, R367, R374 to R376. -/
def Obligations.StacksAndLinks : Prop :=
  ∀ (s : State) (t : Nat) (n : Fin 12), let u := s.atTime t
    let p := Pg.stack n
    let b := s.begin
    (u.domainOn (160 + n.val) = false → ∀ l, exec (.stackTempSample t n l) s = .next u)
    ∧ (∀ (l : List (Option Int)) (x : Int), u.Sound → u.domainOn (160 + n.val) = true → hottest (sampleOf l) = some x → x < 440 →
        let held := (u.stackOf n).held || decide (2 < (sampleOf l).countP fun r => !validReading r)
        let r := bandStep held (u.fldP p Reg.MEMC_STAT 29 29 == 1) (u.fldP p Reg.MEMC_STAT 31 30) (some x)
        ∃ v, exec (.stackTempSample t n l) s = .next v ∧ v.fldP p Reg.MEMC_TEMP 15 0 = unsigned 16 x
          ∧ (n.val < u.stk.length → v.fldP p Reg.MEMC_STAT 31 30 = r.1 ∧ v.fldP p Reg.MEMC_STAT 29 29 = b2n r.2)
          ∧ (∀ o, o < p.base ∨ p.base + 0x1000 ≤ o → v.rd o = u.rd o) ∧ v.mem = u.mem ∧ v.fog = u.fog)
    ∧ (s.Sound → (b.stackOf n).halved + 2 ^ (16 + b.fldP p Reg.MEMC_CFG 7 4) ≤ b.frameNum →
        ∃ v, exec (.watchAgeHalving n) s = .next v
          ∧ (∀ w < 64, let c := (b.rd (watchOff n w + 4)).toNat / 2
              (v.rd (watchOff n w + 4)).toNat = c ∧ v.rd (watchOff n w) = if c = 0 then 0 else b.rd (watchOff n w))
          ∧ (∀ o, (∀ w < 64, o ≠ watchOff n w ∧ o ≠ watchOff n w + 4) → v.rd o = b.rd o) ∧ v.mem = b.mem)
    ∧ (b.frameNum < (b.stackOf n).halved + 2 ^ (16 + b.fldP p Reg.MEMC_CFG 7 4) → exec (.watchAgeHalving n) s = .next b)
    ∧ ((u.stackOf n).remap = none ∨ u.pwr.coast.isSome = true → ∀ ecc, exec (.remapCopyDone t n ecc) s = .next u)
    ∧ (∀ m : Remap, u.Sound → n.val < u.stk.length → (u.stackOf n).remap = some m → m.todo.length ≤ 8 → (∀ c ∈ m.todo, c < 4) →
        u.pwr.coast = none → m.row.ch < 64 → m.row.bank ≤ 16 → m.row.row < 6176 → m.row.row ≠ m.spare → 6144 ≤ m.spare → m.spare < 6176 →
        ∃ v, exec (.remapCopyDone t n []) s = .next v ∧ (v.stackOf n).remap = some { m with todo := [], since := if m.todo = [] then m.since else u.wall }
          ∧ ∀ c ∈ m.todo, ∀ i < 2048, v.memAt (physKey n m.row.ch m.row.bank m.spare (c * 2048 + i)) = u.memAt (physKey n m.row.ch m.row.bank m.row.row (c * 2048 + i)))
    ∧ (∀ (k : Fin 4) (down : Bool) (lane : Fin 1632), let q := Pg.d2d k
        (u.laneFailed k (b2n down) lane = true ∨ u.linkWidth k = 3 → exec (.laneFail t k down lane none) s = .next u)
        ∧ (u.laneFailed k (b2n down) lane = true → ∀ bits, exec (.laneFail t k down lane (some bits)) s = .next u)
        ∧ (∀ bits, u.laneFailed k (b2n down) lane = false →
          let v := (u.bump q Reg.D2D_CE_CNT bits).noteBits k (b2n down) lane bits
          let most := v.fldP q Reg.D2D_CFG 15 8
          exec (.laneFail t k down lane (some bits)) s = .next (if most ≠ 0 ∧ most ≤ v.laneBits k (b2n down) lane then v.laneFail k (b2n down) lane 0 else v))
        ∧ (u.laneFailed k (b2n down) lane = false → u.linkWidth k ≠ 3 →
          let v := (u.bump q Reg.D2D_LANE_FAIL_CNT 1).wrP q Reg.D2D_LAST_LANE (BitVec.ofNat 32 (2 ^ 31 + b2n down * 2 ^ 30 + 2 ^ 28 + lane))
          let v := (v.noteRepair (laneEntry k (b2n down) lane 1)).setInt q 1
          let v := (v.setLink k { v.link k with unmoved := (b2n down, lane.val) :: (v.link k).unmoved }).markLane k (b2n down) lane
          let most := max (v.failedLanes k 0) (v.failedLanes k 1)
          (840 < most → v.linkWidth k < 2 → exec (.laneFail t k down lane none) s = .next (v.linkDown k (b2n down)))
          ∧ (48 < most → most ≤ 840 → v.linkWidth k = 0 → exec (.laneFail t k down lane none) s = .next (v.linkFall k (b2n down)))
          ∧ (most ≤ 48 → v.linkWidth k ≠ 2 → exec (.laneFail t k down lane none) s = .next (v.setP q Reg.BLK_STAT (29 - b2n down) (29 - b2n down) 1))))
    ∧ (∀ (k : Fin 4) (e : Nat), (s.link k).resume = some e → exec (.d2dRetrainComplete k) s = .next (b.passTime e))
    ∧ (∀ (k : Fin 4) (down : Bool) (slot : Fin 48) (lanes : List (Fin 1632)) (addr : Option Nat),
        let wrong := u.wrongLanes k (b2n down) slot (lanes.map fun l => l.val)
        (wrong = [] → ∀ id, exec (.d2dUe t k down slot lanes addr id) s = .next u)
        ∧ (∀ l, wrong = [l] → ∀ id, exec (.d2dUe t k down slot lanes addr id) s = .next ((u.bump (Pg.d2d k) Reg.D2D_CE_CNT 1).noteBits k (b2n down) l 1))
        ∧ (2 ≤ wrong.length →
          let v := (u.bump (Pg.d2d k) Reg.D2D_UE_CNT 1).raise (Pg.d2d k) .D2D_UE addr (b2n down * 2 ^ 31 + slot * 2 ^ 25)
          exec (.d2dUe t k down slot lanes addr none) s = .next (v.abortFrame (errCode .D2D_UE .d2d))
          ∧ ∀ id : Nat, exec (.d2dUe t k down slot lanes addr (some id)) s = .next { v with traffic := v.traffic.map fun x =>
              if x.id = id ∧ x.err = 0 then { x with err := errCode .D2D_UE .d2d, errAddr := addr, held := [] } else x }))
    ∧ (∀ (id : Nat) (kind : Fin 4) (addr : Option Nat),
        (fenceId id = false ∨ u.isolated id = true → exec (.fenceReject t [⟨id, kind, addr⟩]) s = .next u)
        ∧ (fenceId id = true → u.isolated id = false →
          let v := u.fenceLog id kind addr
          let w := (v.setP Pg.hub Reg.HUB_FENCE_ISO (isoBit id) (isoBit id) 1).setInt Pg.hub 2
          (v.fenceDue id = false → exec (.fenceReject t [⟨id, kind, addr⟩]) s = .next v)
          ∧ (v.fenceDue id = true → id < 24 → exec (.fenceReject t [⟨id, kind, addr⟩]) s = .next (w.portSync id))
          ∧ (∀ d, v.fenceDue id = true → 24 ≤ id → w.grn.dies[id - 0x20]? = some d → exec (.fenceReject t [⟨id, kind, addr⟩]) s =
            .next ((w.setGrn { w.grn with dies := w.grn.dies.set (id - 0x20) { d with isolated := true } }).flashFail (id - 0x20)))))
    ∧ (∀ x y : FenceTry, exec (.fenceReject t [x, y]) s =
        .next (if y.id < x.id then (u.fenceReject y.id y.kind y.addr).fenceReject x.id x.kind x.addr else (u.fenceReject x.id x.kind x.addr).fenceReject y.id y.kind y.addr))
    ∧ (∀ (die : Fin 4) (r : Nat × List Byte), (b.records.find? fun q => q.1 == die.val) = some r → b.pwr.coast = none →
        let v : State := { b with records := b.records.erase r }
        let q := Pg.culm die 0
        let h := v.ringHeader die
        (∀ ecc, v.fldP q Reg.CULM_RING_CTRL 0 0 = 0 → exec (.recordDelivery die ecc) s = .next ((v.bump q Reg.CULM_RING_DROP_CNT 1).setInt q 3))
        ∧ (v.fldP q Reg.CULM_RING_CTRL 0 0 = 1 →
          let may (z : State) (a n : Nat) (write : Bool) := z.denial q (z.culmInfo 0) 2 a n write = none
          let x := v.served h 64 2 false
          let size := x.natAt (h + 8) 8
          let wr := x.natAt (h + 0x10) 8
          let at_ := x.natAt h 8 + wr % size * 64
          let y := (x.served at_ 64 2 true).placeBytes at_ r.2
          may v h 64 false → ringSizeOk size = true → (wr + 2 ^ 64 - x.natAt (h + 0x18) 8) % 2 ^ 64 < size → may x at_ 64 true → may y (h + 0x10) 8 true →
            exec (.recordDelivery die []) s = .next ((y.placeBytes (h + 0x10) (leBytes 8 (y.natAt (h + 0x10) 8 + 1))).servedWrite (h + 0x10) 8 2)))

/-- R556 to R558, R567, R583. -/
def Obligations.GranaryAndSeeds : Prop :=
  ∀ (s : State) (t : Nat) (port : Fin 2), let u := s.atTime t
    let a := u.answered
    (u.Accepts port (Pg.grn.base + Reg.GRN_CMD) →
        let taken (op : Nat) : Host.Outcome State Fault Refusal :=
          .next ((a.setGrn { a.grn with command := some (op, a.num64 Pg.grn Reg.GRN_CMD_GEN_LO) }).wrP Pg.grn Reg.GRN_CMD_STAT 0x80000000)
        (u.grn.command = none → exec (.pin t port) s = taken 1 ∧ exec (.unpin t port) s = taken 2 ∧ exec (.delete t port) s = taken 3)
        ∧ (u.grn.command ≠ none → exec (.pin t port) s = .next a ∧ exec (.unpin t port) s = .next a ∧ exec (.delete t port) s = .next a))
    ∧ (∀ (op gen : Nat), u.grn.command = some (op, gen) → u.grn.run = none →
        let ends (v : State) (code : Nat) : Host.Outcome State Fault Refusal :=
          .next (((v.setGrn { v.grn with command := none }).wrP Pg.grn Reg.GRN_CMD_STAT (BitVec.ofNat 32 (2 ^ 30 + code))).setInt Pg.grn 4)
        (3 ≤ u.grn.failures → exec (.grnCommandEnd t) s = ends (u.raise Pg.grn .GRN_DEGRADED none 0xFF000000) (errCode .GRN_DEGRADED .grn))
        ∧ (u.grn.failures < 3 → u.domainOn 202 = false → exec (.grnCommandEnd t) s = ends (u.raise Pg.grn .GRN_NOT_ON none 0xFF000000) (errCode .GRN_NOT_ON .grn))
        ∧ (u.grn.failures < 3 → u.domainOn 202 = true → u.grn.find gen = none →
          exec (.grnCommandEnd t) s = ends (u.raise Pg.grn .GRN_NO_GEN none 0xFF000000) (errCode .GRN_NO_GEN .grn))
        ∧ (∀ x, u.grn.failures < 3 → u.domainOn 202 = true → u.grn.find gen = some x →
          (op = 1 → exec (.grnCommandEnd t) s = ends (u.setGrn (u.grn.update gen fun y => { y with pinned := true })) 0)
          ∧ (op = 2 → exec (.grnCommandEnd t) s = ends (u.setGrn (u.grn.update gen fun y => { y with pinned := false })) 0)
          ∧ (op = 3 → x.pinned = true → exec (.grnCommandEnd t) s = ends (u.raise Pg.grn .GRN_PINNED none 0xFF000000) (errCode .GRN_PINNED .grn))
          ∧ (op = 3 → x.pinned = false → exec (.grnCommandEnd t) s = ends (u.setGrn (u.grn.drop gen)) 0)))
    ∧ (∀ (n : Fin 8) (d : FlashDie), u.grn.dies[n.val]? = some d → d.failed = false → u.domainOn 202 = true →
        (∀ (rewrite last : Bool) (rebuilt : Nat), u.fldP Pg.grn Reg.GRN_CFG 0 0 = 1 → u.grn.run = none → u.grn.command = none →
          let v := u.bump Pg.grn Reg.GRN_REBUILD_CNT rebuilt
          let w := if rewrite = true ∨ rebuilt ≠ 0 then v.bump Pg.grn Reg.GRN_RELOC_CNT 1 else v
          exec (.scrub t n rewrite rebuilt last) s = .next (if last = true then (w.setGrn { w.grn with starting := false }).bump Pg.grn Reg.GRN_SCRUB_PASS_CNT 1 else w))
        ∧ (d.spare ≠ 0 → exec (.blockBad t n) s = .next (u.setGrn { u.grn with dies := u.grn.dies.set n { d with bad := d.bad + 1, spare := d.spare - 1 } }))
        ∧ (d.spare = 0 → exec (.blockBad t n) s = .next ((u.setGrn { u.grn with dies := u.grn.dies.set n { d with bad := d.bad + 1 } }).flashFail n))
        ∧ (∀ hi lo : BitVec 16, lo.toNat + 256 < hi.toNat → u.grn.starting = false → exec (.wearMove t n hi lo) s =
          .next (u.setGrn { u.grn with dies := u.grn.dies.set n { d with hi := hi.toNat, lo := lo.toNat } })))
    ∧ (u.domainOn 202 = true → exec (.scrubLate t) s =
        .next (if u.fldP Pg.grn Reg.GRN_STAT 24 24 = 1 then u else (u.setP Pg.grn Reg.GRN_STAT 24 24 1).setInt Pg.grn 3))
    ∧ (∀ (len : BitVec 21) (errs : List AccessErr), let y := s.atFacing errs t
        y.Accepts port (Pg.trade.base + Reg.TRADE_SEED_CMD) →
          let at_ := y.num64 Pg.trade Reg.TRADE_SEED_ADDR_LO
          let r := y.answered.takeRead Pg.trade 0 2 at_ len.toNat
          let package := if r.2 = none then r.1.bytesAt at_ len.toNat else []
          exec (.seedLoad t port len errs) s = .next ((({ r.1 with seed := some ⟨package, 0, 0, List.replicate 4 0, List.replicate 4 0⟩ } : State).wrP Pg.trade
            Reg.TRADE_SEED_STAT 0x20000000).reported port))
    ∧ (u.Accepts port (Pg.trade.base + Reg.TRADE_SEED_CMD) →
        exec (.seedCancel t port) s = .next (({ a with seed := none } : State).setP Pg.trade Reg.TRADE_SEED_STAT 31 29 0))
    ∧ (∀ x : SeedSet, u.seed = some x → u.fldP Pg.trade Reg.TRADE_SEED_STAT 31 29 = 1 →
        (x.layoutOk = true → u.seedSigned x = true → exec (.seedVerifyDone t) s =
          .next ((u.setP Pg.trade Reg.TRADE_SEED_STAT 31 29 2).wrP Pg.trade Reg.TRADE_SEED_ID (BitVec.ofNat 32 x.id)))
        ∧ (x.layoutOk = false ∨ u.seedSigned x = false → exec (.seedVerifyDone t) s =
          .next (((({ u with seed := none } : State).setP Pg.trade Reg.TRADE_SEED_STAT 31 29 5).raise Pg.trade .SEED_AUTH none x.id).bump Pg.sec Reg.SEC_AUTH_FAIL_CNT 1)))

/-- R642, R643, R647 to R650, R653 to R655. Certificates, keys and signatures are opaque constants of Config. -/
def Obligations.SecurityAndAttestation : Prop :=
  ∀ (s : State) (t : Nat) (port : Fin 2), let u := s.atTime t
    let a := u.answered
    (u.Accepts port (Pg.sec.base + Reg.SEC_CMD) →
        let taken (op len : Nat) : Host.Outcome State Fault Refusal :=
          .next ((a.setSec { a.sec with cmd := some ⟨op, len, a.rdBytes (Pg.sec.base + 0x800) 64, a.rdBytes (Pg.sec.base + Reg.SEC_NONCEn) 8⟩ }).wrP Pg.sec Reg.SEC_CMD_STAT 0x80000000)
        ∀ len : BitVec 25,
          (u.sec.cmd = none → exec (.fwUpdate t port len) s = taken 1 len.toNat ∧ exec (.commit t port) s = taken 2 0 ∧ exec (.key t port) s = taken 3 0
            ∧ exec (.debugUnlock t port) s = taken 4 0 ∧ exec (.debugCancel t port) s = taken 5 0)
          ∧ (u.sec.cmd ≠ none → ∀ i ∈ [Instr.fwUpdate t port len, .commit t port, .key t port, .debugUnlock t port, .debugCancel t port], exec i s = .next a))
    ∧ (∀ (errs : List AccessErr) (c : SecCmd), let u := s.atFacing errs t
      u.sec.cmd = some c → u.domainOn 202 = true →
        let ends (v : State) (code : Nat) : Host.Outcome State Fault Refusal :=
          .next ((v.wrP Pg.sec Reg.SEC_CMD_STAT (BitVec.ofNat 32 (2 ^ 30 + code))).setInt Pg.sec 1)
        let x := u.sec
        let refused : State := u.raise Pg.sec .DEBUG_AUTH none 0
        let counted := refused.bump Pg.sec Reg.SEC_AUTH_FAIL_CNT 1
        (c.op = 5 → exec (.secCommandEnd t errs) s = ends (u.setSec { x with pendingDebug := none, cmd := none }) 0)
        ∧ (∀ b, c.op = 2 → x.running = some b →
          let f := if b = true then x.b else x.a
          exec (.secCommandEnd t errs) s = ends (u.setSec { x with ctr1 := max x.ctr1 f.one.svn, ctr2 := max x.ctr2 f.two.svn, cmd := none }) 0)
        ∧ (c.op = 3 → u.keyGood c = true →
          let k : Option OpKey := if leAt c.record 4 1 = 1 then some ⟨leAt c.record 6 2, (c.record.drop 0x28).take 96⟩ else none
          exec (.secCommandEnd t errs) s = ends (u.setSec { x with keys := x.keys.set (leAt c.record 5 1 - 4) k, cmd := none }).newSecNonce 0)
        ∧ (c.op = 4 → u.tokenGood c = true →
          exec (.secCommandEnd t errs) s = ends (u.setSec { x with pendingDebug := some (leAt c.record 4 4), cmd := none }).newSecNonce 0)
        ∧ (c.op = 3 ∧ u.keyGood c = false ∨ c.op = 4 ∧ u.tokenGood c = false →
          exec (.secCommandEnd t errs) s = ends (counted.setSec { counted.sec with cmd := none }).newSecNonce (errCode .DEBUG_AUTH .sec))
        ∧ (∀ f : FwCopy, c.op = 1 → u.grnIdle = true → c.len ≤ 16777216 → inRecovery u = false →
          let at_ := u.num64 Pg.sec Reg.SEC_ARG_LO
          let r := u.takeRead Pg.sec 0 2 at_ c.len
          let y := r.1.sec
          (∀ code, r.2 = some code → exec (.secCommandEnd t errs) s = ends (r.1.setSec { y with cmd := none }) code)
          ∧ (r.2 = none → r.1.readBundle (r.1.bytesAt at_ c.len) = .ok f →
            exec (.secCommandEnd t errs) s =
              ends (r.1.setSec (if y.running = some true then { y with a := f, prefB := false, cmd := none } else { y with b := f, prefB := true, cmd := none })) 0)))
    ∧ (
        let v := (u.setSec { u.sec with fails := u.sec.fails + 1 }).setP Pg.sec Reg.SEC_STAT 30 30 0
        exec (.entropyTestFail t) s = .next (if u.sec.fails + 1 = 16 then (v.setP Pg.sec Reg.SEC_STAT 29 29 1).setInt Pg.sec 2 else v))
    ∧ (u.sec.seeding = [] → u.sec.nonceDue = false → u.sec.hoNonceDue = [] → u.boot.phase ≠ .powered →
        exec (.entropyTestPass t) s = .next ((u.setP Pg.sec Reg.SEC_STAT 30 29 2).setSec { u.sec with fails := 0 }))
    ∧ (∀ (src : Fin 3) (nonce : Vector Byte 32), u.askable src = true → u.identity = true →
        exec (.getReport t src nonce) s = .next (u.setSec { u.sec with requests := u.sec.requests ++ [⟨src, nonce.toList, u.wall, none⟩] }))
    ∧ (∀ (src : Fin 3) (off len : BitVec 32), let b := s.begin
        let answer := leBytes 4 Config.chainLen ++ (List.range (min len.toNat (Config.chainLen - off.toNat))).map fun i => Config.certByte (off.toNat + i)
        b.askable src = true → b.identity = true → len.toNat ≤ 65536 → b.sec.requests = [] → exec (.getCerts src off len) s = .next { b with resp := .bytes answer })
    ∧ (u.pwr.coast.isSome = true → exec (.snapshotTimeout t) s = .next (u.setSec { u.sec with requests := u.sec.requests.map fun r =>
          if r.snap.isNone = true ∧ r.at_ + 2000000 ≤ u.wall then { r with snap := some (u.report r.nonce) } else r }))
    ∧ (∀ (r : ReportReq) (rest : List ReportReq) (body : List Byte), u.sec.requests = r :: rest → r.snap = some body → r.nonce ≠ [] → u.entropyFailed = false →
        exec (.reportReady t) s = .next { (u.setSec { u.sec with requests := rest }).bump Pg.sec Reg.SEC_REPORT_CNT 1 with resp := .bytes (body ++ Config.deviceSign body) })
    ∧ (∀ index : BitVec 8, let b := s.begin
        let answer : List Byte := match index.toNat with
          | 0 => [1, 0, 0, 1]
          | 1 => [0xC7, 0x1E, 1, 2]
          | 2 => [0xC7, 0x1E, 2, 3]
          | 3 => [0xC7, 0x1E, 3, 0]
          | _ => [0xFF, 0xFF, 0, 0]
        b.askable port = true → exec (.doeDiscovery port index) s = .next { b with resp := .bytes answer })

/-- R675 to R680. Version numbers that MCTP answers are a free value. -/
def Obligations.ManagementAndTestPort : Prop :=
  ∀ s : State, let b := s.begin
    b.boot.phase.commandable = true →
      (b.tap.i3c = none → ∀ addr : BitVec 7,
        exec (.i3cEntdaa addr) s = .next { b.setTap { b.tap with i3c := some addr.toNat } with resp := .bytes provisionalId }
        ∧ (∀ static : BitVec 7, exec (.i3cSetdasa static addr) s =
          .next (if static = 0x3A then { b.setTap { b.tap with i3c := some addr.toNat } with resp := .done } else b)))
      ∧ (∀ d : Nat, b.tap.i3c = some d →
        (∀ addr : BitVec 7, exec (.i3cEntdaa addr) s = .next b)
        ∧ (∀ (c : BitVec 8) (l : List Byte), exec (.mctpControl c l) s = .next { b.setTap { b.tap with eid := (mctpAnswer b.tap.eid (Config.freeNat 0) c.toNat l).2 } with
            resp := .bytes (mctpAnswer b.tap.eid (Config.freeNat 0) c.toNat l).1 })
        ∧ (∀ (t : Nat) (off : BitVec 32) (count : BitVec 16), let u := s.atTime t
          u.boot.phase.commandable = true → u.tap.i3c = some d → 1 ≤ count.toNat → count.toNat ≤ 64 → u.sec.requests = [] →
            let r := u.readWords off.toNat count.toNat
            exec (.read32 t off count) s = .next { r.2.1 with resp := .bytes (if r.2.2 = 0 then r.1 else leBytes 1 0x10 ++ leBytes 1 0 ++ leBytes 2 r.2.2) }))
      ∧ (
        let at_ (n : Nat) : State := { b with tap := { b.tap with ir := n } }
        let taken (n : Nat) : Host.Outcome State Fault Refusal := .next { at_ n with boot := { b.boot with pinsTaken := true } }
        exec .trst s = .next (at_ 2) ∧ exec .samplePreload s = .next (at_ 1) ∧ exec .bypass s = .next (at_ 0xFF)
        ∧ exec .extest s = taken 0 ∧ exec .clamp s = taken 3 ∧ exec .highz s = taken 4 ∧ exec .extestPulse s = taken 5 ∧ exec .extestTrain s = taken 6
        ∧ exec .idcode s = .next { at_ 2 with resp := .word (if s.steppingB = true then 0x157349CB else 0x057349CB) }
        ∧ exec .hubdbg s = .next (at_ (if b.fldP Pg.sec Reg.SEC_DBG_STAT 31 31 = 1 ∧ b.fldP Pg.sec Reg.SEC_DBG_STAT 3 3 = 1 then 0x41 else 0xFF)))
      ∧ (∀ (t : Nat) (dr : BitVec 64), (s.atTime t).boot.phase.commandable = true →
        let u := (s.atTime t).setTap { (s.atTime t).tap with ir := 0x40 }
        let off := dr.toNat / 2 ^ 32 % 2 ^ 24 * 4
        let kept := dr &&& 0x80FFFFFF00000000
        (dr.getLsbD 63 = true →
          let r := u.busWrite .tap off (dr.setWidth 32) .free
          let after (w : BitVec 64) : Host.Outcome State Fault Refusal := .next (r.setTap { r.tap with regacc := w })
          (r.resp = .done → exec (.regacc t dr) s = after (kept ||| (dr &&& 0xFFFFFFFF)))
          ∧ (∀ c, r.resp = .error c → exec (.regacc t dr) s = after (kept ||| 0x4000000000000000 ||| (dr &&& 0xFFFFFFFF))))
        ∧ (∀ w : Word, dr.getLsbD 63 = false →
          let r := u.busRead .tap off
          r.resp = .word w → exec (.regacc t dr) s = .next (r.setTap { r.tap with regacc := kept ||| w.setWidth 64 })))

/-- The first half of the invariant StepKeepsSound. The canonical form is the model's. -/
def Obligations.ResetSound : Prop :=
  State.reset.Sound ∧ State.reset.pending = []

/-- R1. The canonical form and the queue are the model's. -/
def Obligations.StepKeepsSound : Prop :=
  ∀ s : State, s.Sound → ∃ t, step s = .next t ∧ t.Sound ∧ t.pending = s.pending.tail ∧ t.steppingB = s.steppingB
end

