-- ==== Sys2Proof/Laws/Sparse.lean ====
section
/-!
SUPPORT. The laws of the sparse lists in canonical form: reading after writing, and the operations that keep the form.
-/
namespace Sys2Proof.Machine

variable {α : Type} [DecidableEq α] {d : Nat → α}

theorem Sparse.wfFrom_cons {lo k : Nat} {v : α} {r : List (Nat × α)} :
    Sparse.wfFrom d lo ((k, v) :: r) = true ↔ lo ≤ k ∧ v ≠ d k ∧ Sparse.wfFrom d (k + 1) r = true := by
  simp [Sparse.wfFrom, and_assoc]

theorem Sparse.wfFrom_mono {lo lo' : Nat} (h : lo ≤ lo') {l : List (Nat × α)} (hl : Sparse.wfFrom d lo' l = true) :
    Sparse.wfFrom d lo l = true := by
  cases l with
  | nil => rfl
  | cons q r =>
    rw [Sparse.wfFrom_cons] at hl ⊢
    exact ⟨h.trans hl.1, hl.2⟩

/-- Below its first key a canonical list reads as the default. -/
theorem Sparse.get_below {lo k : Nat} (h : k < lo) {l : List (Nat × α)} (hl : Sparse.wfFrom d lo l = true) : Sparse.get d l k = d k := by
  cases l with
  | nil => rfl
  | cons q r =>
    rw [Sparse.wfFrom_cons] at hl
    simp [Sparse.get, Nat.lt_of_lt_of_le h hl.1]

/-- A write keeps the canonical form. -/
theorem Sparse.put_wfFrom {lo k : Nat} (v : α) (hk : lo ≤ k) {l : List (Nat × α)} (hl : Sparse.wfFrom d lo l = true) :
    Sparse.wfFrom d lo (Sparse.put d l k v) = true := by
  induction l generalizing lo with
  | nil =>
    unfold Sparse.put
    split
    · rfl
    · exact Sparse.wfFrom_cons.2 ⟨hk, ‹_›, rfl⟩
  | cons q r ih =>
    rw [Sparse.wfFrom_cons] at hl
    obtain ⟨h1, h2, h3⟩ := hl
    unfold Sparse.put
    split
    · split
      · exact Sparse.wfFrom_cons.2 ⟨h1, h2, h3⟩
      · exact Sparse.wfFrom_cons.2 ⟨hk, ‹_›, Sparse.wfFrom_cons.2 ⟨by omega, h2, h3⟩⟩
    · split
      · subst k
        split
        · exact Sparse.wfFrom_mono (by omega) h3
        · exact Sparse.wfFrom_cons.2 ⟨hk, ‹_›, h3⟩
      · exact Sparse.wfFrom_cons.2 ⟨h1, h2, ih (by omega) h3⟩

theorem Sparse.put_wf (k : Nat) (v : α) {l : List (Nat × α)} (hl : Sparse.wf d l = true) : Sparse.wf d (Sparse.put d l k v) = true :=
  Sparse.put_wfFrom v (Nat.zero_le k) hl

/-- A read after a write of the same key. -/
theorem Sparse.get_put_same {lo k : Nat} (v : α) {l : List (Nat × α)} (hl : Sparse.wfFrom d lo l = true) :
    Sparse.get d (Sparse.put d l k v) k = v := by
  induction l generalizing lo with
  | nil =>
    unfold Sparse.put
    split <;> simp_all [Sparse.get]
  | cons q r ih =>
    rw [Sparse.wfFrom_cons] at hl
    unfold Sparse.put
    split
    · split <;> simp_all [Sparse.get]
    · split
      · subst k
        split
        · rw [Sparse.get_below (Nat.lt_succ_self _) hl.2.2]
          exact Eq.symm ‹_›
        · simp [Sparse.get]
      · simp only [Sparse.get, if_neg ‹¬k < q.1›, if_neg ‹¬k = q.1›]
        exact ih hl.2.2

/-- A read of another key. -/
theorem Sparse.get_put_other {lo k j : Nat} (v : α) (hj : j ≠ k) {l : List (Nat × α)} (hl : Sparse.wfFrom d lo l = true) :
    Sparse.get d (Sparse.put d l k v) j = Sparse.get d l j := by
  induction l generalizing lo with
  | nil =>
    unfold Sparse.put
    split
    · rfl
    · simp only [Sparse.get, if_neg hj, ite_self]
  | cons q r ih =>
    rw [Sparse.wfFrom_cons] at hl
    unfold Sparse.put
    split
    · split
      · rfl
      · simp only [Sparse.get]
        by_cases h : j < k
        · rw [if_pos h, if_pos (by omega)]
        · rw [if_neg h, if_neg hj]
    · split
      · subst k
        split
        · simp only [Sparse.get, if_neg hj]
          by_cases h : j < q.1
          · rw [if_pos h, Sparse.get_below (by omega) hl.2.2]
          · rw [if_neg h]
        · simp only [Sparse.get, if_neg hj]
      · simp only [Sparse.get]
        rw [ih hl.2.2]

/-- Leaving entries out keeps the canonical form. -/
theorem Sparse.filter_wfFrom (p : Nat × α → Bool) {lo : Nat} {l : List (Nat × α)} (hl : Sparse.wfFrom d lo l = true) :
    Sparse.wfFrom d lo (l.filter p) = true := by
  induction l generalizing lo with
  | nil => rfl
  | cons q r ih =>
    rw [Sparse.wfFrom_cons] at hl
    rw [List.filter_cons]
    split
    · exact Sparse.wfFrom_cons.2 ⟨hl.1, hl.2.1, ih hl.2.2⟩
    · exact Sparse.wfFrom_mono (by omega) (ih hl.2.2)

theorem Sparse.filter_wf (p : Nat × α → Bool) {l : List (Nat × α)} (hl : Sparse.wf d l = true) : Sparse.wf d (l.filter p) = true :=
  Sparse.filter_wfFrom p hl

/-- A list that is canonical over one default is so over another that none of its entries equals. -/
theorem Sparse.wfFrom_of {e : Nat → α} {lo : Nat} {l : List (Nat × α)} (h : ∀ q ∈ l, q.2 ≠ d q.1 → q.2 ≠ e q.1) (hl : Sparse.wfFrom d lo l = true) :
    Sparse.wfFrom e lo l = true := by
  induction l generalizing lo with
  | nil => rfl
  | cons q r ih =>
    rw [Sparse.wfFrom_cons] at hl
    exact Sparse.wfFrom_cons.2 ⟨hl.1, h q (List.mem_cons_self ..) hl.2.1, ih (fun x hx => h x (List.mem_cons_of_mem _ hx)) hl.2.2⟩

/-- A list that is canonical over one default is so over another that agrees with it at its keys. -/
theorem Sparse.wfFrom_congr {e : Nat → α} {lo : Nat} {l : List (Nat × α)} (h : ∀ q ∈ l, d q.1 = e q.1) (hl : Sparse.wfFrom d lo l = true) :
    Sparse.wfFrom e lo l = true :=
  Sparse.wfFrom_of (fun q hq hv => h q hq ▸ hv) hl

end Sys2Proof.Machine
end

