-- ==== Sys2Proof/Laws/State.lean ====
section
/-!
SUPPORT. The fields of the state after each of its updates: one lemma for each field that an update leaves as it was.
-/
namespace Sys2Proof.Machine

variable (s : State)

@[simp] theorem State.wr_pending (off : Nat) (w : Word) : (s.wr off w).pending = s.pending := rfl
@[simp] theorem State.wr_steppingB (off : Nat) (w : Word) : (s.wr off w).steppingB = s.steppingB := rfl
@[simp] theorem State.wr_wall (off : Nat) (w : Word) : (s.wr off w).wall = s.wall := rfl
@[simp] theorem State.wr_free (off : Nat) (w : Word) : (s.wr off w).free = s.free := rfl
@[simp] theorem State.wr_latch (off : Nat) (w : Word) : (s.wr off w).latch = s.latch := rfl
@[simp] theorem State.wr_captured (off : Nat) (w : Word) : (s.wr off w).captured = s.captured := rfl
@[simp] theorem State.wr_mem (off : Nat) (w : Word) : (s.wr off w).mem = s.mem := rfl
@[simp] theorem State.wr_fog (off : Nat) (w : Word) : (s.wr off w).fog = s.fog := rfl
@[simp] theorem State.wr_meets (off : Nat) (w : Word) : (s.wr off w).meets = s.meets := rfl
@[simp] theorem State.wr_resp (off : Nat) (w : Word) : (s.wr off w).resp = s.resp := rfl
@[simp] theorem State.wr_out (off : Nat) (w : Word) : (s.wr off w).out = s.out := rfl
@[simp] theorem State.wr_eng (off : Nat) (w : Word) : (s.wr off w).eng = s.eng := rfl
@[simp] theorem State.wr_host (off : Nat) (w : Word) : (s.wr off w).host = s.host := rfl
@[simp] theorem State.wr_slots (off : Nat) (w : Word) : (s.wr off w).slots = s.slots := rfl
@[simp] theorem State.wr_running (off : Nat) (w : Word) : (s.wr off w).running = s.running := rfl
@[simp] theorem State.wr_traffic (off : Nat) (w : Word) : (s.wr off w).traffic = s.traffic := rfl
@[simp] theorem State.wr_records (off : Nat) (w : Word) : (s.wr off w).records = s.records := rfl
@[simp] theorem State.wr_stk (off : Nat) (w : Word) : (s.wr off w).stk = s.stk := rfl
@[simp] theorem State.wr_rep (off : Nat) (w : Word) : (s.wr off w).rep = s.rep := rfl
@[simp] theorem State.wr_links (off : Nat) (w : Word) : (s.wr off w).links = s.links := rfl
@[simp] theorem State.wr_fence (off : Nat) (w : Word) : (s.wr off w).fence = s.fence := rfl
@[simp] theorem State.wr_boot (off : Nat) (w : Word) : (s.wr off w).boot = s.boot := rfl
@[simp] theorem State.wr_fab (off : Nat) (w : Word) : (s.wr off w).fab = s.fab := rfl
@[simp] theorem State.wr_coll (off : Nat) (w : Word) : (s.wr off w).coll = s.coll := rfl
@[simp] theorem State.wr_grn (off : Nat) (w : Word) : (s.wr off w).grn = s.grn := rfl
@[simp] theorem State.wr_stb (off : Nat) (w : Word) : (s.wr off w).stb = s.stb := rfl
@[simp] theorem State.wr_pwr (off : Nat) (w : Word) : (s.wr off w).pwr = s.pwr := rfl
@[simp] theorem State.wr_sec (off : Nat) (w : Word) : (s.wr off w).sec = s.sec := rfl
@[simp] theorem State.wr_seed (off : Nat) (w : Word) : (s.wr off w).seed = s.seed := rfl
@[simp] theorem State.wr_dras (off : Nat) (w : Word) : (s.wr off w).dras = s.dras := rfl
@[simp] theorem State.wr_tap (off : Nat) (w : Word) : (s.wr off w).tap = s.tap := rfl

@[simp] theorem State.begin_pending : (s.begin).pending = s.pending := rfl
@[simp] theorem State.begin_steppingB : (s.begin).steppingB = s.steppingB := rfl
@[simp] theorem State.begin_wall : (s.begin).wall = s.wall := rfl
@[simp] theorem State.begin_free : (s.begin).free = s.free := rfl
@[simp] theorem State.begin_regs : (s.begin).regs = s.regs := rfl
@[simp] theorem State.begin_latch : (s.begin).latch = s.latch := rfl
@[simp] theorem State.begin_captured : (s.begin).captured = s.captured := rfl
@[simp] theorem State.begin_mem : (s.begin).mem = s.mem := rfl
@[simp] theorem State.begin_fog : (s.begin).fog = s.fog := rfl
@[simp] theorem State.begin_out : (s.begin).out = s.out := rfl
@[simp] theorem State.begin_eng : (s.begin).eng = s.eng := rfl
@[simp] theorem State.begin_host : (s.begin).host = s.host := rfl
@[simp] theorem State.begin_slots : (s.begin).slots = s.slots := rfl
@[simp] theorem State.begin_running : (s.begin).running = s.running := rfl
@[simp] theorem State.begin_traffic : (s.begin).traffic = s.traffic := rfl
@[simp] theorem State.begin_records : (s.begin).records = s.records := rfl
@[simp] theorem State.begin_stk : (s.begin).stk = s.stk := rfl
@[simp] theorem State.begin_rep : (s.begin).rep = s.rep := rfl
@[simp] theorem State.begin_links : (s.begin).links = s.links := rfl
@[simp] theorem State.begin_fence : (s.begin).fence = s.fence := rfl
@[simp] theorem State.begin_boot : (s.begin).boot = s.boot := rfl
@[simp] theorem State.begin_fab : (s.begin).fab = s.fab := rfl
@[simp] theorem State.begin_coll : (s.begin).coll = s.coll := rfl
@[simp] theorem State.begin_grn : (s.begin).grn = s.grn := rfl
@[simp] theorem State.begin_stb : (s.begin).stb = s.stb := rfl
@[simp] theorem State.begin_pwr : (s.begin).pwr = s.pwr := rfl
@[simp] theorem State.begin_sec : (s.begin).sec = s.sec := rfl
@[simp] theorem State.begin_seed : (s.begin).seed = s.seed := rfl
@[simp] theorem State.begin_dras : (s.begin).dras = s.dras := rfl
@[simp] theorem State.begin_tap : (s.begin).tap = s.tap := rfl

@[simp] theorem State.facing_pending (l : List AccessErr) : (s.facing l).pending = s.pending := rfl
@[simp] theorem State.facing_steppingB (l : List AccessErr) : (s.facing l).steppingB = s.steppingB := rfl
@[simp] theorem State.facing_wall (l : List AccessErr) : (s.facing l).wall = s.wall := rfl
@[simp] theorem State.facing_free (l : List AccessErr) : (s.facing l).free = s.free := rfl
@[simp] theorem State.facing_regs (l : List AccessErr) : (s.facing l).regs = s.regs := rfl
@[simp] theorem State.facing_latch (l : List AccessErr) : (s.facing l).latch = s.latch := rfl
@[simp] theorem State.facing_captured (l : List AccessErr) : (s.facing l).captured = s.captured := rfl
@[simp] theorem State.facing_mem (l : List AccessErr) : (s.facing l).mem = s.mem := rfl
@[simp] theorem State.facing_fog (l : List AccessErr) : (s.facing l).fog = s.fog := rfl
@[simp] theorem State.facing_resp (l : List AccessErr) : (s.facing l).resp = s.resp := rfl
@[simp] theorem State.facing_out (l : List AccessErr) : (s.facing l).out = s.out := rfl
@[simp] theorem State.facing_eng (l : List AccessErr) : (s.facing l).eng = s.eng := rfl
@[simp] theorem State.facing_host (l : List AccessErr) : (s.facing l).host = s.host := rfl
@[simp] theorem State.facing_slots (l : List AccessErr) : (s.facing l).slots = s.slots := rfl
@[simp] theorem State.facing_running (l : List AccessErr) : (s.facing l).running = s.running := rfl
@[simp] theorem State.facing_traffic (l : List AccessErr) : (s.facing l).traffic = s.traffic := rfl
@[simp] theorem State.facing_records (l : List AccessErr) : (s.facing l).records = s.records := rfl
@[simp] theorem State.facing_stk (l : List AccessErr) : (s.facing l).stk = s.stk := rfl
@[simp] theorem State.facing_rep (l : List AccessErr) : (s.facing l).rep = s.rep := rfl
@[simp] theorem State.facing_links (l : List AccessErr) : (s.facing l).links = s.links := rfl
@[simp] theorem State.facing_fence (l : List AccessErr) : (s.facing l).fence = s.fence := rfl
@[simp] theorem State.facing_boot (l : List AccessErr) : (s.facing l).boot = s.boot := rfl
@[simp] theorem State.facing_fab (l : List AccessErr) : (s.facing l).fab = s.fab := rfl
@[simp] theorem State.facing_coll (l : List AccessErr) : (s.facing l).coll = s.coll := rfl
@[simp] theorem State.facing_grn (l : List AccessErr) : (s.facing l).grn = s.grn := rfl
@[simp] theorem State.facing_stb (l : List AccessErr) : (s.facing l).stb = s.stb := rfl
@[simp] theorem State.facing_pwr (l : List AccessErr) : (s.facing l).pwr = s.pwr := rfl
@[simp] theorem State.facing_sec (l : List AccessErr) : (s.facing l).sec = s.sec := rfl
@[simp] theorem State.facing_seed (l : List AccessErr) : (s.facing l).seed = s.seed := rfl
@[simp] theorem State.facing_dras (l : List AccessErr) : (s.facing l).dras = s.dras := rfl
@[simp] theorem State.facing_tap (l : List AccessErr) : (s.facing l).tap = s.tap := rfl

@[simp] theorem State.refuse_pending (code : Nat) : (s.refuse code).pending = s.pending := rfl
@[simp] theorem State.refuse_steppingB (code : Nat) : (s.refuse code).steppingB = s.steppingB := rfl
@[simp] theorem State.refuse_wall (code : Nat) : (s.refuse code).wall = s.wall := rfl
@[simp] theorem State.refuse_free (code : Nat) : (s.refuse code).free = s.free := rfl
@[simp] theorem State.refuse_regs (code : Nat) : (s.refuse code).regs = s.regs := rfl
@[simp] theorem State.refuse_latch (code : Nat) : (s.refuse code).latch = s.latch := rfl
@[simp] theorem State.refuse_captured (code : Nat) : (s.refuse code).captured = s.captured := rfl
@[simp] theorem State.refuse_mem (code : Nat) : (s.refuse code).mem = s.mem := rfl
@[simp] theorem State.refuse_fog (code : Nat) : (s.refuse code).fog = s.fog := rfl
@[simp] theorem State.refuse_meets (code : Nat) : (s.refuse code).meets = s.meets := rfl
@[simp] theorem State.refuse_out (code : Nat) : (s.refuse code).out = s.out := rfl
@[simp] theorem State.refuse_eng (code : Nat) : (s.refuse code).eng = s.eng := rfl
@[simp] theorem State.refuse_host (code : Nat) : (s.refuse code).host = s.host := rfl
@[simp] theorem State.refuse_slots (code : Nat) : (s.refuse code).slots = s.slots := rfl
@[simp] theorem State.refuse_running (code : Nat) : (s.refuse code).running = s.running := rfl
@[simp] theorem State.refuse_traffic (code : Nat) : (s.refuse code).traffic = s.traffic := rfl
@[simp] theorem State.refuse_records (code : Nat) : (s.refuse code).records = s.records := rfl
@[simp] theorem State.refuse_stk (code : Nat) : (s.refuse code).stk = s.stk := rfl
@[simp] theorem State.refuse_rep (code : Nat) : (s.refuse code).rep = s.rep := rfl
@[simp] theorem State.refuse_links (code : Nat) : (s.refuse code).links = s.links := rfl
@[simp] theorem State.refuse_fence (code : Nat) : (s.refuse code).fence = s.fence := rfl
@[simp] theorem State.refuse_boot (code : Nat) : (s.refuse code).boot = s.boot := rfl
@[simp] theorem State.refuse_fab (code : Nat) : (s.refuse code).fab = s.fab := rfl
@[simp] theorem State.refuse_coll (code : Nat) : (s.refuse code).coll = s.coll := rfl
@[simp] theorem State.refuse_grn (code : Nat) : (s.refuse code).grn = s.grn := rfl
@[simp] theorem State.refuse_stb (code : Nat) : (s.refuse code).stb = s.stb := rfl
@[simp] theorem State.refuse_pwr (code : Nat) : (s.refuse code).pwr = s.pwr := rfl
@[simp] theorem State.refuse_sec (code : Nat) : (s.refuse code).sec = s.sec := rfl
@[simp] theorem State.refuse_seed (code : Nat) : (s.refuse code).seed = s.seed := rfl
@[simp] theorem State.refuse_dras (code : Nat) : (s.refuse code).dras = s.dras := rfl
@[simp] theorem State.refuse_tap (code : Nat) : (s.refuse code).tap = s.tap := rfl

@[simp] theorem State.setCell_pending (k : Nat) (b : Byte) : (s.setCell k b).pending = s.pending := rfl
@[simp] theorem State.setCell_steppingB (k : Nat) (b : Byte) : (s.setCell k b).steppingB = s.steppingB := rfl
@[simp] theorem State.setCell_wall (k : Nat) (b : Byte) : (s.setCell k b).wall = s.wall := rfl
@[simp] theorem State.setCell_free (k : Nat) (b : Byte) : (s.setCell k b).free = s.free := rfl
@[simp] theorem State.setCell_regs (k : Nat) (b : Byte) : (s.setCell k b).regs = s.regs := rfl
@[simp] theorem State.setCell_latch (k : Nat) (b : Byte) : (s.setCell k b).latch = s.latch := rfl
@[simp] theorem State.setCell_captured (k : Nat) (b : Byte) : (s.setCell k b).captured = s.captured := rfl
@[simp] theorem State.setCell_fog (k : Nat) (b : Byte) : (s.setCell k b).fog = s.fog := rfl
@[simp] theorem State.setCell_meets (k : Nat) (b : Byte) : (s.setCell k b).meets = s.meets := rfl
@[simp] theorem State.setCell_resp (k : Nat) (b : Byte) : (s.setCell k b).resp = s.resp := rfl
@[simp] theorem State.setCell_out (k : Nat) (b : Byte) : (s.setCell k b).out = s.out := rfl
@[simp] theorem State.setCell_eng (k : Nat) (b : Byte) : (s.setCell k b).eng = s.eng := rfl
@[simp] theorem State.setCell_host (k : Nat) (b : Byte) : (s.setCell k b).host = s.host := rfl
@[simp] theorem State.setCell_slots (k : Nat) (b : Byte) : (s.setCell k b).slots = s.slots := rfl
@[simp] theorem State.setCell_running (k : Nat) (b : Byte) : (s.setCell k b).running = s.running := rfl
@[simp] theorem State.setCell_traffic (k : Nat) (b : Byte) : (s.setCell k b).traffic = s.traffic := rfl
@[simp] theorem State.setCell_records (k : Nat) (b : Byte) : (s.setCell k b).records = s.records := rfl
@[simp] theorem State.setCell_stk (k : Nat) (b : Byte) : (s.setCell k b).stk = s.stk := rfl
@[simp] theorem State.setCell_rep (k : Nat) (b : Byte) : (s.setCell k b).rep = s.rep := rfl
@[simp] theorem State.setCell_links (k : Nat) (b : Byte) : (s.setCell k b).links = s.links := rfl
@[simp] theorem State.setCell_fence (k : Nat) (b : Byte) : (s.setCell k b).fence = s.fence := rfl
@[simp] theorem State.setCell_boot (k : Nat) (b : Byte) : (s.setCell k b).boot = s.boot := rfl
@[simp] theorem State.setCell_fab (k : Nat) (b : Byte) : (s.setCell k b).fab = s.fab := rfl
@[simp] theorem State.setCell_coll (k : Nat) (b : Byte) : (s.setCell k b).coll = s.coll := rfl
@[simp] theorem State.setCell_grn (k : Nat) (b : Byte) : (s.setCell k b).grn = s.grn := rfl
@[simp] theorem State.setCell_stb (k : Nat) (b : Byte) : (s.setCell k b).stb = s.stb := rfl
@[simp] theorem State.setCell_pwr (k : Nat) (b : Byte) : (s.setCell k b).pwr = s.pwr := rfl
@[simp] theorem State.setCell_sec (k : Nat) (b : Byte) : (s.setCell k b).sec = s.sec := rfl
@[simp] theorem State.setCell_seed (k : Nat) (b : Byte) : (s.setCell k b).seed = s.seed := rfl
@[simp] theorem State.setCell_dras (k : Nat) (b : Byte) : (s.setCell k b).dras = s.dras := rfl
@[simp] theorem State.setCell_tap (k : Nat) (b : Byte) : (s.setCell k b).tap = s.tap := rfl

@[simp] theorem State.cover_pending (f : Fog) : (s.cover f).pending = s.pending := rfl
@[simp] theorem State.cover_steppingB (f : Fog) : (s.cover f).steppingB = s.steppingB := rfl
@[simp] theorem State.cover_wall (f : Fog) : (s.cover f).wall = s.wall := rfl
@[simp] theorem State.cover_free (f : Fog) : (s.cover f).free = s.free := rfl
@[simp] theorem State.cover_regs (f : Fog) : (s.cover f).regs = s.regs := rfl
@[simp] theorem State.cover_latch (f : Fog) : (s.cover f).latch = s.latch := rfl
@[simp] theorem State.cover_captured (f : Fog) : (s.cover f).captured = s.captured := rfl
@[simp] theorem State.cover_meets (f : Fog) : (s.cover f).meets = s.meets := rfl
@[simp] theorem State.cover_resp (f : Fog) : (s.cover f).resp = s.resp := rfl
@[simp] theorem State.cover_out (f : Fog) : (s.cover f).out = s.out := rfl
@[simp] theorem State.cover_eng (f : Fog) : (s.cover f).eng = s.eng := rfl
@[simp] theorem State.cover_host (f : Fog) : (s.cover f).host = s.host := rfl
@[simp] theorem State.cover_slots (f : Fog) : (s.cover f).slots = s.slots := rfl
@[simp] theorem State.cover_running (f : Fog) : (s.cover f).running = s.running := rfl
@[simp] theorem State.cover_traffic (f : Fog) : (s.cover f).traffic = s.traffic := rfl
@[simp] theorem State.cover_records (f : Fog) : (s.cover f).records = s.records := rfl
@[simp] theorem State.cover_stk (f : Fog) : (s.cover f).stk = s.stk := rfl
@[simp] theorem State.cover_rep (f : Fog) : (s.cover f).rep = s.rep := rfl
@[simp] theorem State.cover_links (f : Fog) : (s.cover f).links = s.links := rfl
@[simp] theorem State.cover_fence (f : Fog) : (s.cover f).fence = s.fence := rfl
@[simp] theorem State.cover_boot (f : Fog) : (s.cover f).boot = s.boot := rfl
@[simp] theorem State.cover_fab (f : Fog) : (s.cover f).fab = s.fab := rfl
@[simp] theorem State.cover_coll (f : Fog) : (s.cover f).coll = s.coll := rfl
@[simp] theorem State.cover_grn (f : Fog) : (s.cover f).grn = s.grn := rfl
@[simp] theorem State.cover_stb (f : Fog) : (s.cover f).stb = s.stb := rfl
@[simp] theorem State.cover_pwr (f : Fog) : (s.cover f).pwr = s.pwr := rfl
@[simp] theorem State.cover_sec (f : Fog) : (s.cover f).sec = s.sec := rfl
@[simp] theorem State.cover_seed (f : Fog) : (s.cover f).seed = s.seed := rfl
@[simp] theorem State.cover_dras (f : Fog) : (s.cover f).dras = s.dras := rfl
@[simp] theorem State.cover_tap (f : Fog) : (s.cover f).tap = s.tap := rfl

@[simp] theorem State.setPci_pending (n : Nat) (p : PciPort) : (s.setPci n p).pending = s.pending := rfl
@[simp] theorem State.setPci_steppingB (n : Nat) (p : PciPort) : (s.setPci n p).steppingB = s.steppingB := rfl
@[simp] theorem State.setPci_wall (n : Nat) (p : PciPort) : (s.setPci n p).wall = s.wall := rfl
@[simp] theorem State.setPci_free (n : Nat) (p : PciPort) : (s.setPci n p).free = s.free := rfl
@[simp] theorem State.setPci_regs (n : Nat) (p : PciPort) : (s.setPci n p).regs = s.regs := rfl
@[simp] theorem State.setPci_latch (n : Nat) (p : PciPort) : (s.setPci n p).latch = s.latch := rfl
@[simp] theorem State.setPci_captured (n : Nat) (p : PciPort) : (s.setPci n p).captured = s.captured := rfl
@[simp] theorem State.setPci_mem (n : Nat) (p : PciPort) : (s.setPci n p).mem = s.mem := rfl
@[simp] theorem State.setPci_fog (n : Nat) (p : PciPort) : (s.setPci n p).fog = s.fog := rfl
@[simp] theorem State.setPci_meets (n : Nat) (p : PciPort) : (s.setPci n p).meets = s.meets := rfl
@[simp] theorem State.setPci_resp (n : Nat) (p : PciPort) : (s.setPci n p).resp = s.resp := rfl
@[simp] theorem State.setPci_out (n : Nat) (p : PciPort) : (s.setPci n p).out = s.out := rfl
@[simp] theorem State.setPci_eng (n : Nat) (p : PciPort) : (s.setPci n p).eng = s.eng := rfl
@[simp] theorem State.setPci_slots (n : Nat) (p : PciPort) : (s.setPci n p).slots = s.slots := rfl
@[simp] theorem State.setPci_running (n : Nat) (p : PciPort) : (s.setPci n p).running = s.running := rfl
@[simp] theorem State.setPci_traffic (n : Nat) (p : PciPort) : (s.setPci n p).traffic = s.traffic := rfl
@[simp] theorem State.setPci_records (n : Nat) (p : PciPort) : (s.setPci n p).records = s.records := rfl
@[simp] theorem State.setPci_stk (n : Nat) (p : PciPort) : (s.setPci n p).stk = s.stk := rfl
@[simp] theorem State.setPci_rep (n : Nat) (p : PciPort) : (s.setPci n p).rep = s.rep := rfl
@[simp] theorem State.setPci_links (n : Nat) (p : PciPort) : (s.setPci n p).links = s.links := rfl
@[simp] theorem State.setPci_fence (n : Nat) (p : PciPort) : (s.setPci n p).fence = s.fence := rfl
@[simp] theorem State.setPci_boot (n : Nat) (p : PciPort) : (s.setPci n p).boot = s.boot := rfl
@[simp] theorem State.setPci_fab (n : Nat) (p : PciPort) : (s.setPci n p).fab = s.fab := rfl
@[simp] theorem State.setPci_coll (n : Nat) (p : PciPort) : (s.setPci n p).coll = s.coll := rfl
@[simp] theorem State.setPci_grn (n : Nat) (p : PciPort) : (s.setPci n p).grn = s.grn := rfl
@[simp] theorem State.setPci_stb (n : Nat) (p : PciPort) : (s.setPci n p).stb = s.stb := rfl
@[simp] theorem State.setPci_pwr (n : Nat) (p : PciPort) : (s.setPci n p).pwr = s.pwr := rfl
@[simp] theorem State.setPci_sec (n : Nat) (p : PciPort) : (s.setPci n p).sec = s.sec := rfl
@[simp] theorem State.setPci_seed (n : Nat) (p : PciPort) : (s.setPci n p).seed = s.seed := rfl
@[simp] theorem State.setPci_dras (n : Nat) (p : PciPort) : (s.setPci n p).dras = s.dras := rfl
@[simp] theorem State.setPci_tap (n : Nat) (p : PciPort) : (s.setPci n p).tap = s.tap := rfl

@[simp] theorem State.msix_pending (port vec : Nat) : (s.msix port vec).pending = s.pending := by simp only [State.msix]; split <;> [rfl; split <;> rfl]
@[simp] theorem State.msix_steppingB (port vec : Nat) : (s.msix port vec).steppingB = s.steppingB := by simp only [State.msix]; split <;> [rfl; split <;> rfl]
@[simp] theorem State.msix_wall (port vec : Nat) : (s.msix port vec).wall = s.wall := by simp only [State.msix]; split <;> [rfl; split <;> rfl]
@[simp] theorem State.msix_free (port vec : Nat) : (s.msix port vec).free = s.free := by simp only [State.msix]; split <;> [rfl; split <;> rfl]
@[simp] theorem State.msix_regs (port vec : Nat) : (s.msix port vec).regs = s.regs := by simp only [State.msix]; split <;> [rfl; split <;> rfl]
@[simp] theorem State.msix_latch (port vec : Nat) : (s.msix port vec).latch = s.latch := by simp only [State.msix]; split <;> [rfl; split <;> rfl]
@[simp] theorem State.msix_captured (port vec : Nat) : (s.msix port vec).captured = s.captured := by simp only [State.msix]; split <;> [rfl; split <;> rfl]
@[simp] theorem State.msix_mem (port vec : Nat) : (s.msix port vec).mem = s.mem := by simp only [State.msix]; split <;> [rfl; split <;> rfl]
@[simp] theorem State.msix_fog (port vec : Nat) : (s.msix port vec).fog = s.fog := by simp only [State.msix]; split <;> [rfl; split <;> rfl]
@[simp] theorem State.msix_meets (port vec : Nat) : (s.msix port vec).meets = s.meets := by simp only [State.msix]; split <;> [rfl; split <;> rfl]
@[simp] theorem State.msix_resp (port vec : Nat) : (s.msix port vec).resp = s.resp := by simp only [State.msix]; split <;> [rfl; split <;> rfl]
@[simp] theorem State.msix_eng (port vec : Nat) : (s.msix port vec).eng = s.eng := by simp only [State.msix]; split <;> [rfl; split <;> rfl]
@[simp] theorem State.msix_slots (port vec : Nat) : (s.msix port vec).slots = s.slots := by simp only [State.msix]; split <;> [rfl; split <;> rfl]
@[simp] theorem State.msix_running (port vec : Nat) : (s.msix port vec).running = s.running := by simp only [State.msix]; split <;> [rfl; split <;> rfl]
@[simp] theorem State.msix_traffic (port vec : Nat) : (s.msix port vec).traffic = s.traffic := by simp only [State.msix]; split <;> [rfl; split <;> rfl]
@[simp] theorem State.msix_records (port vec : Nat) : (s.msix port vec).records = s.records := by simp only [State.msix]; split <;> [rfl; split <;> rfl]
@[simp] theorem State.msix_stk (port vec : Nat) : (s.msix port vec).stk = s.stk := by simp only [State.msix]; split <;> [rfl; split <;> rfl]
@[simp] theorem State.msix_rep (port vec : Nat) : (s.msix port vec).rep = s.rep := by simp only [State.msix]; split <;> [rfl; split <;> rfl]
@[simp] theorem State.msix_links (port vec : Nat) : (s.msix port vec).links = s.links := by simp only [State.msix]; split <;> [rfl; split <;> rfl]
@[simp] theorem State.msix_fence (port vec : Nat) : (s.msix port vec).fence = s.fence := by simp only [State.msix]; split <;> [rfl; split <;> rfl]
@[simp] theorem State.msix_boot (port vec : Nat) : (s.msix port vec).boot = s.boot := by simp only [State.msix]; split <;> [rfl; split <;> rfl]
@[simp] theorem State.msix_fab (port vec : Nat) : (s.msix port vec).fab = s.fab := by simp only [State.msix]; split <;> [rfl; split <;> rfl]
@[simp] theorem State.msix_coll (port vec : Nat) : (s.msix port vec).coll = s.coll := by simp only [State.msix]; split <;> [rfl; split <;> rfl]
@[simp] theorem State.msix_grn (port vec : Nat) : (s.msix port vec).grn = s.grn := by simp only [State.msix]; split <;> [rfl; split <;> rfl]
@[simp] theorem State.msix_stb (port vec : Nat) : (s.msix port vec).stb = s.stb := by simp only [State.msix]; split <;> [rfl; split <;> rfl]
@[simp] theorem State.msix_pwr (port vec : Nat) : (s.msix port vec).pwr = s.pwr := by simp only [State.msix]; split <;> [rfl; split <;> rfl]
@[simp] theorem State.msix_sec (port vec : Nat) : (s.msix port vec).sec = s.sec := by simp only [State.msix]; split <;> [rfl; split <;> rfl]
@[simp] theorem State.msix_seed (port vec : Nat) : (s.msix port vec).seed = s.seed := by simp only [State.msix]; split <;> [rfl; split <;> rfl]
@[simp] theorem State.msix_dras (port vec : Nat) : (s.msix port vec).dras = s.dras := by simp only [State.msix]; split <;> [rfl; split <;> rfl]
@[simp] theorem State.msix_tap (port vec : Nat) : (s.msix port vec).tap = s.tap := by simp only [State.msix]; split <;> [rfl; split <;> rfl]

@[simp] theorem State.setFrame_pending (f : Frame) : (s.setFrame f).pending = s.pending := rfl
@[simp] theorem State.setFrame_steppingB (f : Frame) : (s.setFrame f).steppingB = s.steppingB := rfl
@[simp] theorem State.setFrame_wall (f : Frame) : (s.setFrame f).wall = s.wall := rfl
@[simp] theorem State.setFrame_free (f : Frame) : (s.setFrame f).free = s.free := rfl
@[simp] theorem State.setFrame_regs (f : Frame) : (s.setFrame f).regs = s.regs := rfl
@[simp] theorem State.setFrame_latch (f : Frame) : (s.setFrame f).latch = s.latch := rfl
@[simp] theorem State.setFrame_captured (f : Frame) : (s.setFrame f).captured = s.captured := rfl
@[simp] theorem State.setFrame_mem (f : Frame) : (s.setFrame f).mem = s.mem := rfl
@[simp] theorem State.setFrame_fog (f : Frame) : (s.setFrame f).fog = s.fog := rfl
@[simp] theorem State.setFrame_meets (f : Frame) : (s.setFrame f).meets = s.meets := rfl
@[simp] theorem State.setFrame_resp (f : Frame) : (s.setFrame f).resp = s.resp := rfl
@[simp] theorem State.setFrame_out (f : Frame) : (s.setFrame f).out = s.out := rfl
@[simp] theorem State.setFrame_host (f : Frame) : (s.setFrame f).host = s.host := rfl
@[simp] theorem State.setFrame_slots (f : Frame) : (s.setFrame f).slots = s.slots := rfl
@[simp] theorem State.setFrame_running (f : Frame) : (s.setFrame f).running = s.running := rfl
@[simp] theorem State.setFrame_traffic (f : Frame) : (s.setFrame f).traffic = s.traffic := rfl
@[simp] theorem State.setFrame_records (f : Frame) : (s.setFrame f).records = s.records := rfl
@[simp] theorem State.setFrame_stk (f : Frame) : (s.setFrame f).stk = s.stk := rfl
@[simp] theorem State.setFrame_rep (f : Frame) : (s.setFrame f).rep = s.rep := rfl
@[simp] theorem State.setFrame_links (f : Frame) : (s.setFrame f).links = s.links := rfl
@[simp] theorem State.setFrame_fence (f : Frame) : (s.setFrame f).fence = s.fence := rfl
@[simp] theorem State.setFrame_boot (f : Frame) : (s.setFrame f).boot = s.boot := rfl
@[simp] theorem State.setFrame_fab (f : Frame) : (s.setFrame f).fab = s.fab := rfl
@[simp] theorem State.setFrame_coll (f : Frame) : (s.setFrame f).coll = s.coll := rfl
@[simp] theorem State.setFrame_grn (f : Frame) : (s.setFrame f).grn = s.grn := rfl
@[simp] theorem State.setFrame_stb (f : Frame) : (s.setFrame f).stb = s.stb := rfl
@[simp] theorem State.setFrame_pwr (f : Frame) : (s.setFrame f).pwr = s.pwr := rfl
@[simp] theorem State.setFrame_sec (f : Frame) : (s.setFrame f).sec = s.sec := rfl
@[simp] theorem State.setFrame_seed (f : Frame) : (s.setFrame f).seed = s.seed := rfl
@[simp] theorem State.setFrame_dras (f : Frame) : (s.setFrame f).dras = s.dras := rfl
@[simp] theorem State.setFrame_tap (f : Frame) : (s.setFrame f).tap = s.tap := rfl

@[simp] theorem State.setFleet_pending (f : Fleet) : (s.setFleet f).pending = s.pending := rfl
@[simp] theorem State.setFleet_steppingB (f : Fleet) : (s.setFleet f).steppingB = s.steppingB := rfl
@[simp] theorem State.setFleet_wall (f : Fleet) : (s.setFleet f).wall = s.wall := rfl
@[simp] theorem State.setFleet_free (f : Fleet) : (s.setFleet f).free = s.free := rfl
@[simp] theorem State.setFleet_regs (f : Fleet) : (s.setFleet f).regs = s.regs := rfl
@[simp] theorem State.setFleet_latch (f : Fleet) : (s.setFleet f).latch = s.latch := rfl
@[simp] theorem State.setFleet_captured (f : Fleet) : (s.setFleet f).captured = s.captured := rfl
@[simp] theorem State.setFleet_mem (f : Fleet) : (s.setFleet f).mem = s.mem := rfl
@[simp] theorem State.setFleet_fog (f : Fleet) : (s.setFleet f).fog = s.fog := rfl
@[simp] theorem State.setFleet_meets (f : Fleet) : (s.setFleet f).meets = s.meets := rfl
@[simp] theorem State.setFleet_resp (f : Fleet) : (s.setFleet f).resp = s.resp := rfl
@[simp] theorem State.setFleet_out (f : Fleet) : (s.setFleet f).out = s.out := rfl
@[simp] theorem State.setFleet_host (f : Fleet) : (s.setFleet f).host = s.host := rfl
@[simp] theorem State.setFleet_slots (f : Fleet) : (s.setFleet f).slots = s.slots := rfl
@[simp] theorem State.setFleet_running (f : Fleet) : (s.setFleet f).running = s.running := rfl
@[simp] theorem State.setFleet_traffic (f : Fleet) : (s.setFleet f).traffic = s.traffic := rfl
@[simp] theorem State.setFleet_records (f : Fleet) : (s.setFleet f).records = s.records := rfl
@[simp] theorem State.setFleet_stk (f : Fleet) : (s.setFleet f).stk = s.stk := rfl
@[simp] theorem State.setFleet_rep (f : Fleet) : (s.setFleet f).rep = s.rep := rfl
@[simp] theorem State.setFleet_links (f : Fleet) : (s.setFleet f).links = s.links := rfl
@[simp] theorem State.setFleet_fence (f : Fleet) : (s.setFleet f).fence = s.fence := rfl
@[simp] theorem State.setFleet_boot (f : Fleet) : (s.setFleet f).boot = s.boot := rfl
@[simp] theorem State.setFleet_fab (f : Fleet) : (s.setFleet f).fab = s.fab := rfl
@[simp] theorem State.setFleet_coll (f : Fleet) : (s.setFleet f).coll = s.coll := rfl
@[simp] theorem State.setFleet_grn (f : Fleet) : (s.setFleet f).grn = s.grn := rfl
@[simp] theorem State.setFleet_stb (f : Fleet) : (s.setFleet f).stb = s.stb := rfl
@[simp] theorem State.setFleet_pwr (f : Fleet) : (s.setFleet f).pwr = s.pwr := rfl
@[simp] theorem State.setFleet_sec (f : Fleet) : (s.setFleet f).sec = s.sec := rfl
@[simp] theorem State.setFleet_seed (f : Fleet) : (s.setFleet f).seed = s.seed := rfl
@[simp] theorem State.setFleet_dras (f : Fleet) : (s.setFleet f).dras = s.dras := rfl
@[simp] theorem State.setFleet_tap (f : Fleet) : (s.setFleet f).tap = s.tap := rfl

@[simp] theorem State.setTdesc_pending (die logical g v : Nat) : (s.setTdesc die logical g v).pending = s.pending := rfl
@[simp] theorem State.setTdesc_steppingB (die logical g v : Nat) : (s.setTdesc die logical g v).steppingB = s.steppingB := rfl
@[simp] theorem State.setTdesc_wall (die logical g v : Nat) : (s.setTdesc die logical g v).wall = s.wall := rfl
@[simp] theorem State.setTdesc_free (die logical g v : Nat) : (s.setTdesc die logical g v).free = s.free := rfl
@[simp] theorem State.setTdesc_regs (die logical g v : Nat) : (s.setTdesc die logical g v).regs = s.regs := rfl
@[simp] theorem State.setTdesc_latch (die logical g v : Nat) : (s.setTdesc die logical g v).latch = s.latch := rfl
@[simp] theorem State.setTdesc_captured (die logical g v : Nat) : (s.setTdesc die logical g v).captured = s.captured := rfl
@[simp] theorem State.setTdesc_mem (die logical g v : Nat) : (s.setTdesc die logical g v).mem = s.mem := rfl
@[simp] theorem State.setTdesc_fog (die logical g v : Nat) : (s.setTdesc die logical g v).fog = s.fog := rfl
@[simp] theorem State.setTdesc_meets (die logical g v : Nat) : (s.setTdesc die logical g v).meets = s.meets := rfl
@[simp] theorem State.setTdesc_resp (die logical g v : Nat) : (s.setTdesc die logical g v).resp = s.resp := rfl
@[simp] theorem State.setTdesc_out (die logical g v : Nat) : (s.setTdesc die logical g v).out = s.out := rfl
@[simp] theorem State.setTdesc_host (die logical g v : Nat) : (s.setTdesc die logical g v).host = s.host := rfl
@[simp] theorem State.setTdesc_slots (die logical g v : Nat) : (s.setTdesc die logical g v).slots = s.slots := rfl
@[simp] theorem State.setTdesc_running (die logical g v : Nat) : (s.setTdesc die logical g v).running = s.running := rfl
@[simp] theorem State.setTdesc_traffic (die logical g v : Nat) : (s.setTdesc die logical g v).traffic = s.traffic := rfl
@[simp] theorem State.setTdesc_records (die logical g v : Nat) : (s.setTdesc die logical g v).records = s.records := rfl
@[simp] theorem State.setTdesc_stk (die logical g v : Nat) : (s.setTdesc die logical g v).stk = s.stk := rfl
@[simp] theorem State.setTdesc_rep (die logical g v : Nat) : (s.setTdesc die logical g v).rep = s.rep := rfl
@[simp] theorem State.setTdesc_links (die logical g v : Nat) : (s.setTdesc die logical g v).links = s.links := rfl
@[simp] theorem State.setTdesc_fence (die logical g v : Nat) : (s.setTdesc die logical g v).fence = s.fence := rfl
@[simp] theorem State.setTdesc_boot (die logical g v : Nat) : (s.setTdesc die logical g v).boot = s.boot := rfl
@[simp] theorem State.setTdesc_fab (die logical g v : Nat) : (s.setTdesc die logical g v).fab = s.fab := rfl
@[simp] theorem State.setTdesc_coll (die logical g v : Nat) : (s.setTdesc die logical g v).coll = s.coll := rfl
@[simp] theorem State.setTdesc_grn (die logical g v : Nat) : (s.setTdesc die logical g v).grn = s.grn := rfl
@[simp] theorem State.setTdesc_stb (die logical g v : Nat) : (s.setTdesc die logical g v).stb = s.stb := rfl
@[simp] theorem State.setTdesc_pwr (die logical g v : Nat) : (s.setTdesc die logical g v).pwr = s.pwr := rfl
@[simp] theorem State.setTdesc_sec (die logical g v : Nat) : (s.setTdesc die logical g v).sec = s.sec := rfl
@[simp] theorem State.setTdesc_seed (die logical g v : Nat) : (s.setTdesc die logical g v).seed = s.seed := rfl
@[simp] theorem State.setTdesc_dras (die logical g v : Nat) : (s.setTdesc die logical g v).dras = s.dras := rfl
@[simp] theorem State.setTdesc_tap (die logical g v : Nat) : (s.setTdesc die logical g v).tap = s.tap := rfl

@[simp] theorem State.later_pending (c : Nat) (e : Effect) : (s.later c e).pending = s.pending := rfl
@[simp] theorem State.later_steppingB (c : Nat) (e : Effect) : (s.later c e).steppingB = s.steppingB := rfl
@[simp] theorem State.later_wall (c : Nat) (e : Effect) : (s.later c e).wall = s.wall := rfl
@[simp] theorem State.later_free (c : Nat) (e : Effect) : (s.later c e).free = s.free := rfl
@[simp] theorem State.later_regs (c : Nat) (e : Effect) : (s.later c e).regs = s.regs := rfl
@[simp] theorem State.later_latch (c : Nat) (e : Effect) : (s.later c e).latch = s.latch := rfl
@[simp] theorem State.later_captured (c : Nat) (e : Effect) : (s.later c e).captured = s.captured := rfl
@[simp] theorem State.later_mem (c : Nat) (e : Effect) : (s.later c e).mem = s.mem := rfl
@[simp] theorem State.later_fog (c : Nat) (e : Effect) : (s.later c e).fog = s.fog := rfl
@[simp] theorem State.later_meets (c : Nat) (e : Effect) : (s.later c e).meets = s.meets := rfl
@[simp] theorem State.later_resp (c : Nat) (e : Effect) : (s.later c e).resp = s.resp := rfl
@[simp] theorem State.later_out (c : Nat) (e : Effect) : (s.later c e).out = s.out := rfl
@[simp] theorem State.later_host (c : Nat) (e : Effect) : (s.later c e).host = s.host := rfl
@[simp] theorem State.later_slots (c : Nat) (e : Effect) : (s.later c e).slots = s.slots := rfl
@[simp] theorem State.later_running (c : Nat) (e : Effect) : (s.later c e).running = s.running := rfl
@[simp] theorem State.later_traffic (c : Nat) (e : Effect) : (s.later c e).traffic = s.traffic := rfl
@[simp] theorem State.later_records (c : Nat) (e : Effect) : (s.later c e).records = s.records := rfl
@[simp] theorem State.later_stk (c : Nat) (e : Effect) : (s.later c e).stk = s.stk := rfl
@[simp] theorem State.later_rep (c : Nat) (e : Effect) : (s.later c e).rep = s.rep := rfl
@[simp] theorem State.later_links (c : Nat) (e : Effect) : (s.later c e).links = s.links := rfl
@[simp] theorem State.later_fence (c : Nat) (e : Effect) : (s.later c e).fence = s.fence := rfl
@[simp] theorem State.later_boot (c : Nat) (e : Effect) : (s.later c e).boot = s.boot := rfl
@[simp] theorem State.later_fab (c : Nat) (e : Effect) : (s.later c e).fab = s.fab := rfl
@[simp] theorem State.later_coll (c : Nat) (e : Effect) : (s.later c e).coll = s.coll := rfl
@[simp] theorem State.later_grn (c : Nat) (e : Effect) : (s.later c e).grn = s.grn := rfl
@[simp] theorem State.later_stb (c : Nat) (e : Effect) : (s.later c e).stb = s.stb := rfl
@[simp] theorem State.later_pwr (c : Nat) (e : Effect) : (s.later c e).pwr = s.pwr := rfl
@[simp] theorem State.later_sec (c : Nat) (e : Effect) : (s.later c e).sec = s.sec := rfl
@[simp] theorem State.later_seed (c : Nat) (e : Effect) : (s.later c e).seed = s.seed := rfl
@[simp] theorem State.later_dras (c : Nat) (e : Effect) : (s.later c e).dras = s.dras := rfl
@[simp] theorem State.later_tap (c : Nat) (e : Effect) : (s.later c e).tap = s.tap := rfl

@[simp] theorem State.countTo_pending (c : Nat) : (s.countTo c).pending = s.pending := rfl
@[simp] theorem State.countTo_steppingB (c : Nat) : (s.countTo c).steppingB = s.steppingB := rfl
@[simp] theorem State.countTo_free (c : Nat) : (s.countTo c).free = s.free := rfl
@[simp] theorem State.countTo_regs (c : Nat) : (s.countTo c).regs = s.regs := rfl
@[simp] theorem State.countTo_latch (c : Nat) : (s.countTo c).latch = s.latch := rfl
@[simp] theorem State.countTo_captured (c : Nat) : (s.countTo c).captured = s.captured := rfl
@[simp] theorem State.countTo_mem (c : Nat) : (s.countTo c).mem = s.mem := rfl
@[simp] theorem State.countTo_fog (c : Nat) : (s.countTo c).fog = s.fog := rfl
@[simp] theorem State.countTo_meets (c : Nat) : (s.countTo c).meets = s.meets := rfl
@[simp] theorem State.countTo_resp (c : Nat) : (s.countTo c).resp = s.resp := rfl
@[simp] theorem State.countTo_out (c : Nat) : (s.countTo c).out = s.out := rfl
@[simp] theorem State.countTo_host (c : Nat) : (s.countTo c).host = s.host := rfl
@[simp] theorem State.countTo_slots (c : Nat) : (s.countTo c).slots = s.slots := rfl
@[simp] theorem State.countTo_running (c : Nat) : (s.countTo c).running = s.running := rfl
@[simp] theorem State.countTo_traffic (c : Nat) : (s.countTo c).traffic = s.traffic := rfl
@[simp] theorem State.countTo_records (c : Nat) : (s.countTo c).records = s.records := rfl
@[simp] theorem State.countTo_stk (c : Nat) : (s.countTo c).stk = s.stk := rfl
@[simp] theorem State.countTo_rep (c : Nat) : (s.countTo c).rep = s.rep := rfl
@[simp] theorem State.countTo_links (c : Nat) : (s.countTo c).links = s.links := rfl
@[simp] theorem State.countTo_fence (c : Nat) : (s.countTo c).fence = s.fence := rfl
@[simp] theorem State.countTo_boot (c : Nat) : (s.countTo c).boot = s.boot := rfl
@[simp] theorem State.countTo_fab (c : Nat) : (s.countTo c).fab = s.fab := rfl
@[simp] theorem State.countTo_coll (c : Nat) : (s.countTo c).coll = s.coll := rfl
@[simp] theorem State.countTo_grn (c : Nat) : (s.countTo c).grn = s.grn := rfl
@[simp] theorem State.countTo_stb (c : Nat) : (s.countTo c).stb = s.stb := rfl
@[simp] theorem State.countTo_pwr (c : Nat) : (s.countTo c).pwr = s.pwr := rfl
@[simp] theorem State.countTo_sec (c : Nat) : (s.countTo c).sec = s.sec := rfl
@[simp] theorem State.countTo_seed (c : Nat) : (s.countTo c).seed = s.seed := rfl
@[simp] theorem State.countTo_dras (c : Nat) : (s.countTo c).dras = s.dras := rfl
@[simp] theorem State.countTo_tap (c : Nat) : (s.countTo c).tap = s.tap := rfl

@[simp] theorem State.setHost_pending (h : HostSide) : (s.setHost h).pending = s.pending := rfl
@[simp] theorem State.setHost_steppingB (h : HostSide) : (s.setHost h).steppingB = s.steppingB := rfl
@[simp] theorem State.setHost_wall (h : HostSide) : (s.setHost h).wall = s.wall := rfl
@[simp] theorem State.setHost_free (h : HostSide) : (s.setHost h).free = s.free := rfl
@[simp] theorem State.setHost_regs (h : HostSide) : (s.setHost h).regs = s.regs := rfl
@[simp] theorem State.setHost_latch (h : HostSide) : (s.setHost h).latch = s.latch := rfl
@[simp] theorem State.setHost_captured (h : HostSide) : (s.setHost h).captured = s.captured := rfl
@[simp] theorem State.setHost_mem (h : HostSide) : (s.setHost h).mem = s.mem := rfl
@[simp] theorem State.setHost_fog (h : HostSide) : (s.setHost h).fog = s.fog := rfl
@[simp] theorem State.setHost_meets (h : HostSide) : (s.setHost h).meets = s.meets := rfl
@[simp] theorem State.setHost_resp (h : HostSide) : (s.setHost h).resp = s.resp := rfl
@[simp] theorem State.setHost_out (h : HostSide) : (s.setHost h).out = s.out := rfl
@[simp] theorem State.setHost_eng (h : HostSide) : (s.setHost h).eng = s.eng := rfl
@[simp] theorem State.setHost_slots (h : HostSide) : (s.setHost h).slots = s.slots := rfl
@[simp] theorem State.setHost_running (h : HostSide) : (s.setHost h).running = s.running := rfl
@[simp] theorem State.setHost_traffic (h : HostSide) : (s.setHost h).traffic = s.traffic := rfl
@[simp] theorem State.setHost_records (h : HostSide) : (s.setHost h).records = s.records := rfl
@[simp] theorem State.setHost_stk (h : HostSide) : (s.setHost h).stk = s.stk := rfl
@[simp] theorem State.setHost_rep (h : HostSide) : (s.setHost h).rep = s.rep := rfl
@[simp] theorem State.setHost_links (h : HostSide) : (s.setHost h).links = s.links := rfl
@[simp] theorem State.setHost_fence (h : HostSide) : (s.setHost h).fence = s.fence := rfl
@[simp] theorem State.setHost_boot (h : HostSide) : (s.setHost h).boot = s.boot := rfl
@[simp] theorem State.setHost_fab (h : HostSide) : (s.setHost h).fab = s.fab := rfl
@[simp] theorem State.setHost_coll (h : HostSide) : (s.setHost h).coll = s.coll := rfl
@[simp] theorem State.setHost_grn (h : HostSide) : (s.setHost h).grn = s.grn := rfl
@[simp] theorem State.setHost_stb (h : HostSide) : (s.setHost h).stb = s.stb := rfl
@[simp] theorem State.setHost_pwr (h : HostSide) : (s.setHost h).pwr = s.pwr := rfl
@[simp] theorem State.setHost_sec (h : HostSide) : (s.setHost h).sec = s.sec := rfl
@[simp] theorem State.setHost_seed (h : HostSide) : (s.setHost h).seed = s.seed := rfl
@[simp] theorem State.setHost_dras (h : HostSide) : (s.setHost h).dras = s.dras := rfl
@[simp] theorem State.setHost_tap (h : HostSide) : (s.setHost h).tap = s.tap := rfl

@[simp] theorem State.setRing_pending (port ring : Nat) (r : Ring) : (s.setRing port ring r).pending = s.pending := rfl
@[simp] theorem State.setRing_steppingB (port ring : Nat) (r : Ring) : (s.setRing port ring r).steppingB = s.steppingB := rfl
@[simp] theorem State.setRing_wall (port ring : Nat) (r : Ring) : (s.setRing port ring r).wall = s.wall := rfl
@[simp] theorem State.setRing_free (port ring : Nat) (r : Ring) : (s.setRing port ring r).free = s.free := rfl
@[simp] theorem State.setRing_regs (port ring : Nat) (r : Ring) : (s.setRing port ring r).regs = s.regs := rfl
@[simp] theorem State.setRing_latch (port ring : Nat) (r : Ring) : (s.setRing port ring r).latch = s.latch := rfl
@[simp] theorem State.setRing_captured (port ring : Nat) (r : Ring) : (s.setRing port ring r).captured = s.captured := rfl
@[simp] theorem State.setRing_mem (port ring : Nat) (r : Ring) : (s.setRing port ring r).mem = s.mem := rfl
@[simp] theorem State.setRing_fog (port ring : Nat) (r : Ring) : (s.setRing port ring r).fog = s.fog := rfl
@[simp] theorem State.setRing_meets (port ring : Nat) (r : Ring) : (s.setRing port ring r).meets = s.meets := rfl
@[simp] theorem State.setRing_resp (port ring : Nat) (r : Ring) : (s.setRing port ring r).resp = s.resp := rfl
@[simp] theorem State.setRing_out (port ring : Nat) (r : Ring) : (s.setRing port ring r).out = s.out := rfl
@[simp] theorem State.setRing_eng (port ring : Nat) (r : Ring) : (s.setRing port ring r).eng = s.eng := rfl
@[simp] theorem State.setRing_slots (port ring : Nat) (r : Ring) : (s.setRing port ring r).slots = s.slots := rfl
@[simp] theorem State.setRing_running (port ring : Nat) (r : Ring) : (s.setRing port ring r).running = s.running := rfl
@[simp] theorem State.setRing_traffic (port ring : Nat) (r : Ring) : (s.setRing port ring r).traffic = s.traffic := rfl
@[simp] theorem State.setRing_records (port ring : Nat) (r : Ring) : (s.setRing port ring r).records = s.records := rfl
@[simp] theorem State.setRing_stk (port ring : Nat) (r : Ring) : (s.setRing port ring r).stk = s.stk := rfl
@[simp] theorem State.setRing_rep (port ring : Nat) (r : Ring) : (s.setRing port ring r).rep = s.rep := rfl
@[simp] theorem State.setRing_links (port ring : Nat) (r : Ring) : (s.setRing port ring r).links = s.links := rfl
@[simp] theorem State.setRing_fence (port ring : Nat) (r : Ring) : (s.setRing port ring r).fence = s.fence := rfl
@[simp] theorem State.setRing_boot (port ring : Nat) (r : Ring) : (s.setRing port ring r).boot = s.boot := rfl
@[simp] theorem State.setRing_fab (port ring : Nat) (r : Ring) : (s.setRing port ring r).fab = s.fab := rfl
@[simp] theorem State.setRing_coll (port ring : Nat) (r : Ring) : (s.setRing port ring r).coll = s.coll := rfl
@[simp] theorem State.setRing_grn (port ring : Nat) (r : Ring) : (s.setRing port ring r).grn = s.grn := rfl
@[simp] theorem State.setRing_stb (port ring : Nat) (r : Ring) : (s.setRing port ring r).stb = s.stb := rfl
@[simp] theorem State.setRing_pwr (port ring : Nat) (r : Ring) : (s.setRing port ring r).pwr = s.pwr := rfl
@[simp] theorem State.setRing_sec (port ring : Nat) (r : Ring) : (s.setRing port ring r).sec = s.sec := rfl
@[simp] theorem State.setRing_seed (port ring : Nat) (r : Ring) : (s.setRing port ring r).seed = s.seed := rfl
@[simp] theorem State.setRing_dras (port ring : Nat) (r : Ring) : (s.setRing port ring r).dras = s.dras := rfl
@[simp] theorem State.setRing_tap (port ring : Nat) (r : Ring) : (s.setRing port ring r).tap = s.tap := rfl

@[simp] theorem State.setStack_pending (n : Nat) (t : Stack) : (s.setStack n t).pending = s.pending := rfl
@[simp] theorem State.setStack_steppingB (n : Nat) (t : Stack) : (s.setStack n t).steppingB = s.steppingB := rfl
@[simp] theorem State.setStack_wall (n : Nat) (t : Stack) : (s.setStack n t).wall = s.wall := rfl
@[simp] theorem State.setStack_free (n : Nat) (t : Stack) : (s.setStack n t).free = s.free := rfl
@[simp] theorem State.setStack_regs (n : Nat) (t : Stack) : (s.setStack n t).regs = s.regs := rfl
@[simp] theorem State.setStack_latch (n : Nat) (t : Stack) : (s.setStack n t).latch = s.latch := rfl
@[simp] theorem State.setStack_captured (n : Nat) (t : Stack) : (s.setStack n t).captured = s.captured := rfl
@[simp] theorem State.setStack_mem (n : Nat) (t : Stack) : (s.setStack n t).mem = s.mem := rfl
@[simp] theorem State.setStack_fog (n : Nat) (t : Stack) : (s.setStack n t).fog = s.fog := rfl
@[simp] theorem State.setStack_meets (n : Nat) (t : Stack) : (s.setStack n t).meets = s.meets := rfl
@[simp] theorem State.setStack_resp (n : Nat) (t : Stack) : (s.setStack n t).resp = s.resp := rfl
@[simp] theorem State.setStack_out (n : Nat) (t : Stack) : (s.setStack n t).out = s.out := rfl
@[simp] theorem State.setStack_eng (n : Nat) (t : Stack) : (s.setStack n t).eng = s.eng := rfl
@[simp] theorem State.setStack_host (n : Nat) (t : Stack) : (s.setStack n t).host = s.host := rfl
@[simp] theorem State.setStack_slots (n : Nat) (t : Stack) : (s.setStack n t).slots = s.slots := rfl
@[simp] theorem State.setStack_running (n : Nat) (t : Stack) : (s.setStack n t).running = s.running := rfl
@[simp] theorem State.setStack_traffic (n : Nat) (t : Stack) : (s.setStack n t).traffic = s.traffic := rfl
@[simp] theorem State.setStack_records (n : Nat) (t : Stack) : (s.setStack n t).records = s.records := rfl
@[simp] theorem State.setStack_rep (n : Nat) (t : Stack) : (s.setStack n t).rep = s.rep := rfl
@[simp] theorem State.setStack_links (n : Nat) (t : Stack) : (s.setStack n t).links = s.links := rfl
@[simp] theorem State.setStack_fence (n : Nat) (t : Stack) : (s.setStack n t).fence = s.fence := rfl
@[simp] theorem State.setStack_boot (n : Nat) (t : Stack) : (s.setStack n t).boot = s.boot := rfl
@[simp] theorem State.setStack_fab (n : Nat) (t : Stack) : (s.setStack n t).fab = s.fab := rfl
@[simp] theorem State.setStack_coll (n : Nat) (t : Stack) : (s.setStack n t).coll = s.coll := rfl
@[simp] theorem State.setStack_grn (n : Nat) (t : Stack) : (s.setStack n t).grn = s.grn := rfl
@[simp] theorem State.setStack_stb (n : Nat) (t : Stack) : (s.setStack n t).stb = s.stb := rfl
@[simp] theorem State.setStack_pwr (n : Nat) (t : Stack) : (s.setStack n t).pwr = s.pwr := rfl
@[simp] theorem State.setStack_sec (n : Nat) (t : Stack) : (s.setStack n t).sec = s.sec := rfl
@[simp] theorem State.setStack_seed (n : Nat) (t : Stack) : (s.setStack n t).seed = s.seed := rfl
@[simp] theorem State.setStack_dras (n : Nat) (t : Stack) : (s.setStack n t).dras = s.dras := rfl
@[simp] theorem State.setStack_tap (n : Nat) (t : Stack) : (s.setStack n t).tap = s.tap := rfl

@[simp] theorem State.setLink_pending (n : Nat) (l : Link) : (s.setLink n l).pending = s.pending := rfl
@[simp] theorem State.setLink_steppingB (n : Nat) (l : Link) : (s.setLink n l).steppingB = s.steppingB := rfl
@[simp] theorem State.setLink_wall (n : Nat) (l : Link) : (s.setLink n l).wall = s.wall := rfl
@[simp] theorem State.setLink_free (n : Nat) (l : Link) : (s.setLink n l).free = s.free := rfl
@[simp] theorem State.setLink_regs (n : Nat) (l : Link) : (s.setLink n l).regs = s.regs := rfl
@[simp] theorem State.setLink_latch (n : Nat) (l : Link) : (s.setLink n l).latch = s.latch := rfl
@[simp] theorem State.setLink_captured (n : Nat) (l : Link) : (s.setLink n l).captured = s.captured := rfl
@[simp] theorem State.setLink_mem (n : Nat) (l : Link) : (s.setLink n l).mem = s.mem := rfl
@[simp] theorem State.setLink_fog (n : Nat) (l : Link) : (s.setLink n l).fog = s.fog := rfl
@[simp] theorem State.setLink_meets (n : Nat) (l : Link) : (s.setLink n l).meets = s.meets := rfl
@[simp] theorem State.setLink_resp (n : Nat) (l : Link) : (s.setLink n l).resp = s.resp := rfl
@[simp] theorem State.setLink_out (n : Nat) (l : Link) : (s.setLink n l).out = s.out := rfl
@[simp] theorem State.setLink_eng (n : Nat) (l : Link) : (s.setLink n l).eng = s.eng := rfl
@[simp] theorem State.setLink_host (n : Nat) (l : Link) : (s.setLink n l).host = s.host := rfl
@[simp] theorem State.setLink_slots (n : Nat) (l : Link) : (s.setLink n l).slots = s.slots := rfl
@[simp] theorem State.setLink_running (n : Nat) (l : Link) : (s.setLink n l).running = s.running := rfl
@[simp] theorem State.setLink_traffic (n : Nat) (l : Link) : (s.setLink n l).traffic = s.traffic := rfl
@[simp] theorem State.setLink_records (n : Nat) (l : Link) : (s.setLink n l).records = s.records := rfl
@[simp] theorem State.setLink_stk (n : Nat) (l : Link) : (s.setLink n l).stk = s.stk := rfl
@[simp] theorem State.setLink_rep (n : Nat) (l : Link) : (s.setLink n l).rep = s.rep := rfl
@[simp] theorem State.setLink_fence (n : Nat) (l : Link) : (s.setLink n l).fence = s.fence := rfl
@[simp] theorem State.setLink_boot (n : Nat) (l : Link) : (s.setLink n l).boot = s.boot := rfl
@[simp] theorem State.setLink_fab (n : Nat) (l : Link) : (s.setLink n l).fab = s.fab := rfl
@[simp] theorem State.setLink_coll (n : Nat) (l : Link) : (s.setLink n l).coll = s.coll := rfl
@[simp] theorem State.setLink_grn (n : Nat) (l : Link) : (s.setLink n l).grn = s.grn := rfl
@[simp] theorem State.setLink_stb (n : Nat) (l : Link) : (s.setLink n l).stb = s.stb := rfl
@[simp] theorem State.setLink_pwr (n : Nat) (l : Link) : (s.setLink n l).pwr = s.pwr := rfl
@[simp] theorem State.setLink_sec (n : Nat) (l : Link) : (s.setLink n l).sec = s.sec := rfl
@[simp] theorem State.setLink_seed (n : Nat) (l : Link) : (s.setLink n l).seed = s.seed := rfl
@[simp] theorem State.setLink_dras (n : Nat) (l : Link) : (s.setLink n l).dras = s.dras := rfl
@[simp] theorem State.setLink_tap (n : Nat) (l : Link) : (s.setLink n l).tap = s.tap := rfl

@[simp] theorem State.setPhase_pending (p : Phase) : (s.setPhase p).pending = s.pending := rfl
@[simp] theorem State.setPhase_steppingB (p : Phase) : (s.setPhase p).steppingB = s.steppingB := rfl
@[simp] theorem State.setPhase_wall (p : Phase) : (s.setPhase p).wall = s.wall := rfl
@[simp] theorem State.setPhase_free (p : Phase) : (s.setPhase p).free = s.free := rfl
@[simp] theorem State.setPhase_regs (p : Phase) : (s.setPhase p).regs = s.regs := rfl
@[simp] theorem State.setPhase_latch (p : Phase) : (s.setPhase p).latch = s.latch := rfl
@[simp] theorem State.setPhase_captured (p : Phase) : (s.setPhase p).captured = s.captured := rfl
@[simp] theorem State.setPhase_mem (p : Phase) : (s.setPhase p).mem = s.mem := rfl
@[simp] theorem State.setPhase_fog (p : Phase) : (s.setPhase p).fog = s.fog := rfl
@[simp] theorem State.setPhase_meets (p : Phase) : (s.setPhase p).meets = s.meets := rfl
@[simp] theorem State.setPhase_resp (p : Phase) : (s.setPhase p).resp = s.resp := rfl
@[simp] theorem State.setPhase_out (p : Phase) : (s.setPhase p).out = s.out := rfl
@[simp] theorem State.setPhase_eng (p : Phase) : (s.setPhase p).eng = s.eng := rfl
@[simp] theorem State.setPhase_host (p : Phase) : (s.setPhase p).host = s.host := rfl
@[simp] theorem State.setPhase_slots (p : Phase) : (s.setPhase p).slots = s.slots := rfl
@[simp] theorem State.setPhase_running (p : Phase) : (s.setPhase p).running = s.running := rfl
@[simp] theorem State.setPhase_traffic (p : Phase) : (s.setPhase p).traffic = s.traffic := rfl
@[simp] theorem State.setPhase_records (p : Phase) : (s.setPhase p).records = s.records := rfl
@[simp] theorem State.setPhase_stk (p : Phase) : (s.setPhase p).stk = s.stk := rfl
@[simp] theorem State.setPhase_rep (p : Phase) : (s.setPhase p).rep = s.rep := rfl
@[simp] theorem State.setPhase_links (p : Phase) : (s.setPhase p).links = s.links := rfl
@[simp] theorem State.setPhase_fence (p : Phase) : (s.setPhase p).fence = s.fence := rfl
@[simp] theorem State.setPhase_fab (p : Phase) : (s.setPhase p).fab = s.fab := rfl
@[simp] theorem State.setPhase_coll (p : Phase) : (s.setPhase p).coll = s.coll := rfl
@[simp] theorem State.setPhase_grn (p : Phase) : (s.setPhase p).grn = s.grn := rfl
@[simp] theorem State.setPhase_stb (p : Phase) : (s.setPhase p).stb = s.stb := rfl
@[simp] theorem State.setPhase_pwr (p : Phase) : (s.setPhase p).pwr = s.pwr := rfl
@[simp] theorem State.setPhase_sec (p : Phase) : (s.setPhase p).sec = s.sec := rfl
@[simp] theorem State.setPhase_seed (p : Phase) : (s.setPhase p).seed = s.seed := rfl
@[simp] theorem State.setPhase_dras (p : Phase) : (s.setPhase p).dras = s.dras := rfl
@[simp] theorem State.setPhase_tap (p : Phase) : (s.setPhase p).tap = s.tap := rfl

@[simp] theorem State.setFab_pending (f : Fabric) : (s.setFab f).pending = s.pending := rfl
@[simp] theorem State.setFab_steppingB (f : Fabric) : (s.setFab f).steppingB = s.steppingB := rfl
@[simp] theorem State.setFab_wall (f : Fabric) : (s.setFab f).wall = s.wall := rfl
@[simp] theorem State.setFab_free (f : Fabric) : (s.setFab f).free = s.free := rfl
@[simp] theorem State.setFab_regs (f : Fabric) : (s.setFab f).regs = s.regs := rfl
@[simp] theorem State.setFab_latch (f : Fabric) : (s.setFab f).latch = s.latch := rfl
@[simp] theorem State.setFab_captured (f : Fabric) : (s.setFab f).captured = s.captured := rfl
@[simp] theorem State.setFab_mem (f : Fabric) : (s.setFab f).mem = s.mem := rfl
@[simp] theorem State.setFab_fog (f : Fabric) : (s.setFab f).fog = s.fog := rfl
@[simp] theorem State.setFab_meets (f : Fabric) : (s.setFab f).meets = s.meets := rfl
@[simp] theorem State.setFab_resp (f : Fabric) : (s.setFab f).resp = s.resp := rfl
@[simp] theorem State.setFab_out (f : Fabric) : (s.setFab f).out = s.out := rfl
@[simp] theorem State.setFab_eng (f : Fabric) : (s.setFab f).eng = s.eng := rfl
@[simp] theorem State.setFab_host (f : Fabric) : (s.setFab f).host = s.host := rfl
@[simp] theorem State.setFab_slots (f : Fabric) : (s.setFab f).slots = s.slots := rfl
@[simp] theorem State.setFab_running (f : Fabric) : (s.setFab f).running = s.running := rfl
@[simp] theorem State.setFab_traffic (f : Fabric) : (s.setFab f).traffic = s.traffic := rfl
@[simp] theorem State.setFab_records (f : Fabric) : (s.setFab f).records = s.records := rfl
@[simp] theorem State.setFab_stk (f : Fabric) : (s.setFab f).stk = s.stk := rfl
@[simp] theorem State.setFab_rep (f : Fabric) : (s.setFab f).rep = s.rep := rfl
@[simp] theorem State.setFab_links (f : Fabric) : (s.setFab f).links = s.links := rfl
@[simp] theorem State.setFab_fence (f : Fabric) : (s.setFab f).fence = s.fence := rfl
@[simp] theorem State.setFab_boot (f : Fabric) : (s.setFab f).boot = s.boot := rfl
@[simp] theorem State.setFab_coll (f : Fabric) : (s.setFab f).coll = s.coll := rfl
@[simp] theorem State.setFab_grn (f : Fabric) : (s.setFab f).grn = s.grn := rfl
@[simp] theorem State.setFab_stb (f : Fabric) : (s.setFab f).stb = s.stb := rfl
@[simp] theorem State.setFab_pwr (f : Fabric) : (s.setFab f).pwr = s.pwr := rfl
@[simp] theorem State.setFab_sec (f : Fabric) : (s.setFab f).sec = s.sec := rfl
@[simp] theorem State.setFab_seed (f : Fabric) : (s.setFab f).seed = s.seed := rfl
@[simp] theorem State.setFab_dras (f : Fabric) : (s.setFab f).dras = s.dras := rfl
@[simp] theorem State.setFab_tap (f : Fabric) : (s.setFab f).tap = s.tap := rfl

@[simp] theorem State.setPort_pending (n : Nat) (x : FabPort) : (s.setPort n x).pending = s.pending := rfl
@[simp] theorem State.setPort_steppingB (n : Nat) (x : FabPort) : (s.setPort n x).steppingB = s.steppingB := rfl
@[simp] theorem State.setPort_wall (n : Nat) (x : FabPort) : (s.setPort n x).wall = s.wall := rfl
@[simp] theorem State.setPort_free (n : Nat) (x : FabPort) : (s.setPort n x).free = s.free := rfl
@[simp] theorem State.setPort_regs (n : Nat) (x : FabPort) : (s.setPort n x).regs = s.regs := rfl
@[simp] theorem State.setPort_latch (n : Nat) (x : FabPort) : (s.setPort n x).latch = s.latch := rfl
@[simp] theorem State.setPort_captured (n : Nat) (x : FabPort) : (s.setPort n x).captured = s.captured := rfl
@[simp] theorem State.setPort_mem (n : Nat) (x : FabPort) : (s.setPort n x).mem = s.mem := rfl
@[simp] theorem State.setPort_fog (n : Nat) (x : FabPort) : (s.setPort n x).fog = s.fog := rfl
@[simp] theorem State.setPort_meets (n : Nat) (x : FabPort) : (s.setPort n x).meets = s.meets := rfl
@[simp] theorem State.setPort_resp (n : Nat) (x : FabPort) : (s.setPort n x).resp = s.resp := rfl
@[simp] theorem State.setPort_out (n : Nat) (x : FabPort) : (s.setPort n x).out = s.out := rfl
@[simp] theorem State.setPort_eng (n : Nat) (x : FabPort) : (s.setPort n x).eng = s.eng := rfl
@[simp] theorem State.setPort_host (n : Nat) (x : FabPort) : (s.setPort n x).host = s.host := rfl
@[simp] theorem State.setPort_slots (n : Nat) (x : FabPort) : (s.setPort n x).slots = s.slots := rfl
@[simp] theorem State.setPort_running (n : Nat) (x : FabPort) : (s.setPort n x).running = s.running := rfl
@[simp] theorem State.setPort_traffic (n : Nat) (x : FabPort) : (s.setPort n x).traffic = s.traffic := rfl
@[simp] theorem State.setPort_records (n : Nat) (x : FabPort) : (s.setPort n x).records = s.records := rfl
@[simp] theorem State.setPort_stk (n : Nat) (x : FabPort) : (s.setPort n x).stk = s.stk := rfl
@[simp] theorem State.setPort_rep (n : Nat) (x : FabPort) : (s.setPort n x).rep = s.rep := rfl
@[simp] theorem State.setPort_links (n : Nat) (x : FabPort) : (s.setPort n x).links = s.links := rfl
@[simp] theorem State.setPort_fence (n : Nat) (x : FabPort) : (s.setPort n x).fence = s.fence := rfl
@[simp] theorem State.setPort_boot (n : Nat) (x : FabPort) : (s.setPort n x).boot = s.boot := rfl
@[simp] theorem State.setPort_coll (n : Nat) (x : FabPort) : (s.setPort n x).coll = s.coll := rfl
@[simp] theorem State.setPort_grn (n : Nat) (x : FabPort) : (s.setPort n x).grn = s.grn := rfl
@[simp] theorem State.setPort_stb (n : Nat) (x : FabPort) : (s.setPort n x).stb = s.stb := rfl
@[simp] theorem State.setPort_pwr (n : Nat) (x : FabPort) : (s.setPort n x).pwr = s.pwr := rfl
@[simp] theorem State.setPort_sec (n : Nat) (x : FabPort) : (s.setPort n x).sec = s.sec := rfl
@[simp] theorem State.setPort_seed (n : Nat) (x : FabPort) : (s.setPort n x).seed = s.seed := rfl
@[simp] theorem State.setPort_dras (n : Nat) (x : FabPort) : (s.setPort n x).dras = s.dras := rfl
@[simp] theorem State.setPort_tap (n : Nat) (x : FabPort) : (s.setPort n x).tap = s.tap := rfl

@[simp] theorem State.setSend_pending (n : Nat) (x : SendStream) : (s.setSend n x).pending = s.pending := rfl
@[simp] theorem State.setSend_steppingB (n : Nat) (x : SendStream) : (s.setSend n x).steppingB = s.steppingB := rfl
@[simp] theorem State.setSend_wall (n : Nat) (x : SendStream) : (s.setSend n x).wall = s.wall := rfl
@[simp] theorem State.setSend_free (n : Nat) (x : SendStream) : (s.setSend n x).free = s.free := rfl
@[simp] theorem State.setSend_regs (n : Nat) (x : SendStream) : (s.setSend n x).regs = s.regs := rfl
@[simp] theorem State.setSend_latch (n : Nat) (x : SendStream) : (s.setSend n x).latch = s.latch := rfl
@[simp] theorem State.setSend_captured (n : Nat) (x : SendStream) : (s.setSend n x).captured = s.captured := rfl
@[simp] theorem State.setSend_mem (n : Nat) (x : SendStream) : (s.setSend n x).mem = s.mem := rfl
@[simp] theorem State.setSend_fog (n : Nat) (x : SendStream) : (s.setSend n x).fog = s.fog := rfl
@[simp] theorem State.setSend_meets (n : Nat) (x : SendStream) : (s.setSend n x).meets = s.meets := rfl
@[simp] theorem State.setSend_resp (n : Nat) (x : SendStream) : (s.setSend n x).resp = s.resp := rfl
@[simp] theorem State.setSend_out (n : Nat) (x : SendStream) : (s.setSend n x).out = s.out := rfl
@[simp] theorem State.setSend_eng (n : Nat) (x : SendStream) : (s.setSend n x).eng = s.eng := rfl
@[simp] theorem State.setSend_host (n : Nat) (x : SendStream) : (s.setSend n x).host = s.host := rfl
@[simp] theorem State.setSend_slots (n : Nat) (x : SendStream) : (s.setSend n x).slots = s.slots := rfl
@[simp] theorem State.setSend_running (n : Nat) (x : SendStream) : (s.setSend n x).running = s.running := rfl
@[simp] theorem State.setSend_traffic (n : Nat) (x : SendStream) : (s.setSend n x).traffic = s.traffic := rfl
@[simp] theorem State.setSend_records (n : Nat) (x : SendStream) : (s.setSend n x).records = s.records := rfl
@[simp] theorem State.setSend_stk (n : Nat) (x : SendStream) : (s.setSend n x).stk = s.stk := rfl
@[simp] theorem State.setSend_rep (n : Nat) (x : SendStream) : (s.setSend n x).rep = s.rep := rfl
@[simp] theorem State.setSend_links (n : Nat) (x : SendStream) : (s.setSend n x).links = s.links := rfl
@[simp] theorem State.setSend_fence (n : Nat) (x : SendStream) : (s.setSend n x).fence = s.fence := rfl
@[simp] theorem State.setSend_boot (n : Nat) (x : SendStream) : (s.setSend n x).boot = s.boot := rfl
@[simp] theorem State.setSend_coll (n : Nat) (x : SendStream) : (s.setSend n x).coll = s.coll := rfl
@[simp] theorem State.setSend_grn (n : Nat) (x : SendStream) : (s.setSend n x).grn = s.grn := rfl
@[simp] theorem State.setSend_stb (n : Nat) (x : SendStream) : (s.setSend n x).stb = s.stb := rfl
@[simp] theorem State.setSend_pwr (n : Nat) (x : SendStream) : (s.setSend n x).pwr = s.pwr := rfl
@[simp] theorem State.setSend_sec (n : Nat) (x : SendStream) : (s.setSend n x).sec = s.sec := rfl
@[simp] theorem State.setSend_seed (n : Nat) (x : SendStream) : (s.setSend n x).seed = s.seed := rfl
@[simp] theorem State.setSend_dras (n : Nat) (x : SendStream) : (s.setSend n x).dras = s.dras := rfl
@[simp] theorem State.setSend_tap (n : Nat) (x : SendStream) : (s.setSend n x).tap = s.tap := rfl

@[simp] theorem State.setRecv_pending (n : Nat) (x : RecvStream) : (s.setRecv n x).pending = s.pending := rfl
@[simp] theorem State.setRecv_steppingB (n : Nat) (x : RecvStream) : (s.setRecv n x).steppingB = s.steppingB := rfl
@[simp] theorem State.setRecv_wall (n : Nat) (x : RecvStream) : (s.setRecv n x).wall = s.wall := rfl
@[simp] theorem State.setRecv_free (n : Nat) (x : RecvStream) : (s.setRecv n x).free = s.free := rfl
@[simp] theorem State.setRecv_regs (n : Nat) (x : RecvStream) : (s.setRecv n x).regs = s.regs := rfl
@[simp] theorem State.setRecv_latch (n : Nat) (x : RecvStream) : (s.setRecv n x).latch = s.latch := rfl
@[simp] theorem State.setRecv_captured (n : Nat) (x : RecvStream) : (s.setRecv n x).captured = s.captured := rfl
@[simp] theorem State.setRecv_mem (n : Nat) (x : RecvStream) : (s.setRecv n x).mem = s.mem := rfl
@[simp] theorem State.setRecv_fog (n : Nat) (x : RecvStream) : (s.setRecv n x).fog = s.fog := rfl
@[simp] theorem State.setRecv_meets (n : Nat) (x : RecvStream) : (s.setRecv n x).meets = s.meets := rfl
@[simp] theorem State.setRecv_resp (n : Nat) (x : RecvStream) : (s.setRecv n x).resp = s.resp := rfl
@[simp] theorem State.setRecv_out (n : Nat) (x : RecvStream) : (s.setRecv n x).out = s.out := rfl
@[simp] theorem State.setRecv_eng (n : Nat) (x : RecvStream) : (s.setRecv n x).eng = s.eng := rfl
@[simp] theorem State.setRecv_host (n : Nat) (x : RecvStream) : (s.setRecv n x).host = s.host := rfl
@[simp] theorem State.setRecv_slots (n : Nat) (x : RecvStream) : (s.setRecv n x).slots = s.slots := rfl
@[simp] theorem State.setRecv_running (n : Nat) (x : RecvStream) : (s.setRecv n x).running = s.running := rfl
@[simp] theorem State.setRecv_traffic (n : Nat) (x : RecvStream) : (s.setRecv n x).traffic = s.traffic := rfl
@[simp] theorem State.setRecv_records (n : Nat) (x : RecvStream) : (s.setRecv n x).records = s.records := rfl
@[simp] theorem State.setRecv_stk (n : Nat) (x : RecvStream) : (s.setRecv n x).stk = s.stk := rfl
@[simp] theorem State.setRecv_rep (n : Nat) (x : RecvStream) : (s.setRecv n x).rep = s.rep := rfl
@[simp] theorem State.setRecv_links (n : Nat) (x : RecvStream) : (s.setRecv n x).links = s.links := rfl
@[simp] theorem State.setRecv_fence (n : Nat) (x : RecvStream) : (s.setRecv n x).fence = s.fence := rfl
@[simp] theorem State.setRecv_boot (n : Nat) (x : RecvStream) : (s.setRecv n x).boot = s.boot := rfl
@[simp] theorem State.setRecv_coll (n : Nat) (x : RecvStream) : (s.setRecv n x).coll = s.coll := rfl
@[simp] theorem State.setRecv_grn (n : Nat) (x : RecvStream) : (s.setRecv n x).grn = s.grn := rfl
@[simp] theorem State.setRecv_stb (n : Nat) (x : RecvStream) : (s.setRecv n x).stb = s.stb := rfl
@[simp] theorem State.setRecv_pwr (n : Nat) (x : RecvStream) : (s.setRecv n x).pwr = s.pwr := rfl
@[simp] theorem State.setRecv_sec (n : Nat) (x : RecvStream) : (s.setRecv n x).sec = s.sec := rfl
@[simp] theorem State.setRecv_seed (n : Nat) (x : RecvStream) : (s.setRecv n x).seed = s.seed := rfl
@[simp] theorem State.setRecv_dras (n : Nat) (x : RecvStream) : (s.setRecv n x).dras = s.dras := rfl
@[simp] theorem State.setRecv_tap (n : Nat) (x : RecvStream) : (s.setRecv n x).tap = s.tap := rfl

@[simp] theorem State.setColl_pending (c : Coll) : (s.setColl c).pending = s.pending := rfl
@[simp] theorem State.setColl_steppingB (c : Coll) : (s.setColl c).steppingB = s.steppingB := rfl
@[simp] theorem State.setColl_wall (c : Coll) : (s.setColl c).wall = s.wall := rfl
@[simp] theorem State.setColl_free (c : Coll) : (s.setColl c).free = s.free := rfl
@[simp] theorem State.setColl_regs (c : Coll) : (s.setColl c).regs = s.regs := rfl
@[simp] theorem State.setColl_latch (c : Coll) : (s.setColl c).latch = s.latch := rfl
@[simp] theorem State.setColl_captured (c : Coll) : (s.setColl c).captured = s.captured := rfl
@[simp] theorem State.setColl_mem (c : Coll) : (s.setColl c).mem = s.mem := rfl
@[simp] theorem State.setColl_fog (c : Coll) : (s.setColl c).fog = s.fog := rfl
@[simp] theorem State.setColl_meets (c : Coll) : (s.setColl c).meets = s.meets := rfl
@[simp] theorem State.setColl_resp (c : Coll) : (s.setColl c).resp = s.resp := rfl
@[simp] theorem State.setColl_out (c : Coll) : (s.setColl c).out = s.out := rfl
@[simp] theorem State.setColl_eng (c : Coll) : (s.setColl c).eng = s.eng := rfl
@[simp] theorem State.setColl_host (c : Coll) : (s.setColl c).host = s.host := rfl
@[simp] theorem State.setColl_slots (c : Coll) : (s.setColl c).slots = s.slots := rfl
@[simp] theorem State.setColl_running (c : Coll) : (s.setColl c).running = s.running := rfl
@[simp] theorem State.setColl_traffic (c : Coll) : (s.setColl c).traffic = s.traffic := rfl
@[simp] theorem State.setColl_records (c : Coll) : (s.setColl c).records = s.records := rfl
@[simp] theorem State.setColl_stk (c : Coll) : (s.setColl c).stk = s.stk := rfl
@[simp] theorem State.setColl_rep (c : Coll) : (s.setColl c).rep = s.rep := rfl
@[simp] theorem State.setColl_links (c : Coll) : (s.setColl c).links = s.links := rfl
@[simp] theorem State.setColl_fence (c : Coll) : (s.setColl c).fence = s.fence := rfl
@[simp] theorem State.setColl_boot (c : Coll) : (s.setColl c).boot = s.boot := rfl
@[simp] theorem State.setColl_fab (c : Coll) : (s.setColl c).fab = s.fab := rfl
@[simp] theorem State.setColl_grn (c : Coll) : (s.setColl c).grn = s.grn := rfl
@[simp] theorem State.setColl_stb (c : Coll) : (s.setColl c).stb = s.stb := rfl
@[simp] theorem State.setColl_pwr (c : Coll) : (s.setColl c).pwr = s.pwr := rfl
@[simp] theorem State.setColl_sec (c : Coll) : (s.setColl c).sec = s.sec := rfl
@[simp] theorem State.setColl_seed (c : Coll) : (s.setColl c).seed = s.seed := rfl
@[simp] theorem State.setColl_dras (c : Coll) : (s.setColl c).dras = s.dras := rfl
@[simp] theorem State.setColl_tap (c : Coll) : (s.setColl c).tap = s.tap := rfl

@[simp] theorem State.setGrn_pending (g : Granary) : (s.setGrn g).pending = s.pending := rfl
@[simp] theorem State.setGrn_steppingB (g : Granary) : (s.setGrn g).steppingB = s.steppingB := rfl
@[simp] theorem State.setGrn_wall (g : Granary) : (s.setGrn g).wall = s.wall := rfl
@[simp] theorem State.setGrn_free (g : Granary) : (s.setGrn g).free = s.free := rfl
@[simp] theorem State.setGrn_regs (g : Granary) : (s.setGrn g).regs = s.regs := rfl
@[simp] theorem State.setGrn_latch (g : Granary) : (s.setGrn g).latch = s.latch := rfl
@[simp] theorem State.setGrn_captured (g : Granary) : (s.setGrn g).captured = s.captured := rfl
@[simp] theorem State.setGrn_mem (g : Granary) : (s.setGrn g).mem = s.mem := rfl
@[simp] theorem State.setGrn_fog (g : Granary) : (s.setGrn g).fog = s.fog := rfl
@[simp] theorem State.setGrn_meets (g : Granary) : (s.setGrn g).meets = s.meets := rfl
@[simp] theorem State.setGrn_resp (g : Granary) : (s.setGrn g).resp = s.resp := rfl
@[simp] theorem State.setGrn_out (g : Granary) : (s.setGrn g).out = s.out := rfl
@[simp] theorem State.setGrn_eng (g : Granary) : (s.setGrn g).eng = s.eng := rfl
@[simp] theorem State.setGrn_host (g : Granary) : (s.setGrn g).host = s.host := rfl
@[simp] theorem State.setGrn_slots (g : Granary) : (s.setGrn g).slots = s.slots := rfl
@[simp] theorem State.setGrn_running (g : Granary) : (s.setGrn g).running = s.running := rfl
@[simp] theorem State.setGrn_traffic (g : Granary) : (s.setGrn g).traffic = s.traffic := rfl
@[simp] theorem State.setGrn_records (g : Granary) : (s.setGrn g).records = s.records := rfl
@[simp] theorem State.setGrn_stk (g : Granary) : (s.setGrn g).stk = s.stk := rfl
@[simp] theorem State.setGrn_rep (g : Granary) : (s.setGrn g).rep = s.rep := rfl
@[simp] theorem State.setGrn_links (g : Granary) : (s.setGrn g).links = s.links := rfl
@[simp] theorem State.setGrn_fence (g : Granary) : (s.setGrn g).fence = s.fence := rfl
@[simp] theorem State.setGrn_boot (g : Granary) : (s.setGrn g).boot = s.boot := rfl
@[simp] theorem State.setGrn_fab (g : Granary) : (s.setGrn g).fab = s.fab := rfl
@[simp] theorem State.setGrn_coll (g : Granary) : (s.setGrn g).coll = s.coll := rfl
@[simp] theorem State.setGrn_stb (g : Granary) : (s.setGrn g).stb = s.stb := rfl
@[simp] theorem State.setGrn_pwr (g : Granary) : (s.setGrn g).pwr = s.pwr := rfl
@[simp] theorem State.setGrn_sec (g : Granary) : (s.setGrn g).sec = s.sec := rfl
@[simp] theorem State.setGrn_seed (g : Granary) : (s.setGrn g).seed = s.seed := rfl
@[simp] theorem State.setGrn_dras (g : Granary) : (s.setGrn g).dras = s.dras := rfl
@[simp] theorem State.setGrn_tap (g : Granary) : (s.setGrn g).tap = s.tap := rfl

@[simp] theorem State.setStb_pending (x : Stubble) : (s.setStb x).pending = s.pending := rfl
@[simp] theorem State.setStb_steppingB (x : Stubble) : (s.setStb x).steppingB = s.steppingB := rfl
@[simp] theorem State.setStb_wall (x : Stubble) : (s.setStb x).wall = s.wall := rfl
@[simp] theorem State.setStb_free (x : Stubble) : (s.setStb x).free = s.free := rfl
@[simp] theorem State.setStb_regs (x : Stubble) : (s.setStb x).regs = s.regs := rfl
@[simp] theorem State.setStb_latch (x : Stubble) : (s.setStb x).latch = s.latch := rfl
@[simp] theorem State.setStb_captured (x : Stubble) : (s.setStb x).captured = s.captured := rfl
@[simp] theorem State.setStb_mem (x : Stubble) : (s.setStb x).mem = s.mem := rfl
@[simp] theorem State.setStb_fog (x : Stubble) : (s.setStb x).fog = s.fog := rfl
@[simp] theorem State.setStb_meets (x : Stubble) : (s.setStb x).meets = s.meets := rfl
@[simp] theorem State.setStb_resp (x : Stubble) : (s.setStb x).resp = s.resp := rfl
@[simp] theorem State.setStb_out (x : Stubble) : (s.setStb x).out = s.out := rfl
@[simp] theorem State.setStb_eng (x : Stubble) : (s.setStb x).eng = s.eng := rfl
@[simp] theorem State.setStb_host (x : Stubble) : (s.setStb x).host = s.host := rfl
@[simp] theorem State.setStb_slots (x : Stubble) : (s.setStb x).slots = s.slots := rfl
@[simp] theorem State.setStb_running (x : Stubble) : (s.setStb x).running = s.running := rfl
@[simp] theorem State.setStb_traffic (x : Stubble) : (s.setStb x).traffic = s.traffic := rfl
@[simp] theorem State.setStb_records (x : Stubble) : (s.setStb x).records = s.records := rfl
@[simp] theorem State.setStb_stk (x : Stubble) : (s.setStb x).stk = s.stk := rfl
@[simp] theorem State.setStb_rep (x : Stubble) : (s.setStb x).rep = s.rep := rfl
@[simp] theorem State.setStb_links (x : Stubble) : (s.setStb x).links = s.links := rfl
@[simp] theorem State.setStb_fence (x : Stubble) : (s.setStb x).fence = s.fence := rfl
@[simp] theorem State.setStb_boot (x : Stubble) : (s.setStb x).boot = s.boot := rfl
@[simp] theorem State.setStb_fab (x : Stubble) : (s.setStb x).fab = s.fab := rfl
@[simp] theorem State.setStb_coll (x : Stubble) : (s.setStb x).coll = s.coll := rfl
@[simp] theorem State.setStb_grn (x : Stubble) : (s.setStb x).grn = s.grn := rfl
@[simp] theorem State.setStb_pwr (x : Stubble) : (s.setStb x).pwr = s.pwr := rfl
@[simp] theorem State.setStb_sec (x : Stubble) : (s.setStb x).sec = s.sec := rfl
@[simp] theorem State.setStb_seed (x : Stubble) : (s.setStb x).seed = s.seed := rfl
@[simp] theorem State.setStb_dras (x : Stubble) : (s.setStb x).dras = s.dras := rfl
@[simp] theorem State.setStb_tap (x : Stubble) : (s.setStb x).tap = s.tap := rfl

@[simp] theorem State.setPwr_pending (p : Power) : (s.setPwr p).pending = s.pending := rfl
@[simp] theorem State.setPwr_steppingB (p : Power) : (s.setPwr p).steppingB = s.steppingB := rfl
@[simp] theorem State.setPwr_wall (p : Power) : (s.setPwr p).wall = s.wall := rfl
@[simp] theorem State.setPwr_free (p : Power) : (s.setPwr p).free = s.free := rfl
@[simp] theorem State.setPwr_regs (p : Power) : (s.setPwr p).regs = s.regs := rfl
@[simp] theorem State.setPwr_latch (p : Power) : (s.setPwr p).latch = s.latch := rfl
@[simp] theorem State.setPwr_captured (p : Power) : (s.setPwr p).captured = s.captured := rfl
@[simp] theorem State.setPwr_mem (p : Power) : (s.setPwr p).mem = s.mem := rfl
@[simp] theorem State.setPwr_fog (p : Power) : (s.setPwr p).fog = s.fog := rfl
@[simp] theorem State.setPwr_meets (p : Power) : (s.setPwr p).meets = s.meets := rfl
@[simp] theorem State.setPwr_resp (p : Power) : (s.setPwr p).resp = s.resp := rfl
@[simp] theorem State.setPwr_out (p : Power) : (s.setPwr p).out = s.out := rfl
@[simp] theorem State.setPwr_eng (p : Power) : (s.setPwr p).eng = s.eng := rfl
@[simp] theorem State.setPwr_host (p : Power) : (s.setPwr p).host = s.host := rfl
@[simp] theorem State.setPwr_slots (p : Power) : (s.setPwr p).slots = s.slots := rfl
@[simp] theorem State.setPwr_running (p : Power) : (s.setPwr p).running = s.running := rfl
@[simp] theorem State.setPwr_traffic (p : Power) : (s.setPwr p).traffic = s.traffic := rfl
@[simp] theorem State.setPwr_records (p : Power) : (s.setPwr p).records = s.records := rfl
@[simp] theorem State.setPwr_stk (p : Power) : (s.setPwr p).stk = s.stk := rfl
@[simp] theorem State.setPwr_rep (p : Power) : (s.setPwr p).rep = s.rep := rfl
@[simp] theorem State.setPwr_links (p : Power) : (s.setPwr p).links = s.links := rfl
@[simp] theorem State.setPwr_fence (p : Power) : (s.setPwr p).fence = s.fence := rfl
@[simp] theorem State.setPwr_boot (p : Power) : (s.setPwr p).boot = s.boot := rfl
@[simp] theorem State.setPwr_fab (p : Power) : (s.setPwr p).fab = s.fab := rfl
@[simp] theorem State.setPwr_coll (p : Power) : (s.setPwr p).coll = s.coll := rfl
@[simp] theorem State.setPwr_grn (p : Power) : (s.setPwr p).grn = s.grn := rfl
@[simp] theorem State.setPwr_stb (p : Power) : (s.setPwr p).stb = s.stb := rfl
@[simp] theorem State.setPwr_sec (p : Power) : (s.setPwr p).sec = s.sec := rfl
@[simp] theorem State.setPwr_seed (p : Power) : (s.setPwr p).seed = s.seed := rfl
@[simp] theorem State.setPwr_dras (p : Power) : (s.setPwr p).dras = s.dras := rfl
@[simp] theorem State.setPwr_tap (p : Power) : (s.setPwr p).tap = s.tap := rfl

@[simp] theorem State.setSec_pending (x : Security) : (s.setSec x).pending = s.pending := rfl
@[simp] theorem State.setSec_steppingB (x : Security) : (s.setSec x).steppingB = s.steppingB := rfl
@[simp] theorem State.setSec_wall (x : Security) : (s.setSec x).wall = s.wall := rfl
@[simp] theorem State.setSec_free (x : Security) : (s.setSec x).free = s.free := rfl
@[simp] theorem State.setSec_regs (x : Security) : (s.setSec x).regs = s.regs := rfl
@[simp] theorem State.setSec_latch (x : Security) : (s.setSec x).latch = s.latch := rfl
@[simp] theorem State.setSec_captured (x : Security) : (s.setSec x).captured = s.captured := rfl
@[simp] theorem State.setSec_mem (x : Security) : (s.setSec x).mem = s.mem := rfl
@[simp] theorem State.setSec_fog (x : Security) : (s.setSec x).fog = s.fog := rfl
@[simp] theorem State.setSec_meets (x : Security) : (s.setSec x).meets = s.meets := rfl
@[simp] theorem State.setSec_resp (x : Security) : (s.setSec x).resp = s.resp := rfl
@[simp] theorem State.setSec_out (x : Security) : (s.setSec x).out = s.out := rfl
@[simp] theorem State.setSec_eng (x : Security) : (s.setSec x).eng = s.eng := rfl
@[simp] theorem State.setSec_host (x : Security) : (s.setSec x).host = s.host := rfl
@[simp] theorem State.setSec_slots (x : Security) : (s.setSec x).slots = s.slots := rfl
@[simp] theorem State.setSec_running (x : Security) : (s.setSec x).running = s.running := rfl
@[simp] theorem State.setSec_traffic (x : Security) : (s.setSec x).traffic = s.traffic := rfl
@[simp] theorem State.setSec_records (x : Security) : (s.setSec x).records = s.records := rfl
@[simp] theorem State.setSec_stk (x : Security) : (s.setSec x).stk = s.stk := rfl
@[simp] theorem State.setSec_rep (x : Security) : (s.setSec x).rep = s.rep := rfl
@[simp] theorem State.setSec_links (x : Security) : (s.setSec x).links = s.links := rfl
@[simp] theorem State.setSec_fence (x : Security) : (s.setSec x).fence = s.fence := rfl
@[simp] theorem State.setSec_boot (x : Security) : (s.setSec x).boot = s.boot := rfl
@[simp] theorem State.setSec_fab (x : Security) : (s.setSec x).fab = s.fab := rfl
@[simp] theorem State.setSec_coll (x : Security) : (s.setSec x).coll = s.coll := rfl
@[simp] theorem State.setSec_grn (x : Security) : (s.setSec x).grn = s.grn := rfl
@[simp] theorem State.setSec_stb (x : Security) : (s.setSec x).stb = s.stb := rfl
@[simp] theorem State.setSec_pwr (x : Security) : (s.setSec x).pwr = s.pwr := rfl
@[simp] theorem State.setSec_seed (x : Security) : (s.setSec x).seed = s.seed := rfl
@[simp] theorem State.setSec_dras (x : Security) : (s.setSec x).dras = s.dras := rfl
@[simp] theorem State.setSec_tap (x : Security) : (s.setSec x).tap = s.tap := rfl

@[simp] theorem State.setTap_pending (x : Tap) : (s.setTap x).pending = s.pending := rfl
@[simp] theorem State.setTap_steppingB (x : Tap) : (s.setTap x).steppingB = s.steppingB := rfl
@[simp] theorem State.setTap_wall (x : Tap) : (s.setTap x).wall = s.wall := rfl
@[simp] theorem State.setTap_free (x : Tap) : (s.setTap x).free = s.free := rfl
@[simp] theorem State.setTap_regs (x : Tap) : (s.setTap x).regs = s.regs := rfl
@[simp] theorem State.setTap_latch (x : Tap) : (s.setTap x).latch = s.latch := rfl
@[simp] theorem State.setTap_captured (x : Tap) : (s.setTap x).captured = s.captured := rfl
@[simp] theorem State.setTap_mem (x : Tap) : (s.setTap x).mem = s.mem := rfl
@[simp] theorem State.setTap_fog (x : Tap) : (s.setTap x).fog = s.fog := rfl
@[simp] theorem State.setTap_meets (x : Tap) : (s.setTap x).meets = s.meets := rfl
@[simp] theorem State.setTap_resp (x : Tap) : (s.setTap x).resp = s.resp := rfl
@[simp] theorem State.setTap_out (x : Tap) : (s.setTap x).out = s.out := rfl
@[simp] theorem State.setTap_eng (x : Tap) : (s.setTap x).eng = s.eng := rfl
@[simp] theorem State.setTap_host (x : Tap) : (s.setTap x).host = s.host := rfl
@[simp] theorem State.setTap_slots (x : Tap) : (s.setTap x).slots = s.slots := rfl
@[simp] theorem State.setTap_running (x : Tap) : (s.setTap x).running = s.running := rfl
@[simp] theorem State.setTap_traffic (x : Tap) : (s.setTap x).traffic = s.traffic := rfl
@[simp] theorem State.setTap_records (x : Tap) : (s.setTap x).records = s.records := rfl
@[simp] theorem State.setTap_stk (x : Tap) : (s.setTap x).stk = s.stk := rfl
@[simp] theorem State.setTap_rep (x : Tap) : (s.setTap x).rep = s.rep := rfl
@[simp] theorem State.setTap_links (x : Tap) : (s.setTap x).links = s.links := rfl
@[simp] theorem State.setTap_fence (x : Tap) : (s.setTap x).fence = s.fence := rfl
@[simp] theorem State.setTap_boot (x : Tap) : (s.setTap x).boot = s.boot := rfl
@[simp] theorem State.setTap_fab (x : Tap) : (s.setTap x).fab = s.fab := rfl
@[simp] theorem State.setTap_coll (x : Tap) : (s.setTap x).coll = s.coll := rfl
@[simp] theorem State.setTap_grn (x : Tap) : (s.setTap x).grn = s.grn := rfl
@[simp] theorem State.setTap_stb (x : Tap) : (s.setTap x).stb = s.stb := rfl
@[simp] theorem State.setTap_pwr (x : Tap) : (s.setTap x).pwr = s.pwr := rfl
@[simp] theorem State.setTap_sec (x : Tap) : (s.setTap x).sec = s.sec := rfl
@[simp] theorem State.setTap_seed (x : Tap) : (s.setTap x).seed = s.seed := rfl
@[simp] theorem State.setTap_dras (x : Tap) : (s.setTap x).dras = s.dras := rfl

@[simp] theorem State.setTransfer_pending (x : Transfer) : (s.setTransfer x).pending = s.pending := rfl
@[simp] theorem State.setTransfer_steppingB (x : Transfer) : (s.setTransfer x).steppingB = s.steppingB := rfl
@[simp] theorem State.setTransfer_wall (x : Transfer) : (s.setTransfer x).wall = s.wall := rfl
@[simp] theorem State.setTransfer_free (x : Transfer) : (s.setTransfer x).free = s.free := rfl
@[simp] theorem State.setTransfer_regs (x : Transfer) : (s.setTransfer x).regs = s.regs := rfl
@[simp] theorem State.setTransfer_latch (x : Transfer) : (s.setTransfer x).latch = s.latch := rfl
@[simp] theorem State.setTransfer_captured (x : Transfer) : (s.setTransfer x).captured = s.captured := rfl
@[simp] theorem State.setTransfer_mem (x : Transfer) : (s.setTransfer x).mem = s.mem := rfl
@[simp] theorem State.setTransfer_fog (x : Transfer) : (s.setTransfer x).fog = s.fog := rfl
@[simp] theorem State.setTransfer_meets (x : Transfer) : (s.setTransfer x).meets = s.meets := rfl
@[simp] theorem State.setTransfer_resp (x : Transfer) : (s.setTransfer x).resp = s.resp := rfl
@[simp] theorem State.setTransfer_out (x : Transfer) : (s.setTransfer x).out = s.out := rfl
@[simp] theorem State.setTransfer_eng (x : Transfer) : (s.setTransfer x).eng = s.eng := rfl
@[simp] theorem State.setTransfer_host (x : Transfer) : (s.setTransfer x).host = s.host := rfl
@[simp] theorem State.setTransfer_slots (x : Transfer) : (s.setTransfer x).slots = s.slots := rfl
@[simp] theorem State.setTransfer_running (x : Transfer) : (s.setTransfer x).running = s.running := rfl
@[simp] theorem State.setTransfer_records (x : Transfer) : (s.setTransfer x).records = s.records := rfl
@[simp] theorem State.setTransfer_stk (x : Transfer) : (s.setTransfer x).stk = s.stk := rfl
@[simp] theorem State.setTransfer_rep (x : Transfer) : (s.setTransfer x).rep = s.rep := rfl
@[simp] theorem State.setTransfer_links (x : Transfer) : (s.setTransfer x).links = s.links := rfl
@[simp] theorem State.setTransfer_fence (x : Transfer) : (s.setTransfer x).fence = s.fence := rfl
@[simp] theorem State.setTransfer_boot (x : Transfer) : (s.setTransfer x).boot = s.boot := rfl
@[simp] theorem State.setTransfer_fab (x : Transfer) : (s.setTransfer x).fab = s.fab := rfl
@[simp] theorem State.setTransfer_coll (x : Transfer) : (s.setTransfer x).coll = s.coll := rfl
@[simp] theorem State.setTransfer_grn (x : Transfer) : (s.setTransfer x).grn = s.grn := rfl
@[simp] theorem State.setTransfer_stb (x : Transfer) : (s.setTransfer x).stb = s.stb := rfl
@[simp] theorem State.setTransfer_pwr (x : Transfer) : (s.setTransfer x).pwr = s.pwr := rfl
@[simp] theorem State.setTransfer_sec (x : Transfer) : (s.setTransfer x).sec = s.sec := rfl
@[simp] theorem State.setTransfer_seed (x : Transfer) : (s.setTransfer x).seed = s.seed := rfl
@[simp] theorem State.setTransfer_dras (x : Transfer) : (s.setTransfer x).dras = s.dras := rfl
@[simp] theorem State.setTransfer_tap (x : Transfer) : (s.setTransfer x).tap = s.tap := rfl

/-! What the updates change. -/

@[simp] theorem State.begin_resp : s.begin.resp = .none := rfl
@[simp] theorem State.begin_meets : s.begin.meets = [] := rfl
@[simp] theorem State.facing_meets (l : List AccessErr) : (s.facing l).meets = l := rfl
@[simp] theorem State.refuse_resp (code : Nat) : (s.refuse code).resp = .error code := rfl
@[simp] theorem State.wr_regs (off : Nat) (w : Word) : (s.wr off w).regs = Sparse.put regReset s.regs off w := rfl
@[simp] theorem State.setCell_mem (k : Nat) (b : Byte) : (s.setCell k b).mem = Sparse.put (Memory.unlisted s.fog) s.mem k b := rfl
@[simp] theorem State.cover_fog (f : Fog) : (s.cover f).fog = f :: s.fog := rfl
@[simp] theorem State.setFrame_frame (f : Frame) : (s.setFrame f).eng.frame = f := rfl
@[simp] theorem State.setFrame_fleet (f : Frame) : (s.setFrame f).eng.fleet = s.eng.fleet := rfl
@[simp] theorem State.setFleet_fleet (f : Fleet) : (s.setFleet f).eng.fleet = f := rfl
@[simp] theorem State.setFleet_frame (f : Fleet) : (s.setFleet f).eng.frame = s.eng.frame := rfl
@[simp] theorem State.later_due (c : Nat) (e : Effect) : (s.later c e).eng.due = s.eng.due ++ [⟨c, e⟩] := rfl
@[simp] theorem State.later_frame (c : Nat) (e : Effect) : (s.later c e).eng.frame = s.eng.frame := rfl
@[simp] theorem State.countTo_count (c : Nat) : (s.countTo c).eng.frame.count = c := rfl
@[simp] theorem State.setHost_host (h : HostSide) : (s.setHost h).host = h := rfl
@[simp] theorem State.setFab_fab (f : Fabric) : (s.setFab f).fab = f := rfl
@[simp] theorem State.setColl_coll (c : Coll) : (s.setColl c).coll = c := rfl
@[simp] theorem State.setGrn_grn (g : Granary) : (s.setGrn g).grn = g := rfl
@[simp] theorem State.setStb_stb (x : Stubble) : (s.setStb x).stb = x := rfl
@[simp] theorem State.setPwr_pwr (p : Power) : (s.setPwr p).pwr = p := rfl
@[simp] theorem State.setSec_sec (x : Security) : (s.setSec x).sec = x := rfl
@[simp] theorem State.setTap_tap (x : Tap) : (s.setTap x).tap = x := rfl
@[simp] theorem State.setPhase_phase (p : Phase) : (s.setPhase p).boot.phase = p := rfl

end Sys2Proof.Machine
end

