-- ==== Sys2Proof/Laws/Ops.lean ====
section
/-!
SUPPORT. The laws of the shared operations over registers and memory: reading after writing, the canonical forms, and what capturing an error can do.
-/
namespace Sys2Proof.Machine

/-! ## Registers -/

theorem State.wr_regs_wf {s : State} (h : Regs.wf s = true) (off : Nat) (w : Word) : Regs.wf (s.wr off w) = true := Sparse.put_wf off w h

theorem State.rd_wr_same {s : State} (h : Regs.wf s = true) (off : Nat) (w : Word) : (s.wr off w).rd off = w := Sparse.get_put_same w h

theorem State.rd_wr_other {s : State} (h : Regs.wf s = true) {off o : Nat} (w : Word) (ho : o ≠ off) : (s.wr off w).rd o = s.rd o :=
  Sparse.get_put_other w ho h

/-! ## Memory -/

theorem State.setCell_wf {s : State} (h : Memory.wf s = true) (k : Nat) (b : Byte) : Memory.wf (s.setCell k b) = true := Sparse.put_wf k b h

theorem State.memAt_setCell_same {s : State} (h : Memory.wf s = true) (k : Nat) (b : Byte) : (s.setCell k b).memAt k = b := Sparse.get_put_same b h

theorem State.memAt_setCell_other {s : State} (h : Memory.wf s = true) {k j : Nat} (b : Byte) (hj : j ≠ k) : (s.setCell k b).memAt j = s.memAt j :=
  Sparse.get_put_other b hj h

/-- A region covers memory with its contents and keeps the canonical form: what it leaves listed reads the same unlisted. -/
theorem State.cover_wf {s : State} (h : Memory.wf s = true) (f : Fog) : Memory.wf (s.cover f) = true := by
  have hf := Sparse.filter_wf (fun c => !f.covers c.1) h
  refine Sparse.wfFrom_congr (fun q hq => ?_) hf
  have hq' : f.covers q.1 = false := by simpa using (List.mem_filter.1 hq).2
  simp [Memory.unlisted, hq']

/-- The newest region over an address decides what it reads as. -/
theorem Memory.unlisted_cons (f : Fog) (r : List Fog) (a : Nat) :
    Memory.unlisted (f :: r) a = if f.covers a then (match f.tag with
      | some t => Config.freeByte t a
      | none => 0) else Memory.unlisted r a := by
  unfold Memory.unlisted
  rw [List.find?_cons]
  cases f.covers a <;> rfl

/-- With the stacks' part of every region zero, stack bytes read as zero and the other bytes as before. -/
theorem Memory.unlisted_zeroed (l : List Fog) (k : Nat) :
    Memory.unlisted (l.flatMap Fog.zeroed) k = if stackKey k then 0 else Memory.unlisted l k := by
  induction l with
  | nil => simp [Memory.unlisted]
  | cons f r ih =>
    rw [List.flatMap_cons, Fog.zeroed, List.cons_append, List.cons_append, List.cons_append, List.nil_append, Memory.unlisted_cons, Memory.unlisted_cons,
      Memory.unlisted_cons, Memory.unlisted_cons, ih]
    by_cases hs : stackKey k = true
    · rw [if_pos hs]
      split
      · rfl
      · split
        · rfl
        · rename_i h0 h1
          have hf : f.covers k = false := by
            by_contra hc
            simp only [Bool.not_eq_false, Fog.covers, stackKey, Bool.and_eq_true, Bool.or_eq_true, decide_eq_true_eq, not_and, Bool.not_eq_true] at hc hs h0 h1
            rcases hs with hs | hs
            · simp [hc.2, show f.lo ≤ k ∧ 0 ≤ k ∧ k < 0xC000000000 from ⟨hc.1.1, by omega, hs⟩] at h0; omega
            · simp [hc.2] at h1; omega
          simp [hf]
    · have e : ∀ lo hi, (lo ≤ k → hi ≤ k) → Fog.covers { f with lo := max f.lo lo, len := min (f.lo + f.len) hi - max f.lo lo, tag := none } k = false := by
        intro lo hi h
        simp only [Fog.covers, Bool.and_eq_false_iff, decide_eq_false_iff_not]
        left
        by_cases hk : max f.lo lo ≤ k
        · right; have := h (by omega); omega
        · left; omega
      simp only [stackKey, Bool.or_eq_true, Bool.and_eq_true, decide_eq_true_eq, not_or, not_and] at hs
      rw [e _ _ (fun _ => by omega), e _ _ (fun h => by have := hs.2 h; omega)]
      have hs' : stackKey k = false := by simp only [stackKey, Bool.or_eq_false_iff, Bool.and_eq_false_iff, decide_eq_false_iff_not]; omega
      simp [hs']

/-- Zeroing the undefined bytes of the stacks keeps the canonical form. -/
theorem State.zeroLost_wf {s : State} (h : Memory.wf s = true) : Memory.wf s.zeroLost = true := by
  refine Sparse.wfFrom_of (fun q hq hv => ?_) (Sparse.filter_wf (fun c => !(stackKey c.1 && c.2 == 0)) h)
  show q.2 ≠ Memory.unlisted (s.fog.flatMap Fog.zeroed) q.1
  rw [Memory.unlisted_zeroed]
  have hk := (List.mem_filter.1 hq).2
  split
  · simpa [*] using hk
  · exact hv

theorem State.putBytes_wf (l : List Byte) : ∀ {s : State} (a : Nat), Memory.wf s = true → Memory.wf (s.putBytes a l) = true := by
  induction l with
  | nil => exact fun _ h => h
  | cons b r ih => exact fun a h => ih (a + 1) (State.setCell_wf h _ b)

theorem State.putBytes_regs (l : List Byte) : ∀ (s : State) (a : Nat), (s.putBytes a l).regs = s.regs := by
  induction l with
  | nil => exact fun _ _ => rfl
  | cons b r ih => exact fun s a => ih _ (a + 1)

/-! ## Errors -/

/-- What raising an error can do: the page's ERR_CNT counts, and memory, the queue and what is answered stay. -/
theorem State.capture_frame (s : State) (p : Page) (code : Nat) (addr : Option Nat) (info : Nat) :
    (s.capture p code addr info).mem = s.mem ∧ (s.capture p code addr info).fog = s.fog ∧ (s.capture p code addr info).pending = s.pending
      ∧ (s.capture p code addr info).resp = s.resp := by
  simp [State.capture, State.wrP]

end Sys2Proof.Machine
end

