-- ==== Sys2Proof/Laws/Keeps.lean ====
section
/-!
SUPPORT. What every command keeps of a state, and that the shared operations of Ops, Repair, Stacks, AwnUnit, Queue and Fabric keep it.
-/
namespace Sys2Proof.Machine

set_option Elab.async false
set_option linter.unreachableTactic false
set_option linter.unusedTactic false
set_option linter.unusedVariables false

/-- t keeps what every command keeps of s: a sound state stays sound, and the queue and the stepping are the same. -/
structure Keeps (s t : State) : Prop where
  sound : s.Sound → t.Sound
  pending : t.pending = s.pending
  stepping : t.steppingB = s.steppingB

variable {b s t : State}

theorem Keeps.refl (s : State) : Keeps s s := ⟨id, rfl, rfl⟩

theorem Keeps.of (h : Keeps b s) (hr : Regs.wf s = true → Regs.wf t = true) (hm : Memory.wf s = true → Memory.wf t = true) (hp : t.pending = s.pending)
    (hs : t.steppingB = s.steppingB) : Keeps b t :=
  ⟨fun x => ⟨hr (h.sound x).1, hm (h.sound x).2⟩, hp.trans h.pending, hs.trans h.stepping⟩

/-- Every field but the queue, the stepping, the registers and memory may change. -/
theorem Keeps.upd {w fr la ca me re ou en ho sl ru tr rc st rp li fe bo fa co gr sb pw se sd dr ta} (h : Keeps b s) :
    Keeps b ⟨s.pending, s.steppingB, w, fr, s.regs, la, ca, s.mem, s.fog, me, re, ou, en, ho, sl, ru, tr, rc, st, rp, li, fe, bo, fa, co, gr, sb, pw, se, sd, dr, ta⟩ :=
  ⟨h.sound, h.pending, h.stepping⟩

theorem Keeps.ite {c : Prop} [Decidable c] {x y : State} (hx : Keeps b x) (hy : Keeps b y) : Keeps b (if c then x else y) := by split <;> assumption

theorem Keeps.ite1 {α : Type} {c : Prop} [Decidable c] {x y : State × α} (hx : Keeps b x.1) (hy : Keeps b y.1) : Keeps b (if c then x else y).1 := by split <;> assumption

theorem Keeps.ite2 {α : Type} {c : Prop} [Decidable c] {x y : α × State} (hx : Keeps b x.2) (hy : Keeps b y.2) : Keeps b (if c then x else y).2 := by split <;> assumption

theorem Keeps.ite21 {α β : Type} {c : Prop} [Decidable c] {x y : α × State × β} (hx : Keeps b x.2.1) (hy : Keeps b y.2.1) : Keeps b (if c then x else y).2.1 := by
  split <;> assumption

theorem Keeps.foldl {α : Type} {f : State → α → State} {l : List α} (h : Keeps b s) (hf : ∀ t x, Keeps b t → Keeps b (f t x)) : Keeps b (l.foldl f s) := by
  induction l generalizing s with
  | nil => exact h
  | cons x l ih => exact ih (hf s x h)

/-- A fold that carries something beside the state. -/
theorem Keeps.foldl1 {α β : Type} {f : State × β → α → State × β} {l : List α} {p : State × β} (h : Keeps b p.1)
    (hf : ∀ q x, Keeps b q.1 → Keeps b (f q x).1) : Keeps b (l.foldl f p).1 := by
  induction l generalizing p with
  | nil => exact h
  | cons x l ih => exact ih (hf p x h)

theorem Keeps.foldl2 {α β : Type} {f : β × State → α → β × State} {l : List α} {p : β × State} (h : Keeps b p.2)
    (hf : ∀ q x, Keeps b q.2 → Keeps b (f q x).2) : Keeps b (l.foldl f p).2 := by
  induction l generalizing p with
  | nil => exact h
  | cons x l ih => exact ih (hf p x h)

theorem Keeps.eq1 {α : Type} {p q : State × α} (e : p = q) (h : Keeps b q.1) : Keeps b p.1 := by rw [e]; exact h

theorem Keeps.p1 {α : Type} {p : State × α} {y : α} (e : p = (t, y)) (h : Keeps b p.1) : Keeps b t := by subst e; exact h

theorem Keeps.p2 {α : Type} {p : α × State} {x : α} (e : p = (x, t)) (h : Keeps b p.2) : Keeps b t := by subst e; exact h

theorem Keeps.p21 {α β : Type} {p : α × State × β} {x : α} {y : β} (e : p = (x, t, y)) (h : Keeps b p.2.1) : Keeps b t := by subst e; exact h

theorem Keeps.o2 {α : Type} {p : Option (α × State)} {x : α} (e : p = some (x, t)) (h : ∀ q, p = some q → Keeps b q.2) : Keeps b t := h _ e

theorem Keeps.o0 {p : Option State} (e : p = some t) (h : ∀ q, p = some q → Keeps b q) : Keeps b t := h _ e

theorem Keeps.getD {p : Option State} (h : ∀ q, p = some q → Keeps b q) (hs : Keeps b s) : Keeps b (p.getD s) := by
  cases p with
  | none => exact hs
  | some q => exact h q rfl

/-- Every field but the queue, the stepping and memory may change, and the registers keep their canonical form. -/
theorem Keeps.updRegs {w fr rg la ca me re ou en ho sl ru tr rc st rp li fe bo fa co gr sb pw se sd dr ta} (hr : Regs.wf s = true → Sparse.wf regReset rg = true)
    (h : Keeps b s) :
    Keeps b ⟨s.pending, s.steppingB, w, fr, rg, la, ca, s.mem, s.fog, me, re, ou, en, ho, sl, ru, tr, rc, st, rp, li, fe, bo, fa, co, gr, sb, pw, se, sd, dr, ta⟩ :=
  Keeps.of h hr id rfl rfl

/-- What a change of values at their keys leaves is canonical when it drops the entries that it brings to the default. -/
theorem Sparse.filterMap_wfFrom {α : Type} [DecidableEq α] {d : Nat → α} {f : Nat × α → Option (Nat × α)} (hf : ∀ q r, f q = some r → r.1 = q.1 ∧ r.2 ≠ d r.1) {lo : Nat}
    {l : List (Nat × α)} (hl : Sparse.wfFrom d lo l = true) : Sparse.wfFrom d lo (l.filterMap f) = true := by
  induction l generalizing lo with
  | nil => rfl
  | cons q r ih =>
    rw [Sparse.wfFrom_cons] at hl
    rw [List.filterMap_cons]
    split
    · exact Sparse.wfFrom_mono (by omega) (ih hl.2.2)
    · rename_i x e
      have hx := hf q x e
      exact Sparse.wfFrom_cons.2 ⟨by omega, hx.2, by rw [hx.1]; exact ih hl.2.2⟩

theorem warmRegs_wf {l : List (Nat × Word)} (hl : Sparse.wf regReset l = true) : Sparse.wf regReset (warmRegs l) = true := by
  refine Sparse.filterMap_wfFrom (fun q r e => ?_) hl
  simp only [Option.ite_none_left_eq_some, Option.some.injEq] at e
  obtain ⟨e1, rfl⟩ := e
  exact ⟨rfl, e1⟩

/-- A command answers a next state, which keeps what every command keeps. -/
def Answers (s : State) (o : Host.Outcome State Fault Refusal) : Prop := ∃ t, o = .next t ∧ Keeps s t

theorem Answers.next (h : Keeps b t) : Answers b (.next t) := ⟨t, rfl, h⟩

theorem Answers.ite {c : Prop} [Decidable c] {x y : Host.Outcome State Fault Refusal} (hx : Answers b x) (hy : Answers b y) : Answers b (if c then x else y) := by
  split <;> assumption

/-! ## Ops -/

theorem State.wr_keeps {s0 s : State} (h : Keeps s0 s) {off : Nat} {w : Word} : Keeps s0 (s.wr off w) :=
  Keeps.of h (fun x => State.wr_regs_wf x off w) id rfl rfl

theorem State.wrP_keeps {s0 s : State} (h : Keeps s0 s) {p : Page} {o : Nat} {w : Word} : Keeps s0 (s.wrP p o w) := by
  unfold State.wrP
  repeat' first | with_reducible first | assumption | apply State.wr_keeps

theorem State.setP_keeps {s0 s : State} (h : Keeps s0 s) {p : Page} {o hi lo v : Nat} : Keeps s0 (s.setP p o hi lo v) := by
  unfold State.setP
  repeat' first | with_reducible first | assumption | apply State.wrP_keeps

theorem State.bump_keeps {s0 s : State} (h : Keeps s0 s) {p : Page} {o n : Nat} : Keeps s0 (s.bump p o n) := by
  unfold State.bump
  repeat' first | with_reducible first | assumption | apply State.wrP_keeps

theorem State.set64_keeps {s0 s : State} (h : Keeps s0 s) {p : Page} {o v : Nat} : Keeps s0 (s.set64 p o v) := by
  unfold State.set64
  repeat' first | with_reducible first | assumption | apply State.wrP_keeps

theorem State.bump64_keeps {s0 s : State} (h : Keeps s0 s) {p : Page} {o n : Nat} : Keeps s0 (s.bump64 p o n) := by
  unfold State.bump64
  repeat' first | with_reducible first | assumption | apply State.set64_keeps

theorem State.bumpAt_keeps {s0 s : State} (h : Keeps s0 s) {off n : Nat} : Keeps s0 (s.bumpAt off n) := by
  unfold State.bumpAt
  repeat' first | with_reducible first | assumption | apply State.wr_keeps

theorem State.bump64At_keeps {s0 s : State} (h : Keeps s0 s) {off n : Nat} : Keeps s0 (s.bump64At off n) := by
  unfold State.bump64At
  repeat' first
    | with_reducible first | assumption | apply State.wr_keeps
    | ((fail_if_no_progress extract_lets +onlyGivenNames x)
       first
        | (refine (?_ : Keeps s0 x → _) ?_; (clear_value x; intro _); on_goal 2 => unfold x)
        | clear_value x)

theorem State.draw_keeps {s0 s : State} (h : Keeps s0 s) : Keeps s0 (s.draw).2 := by
  unfold State.draw
  repeat' first | with_reducible first | assumption | (fail_if_no_progress with_reducible apply Keeps.upd)

theorem State.setPci_keeps {s0 s : State} (h : Keeps s0 s) {n : Nat} {p : PciPort} : Keeps s0 (s.setPci n p) := by
  unfold State.setPci
  repeat' first | with_reducible first | assumption | (fail_if_no_progress with_reducible apply Keeps.upd)

theorem State.msix_keeps {s0 s : State} (h : Keeps s0 s) {port vec : Nat} : Keeps s0 (s.msix port vec) := by
  unfold State.msix
  repeat' first
    | with_reducible first | assumption | apply Keeps.ite | apply State.setPci_keeps
    | ((fail_if_no_progress extract_lets +onlyGivenNames x)
       first
        | (refine (?_ : Keeps s0 x → _) ?_; (clear_value x; intro _); on_goal 2 => unfold x)
        | clear_value x)
    | (fail_if_no_progress with_reducible apply Keeps.upd)

theorem State.msixFlush_keeps {s0 s : State} (h : Keeps s0 s) {port : Nat} : Keeps s0 (s.msixFlush port) := by
  unfold State.msixFlush
  repeat' first
    | (intro _; try beta_reduce)
    | with_reducible first | assumption | apply Keeps.foldl | apply State.msix_keeps | apply State.setPci_keeps
    | ((fail_if_no_progress extract_lets +onlyGivenNames x)
       first
        | (refine (?_ : Keeps s0 x → _) ?_; (clear_value x; intro _); on_goal 2 => unfold x)
        | clear_value x)
    | (fail_if_no_progress with_reducible apply Keeps.upd)

theorem State.pageMessage_keeps {s0 s : State} (h : Keeps s0 s) {p : Page} : Keeps s0 (s.pageMessage p) := by
  unfold State.pageMessage
  repeat' first
    | with_reducible first | assumption | apply Keeps.ite | apply State.msix_keeps
    | ((fail_if_no_progress extract_lets +onlyGivenNames x)
       first
        | (refine (?_ : Keeps s0 x → _) ?_; (clear_value x; intro _); on_goal 2 => unfold x)
        | clear_value x)

theorem State.setInts_keeps {s0 s : State} (h : Keeps s0 s) {p : Page} {stat en : Word} : Keeps s0 (s.setInts p stat en) := by
  unfold State.setInts
  repeat' first
    | with_reducible first | assumption | apply Keeps.ite | apply State.wrP_keeps | apply State.pageMessage_keeps
    | ((fail_if_no_progress extract_lets +onlyGivenNames x)
       first
        | (refine (?_ : Keeps s0 x → _) ?_; (clear_value x; intro _); on_goal 2 => unfold x)
        | clear_value x)

theorem State.setInt_keeps {s0 s : State} (h : Keeps s0 s) {p : Page} {b : Nat} : Keeps s0 (s.setInt p b) := by
  unfold State.setInt
  repeat' first | with_reducible first | assumption | apply State.setInts_keeps

theorem State.capture_keeps {s0 s : State} (h : Keeps s0 s) {p : Page} {code : Nat} {addr : Option Nat} {info : Nat}
    : Keeps s0 (s.capture p code addr info) := by
  unfold State.capture
  repeat' first
    | with_reducible first | assumption | apply State.wrP_keeps
    | ((fail_if_no_progress extract_lets +onlyGivenNames x)
       first
        | (refine (?_ : Keeps s0 x → _) ?_; (clear_value x; intro _); on_goal 2 => unfold x)
        | clear_value x)
    | (fail_if_no_progress with_reducible apply Keeps.upd)
    | split

theorem State.raise_keeps {s0 s : State} (h : Keeps s0 s) {p : Page} {c : Cause} {addr : Option Nat} {info : Nat} : Keeps s0 (s.raise p c addr info)
    := by
  unfold State.raise
  repeat' first
    | (intro _; try beta_reduce)
    | with_reducible first | assumption | apply Keeps.ite | apply State.bump_keeps | apply State.capture_keeps | apply State.setP_keeps
    | with_reducible first | apply State.setInt_keeps
    | ((fail_if_no_progress extract_lets +onlyGivenNames x)
       first
        | (refine (?_ : Keeps s0 x → _) ?_; (clear_value x; intro _); on_goal 2 => unfold x)
        | clear_value x)
    | (fail_if_no_progress with_reducible apply Keeps.upd)

theorem State.begin_keeps {s0 s : State} (h : Keeps s0 s) : Keeps s0 (s.begin) := by
  unfold State.begin
  repeat' first | with_reducible first | assumption | (fail_if_no_progress with_reducible apply Keeps.upd)

theorem State.facing_keeps {s0 s : State} (h : Keeps s0 s) {l : List AccessErr} : Keeps s0 (s.facing l) := by
  unfold State.facing
  repeat' first | with_reducible first | assumption | (fail_if_no_progress with_reducible apply Keeps.upd)

theorem State.refuse_keeps {s0 s : State} (h : Keeps s0 s) {code : Nat} : Keeps s0 (s.refuse code) := by
  unfold State.refuse
  repeat' first | with_reducible first | assumption | (fail_if_no_progress with_reducible apply Keeps.upd)

theorem State.setCell_keeps {s0 s : State} (h : Keeps s0 s) {k : Nat} {v : Byte} : Keeps s0 (s.setCell k v) :=
  Keeps.of h id (fun x => State.setCell_wf x k v) rfl rfl

theorem State.putBytes_keeps {s0 : State} {l : List Byte} : ∀ {s : State} (_ : Keeps s0 s) {a : Nat}, Keeps s0 (s.putBytes a l) := by
  induction l with
  | nil => exact fun h => h
  | cons v r ih => exact fun h => ih (State.setCell_keeps h)

theorem State.cover_keeps {s0 s : State} (h : Keeps s0 s) {f : Fog} : Keeps s0 (s.cover f) := Keeps.of h id (fun x => State.cover_wf x f) rfl rfl

theorem State.lose_keeps {s0 s : State} (h : Keeps s0 s) {lo len : Nat} {undefined : Bool} : Keeps s0 (s.lose lo len undefined) := by
  unfold State.lose
  repeat' first | with_reducible first | assumption | apply Keeps.ite | apply State.cover_keeps | (fail_if_no_progress with_reducible apply Keeps.upd)

theorem State.zeroLost_keeps {s0 s : State} (h : Keeps s0 s) : Keeps s0 s.zeroLost := Keeps.of h id State.zeroLost_wf rfl rfl

theorem State.loseChannel_keeps {s0 s : State} (h : Keeps s0 s) {stack ch : Nat} : Keeps s0 (s.loseChannel stack ch) := by
  unfold State.loseChannel
  repeat' first
    | with_reducible first | assumption | apply State.cover_keeps | apply State.lose_keeps
    | ((fail_if_no_progress extract_lets +onlyGivenNames x)
       first
        | (refine (?_ : Keeps s0 x → _) ?_; (clear_value x; intro _); on_goal 2 => unfold x)
        | clear_value x)
    | (fail_if_no_progress with_reducible apply Keeps.upd)

theorem State.highWater_keeps {s0 s : State} (h : Keeps s0 s) {a n : Nat} : Keeps s0 (s.highWater a n) := by
  unfold State.highWater
  repeat' first
    | with_reducible first | assumption | apply Keeps.ite | apply State.setP_keeps | apply State.wrP_keeps | apply State.setInt_keeps
    | ((fail_if_no_progress extract_lets +onlyGivenNames x)
       first
        | (refine (?_ : Keeps s0 x → _) ?_; (clear_value x; intro _); on_goal 2 => unfold x)
        | clear_value x)

theorem State.write_keeps {s0 s : State} (h : Keeps s0 s) {a : Nat} {l : List Byte} : Keeps s0 (s.write a l) := by
  unfold State.write
  repeat' first
    | (intro _; try beta_reduce)
    | with_reducible first | assumption | apply Keeps.ite | apply Keeps.foldl | apply State.putBytes_keeps | apply State.highWater_keeps
    | ((fail_if_no_progress extract_lets +onlyGivenNames x)
       first
        | (refine (?_ : Keeps s0 x → _) ?_; (clear_value x; intro _); on_goal 2 => unfold x)
        | clear_value x)

theorem State.flits_keeps {s0 s : State} (h : Keeps s0 s) {die dir n : Nat} : Keeps s0 (s.flits die dir n) := by
  unfold State.flits
  repeat' first
    | with_reducible first | assumption | apply Keeps.ite | apply State.bump64_keeps | apply State.draw_keeps | apply State.bump_keeps
    | ((fail_if_no_progress extract_lets +onlyGivenNames x)
       first
        | (refine (?_ : Keeps s0 x → _) ?_; (clear_value x; intro _); on_goal 2 => unfold x)
        | clear_value x)
    | with_reducible refine Keeps.p1 (by assumption) ?_
    | split

theorem State.servedBurst_keeps {s0 s : State} (h : Keeps s0 s) {a n cls : Nat} {write aged : Bool} : Keeps s0 (s.servedBurst a n cls write aged)
    := by
  unfold State.servedBurst
  repeat' first
    | with_reducible first | assumption | apply Keeps.ite | apply State.bump_keeps | apply State.flits_keeps
    | ((fail_if_no_progress extract_lets +onlyGivenNames x)
       first
        | (refine (?_ : Keeps s0 x → _) ?_; (clear_value x; intro _); on_goal 2 => unfold x)
        | clear_value x)
    | (fail_if_no_progress with_reducible apply Keeps.upd)

theorem State.servedPart_keeps {s0 s : State} (h : Keeps s0 s) {a n cls : Nat} : Keeps s0 (s.servedPart a n cls) := by
  unfold State.servedPart
  repeat' first
    | with_reducible first | assumption | apply Keeps.ite | apply State.bump_keeps
    | ((fail_if_no_progress extract_lets +onlyGivenNames x)
       first
        | (refine (?_ : Keeps s0 x → _) ?_; (clear_value x; intro _); on_goal 2 => unfold x)
        | clear_value x)
    | (fail_if_no_progress with_reducible apply Keeps.upd)

theorem State.served_keeps {s0 s : State} (h : Keeps s0 s) {a n cls : Nat} {write : Bool} : Keeps s0 (s.served a n cls write) := by
  unfold State.served
  repeat' first
    | (intro _; try beta_reduce)
    | with_reducible first | assumption | apply Keeps.ite | apply Keeps.foldl | apply State.servedBurst_keeps
    | ((fail_if_no_progress extract_lets +onlyGivenNames x)
       first
        | (refine (?_ : Keeps s0 x → _) ?_; (clear_value x; intro _); on_goal 2 => unfold x)
        | clear_value x)

theorem State.servedWrite_keeps {s0 s : State} (h : Keeps s0 s) {a n cls : Nat} : Keeps s0 (s.servedWrite a n cls) := by
  unfold State.servedWrite
  repeat' first
    | (intro _; try beta_reduce)
    | with_reducible first | assumption | apply Keeps.ite | apply Keeps.foldl | apply State.servedPart_keeps | apply State.served_keeps
    | ((fail_if_no_progress extract_lets +onlyGivenNames x)
       first
        | (refine (?_ : Keeps s0 x → _) ?_; (clear_value x; intro _); on_goal 2 => unfold x)
        | clear_value x)

theorem State.signal_keeps {s0 s : State} (h : Keeps s0 s) {c n : Nat} : Keeps s0 (s.signal c n) := by
  unfold State.signal
  repeat' first | with_reducible first | assumption | apply State.wr_keeps

theorem State.setSreg_keeps {s0 s : State} (h : Keeps s0 s) {die n v : Nat} : Keeps s0 (s.setSreg die n v) := by
  unfold State.setSreg
  repeat' first | with_reducible first | assumption | apply Keeps.ite | apply State.set64_keeps

theorem State.setTdesc_keeps {s0 s : State} (h : Keeps s0 s) {die logical g v : Nat} : Keeps s0 (s.setTdesc die logical g v) := by
  unfold State.setTdesc
  repeat' first | (intro _; try beta_reduce) | with_reducible first | assumption | (fail_if_no_progress with_reducible apply Keeps.upd)

theorem State.setFrame_keeps {s0 s : State} (h : Keeps s0 s) {f : Frame} : Keeps s0 (s.setFrame f) := by
  unfold State.setFrame
  repeat' first | with_reducible first | assumption | (fail_if_no_progress with_reducible apply Keeps.upd)

/-! ## Lanes -/

theorem State.setLink_keeps {s0 s : State} (h : Keeps s0 s) {n : Nat} {l : Link} : Keeps s0 (s.setLink n l) := by
  unfold State.setLink
  repeat' first | with_reducible first | assumption | (fail_if_no_progress with_reducible apply Keeps.upd)

theorem State.markLane_keeps {s0 s : State} (h : Keeps s0 s) {n dir lane : Nat} : Keeps s0 (s.markLane n dir lane) := by
  unfold State.markLane
  repeat' first
    | with_reducible first | assumption | apply Keeps.ite | apply State.setP_keeps
    | ((fail_if_no_progress extract_lets +onlyGivenNames x)
       first
        | (refine (?_ : Keeps s0 x → _) ?_; (clear_value x; intro _); on_goal 2 => unfold x)
        | clear_value x)

theorem State.noteBits_keeps {s0 s : State} (h : Keeps s0 s) {n dir lane k : Nat} : Keeps s0 (s.noteBits n dir lane k) := by
  unfold State.noteBits
  repeat' first
    | (intro _; try beta_reduce)
    | with_reducible first | assumption | apply Keeps.ite | apply State.setLink_keeps
    | ((fail_if_no_progress extract_lets +onlyGivenNames x)
       first
        | (refine (?_ : Keeps s0 x → _) ?_; (clear_value x; intro _); on_goal 2 => unfold x)
        | clear_value x)
    | (fail_if_no_progress with_reducible apply Keeps.upd)

theorem State.flitMeets_keeps {s0 s : State} (h : Keeps s0 s) {n dir slot : Nat} {lanes : List Nat} {addr : Option Nat}
    : Keeps s0 (s.flitMeets n dir slot lanes addr) := by
  unfold State.flitMeets
  repeat' first
    | with_reducible first | assumption | apply State.bump_keeps | apply State.noteBits_keeps | apply State.raise_keeps
    | ((fail_if_no_progress extract_lets +onlyGivenNames x)
       first
        | (refine (?_ : Keeps s0 x → _) ?_; (clear_value x; intro _); on_goal 2 => unfold x)
        | clear_value x)
    | (fail_if_no_progress with_reducible apply Keeps.upd)
    | split

/-! ## Repair -/

theorem State.rewriteMap_keeps {s0 s : State} (h : Keeps s0 s) : Keeps s0 (s.rewriteMap) := by
  unfold State.rewriteMap
  repeat' first | with_reducible first | assumption | apply Keeps.ite | apply State.write_keeps | (fail_if_no_progress with_reducible apply Keeps.upd)

theorem State.flushMaps_keeps {s0 s : State} (h : Keeps s0 s) : Keeps s0 (s.flushMaps) := by
  unfold State.flushMaps
  repeat' first
    | (intro _; try beta_reduce)
    | with_reducible first | assumption | apply Keeps.foldl | apply State.write_keeps
    | (fail_if_no_progress with_reducible apply Keeps.upd)

theorem State.addRepair_keeps {s0 s : State} (h : Keeps s0 s) {e : List Byte} : Keeps s0 (s.addRepair e).1 := by
  unfold State.addRepair
  repeat' first
    | (intro _; try beta_reduce)
    | with_reducible first | assumption | apply Keeps.ite | apply Keeps.ite1 | apply Keeps.foldl1 | apply State.rewriteMap_keeps
    | with_reducible first | apply State.raise_keeps | apply State.setP_keeps
    | ((fail_if_no_progress extract_lets +onlyGivenNames x)
       first
        | (refine (?_ : Keeps s0 x → _) ?_; (clear_value x; intro _); on_goal 2 => unfold x)
        | clear_value x)
    | (fail_if_no_progress with_reducible apply Keeps.upd)

theorem State.noteRepair_keeps {s0 s : State} (h : Keeps s0 s) {e : List Byte} : Keeps s0 (s.noteRepair e) := by
  unfold State.noteRepair
  repeat' first | with_reducible first | assumption | apply State.addRepair_keeps

/-! ## Stacks -/

theorem State.setStack_keeps {s0 s : State} (h : Keeps s0 s) {n : Nat} {t : Stack} : Keeps s0 (s.setStack n t) := by
  unfold State.setStack
  repeat' first | with_reducible first | assumption | (fail_if_no_progress with_reducible apply Keeps.upd)

theorem State.spareExhausted_keeps {s0 s : State} (h : Keeps s0 s) {n : Nat} {r : RowId} : Keeps s0 (s.spareExhausted n r) := by
  unfold State.spareExhausted
  repeat' first
    | (intro _; try beta_reduce)
    | with_reducible first | assumption | apply Keeps.ite | apply State.raise_keeps | apply State.setInt_keeps | apply State.noteRepair_keeps
    | ((fail_if_no_progress extract_lets +onlyGivenNames x)
       first
        | (refine (?_ : Keeps s0 x → _) ?_; (clear_value x; intro _); on_goal 2 => unfold x)
        | clear_value x)

theorem State.mapRow_keeps {s0 s : State} (h : Keeps s0 s) {n : Nat} {r : RowId} {reason : Nat} : Keeps s0 (s.mapRow n r reason) := by
  unfold State.mapRow
  repeat' first
    | (intro _; try beta_reduce)
    | with_reducible first | assumption | apply Keeps.ite | apply State.noteRepair_keeps | apply State.spareExhausted_keeps
    | ((fail_if_no_progress extract_lets +onlyGivenNames x)
       first
        | (refine (?_ : Keeps s0 x → _) ?_; (clear_value x; intro _); on_goal 2 => unfold x)
        | clear_value x)
    | (fail_if_no_progress with_reducible apply Keeps.upd)
    | split

theorem State.syncRemap_keeps {s0 s : State} (h : Keeps s0 s) {n : Nat} : Keeps s0 (s.syncRemap n) := by
  unfold State.syncRemap
  repeat' first
    | with_reducible first | assumption | apply Keeps.ite | apply State.wrP_keeps
    | ((fail_if_no_progress extract_lets +onlyGivenNames x)
       first
        | (refine (?_ : Keeps s0 x → _) ?_; (clear_value x; intro _); on_goal 2 => unfold x)
        | clear_value x)
    | (fail_if_no_progress with_reducible apply Keeps.upd)
    | with_reducible refine Keeps.p1 (by assumption) ?_
    | split

theorem State.startRemapFrom_keeps {s0 : State} {k : Nat} : ∀ {s : State} (_ : Keeps s0 s) {n : Nat}, Keeps s0 (s.startRemapFrom n k) := by
  induction k with
  | zero => exact fun h => State.syncRemap_keeps h
  | succ k ih =>
    intro s h n
    unfold State.startRemapFrom
    dsimp only
    repeat' first
      | with_reducible first | assumption | apply ih | apply State.syncRemap_keeps | apply State.spareExhausted_keeps | apply State.setStack_keeps
      | split

theorem State.startRemap_keeps {s0 s : State} (h : Keeps s0 s) {n : Nat} : Keeps s0 (s.startRemap n) := by
  unfold State.startRemap
  repeat' first | with_reducible first | assumption | apply State.startRemapFrom_keeps

theorem State.rowDue_keeps {s0 s : State} (h : Keeps s0 s) {n : Nat} {r : RowId} : Keeps s0 (s.rowDue n r) := by
  unfold State.rowDue
  repeat' first
    | with_reducible first | assumption | apply Keeps.ite | apply State.mapRow_keeps | apply State.setStack_keeps | apply State.startRemap_keeps
    | ((fail_if_no_progress extract_lets +onlyGivenNames x)
       first
        | (refine (?_ : Keeps s0 x → _) ?_; (clear_value x; intro _); on_goal 2 => unfold x)
        | clear_value x)
    | (fail_if_no_progress with_reducible apply Keeps.upd)
    | split

theorem State.copyBurst_keeps {s0 s : State} (h : Keeps s0 s) {n : Nat} {m : Remap} {b : Nat} : Keeps s0 (s.copyBurst n m b) := by
  unfold State.copyBurst
  repeat' first
    | (intro _; try beta_reduce)
    | with_reducible first | assumption | apply Keeps.foldl | apply State.setCell_keeps
    | ((fail_if_no_progress extract_lets +onlyGivenNames x)
       first
        | (refine (?_ : Keeps s0 x → _) ?_; (clear_value x; intro _); on_goal 2 => unfold x)
        | clear_value x)

theorem State.markRemap_keeps {s0 s : State} (h : Keeps s0 s) {a : Nat} : Keeps s0 (s.markRemap a) := by
  unfold State.markRemap
  repeat' first
    | with_reducible first | assumption | apply Keeps.ite | apply State.setStack_keeps | apply State.syncRemap_keeps
    | ((fail_if_no_progress extract_lets +onlyGivenNames x)
       first
        | (refine (?_ : Keeps s0 x → _) ?_; (clear_value x; intro _); on_goal 2 => unfold x)
        | clear_value x)
    | (fail_if_no_progress with_reducible apply Keeps.upd)
    | split

theorem State.switchRemap_keeps {s0 s : State} (h : Keeps s0 s) {n : Nat} : Keeps s0 (s.switchRemap n) := by
  unfold State.switchRemap
  repeat' first
    | (intro _; try beta_reduce)
    | with_reducible first | assumption | apply Keeps.ite | apply State.setStack_keeps | apply State.bump_keeps | apply State.setInt_keeps
    | with_reducible first | apply State.noteRepair_keeps | apply State.startRemap_keeps
    | ((fail_if_no_progress extract_lets +onlyGivenNames x)
       first
        | (refine (?_ : Keeps s0 x → _) ?_; (clear_value x; intro _); on_goal 2 => unfold x)
        | clear_value x)
    | (fail_if_no_progress with_reducible apply Keeps.upd)
    | with_reducible refine Keeps.p1 (by assumption) ?_
    | split

theorem State.watch_keeps {s0 s : State} (h : Keeps s0 s) {n : Nat} {r : RowId} : Keeps s0 (s.watch n r) := by
  unfold State.watch
  repeat' first
    | with_reducible first | assumption | apply Keeps.ite | apply State.setStack_keeps | apply State.wr_keeps | apply State.rowDue_keeps
    | ((fail_if_no_progress extract_lets +onlyGivenNames x)
       first
        | (refine (?_ : Keeps s0 x → _) ?_; (clear_value x; intro _); on_goal 2 => unfold x)
        | clear_value x)
    | (fail_if_no_progress with_reducible apply Keeps.upd)
    | with_reducible refine Keeps.p1 (by assumption) ?_
    | split

theorem State.halveWatch_keeps {s0 s : State} (h : Keeps s0 s) {n : Nat} : Keeps s0 (s.halveWatch n) := by
  unfold State.halveWatch
  repeat' first
    | (intro _; try beta_reduce)
    | with_reducible first | assumption | apply Keeps.ite | apply Keeps.foldl | apply State.wr_keeps
    | ((fail_if_no_progress extract_lets +onlyGivenNames x)
       first
        | (refine (?_ : Keeps s0 x → _) ?_; (clear_value x; intro _); on_goal 2 => unfold x)
        | clear_value x)

theorem State.linkErr_keeps {s0 s : State} (h : Keeps s0 s) {n ch conn : Nat} : Keeps s0 (s.linkErr n ch conn) := by
  unfold State.linkErr
  repeat' first
    | (intro _; try beta_reduce)
    | with_reducible first | assumption | apply Keeps.ite | apply State.setStack_keeps | apply State.wrP_keeps | apply State.noteRepair_keeps
    | ((fail_if_no_progress extract_lets +onlyGivenNames x)
       first
        | (refine (?_ : Keeps s0 x → _) ?_; (clear_value x; intro _); on_goal 2 => unfold x)
        | clear_value x)
    | (fail_if_no_progress with_reducible apply Keeps.upd)
    | with_reducible refine Keeps.p1 (by assumption) ?_
    | split

theorem State.rowErr_keeps {s0 s : State} (h : Keeps s0 s) {n : Nat} {r : RowId} {burst cls : Nat} {sched write : Bool} {e : BurstErr}
    : Keeps s0 (s.rowErr n r burst cls sched write e) := by
  unfold State.rowErr
  repeat' first
    | with_reducible first | assumption | apply Keeps.ite | apply State.bump_keeps | apply State.watch_keeps | apply State.linkErr_keeps
    | with_reducible first | apply State.raise_keeps | apply State.mapRow_keeps
    | ((fail_if_no_progress extract_lets +onlyGivenNames x)
       first
        | (refine (?_ : Keeps s0 x → _) ?_; (clear_value x; intro _); on_goal 2 => unfold x)
        | clear_value x)
    | (fail_if_no_progress with_reducible apply Keeps.upd)
    | split

theorem State.burstErr_keeps {s0 s : State} (h : Keeps s0 s) {a cls : Nat} {sched write : Bool} {e : BurstErr}
    : Keeps s0 (s.burstErr a cls sched write e) := by
  unfold State.burstErr
  repeat' first
    | (intro _; try beta_reduce)
    | with_reducible first | assumption | apply Keeps.ite | apply State.flitMeets_keeps | apply State.rowErr_keeps
    | (fail_if_no_progress with_reducible apply Keeps.upd)
    | split

theorem State.captureDenial_keeps {s0 s : State} (h : Keeps s0 s) {d : Denial} : Keeps s0 (s.captureDenial d) := by
  unfold State.captureDenial
  repeat' first | with_reducible first | assumption | apply State.raise_keeps

theorem State.meet_keeps {s0 s : State} (h : Keeps s0 s) {a n cls : Nat} {write : Bool} : Keeps s0 (s.meet a n cls write).1 := by
  unfold State.meet
  repeat' first
    | (intro _; try beta_reduce)
    | with_reducible first | assumption | apply Keeps.ite | apply Keeps.foldl | apply Keeps.ite1 | apply Keeps.foldl1 | apply State.write_keeps
    | with_reducible first | apply State.burstErr_keeps
    | (fail_if_no_progress with_reducible apply Keeps.upd)
    | with_reducible refine Keeps.p1 (by assumption) ?_
    | split

theorem State.readFrom_keeps {s0 s : State} (h : Keeps s0 s) {me : Page} {info a n cls : Nat} : Keeps s0 (s.readFrom me info a n cls).1 := by
  unfold State.readFrom
  repeat' first
    | with_reducible first | assumption | apply Keeps.ite1 | apply Keeps.foldl1 | apply State.captureDenial_keeps | apply State.served_keeps
    | with_reducible first | apply State.meet_keeps
    | (fail_if_no_progress with_reducible apply Keeps.upd)
    | split

theorem State.writeTo_keeps {s0 s : State} (h : Keeps s0 s) {me : Page} {info a n cls : Nat} : Keeps s0 (s.writeTo me info a n cls).1 := by
  unfold State.writeTo
  repeat' first
    | with_reducible first | assumption | apply Keeps.ite1 | apply Keeps.foldl1 | apply State.captureDenial_keeps | apply State.servedWrite_keeps
    | with_reducible first | apply State.meet_keeps
    | (fail_if_no_progress with_reducible apply Keeps.upd)
    | split

theorem State.abandonRemap_keeps {s0 s : State} (h : Keeps s0 s) {n : Nat} {m : Remap} : Keeps s0 (s.abandonRemap n m) := by
  unfold State.abandonRemap
  repeat' first
    | with_reducible first | assumption | apply State.setStack_keeps | apply State.bump_keeps | apply State.raise_keeps | apply State.mapRow_keeps
    | with_reducible first | apply State.startRemap_keeps
    | ((fail_if_no_progress extract_lets +onlyGivenNames x)
       first
        | (refine (?_ : Keeps s0 x → _) ?_; (clear_value x; intro _); on_goal 2 => unfold x)
        | clear_value x)
    | (fail_if_no_progress with_reducible apply Keeps.upd)

theorem State.copyErr_keeps {s0 s : State} (h : Keeps s0 s) {n : Nat} {r : RowId} {a : Nat} {write : Bool} {e : Option BurstErr}
    : Keeps s0 (s.copyErr n r a write e) := by
  cases e with
  | none => exact h
  | some e => exact State.rowErr_keeps h

theorem State.remapStep_keeps {s0 s : State} (h : Keeps s0 s) {n : Nat} {re we : Option BurstErr} : Keeps s0 (s.remapStep n re we) := by
  unfold State.remapStep
  repeat' first
    | with_reducible first | assumption | apply State.bump_keeps | apply State.abandonRemap_keeps | apply State.copyErr_keeps
    | with_reducible first | apply State.copyBurst_keeps | apply State.setStack_keeps | apply State.syncRemap_keeps
    | ((fail_if_no_progress extract_lets +onlyGivenNames x)
       first
        | (refine (?_ : Keeps s0 x → _) ?_; (clear_value x; intro _); on_goal 2 => unfold x)
        | clear_value x)
    | (fail_if_no_progress with_reducible apply Keeps.upd)
    | split

/-! ## Queue -/

theorem State.setHost_keeps {s0 s : State} (h : Keeps s0 s) {h : HostSide} : Keeps s0 (s.setHost h) := by
  unfold State.setHost
  repeat' first | with_reducible first | assumption | (fail_if_no_progress with_reducible apply Keeps.upd)

theorem State.setRing_keeps {s0 s : State} (h : Keeps s0 s) {port ring : Nat} {r : Ring} : Keeps s0 (s.setRing port ring r) := by
  unfold State.setRing
  repeat' first | with_reducible first | assumption | apply State.setHost_keeps | (fail_if_no_progress with_reducible apply Keeps.upd)

theorem State.hold_keeps {s0 s : State} (h : Keeps s0 s) {d : Desc} {status info : Nat} {dup signalled : Bool}
    : Keeps s0 (s.hold d status info dup signalled) := by
  unfold State.hold
  repeat' first
    | with_reducible first | assumption | apply State.setRing_keeps
    | ((fail_if_no_progress extract_lets +onlyGivenNames x)
       first
        | (refine (?_ : Keeps s0 x → _) ?_; (clear_value x; intro _); on_goal 2 => unfold x)
        | clear_value x)
    | (fail_if_no_progress with_reducible apply Keeps.upd)

theorem State.holdDup_keeps {s0 s : State} (h : Keeps s0 s) {d : Desc} {o : Nat × Nat} : Keeps s0 (s.holdDup d o) := by
  unfold State.holdDup
  repeat' first | with_reducible first | assumption | apply State.hold_keeps

theorem State.refuseDesc_keeps {s0 s : State} (h : Keeps s0 s) {d : Desc} {code : Nat} : Keeps s0 (s.refuseDesc d code) := by
  unfold State.refuseDesc
  repeat' first | with_reducible first | assumption | apply State.hold_keeps

theorem State.finish_keeps {s0 s : State} (h : Keeps s0 s) {d : Desc} {status info : Nat} : Keeps s0 (s.finish d status info) := by
  unfold State.finish
  repeat' first
    | (intro _; try beta_reduce)
    | with_reducible first | assumption | apply Keeps.ite | apply Keeps.foldl | apply State.signal_keeps | apply State.hold_keeps
    | with_reducible first | apply State.setHost_keeps | apply State.holdDup_keeps
    | ((fail_if_no_progress extract_lets +onlyGivenNames x)
       first
        | (refine (?_ : Keeps s0 x → _) ?_; (clear_value x; intro _); on_goal 2 => unfold x)
        | clear_value x)
    | (fail_if_no_progress with_reducible apply Keeps.upd)

theorem State.enterWindow_keeps {s0 s : State} (h : Keeps s0 s) {d : Desc} : Keeps s0 (s.enterWindow d) := by
  unfold State.enterWindow
  repeat' first
    | with_reducible first | assumption | apply Keeps.ite | apply State.setHost_keeps
    | (fail_if_no_progress with_reducible apply Keeps.upd)

theorem State.clearRun_keeps {s0 s : State} (h : Keeps s0 s) {d : Nat} : Keeps s0 (s.clearRun d) := by
  unfold State.clearRun
  repeat' first
    | with_reducible first | assumption | apply Keeps.ite | apply State.draw_keeps | apply State.setP_keeps
    | ((fail_if_no_progress extract_lets +onlyGivenNames x)
       first
        | (refine (?_ : Keeps s0 x → _) ?_; (clear_value x; intro _); on_goal 2 => unfold x)
        | clear_value x)
    | with_reducible refine Keeps.p1 (by assumption) ?_
    | split

theorem State.endRun_keeps {s0 s : State} (h : Keeps s0 s) : Keeps s0 (s.endRun) := by
  unfold State.endRun
  repeat' first
    | (intro _; try beta_reduce)
    | with_reducible first | assumption | apply Keeps.foldl | apply State.setHost_keeps | apply State.setP_keeps | apply State.clearRun_keeps
    | ((fail_if_no_progress extract_lets +onlyGivenNames x)
       first
        | (refine (?_ : Keeps s0 x → _) ?_; (clear_value x; intro _); on_goal 2 => unfold x)
        | clear_value x)
    | (fail_if_no_progress with_reducible apply Keeps.upd)

theorem State.completeRun_keeps {s0 s : State} (h : Keeps s0 s) {code : Nat} : Keeps s0 (s.completeRun code) := by
  unfold State.completeRun
  repeat' first
    | with_reducible first | assumption | apply Keeps.ite | apply State.endRun_keeps | apply State.finish_keeps
    | (fail_if_no_progress with_reducible apply Keeps.upd)
    | split

theorem State.stopJob_keeps {s0 s : State} (h : Keeps s0 s) {code : Nat} : Keeps s0 (s.stopJob code) := by
  unfold State.stopJob
  repeat' first
    | with_reducible first | assumption | apply Keeps.ite | apply State.setP_keeps | apply State.wrP_keeps | apply State.set64_keeps
    | with_reducible first | apply State.setInt_keeps | apply State.setHost_keeps
    | ((fail_if_no_progress extract_lets +onlyGivenNames x)
       first
        | (refine (?_ : Keeps s0 x → _) ?_; (clear_value x; intro _); on_goal 2 => unfold x)
        | clear_value x)
    | (fail_if_no_progress with_reducible apply Keeps.upd)
    | split

/-! ## Fabric -/

theorem State.setFab_keeps {s0 s : State} (h : Keeps s0 s) {f : Fabric} : Keeps s0 (s.setFab f) := by
  unfold State.setFab
  repeat' first | with_reducible first | assumption | (fail_if_no_progress with_reducible apply Keeps.upd)

theorem State.setPort_keeps {s0 s : State} (h : Keeps s0 s) {p : Nat} {x : FabPort} : Keeps s0 (s.setPort p x) := by
  unfold State.setPort
  repeat' first | with_reducible first | assumption | apply State.setFab_keeps | (fail_if_no_progress with_reducible apply Keeps.upd)

theorem State.releaseCell_keeps {s0 s : State} (h : Keeps s0 s) {a : Arrived} : Keeps s0 (s.releaseCell a) := by
  unfold State.releaseCell
  repeat' first
    | (intro _; try beta_reduce)
    | with_reducible first | assumption | apply Keeps.ite | apply State.setPort_keeps
    | ((fail_if_no_progress extract_lets +onlyGivenNames x)
       first
        | (refine (?_ : Keeps s0 x → _) ?_; (clear_value x; intro _); on_goal 2 => unfold x)
        | clear_value x)
    | (fail_if_no_progress with_reducible apply Keeps.upd)

theorem State.arrive_keeps {s0 s : State} (h : Keeps s0 s) {port cls at_ : Nat} {direct : Option Nat} {c : Cell}
    : Keeps s0 (s.arrive port cls at_ direct c) := by
  unfold State.arrive
  repeat' first | with_reducible first | assumption | apply State.setFab_keeps | (fail_if_no_progress with_reducible apply Keeps.upd)

theorem State.create_keeps {s0 s : State} (h : Keeps s0 s) {at_ : Nat} {direct : Option Nat} {c : Cell} : Keeps s0 (s.create at_ direct c) := by
  unfold State.create
  repeat' first | with_reducible first | assumption | apply State.arrive_keeps | (fail_if_no_progress with_reducible apply Keeps.upd)

theorem State.portFell_keeps {s0 s : State} (h : Keeps s0 s) {p : Nat} : Keeps s0 (s.portFell p) := by
  unfold State.portFell
  repeat' first
    | (intro _; try beta_reduce)
    | with_reducible first | assumption | apply Keeps.foldl | apply State.setPort_keeps | apply State.bump_keeps | apply State.releaseCell_keeps
    | with_reducible first | apply State.raise_keeps
    | ((fail_if_no_progress extract_lets +onlyGivenNames x)
       first
        | (refine (?_ : Keeps s0 x → _) ?_; (clear_value x; intro _); on_goal 2 => unfold x)
        | clear_value x)
    | (fail_if_no_progress with_reducible apply Keeps.upd)

theorem State.portSync_keeps {s0 s : State} (h : Keeps s0 s) {p : Nat} : Keeps s0 (s.portSync p) := by
  unfold State.portSync
  repeat' first
    | with_reducible first | assumption | apply Keeps.ite | apply State.setP_keeps | apply State.wrP_keeps | apply State.setInt_keeps
    | with_reducible first | apply State.portFell_keeps
    | ((fail_if_no_progress extract_lets +onlyGivenNames x)
       first
        | (refine (?_ : Keeps s0 x → _) ?_; (clear_value x; intro _); on_goal 2 => unfold x)
        | clear_value x)

theorem State.portTrain_keeps {s0 s : State} (h : Keeps s0 s) {p : Nat} : Keeps s0 (s.portTrain p) := by
  unfold State.portTrain
  repeat' first
    | with_reducible first | assumption | apply State.setPort_keeps | apply State.portSync_keeps
    | ((fail_if_no_progress extract_lets +onlyGivenNames x)
       first
        | (refine (?_ : Keeps s0 x → _) ?_; (clear_value x; intro _); on_goal 2 => unfold x)
        | clear_value x)
    | (fail_if_no_progress with_reducible apply Keeps.upd)

theorem State.queueOn_keeps {s0 s : State} (h : Keeps s0 s) {a : Arrived} {out : Nat} : Keeps s0 (s.queueOn a out) := by
  unfold State.queueOn
  repeat' first
    | with_reducible first | assumption | apply Keeps.ite | apply State.bump_keeps | apply State.releaseCell_keeps | apply State.setPort_keeps
    | ((fail_if_no_progress extract_lets +onlyGivenNames x)
       first
        | (refine (?_ : Keeps s0 x → _) ?_; (clear_value x; intro _); on_goal 2 => unfold x)
        | clear_value x)
    | (fail_if_no_progress with_reducible apply Keeps.upd)

theorem State.downDrop_keeps {s0 s : State} (h : Keeps s0 s) {a : Arrived} {p : Nat} : Keeps s0 (s.downDrop a p) := by
  unfold State.downDrop
  repeat' first | with_reducible first | assumption | apply State.bump_keeps | apply State.releaseCell_keeps

theorem State.deliverHere_keeps {s0 s : State} (h : Keeps s0 s) {a : Arrived} : Keeps s0 (s.deliverHere a) := by
  unfold State.deliverHere
  repeat' first
    | with_reducible first | assumption | apply State.setFab_keeps | apply State.releaseCell_keeps
    | (fail_if_no_progress with_reducible apply Keeps.upd)

theorem State.routeUnicast_keeps {s0 s : State} (h : Keeps s0 s) {a : Arrived} : Keeps s0 (s.routeUnicast a) := by
  unfold State.routeUnicast
  repeat' first
    | with_reducible first | assumption | apply Keeps.ite | apply State.deliverHere_keeps | apply State.bump_keeps | apply State.releaseCell_keeps
    | with_reducible first | apply State.queueOn_keeps | apply State.downDrop_keeps
    | ((fail_if_no_progress extract_lets +onlyGivenNames x)
       first
        | (refine (?_ : Keeps s0 x → _) ?_; (clear_value x; intro _); on_goal 2 => unfold x)
        | clear_value x)

theorem State.queueCopy_keeps {s0 s : State} (h : Keeps s0 s) {a : Arrived} {p : Nat} : Keeps s0 (s.queueCopy a p) := by
  unfold State.queueCopy
  repeat' first | with_reducible first | assumption | apply Keeps.ite | apply State.bump_keeps | apply State.queueOn_keeps

theorem State.routeGroup_keeps {s0 s : State} (h : Keeps s0 s) {a : Arrived} : Keeps s0 (s.routeGroup a) := by
  unfold State.routeGroup
  repeat' first
    | (intro _; try beta_reduce)
    | with_reducible first | assumption | apply Keeps.ite | apply Keeps.foldl | apply State.bump_keeps | apply State.releaseCell_keeps
    | with_reducible first | apply State.queueCopy_keeps | apply State.deliverHere_keeps
    | ((fail_if_no_progress extract_lets +onlyGivenNames x)
       first
        | (refine (?_ : Keeps s0 x → _) ?_; (clear_value x; intro _); on_goal 2 => unfold x)
        | clear_value x)

theorem State.routeCell_keeps {s0 s : State} (h : Keeps s0 s) {a : Arrived} : Keeps s0 (s.routeCell a) := by
  unfold State.routeCell
  repeat' first
    | with_reducible first | assumption | apply Keeps.ite | apply State.bump_keeps | apply State.releaseCell_keeps | apply State.queueOn_keeps
    | with_reducible first | apply State.downDrop_keeps | apply State.routeGroup_keeps | apply State.routeUnicast_keeps
    | (fail_if_no_progress with_reducible apply Keeps.upd)
    | split

theorem State.setSend_keeps {s0 s : State} (h : Keeps s0 s) {n : Nat} {x : SendStream} : Keeps s0 (s.setSend n x) := by
  unfold State.setSend
  repeat' first | with_reducible first | assumption | apply State.setFab_keeps | (fail_if_no_progress with_reducible apply Keeps.upd)

theorem State.setRecv_keeps {s0 s : State} (h : Keeps s0 s) {n : Nat} {x : RecvStream} : Keeps s0 (s.setRecv n x) := by
  unfold State.setRecv
  repeat' first | with_reducible first | assumption | apply State.setFab_keeps | (fail_if_no_progress with_reducible apply Keeps.upd)

theorem State.sendCellAt_keeps {s0 s : State} (h : Keeps s0 s) {stream n at_ : Nat} {again : Bool} : Keeps s0 (s.sendCellAt stream n at_ again) := by
  unfold State.sendCellAt
  repeat' first
    | (intro _; try beta_reduce)
    | with_reducible first | assumption | apply Keeps.ite | apply State.setSend_keeps | apply State.create_keeps
    | ((fail_if_no_progress extract_lets +onlyGivenNames x)
       first
        | (refine (?_ : Keeps s0 x → _) ?_; (clear_value x; intro _); on_goal 2 => unfold x)
        | clear_value x)
    | (fail_if_no_progress with_reducible apply Keeps.upd)
    | split

theorem State.departCell_keeps {s0 s : State} (h : Keeps s0 s) {stream n : Nat} : Keeps s0 (s.departCell stream n) := by
  unfold State.departCell
  repeat' first | with_reducible first | assumption | apply State.sendCellAt_keeps

theorem State.gatherCells_keeps {s0 s : State} (h : Keeps s0 s) {stream first n addr : Nat} : Keeps s0 (s.gatherCells stream first n addr) := by
  unfold State.gatherCells
  repeat' first
    | (intro _; try beta_reduce)
    | with_reducible first | assumption | apply Keeps.ite | apply State.setSend_keeps
    | ((fail_if_no_progress extract_lets +onlyGivenNames x)
       first
        | (refine (?_ : Keeps s0 x → _) ?_; (clear_value x; intro _); on_goal 2 => unfold x)
        | clear_value x)
    | (fail_if_no_progress with_reducible apply Keeps.upd)

end Sys2Proof.Machine
end

