-- ==== Sys2Proof/Laws/KeepsWords.lean ====
section
/-!
SUPPORT. What every command keeps, kept by the frames, by the collectives that frames wait for, and by the words of the schedule.
-/
namespace Sys2Proof.Machine

set_option Elab.async false
set_option linter.unreachableTactic false
set_option linter.unusedTactic false
set_option linter.unusedVariables false

/-! ## CollCore -/

theorem State.fogRange_keeps {s0 s : State} (h : Keeps s0 s) {a n : Nat} : Keeps s0 (s.fogRange a n) := by
  unfold State.fogRange
  repeat' first
    | (intro _; try beta_reduce)
    | with_reducible first | assumption | apply Keeps.ite | apply Keeps.foldl | apply State.lose_keeps
    | ((fail_if_no_progress extract_lets +onlyGivenNames x)
       first
        | (refine (?_ : Keeps s0 x → _) ?_; (clear_value x; intro _); on_goal 2 => unfold x)
        | clear_value x)

theorem State.setColl_keeps {s0 s : State} (h : Keeps s0 s) {c : Coll} : Keeps s0 (s.setColl c) := by
  unfold State.setColl
  repeat' first | with_reducible first | assumption | (fail_if_no_progress with_reducible apply Keeps.upd)

theorem State.putInst_keeps {s0 s : State} (h : Keeps s0 s) {i : Inst} : Keeps s0 (s.putInst i) := by
  unfold State.putInst
  repeat' first
    | (intro _; try beta_reduce)
    | with_reducible first | assumption | apply Keeps.ite | apply State.setColl_keeps
    | (fail_if_no_progress with_reducible apply Keeps.upd)

theorem State.legCell_keeps {s0 s : State} (h : Keeps s0 s) {i : Inst} {l : Leg} {typ seq : Nat} {payload : List Byte}
    : Keeps s0 (s.legCell i l typ seq payload) := by
  unfold State.legCell
  repeat' first
    | (intro _; try beta_reduce)
    | with_reducible first | assumption | apply Keeps.ite | apply Keeps.ite1 | apply Keeps.ite2 | apply Keeps.ite21 | apply Keeps.foldl
    | with_reducible first | apply Keeps.foldl1 | apply Keeps.foldl2 | apply State.create_keeps
    | ((fail_if_no_progress extract_lets +onlyGivenNames x)
       first
        | (refine (?_ : (∀ t, Keeps s0 t → Keeps s0 (x t)) → _) ?_; (clear_value x; intro _); on_goal 2 => unfold x)
        | (refine (?_ : (∀ y, Keeps s0 (x y)) → _) ?_; (clear_value x; intro _); on_goal 2 => unfold x)
        | (refine (?_ : Keeps s0 x.1 → _) ?_; (clear_value x; intro _); on_goal 2 => unfold x)
        | (refine (?_ : Keeps s0 x.2 → _) ?_; (clear_value x; intro _); on_goal 2 => unfold x)
        | (refine (?_ : Keeps s0 x → _) ?_; (clear_value x; intro _); on_goal 2 => unfold x)
        | (refine (?_ : (∀ t y, Keeps s0 t → Keeps s0 (x t y)) → _) ?_; (clear_value x; intro _); on_goal 2 => unfold x)
        | clear_value x)
    | (fail_if_no_progress with_reducible apply Keeps.upd)
    | with_reducible apply_assumption
    | with_reducible refine Keeps.p1 (by assumption) ?_
    | with_reducible refine Keeps.p2 (by assumption) ?_
    | with_reducible refine Keeps.p21 (by assumption) ?_
    | split

theorem State.fpCell_keeps {s0 s : State} (h : Keeps s0 s) {i : Inst} {l : Leg} : Keeps s0 (s.fpCell i l) := by
  unfold State.fpCell
  repeat' first
    | with_reducible first | assumption | apply State.legCell_keeps
    | ((fail_if_no_progress extract_lets +onlyGivenNames x)
       first
        | (refine (?_ : Keeps s0 x → _) ?_; (clear_value x; intro _); on_goal 2 => unfold x)
        | clear_value x)
    | (fail_if_no_progress with_reducible apply Keeps.upd)
    | split

theorem State.segOut_keeps {s0 s : State} (h : Keeps s0 s) {i : Inst} {l : Leg} {n : Nat} {cells : List Piece} : Keeps s0 (s.segOut i l n cells) := by
  unfold State.segOut
  repeat' first
    | (intro _; try beta_reduce)
    | with_reducible first | assumption | apply Keeps.foldl | apply State.legCell_keeps
    | ((fail_if_no_progress extract_lets +onlyGivenNames x)
       first
        | (refine (?_ : Keeps s0 x → _) ?_; (clear_value x; intro _); on_goal 2 => unfold x)
        | clear_value x)
    | (fail_if_no_progress with_reducible apply Keeps.upd)
    | split

theorem State.sendFp_keeps {s0 s : State} (h : Keeps s0 s) {i : Inst} {l : Leg} : Keeps s0 (s.sendFp i l).1 := by
  unfold State.sendFp
  repeat' first
    | with_reducible first | assumption | apply Keeps.ite | apply Keeps.ite1 | apply Keeps.foldl1 | apply State.fpCell_keeps
    | ((fail_if_no_progress extract_lets +onlyGivenNames x)
       first
        | (refine (?_ : Keeps s0 x → _) ?_; (clear_value x; intro _); on_goal 2 => unfold x)
        | clear_value x)

theorem State.sendSeg_keeps {s0 s : State} (h : Keeps s0 s) {i : Inst} {l : Leg} {n : Nat} {cells : List Piece}
    : Keeps s0 (s.sendSeg i l n cells).1 := by
  unfold State.sendSeg
  repeat' first
    | with_reducible first | assumption | apply Keeps.ite | apply Keeps.ite1 | apply Keeps.foldl1 | apply State.segOut_keeps
    | ((fail_if_no_progress extract_lets +onlyGivenNames x)
       first
        | (refine (?_ : Keeps s0 x → _) ?_; (clear_value x; intro _); on_goal 2 => unfold x)
        | clear_value x)

theorem State.cack_keeps {s0 s : State} (h : Keeps s0 s) {i : Inst} {l : Leg} : Keeps s0 (s.cack i l).1 := by
  unfold State.cack
  repeat' first
    | (intro _; try beta_reduce)
    | with_reducible first | assumption | apply Keeps.ite | apply Keeps.foldl | apply Keeps.ite1 | apply Keeps.foldl1 | apply State.legCell_keeps
    | ((fail_if_no_progress extract_lets +onlyGivenNames x)
       first
        | (refine (?_ : Keeps s0 x → _) ?_; (clear_value x; intro _); on_goal 2 => unfold x)
        | clear_value x)
    | (fail_if_no_progress with_reducible apply Keeps.upd)
    | with_reducible refine Keeps.p1 (by assumption) ?_
    | split

theorem State.cackDup_keeps {s0 s : State} (h : Keeps s0 s) {i : Inst} {l : Leg} : Keeps s0 (s.cackDup i l).1 := by
  unfold State.cackDup
  repeat' first
    | with_reducible first | assumption | apply Keeps.ite | apply Keeps.ite1 | apply Keeps.foldl1 | apply State.cack_keeps
    | ((fail_if_no_progress extract_lets +onlyGivenNames x)
       first
        | (refine (?_ : Keeps s0 x → _) ?_; (clear_value x; intro _); on_goal 2 => unfold x)
        | clear_value x)
    | (fail_if_no_progress with_reducible apply Keeps.upd)
    | with_reducible refine Keeps.p1 (by assumption) ?_
    | split

theorem State.legDone_keeps {s0 s : State} (h : Keeps s0 s) {i : Inst} {l : Leg} {n : Nat} : Keeps s0 (s.legDone i l n).1 := by
  unfold State.legDone
  repeat' first
    | with_reducible first | assumption | apply Keeps.ite | apply Keeps.ite1 | apply Keeps.foldl1 | apply State.cack_keeps
    | ((fail_if_no_progress extract_lets +onlyGivenNames x)
       first
        | (refine (?_ : Keeps s0 x → _) ?_; (clear_value x; intro _); on_goal 2 => unfold x)
        | clear_value x)
    | (fail_if_no_progress with_reducible apply Keeps.upd)

theorem State.contribute_keeps {s0 s : State} (h : Keeps s0 s) {i : Inst} {n : Nat} : Keeps s0 (s.contribute i n).1 := by
  unfold State.contribute
  repeat' first
    | (intro _; try beta_reduce)
    | with_reducible first | assumption | apply Keeps.ite | apply Keeps.ite1 | apply Keeps.foldl1 | apply State.readFrom_keeps
    | ((fail_if_no_progress extract_lets +onlyGivenNames x)
       first
        | (refine (?_ : Keeps s0 x → _) ?_; (clear_value x; intro _); on_goal 2 => unfold x)
        | clear_value x)
    | (fail_if_no_progress with_reducible apply Keeps.upd)
    | with_reducible refine Keeps.p1 (by assumption) ?_
    | split

theorem State.stepTree_keeps {s0 s : State} (h : Keeps s0 s) {i : Inst} {n : Nat} : Keeps s0 (s.stepTree i n).1 := by
  unfold State.stepTree
  repeat' first
    | (intro _; try beta_reduce)
    | with_reducible first | assumption | apply Keeps.ite | apply Keeps.foldl | apply Keeps.ite1 | apply Keeps.foldl1 | apply State.contribute_keeps
    | with_reducible first | apply State.sendSeg_keeps
    | ((fail_if_no_progress extract_lets +onlyGivenNames x)
       first
        | (refine (?_ : Keeps s0 x → _) ?_; (clear_value x; intro _); on_goal 2 => unfold x)
        | clear_value x)
    | (fail_if_no_progress with_reducible apply Keeps.upd)
    | with_reducible refine Keeps.p1 (by assumption) ?_
    | split

theorem State.stepRing_keeps {s0 s : State} (h : Keeps s0 s) {i : Inst} {n : Nat} : Keeps s0 (s.stepRing i n).1 := by
  unfold State.stepRing
  repeat' first
    | (intro _; try beta_reduce)
    | with_reducible first | assumption | apply Keeps.ite | apply Keeps.ite1 | apply Keeps.foldl1 | apply State.contribute_keeps
    | with_reducible first | apply State.sendSeg_keeps
    | ((fail_if_no_progress extract_lets +onlyGivenNames x)
       first
        | (refine (?_ : Keeps s0 x → _) ?_; (clear_value x; intro _); on_goal 2 => unfold x)
        | clear_value x)
    | (fail_if_no_progress with_reducible apply Keeps.upd)
    | with_reducible refine Keeps.p1 (by assumption) ?_
    | split

theorem State.pump_keeps {s0 : State} {n : Nat} : ∀ {s : State} (_ : Keeps s0 s) {i : Inst}, Keeps s0 (s.pump i n).1 := by
  induction n with
  | zero => exact fun h => h
  | succ n ih =>
    intro s h i
    unfold State.pump
    split
    · exact h
    · extract_lets stop
      split
      rename_i t j e
      have ht : Keeps s0 t := by
        refine Keeps.p1 e (Keeps.foldl1 h fun q x hq => ?_)
        split
        · exact State.stepRing_keeps hq
        · exact State.stepTree_keeps hq
      extract_lets k
      split
      · exact ht
      · exact ih ht

theorem State.relCacks_keeps {s0 s : State} (h : Keeps s0 s) {i : Inst} : Keeps s0 (s.relCacks i).1 := by
  unfold State.relCacks
  repeat' first
    | (intro _; try beta_reduce)
    | with_reducible first | assumption | apply Keeps.ite | apply Keeps.foldl | apply Keeps.ite1 | apply Keeps.foldl1 | apply State.cack_keeps

theorem State.finishColl_keeps {s0 s : State} (h : Keeps s0 s) {i : Inst} {m : Member} {status : Nat} : Keeps s0 (s.finishColl i m status) := by
  unfold State.finishColl
  repeat' first
    | (intro _; try beta_reduce)
    | with_reducible first | assumption | apply Keeps.ite | apply State.setHost_keeps | apply State.finish_keeps
    | (fail_if_no_progress with_reducible apply Keeps.upd)
    | split

theorem State.nextInst_keeps {s0 s : State} (h : Keeps s0 s) {entry : Nat} : Keeps s0 (s.nextInst entry) := by
  unfold State.nextInst
  repeat' first
    | (intro _; try beta_reduce)
    | with_reducible first | assumption | apply Keeps.ite | apply State.setColl_keeps
    | (fail_if_no_progress with_reducible apply Keeps.upd)
    | split

theorem State.retireInst_keeps {s0 s : State} (h : Keeps s0 s) {i : Inst} : Keeps s0 (s.retireInst i) := by
  unfold State.retireInst
  repeat' first
    | (intro _; try beta_reduce)
    | with_reducible first | assumption | apply State.setColl_keeps | apply State.nextInst_keeps
    | (fail_if_no_progress with_reducible apply Keeps.upd)

theorem State.sendAbort_keeps {s0 s : State} (h : Keeps s0 s) {i : Inst} {l : Leg} {payload : List Byte} : Keeps s0 (s.sendAbort i l payload) := by
  unfold State.sendAbort
  repeat' first
    | with_reducible first | assumption | apply State.legCell_keeps | apply State.setColl_keeps
    | ((fail_if_no_progress extract_lets +onlyGivenNames x)
       first
        | (refine (?_ : Keeps s0 x → _) ?_; (clear_value x; intro _); on_goal 2 => unfold x)
        | clear_value x)
    | (fail_if_no_progress with_reducible apply Keeps.upd)
    | split

theorem State.logAbort_keeps {s0 s : State} (h : Keeps s0 s) {i : Inst} {code detector : Nat} {suspect : Option Nat} {fp : List Byte}
    : Keeps s0 (s.logAbort i code detector suspect fp) := by
  unfold State.logAbort
  repeat' first
    | (intro _; try beta_reduce)
    | with_reducible first | assumption | apply Keeps.foldl | apply State.wrP_keeps | apply State.setInt_keeps
    | ((fail_if_no_progress extract_lets +onlyGivenNames x)
       first
        | (refine (?_ : Keeps s0 x → _) ?_; (clear_value x; intro _); on_goal 2 => unfold x)
        | clear_value x)

theorem State.tellAbort_keeps {s0 s : State} (h : Keeps s0 s) {i : Inst} {code detector : Nat} {suspect : Option Nat} {fp : List Byte}
    {but : Option Leg} {seg : Option Nat} : Keeps s0 (s.tellAbort i code detector suspect fp but seg) := by
  unfold State.tellAbort
  repeat' first
    | (intro _; try beta_reduce)
    | with_reducible first | assumption | apply Keeps.ite | apply Keeps.foldl | apply State.bump_keeps | apply State.sendAbort_keeps
    | with_reducible first | apply State.logAbort_keeps | apply State.raise_keeps | apply State.fogRange_keeps | apply State.finishColl_keeps
    | ((fail_if_no_progress extract_lets +onlyGivenNames x)
       first
        | (refine (?_ : Keeps s0 x → _) ?_; (clear_value x; intro _); on_goal 2 => unfold x)
        | clear_value x)
    | (fail_if_no_progress with_reducible apply Keeps.upd)
    | split

theorem State.abortInst_keeps {s0 s : State} (h : Keeps s0 s) {i : Inst} {code detector : Nat} {suspect : Option Nat} {fp : List Byte}
    {but : Option Leg} {seg : Option Nat} : Keeps s0 (s.abortInst i code detector suspect fp but seg) := by
  unfold State.abortInst
  repeat' first
    | with_reducible first | assumption | apply State.tellAbort_keeps | apply State.retireInst_keeps
    | (fail_if_no_progress with_reducible apply Keeps.upd)

theorem State.abortScheduled_keeps {s0 s : State} (h : Keeps s0 s) {c : Cause} : Keeps s0 (s.abortScheduled c) := by
  unfold State.abortScheduled
  repeat' first
    | (intro _; try beta_reduce)
    | with_reducible first | assumption | apply Keeps.foldl | apply State.setColl_keeps | apply State.tellAbort_keeps | apply State.abortInst_keeps
    | ((fail_if_no_progress extract_lets +onlyGivenNames x)
       first
        | (refine (?_ : Keeps s0 x → _) ?_; (clear_value x; intro _); on_goal 2 => unfold x)
        | clear_value x)
    | (fail_if_no_progress with_reducible apply Keeps.upd)

theorem State.abortCollectives_keeps {s0 s : State} (h : Keeps s0 s) : Keeps s0 (s.abortCollectives) := by
  unfold State.abortCollectives
  repeat' first | with_reducible first | assumption | apply State.abortScheduled_keeps

theorem State.mapMember_keeps {s0 s : State} (h : Keeps s0 s) {entry cseq : Nat} {f : Inst → Member → Inst} : Keeps s0 (s.mapMember entry cseq f)
    := by
  unfold State.mapMember
  repeat' first
    | (intro _; try beta_reduce)
    | with_reducible first | assumption | apply Keeps.ite | apply State.setColl_keeps
    | ((fail_if_no_progress extract_lets +onlyGivenNames x)
       first
        | (refine (?_ : Keeps s0 x → _) ?_; (clear_value x; intro _); on_goal 2 => unfold x)
        | clear_value x)
    | (fail_if_no_progress with_reducible apply Keeps.upd)
    | split

theorem State.collectBytes_keeps {s0 s : State} (h : Keeps s0 s) {entry cseq addr n : Nat} : Keeps s0 (s.collectBytes entry cseq addr n) := by
  unfold State.collectBytes
  repeat' first
    | (intro _; try beta_reduce)
    | with_reducible first | assumption | apply State.mapMember_keeps
    | (fail_if_no_progress with_reducible apply Keeps.upd)

theorem State.checkFps_keeps {s0 s : State} (h : Keeps s0 s) {i : Inst} : Keeps s0 (s.checkFps i).1 := by
  unfold State.checkFps
  repeat' first
    | (intro _; try beta_reduce)
    | with_reducible first | assumption | apply Keeps.ite | apply Keeps.foldl | apply Keeps.ite1 | apply Keeps.foldl1 | apply State.sendFp_keeps
    | ((fail_if_no_progress extract_lets +onlyGivenNames x)
       first
        | (refine (?_ : Keeps s0 x → _) ?_; (clear_value x; intro _); on_goal 2 => unfold x)
        | clear_value x)
    | (fail_if_no_progress with_reducible apply Keeps.upd)
    | with_reducible refine Keeps.p1 (by assumption) ?_
    | split

theorem State.enterMember_keeps {s0 s : State} (h : Keeps s0 s) {entry cseq n : Nat} : Keeps s0 (s.enterMember entry cseq n) := by
  unfold State.enterMember
  repeat' first
    | (intro _; try beta_reduce)
    | with_reducible first | assumption | apply State.mapMember_keeps
    | (fail_if_no_progress with_reducible apply Keeps.upd)

theorem State.settleInst_keeps {s0 s : State} (h : Keeps s0 s) {i : Inst} : Keeps s0 (s.settleInst i).1 := by
  unfold State.settleInst
  repeat' first
    | with_reducible first | assumption | apply Keeps.ite | apply Keeps.ite1 | apply Keeps.foldl1 | apply State.pump_keeps | apply State.putInst_keeps
    | with_reducible first | apply State.abortInst_keeps | apply State.relCacks_keeps | apply State.bump64_keeps | apply State.retireInst_keeps
    | ((fail_if_no_progress extract_lets +onlyGivenNames x)
       first
        | (refine (?_ : Keeps s0 x → _) ?_; (clear_value x; intro _); on_goal 2 => unfold x)
        | clear_value x)
    | (fail_if_no_progress with_reducible apply Keeps.upd)
    | with_reducible refine Keeps.p1 (by assumption) ?_
    | split

theorem State.touchInst_keeps {s0 s : State} (h : Keeps s0 s) {i : Inst} : Keeps s0 (s.touchInst i).1 := by
  unfold State.touchInst
  repeat' first
    | with_reducible first | assumption | apply Keeps.ite | apply Keeps.ite1 | apply Keeps.foldl1 | apply State.checkFps_keeps
    | with_reducible first | apply State.bump_keeps | apply State.putInst_keeps | apply State.abortInst_keeps | apply State.settleInst_keeps
    | ((fail_if_no_progress extract_lets +onlyGivenNames x)
       first
        | (refine (?_ : Keeps s0 x → _) ?_; (clear_value x; intro _); on_goal 2 => unfold x)
        | clear_value x)
    | (fail_if_no_progress with_reducible apply Keeps.upd)
    | with_reducible refine Keeps.p1 (by assumption) ?_
    | split

theorem State.touchFresh_keeps {s0 s : State} (h : Keeps s0 s) : Keeps s0 (s.touchFresh).1 := by
  unfold State.touchFresh
  repeat' first
    | (intro _; try beta_reduce)
    | with_reducible first | assumption | apply Keeps.foldl | apply Keeps.ite1 | apply Keeps.foldl1 | apply State.touchInst_keeps
    | ((fail_if_no_progress extract_lets +onlyGivenNames x)
       first
        | (refine (?_ : Keeps s0 x → _) ?_; (clear_value x; intro _); on_goal 2 => unfold x)
        | clear_value x)
    | (fail_if_no_progress with_reducible apply Keeps.upd)
    | with_reducible refine Keeps.p1 (by assumption) ?_
    | split

theorem State.touchEntry_keeps {s0 s : State} (h : Keeps s0 s) {entry : Nat} : Keeps s0 (s.touchEntry entry).1 := by
  unfold State.touchEntry
  repeat' first
    | with_reducible first | assumption | apply Keeps.ite1 | apply Keeps.foldl1 | apply State.touchInst_keeps | apply State.touchFresh_keeps
    | ((fail_if_no_progress extract_lets +onlyGivenNames x)
       first
        | (refine (?_ : Keeps s0 x → _) ?_; (clear_value x; intro _); on_goal 2 => unfold x)
        | clear_value x)
    | (fail_if_no_progress with_reducible apply Keeps.upd)
    | split

theorem State.beginInst_keeps {s0 s : State} (h : Keeps s0 s) {i : Inst} : Keeps s0 (s.beginInst i) := by
  unfold State.beginInst
  repeat' first
    | with_reducible first | assumption | apply Keeps.ite | apply State.setColl_keeps | apply State.putInst_keeps
    | (fail_if_no_progress with_reducible apply Keeps.upd)
    | split

/-! ## Frames -/

theorem State.countIdle_keeps {s0 s : State} (h : Keeps s0 s) {die cause n : Nat} : Keeps s0 (s.countIdle die cause n) := by
  unfold State.countIdle
  repeat' first | with_reducible first | assumption | apply Keeps.ite | apply State.bump64_keeps

theorem State.countFreezes_keeps {s0 : State} {l : List Freeze} : ∀ {s : State} (_ : Keeps s0 s)
    {cur stop : Nat}, Keeps s0 (s.countFreezes l cur stop) := by
  induction l with
  | nil => exact fun h => h
  | cons f r ih =>
    intro s h cur stop
    unfold State.countFreezes
    extract_lets e n x
    have hx : Keeps s0 x := Keeps.ite (State.countIdle_keeps h) h
    exact ih hx

theorem State.endFreezes_keeps {s0 s : State} (h : Keeps s0 s) {wall : Nat} : Keeps s0 (s.endFreezes wall) := by
  unfold State.endFreezes
  repeat' first
    | (intro _; try beta_reduce)
    | with_reducible first | assumption | apply Keeps.ite | apply Keeps.foldl | apply State.bump_keeps | apply State.countFreezes_keeps
    | ((fail_if_no_progress extract_lets +onlyGivenNames x)
       first
        | (refine (?_ : Keeps s0 x → _) ?_; (clear_value x; intro _); on_goal 2 => unfold x)
        | clear_value x)
    | (fail_if_no_progress with_reducible apply Keeps.upd)

theorem State.flushSends_keeps {s0 s : State} (h : Keeps s0 s) {due : List Due} : Keeps s0 (s.flushSends due) := by
  unfold State.flushSends
  repeat' first
    | (intro _; try beta_reduce)
    | with_reducible first | assumption | apply Keeps.foldl | apply State.gatherCells_keeps | apply State.departCell_keeps
    | ((fail_if_no_progress extract_lets +onlyGivenNames x)
       first
        | (refine (?_ : Keeps s0 x → _) ?_; (clear_value x; intro _); on_goal 2 => unfold x)
        | clear_value x)
    | (fail_if_no_progress with_reducible apply Keeps.upd)
    | split

theorem State.abortFrame_keeps {s0 s : State} (h : Keeps s0 s) {code : Nat} : Keeps s0 (s.abortFrame code) := by
  unfold State.abortFrame
  repeat' first
    | (intro _; try beta_reduce)
    | with_reducible first | assumption | apply Keeps.ite | apply Keeps.foldl | apply State.endFreezes_keeps | apply State.fogRange_keeps
    | with_reducible first | apply State.setP_keeps | apply State.setFrame_keeps | apply State.flushSends_keeps | apply State.completeRun_keeps
    | with_reducible first | apply State.abortCollectives_keeps
    | ((fail_if_no_progress extract_lets +onlyGivenNames x)
       first
        | (refine (?_ : Keeps s0 x → _) ?_; (clear_value x; intro _); on_goal 2 => unfold x)
        | clear_value x)
    | (fail_if_no_progress with_reducible apply Keeps.upd)

theorem State.offerRecord_keeps {s0 s : State} (h : Keeps s0 s) {die : Nat} {data : List Byte} : Keeps s0 (s.offerRecord die data) := by
  unfold State.offerRecord
  repeat' first
    | with_reducible first | assumption
    | ((fail_if_no_progress extract_lets +onlyGivenNames x)
       first
        | (refine (?_ : Keeps s0 x → _) ?_; (clear_value x; intro _); on_goal 2 => unfold x)
        | clear_value x)
    | (fail_if_no_progress with_reducible apply Keeps.upd)

theorem State.store_keeps {s0 s : State} (h : Keeps s0 s) {a : Nat} {l : List Byte} : Keeps s0 (s.store a l) := by
  unfold State.store
  repeat' first
    | (intro _; try beta_reduce)
    | with_reducible first | assumption | apply Keeps.ite | apply Keeps.foldl | apply State.write_keeps | apply State.markRemap_keeps
    | ((fail_if_no_progress extract_lets +onlyGivenNames x)
       first
        | (refine (?_ : Keeps s0 x → _) ?_; (clear_value x; intro _); on_goal 2 => unfold x)
        | clear_value x)

theorem State.raiseCode_keeps {s0 s : State} (h : Keeps s0 s) {p : Page} {code : Nat} {addr : Option Nat} {info : Nat}
    : Keeps s0 (s.raiseCode p code addr info) := by
  unfold State.raiseCode
  repeat' first
    | with_reducible first | assumption | apply Keeps.ite | apply State.raise_keeps | apply State.stopJob_keeps
    | ((fail_if_no_progress extract_lets +onlyGivenNames x)
       first
        | (refine (?_ : Keeps s0 x → _) ?_; (clear_value x; intro _); on_goal 2 => unfold x)
        | clear_value x)
    | (fail_if_no_progress with_reducible apply Keeps.upd)

theorem State.putGranule_keeps {s0 s : State} (h : Keeps s0 s) {w : Writer} {a : Nat} {l : List Byte} : Keeps s0 (s.putGranule w a l) := by
  unfold State.putGranule
  repeat' first | with_reducible first | assumption | apply Keeps.ite | apply State.raise_keeps | apply State.store_keeps

theorem State.putFrom_keeps {s0 s : State} (h : Keeps s0 s) {w : Writer} {a : Nat} {l : List Byte} : Keeps s0 (s.putFrom w a l) := by
  unfold State.putFrom
  repeat' first
    | (intro _; try beta_reduce)
    | with_reducible first | assumption | apply Keeps.ite | apply Keeps.foldl | apply State.putGranule_keeps
    | ((fail_if_no_progress extract_lets +onlyGivenNames x)
       first
        | (refine (?_ : Keeps s0 x → _) ?_; (clear_value x; intro _); on_goal 2 => unfold x)
        | clear_value x)

theorem State.frameDenied_keeps {s0 s : State} (h : Keeps s0 s) {d : Denial} : Keeps s0 (s.frameDenied d) := by
  unfold State.frameDenied
  repeat' first | with_reducible first | assumption | apply Keeps.ite | apply State.captureDenial_keeps | apply State.abortFrame_keeps

theorem State.apply_keeps {s0 s : State} (h : Keeps s0 s) {e : Effect} : Keeps s0 (s.apply e) := by
  unfold State.apply
  repeat' first
    | with_reducible first | assumption | apply Keeps.ite | apply State.store_keeps | apply State.setSreg_keeps | apply State.bump64At_keeps
    | with_reducible first | apply State.bumpAt_keeps | apply State.setInt_keeps | apply State.frameDenied_keeps | apply State.burstErr_keeps
    | with_reducible first | apply State.abortFrame_keeps | apply State.signal_keeps | apply State.offerRecord_keeps | apply State.wrP_keeps
    | with_reducible first | apply State.raiseCode_keeps | apply State.raise_keeps | apply State.gatherCells_keeps | apply State.departCell_keeps
    | with_reducible first | apply State.putFrom_keeps | apply State.collectBytes_keeps | apply State.enterMember_keeps | apply State.touchEntry_keeps
    | ((fail_if_no_progress extract_lets +onlyGivenNames x)
       first
        | (refine (?_ : Keeps s0 x → _) ?_; (clear_value x; intro _); on_goal 2 => unfold x)
        | clear_value x)
    | (fail_if_no_progress with_reducible apply Keeps.upd)
    | with_reducible refine Keeps.p1 (by assumption) ?_
    | split

theorem State.later_keeps {s0 s : State} (h : Keeps s0 s) {cycle : Nat} {e : Effect} : Keeps s0 (s.later cycle e) := by
  unfold State.later
  repeat' first | with_reducible first | assumption | (fail_if_no_progress with_reducible apply Keeps.upd)

theorem State.laterEach_keeps {s0 s : State} (h : Keeps s0 s) {cycle : Nat} {l : List Page} {f : Page → Effect} : Keeps s0 (s.laterEach cycle l f)
    := by
  unfold State.laterEach
  repeat' first | (intro _; try beta_reduce) | with_reducible first | assumption | apply Keeps.foldl | apply State.later_keeps

theorem State.laterBytes_keeps {s0 s : State} (h : Keeps s0 s) {cycle a : Nat} {l : List Byte} {half : Bool} : Keeps s0 (s.laterBytes cycle a l half)
    := by
  unfold State.laterBytes
  repeat' first | with_reducible first | assumption | apply Keeps.ite | apply State.later_keeps

theorem State.settlePart_keeps {s0 s : State} (h : Keeps s0 s) {reads : Bool} : Keeps s0 (s.settlePart reads) := by
  unfold State.settlePart
  repeat' first
    | (intro _; try beta_reduce)
    | with_reducible first | assumption | apply Keeps.foldl | apply State.apply_keeps
    | ((fail_if_no_progress extract_lets +onlyGivenNames x)
       first
        | (refine (?_ : Keeps s0 x → _) ?_; (clear_value x; intro _); on_goal 2 => unfold x)
        | clear_value x)
    | (fail_if_no_progress with_reducible apply Keeps.upd)

theorem State.settleReads_keeps {s0 s : State} (h : Keeps s0 s) : Keeps s0 (s.settleReads) := by
  unfold State.settleReads
  repeat' first | with_reducible first | assumption | apply Keeps.ite | apply State.settlePart_keeps

theorem State.settle_keeps {s0 s : State} (h : Keeps s0 s) : Keeps s0 (s.settle) := by
  unfold State.settle
  repeat' first | with_reducible first | assumption | apply State.settlePart_keeps | apply State.settleReads_keeps

theorem State.replayReads_keeps {s0 s : State} (h : Keeps s0 s) {wall : Nat} : Keeps s0 (s.replayReads wall) := by
  unfold State.replayReads
  repeat' first | (intro _; try beta_reduce) | with_reducible first | assumption | (fail_if_no_progress with_reducible apply Keeps.upd) | split

theorem State.endReplays_keeps {s0 s : State} (h : Keeps s0 s) : Keeps s0 (s.endReplays) := by
  unfold State.endReplays
  repeat' first | (intro _; try beta_reduce) | with_reducible first | assumption | (fail_if_no_progress with_reducible apply Keeps.upd)

theorem State.waitTo_keeps {s0 s : State} (h : Keeps s0 s) {wall : Nat} : Keeps s0 (s.waitTo wall) := by
  unfold State.waitTo
  repeat' first | with_reducible first | assumption | apply State.replayReads_keeps | (fail_if_no_progress with_reducible apply Keeps.upd)

theorem State.lastSat_keeps {s0 s : State} (h : Keeps s0 s) {pg : Page} {p : Pass} {scale : Nat} : Keeps s0 (s.lastSat pg p scale) := by
  unfold State.lastSat
  repeat' first | with_reducible first | assumption | apply State.wrP_keeps

theorem State.startReplay_keeps {s0 s : State} (h : Keeps s0 s) {p : Pass} : Keeps s0 (s.startReplay p) := by
  unfold State.startReplay
  repeat' first
    | (intro _; try beta_reduce)
    | with_reducible first | assumption | apply Keeps.ite | apply Keeps.foldl | apply State.bump_keeps | apply State.lastSat_keeps
    | with_reducible first | apply State.setInt_keeps | apply State.setFrame_keeps
    | ((fail_if_no_progress extract_lets +onlyGivenNames x)
       first
        | (refine (?_ : Keeps s0 x → _) ?_; (clear_value x; intro _); on_goal 2 => unfold x)
        | clear_value x)
    | (fail_if_no_progress with_reducible apply Keeps.upd)

theorem State.commitPass_keeps {s0 s : State} (h : Keeps s0 s) {p : Pass} : Keeps s0 (s.commitPass p) := by
  unfold State.commitPass
  repeat' first
    | (intro _; try beta_reduce)
    | with_reducible first | assumption | apply Keeps.ite | apply Keeps.foldl | apply State.store_keeps | apply State.bump64_keeps
    | with_reducible first | apply State.setTdesc_keeps | apply State.bump_keeps | apply State.lastSat_keeps | apply State.raise_keeps
    | ((fail_if_no_progress extract_lets +onlyGivenNames x)
       first
        | (refine (?_ : Keeps s0 x → _) ?_; (clear_value x; intro _); on_goal 2 => unfold x)
        | clear_value x)
    | (fail_if_no_progress with_reducible apply Keeps.upd)
    | split

theorem State.commits_keeps {s0 s : State} (h : Keeps s0 s) : Keeps s0 (s.commits) := by
  unfold State.commits
  repeat' first
    | (intro _; try beta_reduce)
    | with_reducible first | assumption | apply Keeps.ite | apply Keeps.foldl | apply State.commitPass_keeps | apply State.startReplay_keeps
    | ((fail_if_no_progress extract_lets +onlyGivenNames x)
       first
        | (refine (?_ : Keeps s0 x → _) ?_; (clear_value x; intro _); on_goal 2 => unfold x)
        | clear_value x)

theorem State.readPasses_keeps {s0 s : State} (h : Keeps s0 s) : Keeps s0 (s.readPasses) := by
  unfold State.readPasses
  repeat' first
    | (intro _; try beta_reduce)
    | with_reducible first | assumption | apply Keeps.ite
    | ((fail_if_no_progress extract_lets +onlyGivenNames x)
       first
        | (refine (?_ : Keeps s0 x → _) ?_; (clear_value x; intro _); on_goal 2 => unfold x)
        | clear_value x)
    | (fail_if_no_progress with_reducible apply Keeps.upd)

theorem State.readLoads_keeps {s0 s : State} (h : Keeps s0 s) : Keeps s0 (s.readLoads) := by
  unfold State.readLoads
  repeat' first | with_reducible first | assumption | (fail_if_no_progress with_reducible apply Keeps.upd)

theorem State.finishChain_keeps {s0 s : State} (h : Keeps s0 s) {c : Chain} : Keeps s0 (s.finishChain c) := by
  unfold State.finishChain
  repeat' first
    | (intro _; try beta_reduce)
    | with_reducible first | assumption | apply Keeps.ite | apply Keeps.foldl | apply State.laterBytes_keeps | apply State.laterEach_keeps
    | with_reducible first | apply State.later_keeps | apply State.raise_keeps
    | ((fail_if_no_progress extract_lets +onlyGivenNames x)
       first
        | (refine (?_ : Keeps s0 x → _) ?_; (clear_value x; intro _); on_goal 2 => unfold x)
        | clear_value x)

theorem State.readChain_keeps {s0 s : State} (h : Keeps s0 s) {c : Chain} : Keeps s0 (s.readChain c) := by
  unfold State.readChain
  repeat' first
    | with_reducible first | assumption | apply Keeps.ite | apply State.finishChain_keeps
    | ((fail_if_no_progress extract_lets +onlyGivenNames x)
       first
        | (refine (?_ : Keeps s0 x → _) ?_; (clear_value x; intro _); on_goal 2 => unfold x)
        | clear_value x)
    | (fail_if_no_progress with_reducible apply Keeps.upd)

theorem State.readChains_keeps {s0 s : State} (h : Keeps s0 s) : Keeps s0 (s.readChains) := by
  unfold State.readChains
  repeat' first
    | (intro _; try beta_reduce)
    | with_reducible first | assumption | apply Keeps.foldl | apply State.readChain_keeps
    | (fail_if_no_progress with_reducible apply Keeps.upd)

theorem State.readMove_keeps {s0 s : State} (h : Keeps s0 s) {m : Move} : Keeps s0 (s.readMove m) := by
  unfold State.readMove
  repeat' first
    | with_reducible first | assumption | apply Keeps.ite | apply State.later_keeps
    | ((fail_if_no_progress extract_lets +onlyGivenNames x)
       first
        | (refine (?_ : Keeps s0 x → _) ?_; (clear_value x; intro _); on_goal 2 => unfold x)
        | clear_value x)
    | (fail_if_no_progress with_reducible apply Keeps.upd)

theorem State.readMoves_keeps {s0 s : State} (h : Keeps s0 s) : Keeps s0 (s.readMoves) := by
  unfold State.readMoves
  repeat' first
    | (intro _; try beta_reduce)
    | with_reducible first | assumption | apply Keeps.foldl | apply State.readMove_keeps
    | (fail_if_no_progress with_reducible apply Keeps.upd)

theorem State.runCulm_keeps {s0 s : State} (h : Keeps s0 s) {c : CulmOp} : Keeps s0 (s.runCulm c) := by
  unfold State.runCulm
  repeat' first
    | (intro _; try beta_reduce)
    | with_reducible first | assumption | apply Keeps.ite | apply Keeps.foldl | apply State.frameDenied_keeps | apply State.later_keeps
    | with_reducible first | apply State.raise_keeps
    | ((fail_if_no_progress extract_lets +onlyGivenNames x)
       first
        | (refine (?_ : Keeps s0 x → _) ?_; (clear_value x; intro _); on_goal 2 => unfold x)
        | clear_value x)
    | (fail_if_no_progress with_reducible apply Keeps.upd)
    | with_reducible refine Keeps.p1 (by assumption) ?_
    | split

theorem State.readCulms_keeps {s0 s : State} (h : Keeps s0 s) : Keeps s0 (s.readCulms) := by
  unfold State.readCulms
  repeat' first
    | (intro _; try beta_reduce)
    | with_reducible first | assumption | apply Keeps.foldl | apply State.runCulm_keeps
    | ((fail_if_no_progress extract_lets +onlyGivenNames x)
       first
        | (refine (?_ : Keeps s0 x → _) ?_; (clear_value x; intro _); on_goal 2 => unfold x)
        | clear_value x)
    | (fail_if_no_progress with_reducible apply Keeps.upd)

theorem State.degraded_keeps {s0 s : State} (h : Keeps s0 s) : Keeps s0 (s.degraded) := by
  unfold State.degraded
  repeat' first
    | (intro _; try beta_reduce)
    | with_reducible first | assumption | apply Keeps.ite | apply Keeps.foldl | apply State.served_keeps | apply State.setLink_keeps
    | with_reducible first | apply State.setFrame_keeps
    | ((fail_if_no_progress extract_lets +onlyGivenNames x)
       first
        | (refine (?_ : Keeps s0 x → _) ?_; (clear_value x; intro _); on_goal 2 => unfold x)
        | clear_value x)
    | (fail_if_no_progress with_reducible apply Keeps.upd)

theorem State.reads_keeps {s0 s : State} (h : Keeps s0 s) : Keeps s0 (s.reads) := by
  unfold State.reads
  repeat' first
    | with_reducible first | assumption | apply State.readPasses_keeps | apply State.readLoads_keeps | apply State.readChains_keeps
    | with_reducible first | apply State.readMoves_keeps | apply State.readCulms_keeps

theorem State.cycleWork_keeps {s0 s : State} (h : Keeps s0 s) : Keeps s0 (s.cycleWork) := by
  unfold State.cycleWork
  repeat' first
    | with_reducible first | assumption | apply Keeps.ite | apply State.degraded_keeps | apply State.settlePart_keeps | apply State.commits_keeps
    | with_reducible first | apply State.settleReads_keeps | apply State.reads_keeps
    | ((fail_if_no_progress extract_lets +onlyGivenNames x)
       first
        | (refine (?_ : Keeps s0 x → _) ?_; (clear_value x; intro _); on_goal 2 => unfold x)
        | clear_value x)

theorem State.countTo_keeps {s0 s : State} (h : Keeps s0 s) {c : Nat} : Keeps s0 (s.countTo c) := by
  unfold State.countTo
  repeat' first
    | with_reducible first | assumption
    | ((fail_if_no_progress extract_lets +onlyGivenNames x)
       first
        | (refine (?_ : Keeps s0 x → _) ?_; (clear_value x; intro _); on_goal 2 => unfold x)
        | clear_value x)
    | (fail_if_no_progress with_reducible apply Keeps.upd)

theorem State.runTo_keeps {s0 : State} {n : Nat} : ∀ {s : State} (_ : Keeps s0 s) {target : Nat}, Keeps s0 (s.runTo n target) := by
  induction n with
  | zero => exact fun h => h
  | succ n ih =>
    intro s h target
    unfold State.runTo
    repeat' first | with_reducible first | assumption | apply Keeps.ite | apply ih | apply State.cycleWork_keeps | apply State.countTo_keeps | split

theorem State.thaw_keeps {s0 s : State} (h : Keeps s0 s) {wall : Nat} : Keeps s0 (s.thaw wall) := by
  unfold State.thaw
  repeat' first
    | with_reducible first | assumption | apply State.replayReads_keeps | apply State.endFreezes_keeps | apply State.endReplays_keeps
    | with_reducible first | apply State.cycleWork_keeps

theorem State.stretchAbort_keeps {s0 s : State} (h : Keeps s0 s) {wall : Nat} : Keeps s0 (s.stretchAbort wall) := by
  unfold State.stretchAbort
  repeat' first
    | with_reducible first | assumption | apply State.raise_keeps | apply State.abortFrame_keeps
    | ((fail_if_no_progress extract_lets +onlyGivenNames x)
       first
        | (refine (?_ : Keeps s0 x → _) ?_; (clear_value x; intro _); on_goal 2 => unfold x)
        | clear_value x)
    | (fail_if_no_progress with_reducible apply Keeps.upd)

theorem State.passTo_keeps {s0 : State} {n : Nat} : ∀ {s : State} (_ : Keeps s0 s) {t : Nat}, Keeps s0 (s.passTo n t) := by
  induction n with
  | zero => exact fun h => h
  | succ n ih =>
    intro s h t
    unfold State.passTo
    repeat' first
      | with_reducible first | assumption | apply Keeps.ite | apply ih | apply State.stretchAbort_keeps | apply State.thaw_keeps
      | with_reducible first | apply State.runTo_keeps | apply State.waitTo_keeps | exact Keeps.upd ‹_›
      | (extract_lets +onlyGivenNames x; clear_value x)
      | split

theorem State.passTime_keeps {s0 s : State} (h : Keeps s0 s) {t : Nat} : Keeps s0 (s.passTime t) := by
  unfold State.passTime
  repeat' first | with_reducible first | assumption | apply State.passTo_keeps

theorem State.reach_keeps {s0 : State} {n : Nat} : ∀ {s : State} (_ : Keeps s0 s) {wait : Bool} {stamp : Nat}, Keeps s0 (s.reach wait n stamp) := by
  induction n with
  | zero => exact fun h => h
  | succ n ih =>
    intro s h wait t
    unfold State.reach
    repeat' first
      | with_reducible first | assumption | apply Keeps.ite | apply ih | apply State.stretchAbort_keeps | apply State.thaw_keeps
      | with_reducible first | apply State.runTo_keeps
      | (extract_lets +onlyGivenNames x; clear_value x)
      | split

theorem State.advance_keeps {s0 s : State} (h : Keeps s0 s) {stamp : Nat} : Keeps s0 (s.advance stamp) := by
  unfold State.advance
  repeat' first | with_reducible first | assumption | apply State.reach_keeps

theorem State.comeTo_keeps {s0 s : State} (h : Keeps s0 s) {stamp : Nat} : Keeps s0 (s.comeTo stamp) := by
  unfold State.comeTo
  repeat' first | with_reducible first | assumption | apply State.reach_keeps

theorem State.freeze_keeps {s0 s : State} (h : Keeps s0 s) {reason : FreezeReason} {die : Nat} {stop : Option Nat} {w : Waiter} {a : Option Nat}
    : Keeps s0 (s.freeze reason die stop w a) := by
  unfold State.freeze
  repeat' first
    | with_reducible first | assumption | apply Keeps.ite | apply State.setFrame_keeps
    | ((fail_if_no_progress extract_lets +onlyGivenNames x)
       first
        | (refine (?_ : Keeps s0 x → _) ?_; (clear_value x; intro _); on_goal 2 => unfold x)
        | clear_value x)
    | (fail_if_no_progress with_reducible apply Keeps.upd)

/-! ## Words -/

theorem State.issueFail_keeps {s0 s : State} (h : Keeps s0 s) {w : SWord} {rchInfo : Nat} {unit : Blame} {f : Finding}
    : Keeps s0 (s.issueFail w rchInfo unit f) := by
  unfold State.issueFail
  repeat' first
    | with_reducible first | assumption | apply Keeps.ite | apply State.bump_keeps | apply State.raise_keeps | apply State.abortFrame_keeps
    | ((fail_if_no_progress extract_lets +onlyGivenNames x)
       first
        | (refine (?_ : Keeps s0 x → _) ?_; (clear_value x; intro _); on_goal 2 => unfold x)
        | clear_value x)
    | (fail_if_no_progress with_reducible apply Keeps.upd)
    | split

theorem State.issue_keeps {s0 s : State} (h : Keeps s0 s) {w : SWord} {kind op rchInfo : Nat} {blame : State → Blame}
    {check : State → WordCtx → RawWord → List Finding} {effect : State → State} (heffect : ∀ t, Keeps s0 t → Keeps s0 (effect t)) : Keeps s0 (s.issue w kind op rchInfo blame check effect) := by
  unfold State.issue
  repeat' first
    | (intro _; try beta_reduce)
    | with_reducible first | assumption | apply Keeps.ite | apply heffect | apply State.begin_keeps | apply State.advance_keeps
    | with_reducible first | apply State.issueFail_keeps | apply State.reads_keeps
    | ((fail_if_no_progress extract_lets +onlyGivenNames x)
       first
        | (refine (?_ : Keeps s0 x → _) ?_; (clear_value x; intro _); on_goal 2 => unfold x)
        | clear_value x)
    | (fail_if_no_progress with_reducible apply Keeps.upd)
    | split

theorem execNoOperationWord_answers {s0 s : State} (h : Keeps s0 s) {w : SWord} : Answers s0 (execNoOperationWord w s) :=
  Answers.next (State.issue_keeps h fun _ ht => ht)

theorem State.eventWait_keeps {s0 s : State} (h : Keeps s0 s) {w : SWord} : Keeps s0 (s.eventWait w) := by
  unfold State.eventWait
  repeat' first
    | with_reducible first | assumption | apply Keeps.ite | apply State.freeze_keeps
    | ((fail_if_no_progress extract_lets +onlyGivenNames x)
       first
        | (refine (?_ : Keeps s0 x → _) ?_; (clear_value x; intro _); on_goal 2 => unfold x)
        | clear_value x)

theorem State.issueWait_keeps {s0 s : State} (h : Keeps s0 s) {w : SWord} {kind op : Nat} {check : State → WordCtx → RawWord → List Finding}
    {effect : State → State} (heffect : ∀ t, Keeps s0 t → Keeps s0 (effect t)) : Keeps s0 (s.issueWait w kind op check effect) := by
  unfold State.issueWait
  repeat' first
    | (intro _; try beta_reduce)
    | with_reducible first | assumption | apply Keeps.ite | apply heffect | apply State.begin_keeps | apply State.comeTo_keeps
    | with_reducible first | apply State.issueFail_keeps
    | ((fail_if_no_progress extract_lets +onlyGivenNames x)
       first
        | (refine (?_ : Keeps s0 x → _) ?_; (clear_value x; intro _); on_goal 2 => unfold x)
        | clear_value x)
    | (fail_if_no_progress with_reducible apply Keeps.upd)
    | split

theorem execEventWait_answers {s0 s : State} (h : Keeps s0 s) {w : SWord} : Answers s0 (execEventWait w s) := by
  unfold execEventWait
  repeat' first
    | (intro _; try beta_reduce)
    | with_reducible first | assumption | apply Answers.next | apply State.issueWait_keeps | apply State.eventWait_keeps

theorem execEventSignal_answers {s0 s : State} (h : Keeps s0 s) {w : SWord} : Answers s0 (execEventSignal w s) := by
  unfold execEventSignal
  repeat' first
    | (intro _; try beta_reduce)
    | with_reducible first | assumption | apply Answers.next | apply State.issue_keeps | apply State.later_keeps
    | ((fail_if_no_progress extract_lets +onlyGivenNames x)
       first
        | (refine (?_ : Keeps s0 x → _) ?_; (clear_value x; intro _); on_goal 2 => unfold x)
        | clear_value x)

/-! ## Tiller -/

theorem State.startPass_keeps {s0 s : State} (h : Keeps s0 s) {w : SWord} {op : Nat} {dis : Option (Fin 256)} : Keeps s0 (s.startPass w op dis) := by
  unfold State.startPass
  repeat' first
    | (intro _; try beta_reduce)
    | with_reducible first | assumption | apply Keeps.ite | apply Keeps.foldl | apply State.bump_keeps | apply State.raise_keeps
    | with_reducible first | apply State.later_keeps
    | ((fail_if_no_progress extract_lets +onlyGivenNames x)
       first
        | (refine (?_ : Keeps s0 x → _) ?_; (clear_value x; intro _); on_goal 2 => unfold x)
        | clear_value x)
    | (fail_if_no_progress with_reducible apply Keeps.upd)
    | split

theorem State.passWord_keeps {s0 s : State} (h : Keeps s0 s) {w : SWord} {op : Nat} {dis : Option (Fin 256)} : Keeps s0 (s.passWord w op dis) := by
  unfold State.passWord
  repeat' first | (intro _; try beta_reduce) | with_reducible first | assumption | apply State.issue_keeps | apply State.startPass_keeps

theorem execPass_answers {s0 s : State} (h : Keeps s0 s) {w : SWord} {dis : Option (Fin 256)} : Answers s0 (execPass w dis s) := by
  unfold execPass
  repeat' first | with_reducible first | assumption | apply Answers.next | apply State.passWord_keeps

theorem execPassInit_answers {s0 s : State} (h : Keeps s0 s) {w : SWord} {dis : Option (Fin 256)} : Answers s0 (execPassInit w dis s) := by
  unfold execPassInit
  repeat' first | with_reducible first | assumption | apply Answers.next | apply State.passWord_keeps

theorem execPassMax_answers {s0 s : State} (h : Keeps s0 s) {w : SWord} {dis : Option (Fin 256)} : Answers s0 (execPassMax w dis s) := by
  unfold execPassMax
  repeat' first | with_reducible first | assumption | apply Answers.next | apply State.passWord_keeps

theorem execPassMin_answers {s0 s : State} (h : Keeps s0 s) {w : SWord} {dis : Option (Fin 256)} : Answers s0 (execPassMin w dis s) := by
  unfold execPassMin
  repeat' first | with_reducible first | assumption | apply Answers.next | apply State.passWord_keeps

theorem execPassMaxInit_answers {s0 s : State} (h : Keeps s0 s) {w : SWord} {dis : Option (Fin 256)} : Answers s0 (execPassMaxInit w dis s) := by
  unfold execPassMaxInit
  repeat' first | with_reducible first | assumption | apply Answers.next | apply State.passWord_keeps

theorem execPassMinInit_answers {s0 s : State} (h : Keeps s0 s) {w : SWord} {dis : Option (Fin 256)} : Answers s0 (execPassMinInit w dis s) := by
  unfold execPassMinInit
  repeat' first | with_reducible first | assumption | apply Answers.next | apply State.passWord_keeps

theorem execPassAdopt_answers {s0 s : State} (h : Keeps s0 s) {w : SWord} {dis : Option (Fin 256)} : Answers s0 (execPassAdopt w dis s) := by
  unfold execPassAdopt
  repeat' first | with_reducible first | assumption | apply Answers.next | apply State.passWord_keeps

theorem State.loadB_keeps {s0 s : State} (h : Keeps s0 s) {w : SWord} : Keeps s0 (s.loadB w) := by
  unfold State.loadB
  repeat' first
    | (intro _; try beta_reduce)
    | with_reducible first | assumption | apply Keeps.ite
    | ((fail_if_no_progress extract_lets +onlyGivenNames x)
       first
        | (refine (?_ : Keeps s0 x → _) ?_; (clear_value x; intro _); on_goal 2 => unfold x)
        | clear_value x)
    | (fail_if_no_progress with_reducible apply Keeps.upd)

theorem execLoadB_answers {s0 s : State} (h : Keeps s0 s) {w : SWord} : Answers s0 (execLoadB w s) := by
  unfold execLoadB
  repeat' first
    | (intro _; try beta_reduce)
    | with_reducible first | assumption | apply Answers.next | apply State.issue_keeps | apply State.loadB_keeps
    | (fail_if_no_progress with_reducible apply Keeps.upd)

theorem execPassCommit_answers {s0 s : State} (h : Keeps s0 s) {die : Fin 4} {logical : Fin 80} : Answers s0 (execPassCommit die logical s) := by
  unfold execPassCommit
  repeat' first
    | with_reducible first | assumption | apply Answers.next | apply State.begin_keeps | apply State.advance_keeps
    | ((fail_if_no_progress extract_lets +onlyGivenNames x)
       first
        | (refine (?_ : Keeps s0 x → _) ?_; (clear_value x; intro _); on_goal 2 => unfold x)
        | clear_value x)
    | (fail_if_no_progress with_reducible apply Keeps.upd)
    | split

/-! ## Awn -/

theorem State.startChain_keeps {s0 s : State} (h : Keeps s0 s) {w : SWord} {words : List (BitVec 8 × BitVec 88)} {dis : Option (Nat × Nat)}
    : Keeps s0 (s.startChain w words dis) := by
  unfold State.startChain
  repeat' first
    | (intro _; try beta_reduce)
    | with_reducible first | assumption | apply Keeps.ite | apply State.raise_keeps | apply State.laterEach_keeps | apply State.later_keeps
    | ((fail_if_no_progress extract_lets +onlyGivenNames x)
       first
        | (refine (?_ : Keeps s0 x → _) ?_; (clear_value x; intro _); on_goal 2 => unfold x)
        | clear_value x)
    | (fail_if_no_progress with_reducible apply Keeps.upd)
    | with_reducible refine Keeps.p1 (by assumption) ?_
    | split

theorem execChain_answers {s0 s : State} (h : Keeps s0 s) {w : SWord} {more : List ChainWord} {dis : Option (Nat × Nat)}
    : Answers s0 (execChain w more dis s) := by
  unfold execChain
  repeat' first
    | (intro _; try beta_reduce)
    | with_reducible first | assumption | apply Answers.next | apply State.issue_keeps | apply State.startChain_keeps
    | (fail_if_no_progress with_reducible apply Keeps.upd)

/-! ## Rachis -/

theorem State.countOp_keeps {s0 s : State} (h : Keeps s0 s) {w : SWord} : Keeps s0 (s.countOp w) := by
  unfold State.countOp
  repeat' first | with_reducible first | assumption | apply State.bump64_keeps

theorem State.rachis_keeps {s0 s : State} (h : Keeps s0 s) {w : SWord} {op : Nat} {effect : State → State}
    (heffect : ∀ t, Keeps s0 t → Keeps s0 (effect t)) : Keeps s0 (s.rachis w op effect) := by
  unfold State.rachis
  repeat' first | (intro _; try beta_reduce) | with_reducible first | assumption | apply heffect | apply State.issue_keeps | apply State.countOp_keeps

theorem State.scalarOp_keeps {s0 s : State} (h : Keeps s0 s) {w : SWord} {op : Nat} {f : Nat → Nat → Nat → Nat} : Keeps s0 (s.scalarOp w op f) := by
  unfold State.scalarOp
  repeat' first
    | (intro _; try beta_reduce)
    | with_reducible first | assumption | apply State.rachis_keeps | apply State.later_keeps
    | ((fail_if_no_progress extract_lets +onlyGivenNames x)
       first
        | (refine (?_ : Keeps s0 x → _) ?_; (clear_value x; intro _); on_goal 2 => unfold x)
        | clear_value x)

theorem State.loadOp_keeps {s0 s : State} (h : Keeps s0 s) {w : SWord} {op : Nat} : Keeps s0 (s.loadOp w op) := by
  unfold State.loadOp
  repeat' first
    | (intro _; try beta_reduce)
    | with_reducible first | assumption | apply State.rachis_keeps | apply State.later_keeps
    | ((fail_if_no_progress extract_lets +onlyGivenNames x)
       first
        | (refine (?_ : Keeps s0 x → _) ?_; (clear_value x; intro _); on_goal 2 => unfold x)
        | clear_value x)

theorem State.storeOp_keeps {s0 s : State} (h : Keeps s0 s) {w : SWord} {op : Nat} : Keeps s0 (s.storeOp w op) := by
  unfold State.storeOp
  repeat' first
    | (intro _; try beta_reduce)
    | with_reducible first | assumption | apply State.rachis_keeps | apply State.later_keeps
    | ((fail_if_no_progress extract_lets +onlyGivenNames x)
       first
        | (refine (?_ : Keeps s0 x → _) ?_; (clear_value x; intro _); on_goal 2 => unfold x)
        | clear_value x)

theorem execMovi_answers {s0 s : State} (h : Keeps s0 s) {w : SWord} : Answers s0 (execMovi w s) := by
  unfold execMovi
  repeat' first | (intro _; try beta_reduce) | with_reducible first | assumption | apply Answers.next | apply State.scalarOp_keeps

theorem execAdd_answers {s0 s : State} (h : Keeps s0 s) {w : SWord} : Answers s0 (execAdd w s) := by
  unfold execAdd
  repeat' first | (intro _; try beta_reduce) | with_reducible first | assumption | apply Answers.next | apply State.scalarOp_keeps

theorem execAddi_answers {s0 s : State} (h : Keeps s0 s) {w : SWord} : Answers s0 (execAddi w s) := by
  unfold execAddi
  repeat' first | (intro _; try beta_reduce) | with_reducible first | assumption | apply Answers.next | apply State.scalarOp_keeps

theorem execSub_answers {s0 s : State} (h : Keeps s0 s) {w : SWord} : Answers s0 (execSub w s) := by
  unfold execSub
  repeat' first | (intro _; try beta_reduce) | with_reducible first | assumption | apply Answers.next | apply State.scalarOp_keeps

theorem execMul_answers {s0 s : State} (h : Keeps s0 s) {w : SWord} : Answers s0 (execMul w s) := by
  unfold execMul
  repeat' first | (intro _; try beta_reduce) | with_reducible first | assumption | apply Answers.next | apply State.scalarOp_keeps

theorem execAnd_answers {s0 s : State} (h : Keeps s0 s) {w : SWord} : Answers s0 (execAnd w s) := by
  unfold execAnd
  repeat' first | (intro _; try beta_reduce) | with_reducible first | assumption | apply Answers.next | apply State.scalarOp_keeps

theorem execOr_answers {s0 s : State} (h : Keeps s0 s) {w : SWord} : Answers s0 (execOr w s) := by
  unfold execOr
  repeat' first | (intro _; try beta_reduce) | with_reducible first | assumption | apply Answers.next | apply State.scalarOp_keeps

theorem execXor_answers {s0 s : State} (h : Keeps s0 s) {w : SWord} : Answers s0 (execXor w s) := by
  unfold execXor
  repeat' first | (intro _; try beta_reduce) | with_reducible first | assumption | apply Answers.next | apply State.scalarOp_keeps

theorem execShli_answers {s0 s : State} (h : Keeps s0 s) {w : SWord} : Answers s0 (execShli w s) := by
  unfold execShli
  repeat' first | (intro _; try beta_reduce) | with_reducible first | assumption | apply Answers.next | apply State.scalarOp_keeps

theorem execShri_answers {s0 s : State} (h : Keeps s0 s) {w : SWord} : Answers s0 (execShri w s) := by
  unfold execShri
  repeat' first | (intro _; try beta_reduce) | with_reducible first | assumption | apply Answers.next | apply State.scalarOp_keeps

theorem execFadd_answers {s0 s : State} (h : Keeps s0 s) {w : SWord} : Answers s0 (execFadd w s) := by
  unfold execFadd
  repeat' first | with_reducible first | assumption | apply Answers.next | apply State.scalarOp_keeps

theorem execFsub_answers {s0 s : State} (h : Keeps s0 s) {w : SWord} : Answers s0 (execFsub w s) := by
  unfold execFsub
  repeat' first | (intro _; try beta_reduce) | with_reducible first | assumption | apply Answers.next | apply State.scalarOp_keeps

theorem execFmul_answers {s0 s : State} (h : Keeps s0 s) {w : SWord} : Answers s0 (execFmul w s) := by
  unfold execFmul
  repeat' first | with_reducible first | assumption | apply Answers.next | apply State.scalarOp_keeps

theorem execFdiv_answers {s0 s : State} (h : Keeps s0 s) {w : SWord} : Answers s0 (execFdiv w s) := by
  unfold execFdiv
  repeat' first | with_reducible first | assumption | apply Answers.next | apply State.scalarOp_keeps

theorem execFmax_answers {s0 s : State} (h : Keeps s0 s) {w : SWord} : Answers s0 (execFmax w s) := by
  unfold execFmax
  repeat' first | with_reducible first | assumption | apply Answers.next | apply State.scalarOp_keeps

theorem execFmin_answers {s0 s : State} (h : Keeps s0 s) {w : SWord} : Answers s0 (execFmin w s) := by
  unfold execFmin
  repeat' first | with_reducible first | assumption | apply Answers.next | apply State.scalarOp_keeps

theorem execI2f_answers {s0 s : State} (h : Keeps s0 s) {w : SWord} : Answers s0 (execI2f w s) := by
  unfold execI2f
  repeat' first | (intro _; try beta_reduce) | with_reducible first | assumption | apply Answers.next | apply State.scalarOp_keeps

theorem execF2i_answers {s0 s : State} (h : Keeps s0 s) {w : SWord} : Answers s0 (execF2i w s) := by
  unfold execF2i
  repeat' first | (intro _; try beta_reduce) | with_reducible first | assumption | apply Answers.next | apply State.scalarOp_keeps

theorem execLd32_answers {s0 s : State} (h : Keeps s0 s) {w : SWord} : Answers s0 (execLd32 w s) := by
  unfold execLd32
  repeat' first | with_reducible first | assumption | apply Answers.next | apply State.loadOp_keeps

theorem execLd64_answers {s0 s : State} (h : Keeps s0 s) {w : SWord} : Answers s0 (execLd64 w s) := by
  unfold execLd64
  repeat' first | with_reducible first | assumption | apply Answers.next | apply State.loadOp_keeps

theorem execSt32_answers {s0 s : State} (h : Keeps s0 s) {w : SWord} : Answers s0 (execSt32 w s) := by
  unfold execSt32
  repeat' first | with_reducible first | assumption | apply Answers.next | apply State.storeOp_keeps

theorem execSt64_answers {s0 s : State} (h : Keeps s0 s) {w : SWord} : Answers s0 (execSt64 w s) := by
  unfold execSt64
  repeat' first | with_reducible first | assumption | apply Answers.next | apply State.storeOp_keeps

theorem execLdscale_answers {s0 s : State} (h : Keeps s0 s) {w : SWord} : Answers s0 (execLdscale w s) := by
  unfold execLdscale
  repeat' first
    | (intro _; try beta_reduce)
    | with_reducible first | assumption | apply Answers.next | apply State.rachis_keeps | apply State.later_keeps
    | ((fail_if_no_progress extract_lets +onlyGivenNames x)
       first
        | (refine (?_ : Keeps s0 x → _) ?_; (clear_value x; intro _); on_goal 2 => unfold x)
        | clear_value x)

/-! ## Movers -/

theorem State.bookFlits_keeps {s0 s : State} (h : Keeps s0 s) {w : SWord} {u : Uses} : Keeps s0 (s.bookFlits w u) := by
  unfold State.bookFlits
  repeat' first
    | (intro _; try beta_reduce)
    | with_reducible first | assumption | apply Keeps.foldl | apply State.setLink_keeps
    | ((fail_if_no_progress extract_lets +onlyGivenNames x)
       first
        | (refine (?_ : Keeps s0 x → _) ?_; (clear_value x; intro _); on_goal 2 => unfold x)
        | clear_value x)
    | (fail_if_no_progress with_reducible apply Keeps.upd)
    | split

theorem State.moverWord_keeps {s0 s : State} (h : Keeps s0 s) {w : SWord} {op : Nat} {effect : State → State}
    (heffect : ∀ t, Keeps s0 t → Keeps s0 (effect t)) : Keeps s0 (s.moverWord w op effect) := by
  unfold State.moverWord
  repeat' first | (intro _; try beta_reduce) | with_reducible first | assumption | apply heffect | apply State.issue_keeps

theorem execCopy_answers {s0 s : State} (h : Keeps s0 s) {w : SWord} : Answers s0 (execCopy w s) := by
  unfold execCopy
  repeat' first
    | (intro _; try beta_reduce)
    | with_reducible first | assumption | apply Answers.next | apply Answers.ite | apply Keeps.ite | apply State.moverWord_keeps
    | with_reducible first | apply State.bookFlits_keeps
    | ((fail_if_no_progress extract_lets +onlyGivenNames x)
       first
        | (refine (?_ : Keeps s0 x → _) ?_; (clear_value x; intro _); on_goal 2 => unfold x)
        | clear_value x)
    | (fail_if_no_progress with_reducible apply Keeps.upd)

theorem State.burstEvents_keeps {s0 s : State} (h : Keeps s0 s) {t : StArgs} {write : Bool} {ecc : List BurstEvent}
    : Keeps s0 (s.burstEvents t write ecc) := by
  unfold State.burstEvents
  repeat' first | (intro _; try beta_reduce) | with_reducible first | assumption | apply Keeps.ite | apply Keeps.foldl | apply State.later_keeps

theorem execStread_answers {s0 s : State} (h : Keeps s0 s) {w : SWord} {ecc : List BurstEvent} : Answers s0 (execStread w ecc s) := by
  unfold execStread
  repeat' first
    | (intro _; try beta_reduce)
    | with_reducible first | assumption | apply Answers.next | apply Keeps.foldl | apply State.moverWord_keeps | apply State.bookFlits_keeps
    | with_reducible first | apply State.burstEvents_keeps | apply State.later_keeps
    | ((fail_if_no_progress extract_lets +onlyGivenNames x)
       first
        | (refine (?_ : Keeps s0 x → _) ?_; (clear_value x; intro _); on_goal 2 => unfold x)
        | clear_value x)
    | (fail_if_no_progress with_reducible apply Keeps.upd)

theorem State.writePieces_keeps {s0 s : State} (h : Keeps s0 s) {w : Writer} {t : StArgs} {n : Nat} : Keeps s0 (s.writePieces w t n) := by
  unfold State.writePieces
  repeat' first | (intro _; try beta_reduce) | with_reducible first | assumption | apply Keeps.foldl | apply State.later_keeps

theorem execStwrite_answers {s0 s : State} (h : Keeps s0 s) {w : SWord} {ecc : List BurstEvent} : Answers s0 (execStwrite w ecc s) := by
  unfold execStwrite
  repeat' first
    | (intro _; try beta_reduce)
    | with_reducible first | assumption | apply Answers.next | apply Answers.ite | apply Keeps.ite | apply Keeps.foldl | apply State.moverWord_keeps
    | with_reducible first | apply State.bookFlits_keeps | apply State.burstEvents_keeps | apply State.writePieces_keeps
    | ((fail_if_no_progress extract_lets +onlyGivenNames x)
       first
        | (refine (?_ : Keeps s0 x → _) ?_; (clear_value x; intro _); on_goal 2 => unfold x)
        | clear_value x)
    | (fail_if_no_progress with_reducible apply Keeps.upd)

theorem execXfer_answers {s0 s : State} (h : Keeps s0 s) {w : SWord} : Answers s0 (execXfer w s) := by
  unfold execXfer
  repeat' first
    | (intro _; try beta_reduce)
    | with_reducible first | assumption | apply Answers.next | apply Answers.ite | apply Keeps.ite | apply State.moverWord_keeps
    | with_reducible first | apply State.raise_keeps
    | ((fail_if_no_progress extract_lets +onlyGivenNames x)
       first
        | (refine (?_ : Keeps s0 x → _) ?_; (clear_value x; intro _); on_goal 2 => unfold x)
        | clear_value x)
    | (fail_if_no_progress with_reducible apply Keeps.upd)

/-! ## Culm -/

theorem State.startCulm_keeps {s0 s : State} (h : Keeps s0 s) {w : SWord} {op : Nat} {dis : Option Nat} {ecc : List BurstEvent}
    : Keeps s0 (s.startCulm w op dis ecc) := by
  unfold State.startCulm
  repeat' first
    | (intro _; try beta_reduce)
    | with_reducible first | assumption | apply Keeps.ite | apply Keeps.foldl | apply State.later_keeps
    | ((fail_if_no_progress extract_lets +onlyGivenNames x)
       first
        | (refine (?_ : Keeps s0 x → _) ?_; (clear_value x; intro _); on_goal 2 => unfold x)
        | clear_value x)
    | (fail_if_no_progress with_reducible apply Keeps.upd)
    | split

theorem State.culmWord_keeps {s0 s : State} (h : Keeps s0 s) {w : SWord} {op : Nat} {dis : Option Nat} {ecc : List BurstEvent}
    : Keeps s0 (s.culmWord w op dis ecc) := by
  unfold State.culmWord
  repeat' first
    | (intro _; try beta_reduce)
    | with_reducible first | assumption | apply State.issue_keeps | apply State.startCulm_keeps
    | (fail_if_no_progress with_reducible apply Keeps.upd)

theorem execOpt_answers {s0 s : State} (h : Keeps s0 s) {w : SWord} {dis : Option Nat} {ecc : List BurstEvent} : Answers s0 (execOpt w dis ecc s)
    := by
  unfold execOpt
  repeat' first | with_reducible first | assumption | apply Answers.next | apply State.culmWord_keeps

theorem execAmax_answers {s0 s : State} (h : Keeps s0 s) {w : SWord} {dis : Option Nat} {ecc : List BurstEvent} : Answers s0 (execAmax w dis ecc s)
    := by
  unfold execAmax
  repeat' first | with_reducible first | assumption | apply Answers.next | apply State.culmWord_keeps

theorem execCount_answers {s0 s : State} (h : Keeps s0 s) {w : SWord} {dis : Option Nat} {ecc : List BurstEvent} : Answers s0 (execCount w dis ecc s)
    := by
  unfold execCount
  repeat' first | with_reducible first | assumption | apply Answers.next | apply State.culmWord_keeps

theorem execCulmAdd_answers {s0 s : State} (h : Keeps s0 s) {w : SWord} {dis : Option Nat} {ecc : List BurstEvent}
    : Answers s0 (execCulmAdd w dis ecc s) := by
  unfold execCulmAdd
  repeat' first | with_reducible first | assumption | apply Answers.next | apply State.culmWord_keeps

theorem execQuant_answers {s0 s : State} (h : Keeps s0 s) {w : SWord} {dis : Option Nat} {ecc : List BurstEvent} : Answers s0 (execQuant w dis ecc s)
    := by
  unfold execQuant
  repeat' first | with_reducible first | assumption | apply Answers.next | apply State.culmWord_keeps

theorem execDequant_answers {s0 s : State} (h : Keeps s0 s) {w : SWord} {dis : Option Nat} {ecc : List BurstEvent}
    : Answers s0 (execDequant w dis ecc s) := by
  unfold execDequant
  repeat' first | with_reducible first | assumption | apply Answers.next | apply State.culmWord_keeps

end Sys2Proof.Machine
end

