-- ==== Sys2Proof/Laws/KeepsFabric.lean ====
section
/-!
SUPPORT. What every command keeps, kept by the links, the ports, the streams, the collectives and the admission of images.
-/
namespace Sys2Proof.Machine

set_option Elab.async false
set_option linter.unreachableTactic false
set_option linter.unusedTactic false
set_option linter.unusedVariables false

/-! ## Links -/

theorem State.linkFall_keeps {s0 s : State} (h : Keeps s0 s) {n dir : Nat} : Keeps s0 (s.linkFall n dir) := by
  unfold State.linkFall
  repeat' first
    | with_reducible first | assumption | apply Keeps.ite | apply State.setP_keeps | apply State.raise_keeps | apply State.setInt_keeps
    | with_reducible first | apply State.set64_keeps | apply State.setLink_keeps | apply State.degraded_keeps
    | ((fail_if_no_progress extract_lets +onlyGivenNames x)
       first
        | (refine (?_ : Keeps s0 x → _) ?_; (clear_value x; intro _); on_goal 2 => unfold x)
        | clear_value x)
    | (fail_if_no_progress with_reducible apply Keeps.upd)

theorem State.linkDown_keeps {s0 s : State} (h : Keeps s0 s) {n dir : Nat} : Keeps s0 (s.linkDown n dir) := by
  unfold State.linkDown
  repeat' first
    | (intro _; try beta_reduce)
    | with_reducible first | assumption | apply Keeps.ite | apply State.setP_keeps | apply State.raise_keeps | apply State.setInt_keeps
    | with_reducible first | apply State.abortFrame_keeps
    | ((fail_if_no_progress extract_lets +onlyGivenNames x)
       first
        | (refine (?_ : Keeps s0 x → _) ?_; (clear_value x; intro _); on_goal 2 => unfold x)
        | clear_value x)
    | (fail_if_no_progress with_reducible apply Keeps.upd)

theorem State.lastLane_keeps {s0 s : State} (h : Keeps s0 s) {n dir cause lane : Nat} : Keeps s0 (s.lastLane n dir cause lane) := by
  unfold State.lastLane
  repeat' first | with_reducible first | assumption | apply State.wrP_keeps

theorem State.laneFail_keeps {s0 s : State} (h : Keeps s0 s) {n dir lane cause : Nat} : Keeps s0 (s.laneFail n dir lane cause) := by
  unfold State.laneFail
  repeat' first
    | with_reducible first | assumption | apply Keeps.ite | apply State.bump_keeps | apply State.lastLane_keeps | apply State.noteRepair_keeps
    | with_reducible first | apply State.setInt_keeps | apply State.setLink_keeps | apply State.markLane_keeps | apply State.linkDown_keeps
    | with_reducible first | apply State.linkFall_keeps | apply State.setP_keeps
    | ((fail_if_no_progress extract_lets +onlyGivenNames x)
       first
        | (refine (?_ : Keeps s0 x → _) ?_; (clear_value x; intro _); on_goal 2 => unfold x)
        | clear_value x)
    | (fail_if_no_progress with_reducible apply Keeps.upd)

theorem State.laneCorrected_keeps {s0 s : State} (h : Keeps s0 s) {n dir lane k : Nat} : Keeps s0 (s.laneCorrected n dir lane k) := by
  unfold State.laneCorrected
  repeat' first
    | with_reducible first | assumption | apply Keeps.ite | apply State.bump_keeps | apply State.noteBits_keeps | apply State.laneFail_keeps
    | ((fail_if_no_progress extract_lets +onlyGivenNames x)
       first
        | (refine (?_ : Keeps s0 x → _) ?_; (clear_value x; intro _); on_goal 2 => unfold x)
        | clear_value x)

theorem State.coveredFlits_keeps {s0 s : State} (h : Keeps s0 s) {n dir : Nat} : Keeps s0 (s.coveredFlits n dir) := by
  unfold State.coveredFlits
  repeat' first
    | (intro _; try beta_reduce)
    | with_reducible first | assumption | apply Keeps.ite | apply State.draw_keeps | apply State.bump_keeps
    | ((fail_if_no_progress extract_lets +onlyGivenNames x)
       first
        | (refine (?_ : Keeps s0 x → _) ?_; (clear_value x; intro _); on_goal 2 => unfold x)
        | clear_value x)
    | with_reducible refine Keeps.p1 (by assumption) ?_
    | split

theorem State.linksBoundary_keeps {s0 s : State} (h : Keeps s0 s) : Keeps s0 (s.linksBoundary) := by
  unfold State.linksBoundary
  repeat' first
    | (intro _; try beta_reduce)
    | with_reducible first | assumption | apply Keeps.foldl | apply State.coveredFlits_keeps | apply State.setP_keeps | apply State.setLink_keeps
    | ((fail_if_no_progress extract_lets +onlyGivenNames x)
       first
        | (refine (?_ : Keeps s0 x → _) ?_; (clear_value x; intro _); on_goal 2 => unfold x)
        | clear_value x)
    | (fail_if_no_progress with_reducible apply Keeps.upd)

theorem State.linkTrainStart_keeps {s0 s : State} (h : Keeps s0 s) {n : Nat} : Keeps s0 (s.linkTrainStart n) := by
  unfold State.linkTrainStart
  repeat' first
    | (intro _; try beta_reduce)
    | with_reducible first | assumption | apply Keeps.foldl | apply State.wrP_keeps | apply State.setLink_keeps
    | ((fail_if_no_progress extract_lets +onlyGivenNames x)
       first
        | (refine (?_ : Keeps s0 x → _) ?_; (clear_value x; intro _); on_goal 2 => unfold x)
        | clear_value x)

theorem State.linkTrainEnd_keeps {s0 s : State} (h : Keeps s0 s) {n : Nat} {bad : List (Nat × Nat)} : Keeps s0 (s.linkTrainEnd n bad) := by
  unfold State.linkTrainEnd
  repeat' first
    | (intro _; try beta_reduce)
    | with_reducible first | assumption | apply Keeps.ite | apply Keeps.foldl | apply State.lastLane_keeps | apply State.markLane_keeps
    | with_reducible first | apply State.noteRepair_keeps | apply State.setP_keeps | apply State.linkDown_keeps
    | ((fail_if_no_progress extract_lets +onlyGivenNames x)
       first
        | (refine (?_ : Keeps s0 x → _) ?_; (clear_value x; intro _); on_goal 2 => unfold x)
        | clear_value x)

theorem execLaneFail_answers {s0 s : State} (h : Keeps s0 s) {t : Nat} {link : Fin 4} {down : Bool} {lane : Fin 1632} {bits : Option Nat}
    : Answers s0 (execLaneFail t link down lane bits s) := by
  unfold execLaneFail
  repeat' first
    | with_reducible first | assumption | apply Answers.next | apply Answers.ite | apply Keeps.ite | apply State.begin_keeps
    | with_reducible first | apply State.passTime_keeps | apply State.laneFail_keeps | apply State.laneCorrected_keeps
    | ((fail_if_no_progress extract_lets +onlyGivenNames x)
       first
        | (refine (?_ : Keeps s0 x → _) ?_; (clear_value x; intro _); on_goal 2 => unfold x)
        | clear_value x)
    | (fail_if_no_progress with_reducible apply Keeps.upd)
    | split

theorem execD2dRetrainComplete_answers {s0 s : State} (h : Keeps s0 s) {link : Fin 4} : Answers s0 (execD2dRetrainComplete link s) := by
  unfold execD2dRetrainComplete
  repeat' first
    | with_reducible first | assumption | apply Answers.next | apply State.begin_keeps | apply State.passTime_keeps
    | (fail_if_no_progress with_reducible apply Keeps.upd)
    | split

theorem State.flitLost_keeps {s0 s : State} (h : Keeps s0 s) {addr transfer : Option Nat} : Keeps s0 (s.flitLost addr transfer) := by
  unfold State.flitLost
  repeat' first
    | (intro _; try beta_reduce)
    | with_reducible first | assumption | apply Keeps.ite | apply State.abortFrame_keeps
    | ((fail_if_no_progress extract_lets +onlyGivenNames x)
       first
        | (refine (?_ : Keeps s0 x → _) ?_; (clear_value x; intro _); on_goal 2 => unfold x)
        | clear_value x)
    | (fail_if_no_progress with_reducible apply Keeps.upd)
    | split

theorem execD2dUe_answers {s0 s : State} (h : Keeps s0 s) {t : Nat} {link : Fin 4} {down : Bool} {slot : Fin 48} {lanes : List (Fin 1632)}
    {addr transfer : Option Nat} : Answers s0 (execD2dUe t link down slot lanes addr transfer s) := by
  unfold execD2dUe
  repeat' first
    | (intro _; try beta_reduce)
    | with_reducible first | assumption | apply Answers.next | apply Answers.ite | apply Keeps.ite | apply State.begin_keeps
    | with_reducible first | apply State.passTime_keeps | apply State.flitMeets_keeps | apply State.flitLost_keeps
    | ((fail_if_no_progress extract_lets +onlyGivenNames x)
       first
        | (refine (?_ : Keeps s0 x → _) ?_; (clear_value x; intro _); on_goal 2 => unfold x)
        | clear_value x)

theorem State.fenceLog_keeps {s0 s : State} (h : Keeps s0 s) {id kind : Nat} {addr : Option Nat} : Keeps s0 (s.fenceLog id kind addr) := by
  unfold State.fenceLog
  repeat' first
    | (intro _; try beta_reduce)
    | with_reducible first | assumption | apply State.bump_keeps | apply State.wrP_keeps | apply State.setP_keeps | apply State.raise_keeps
    | with_reducible first | apply State.setInt_keeps
    | ((fail_if_no_progress extract_lets +onlyGivenNames x)
       first
        | (refine (?_ : Keeps s0 x → _) ?_; (clear_value x; intro _); on_goal 2 => unfold x)
        | clear_value x)
    | (fail_if_no_progress with_reducible apply Keeps.upd)
    | with_reducible refine Keeps.p1 (by assumption) ?_
    | split

/-! ## Ports -/

theorem State.queueLink_keeps {s0 s : State} (h : Keeps s0 s) {p : Nat} : Keeps s0 (s.queueLink p) := by
  unfold State.queueLink
  repeat' first
    | with_reducible first | assumption | apply State.setPort_keeps | apply State.setFab_keeps
    | ((fail_if_no_progress extract_lets +onlyGivenNames x)
       first
        | (refine (?_ : Keeps s0 x → _) ?_; (clear_value x; intro _); on_goal 2 => unfold x)
        | clear_value x)
    | (fail_if_no_progress with_reducible apply Keeps.upd)

theorem State.portAlign_keeps {s0 s : State} (h : Keeps s0 s) {p : Nat} : Keeps s0 (s.portAlign p) := by
  unfold State.portAlign
  repeat' first
    | with_reducible first | assumption | apply State.setPort_keeps | apply State.queueLink_keeps
    | ((fail_if_no_progress extract_lets +onlyGivenNames x)
       first
        | (refine (?_ : Keeps s0 x → _) ?_; (clear_value x; intro _); on_goal 2 => unfold x)
        | clear_value x)
    | (fail_if_no_progress with_reducible apply Keeps.upd)

theorem State.portLock_keeps {s0 s : State} (h : Keeps s0 s) {p lock far rtt : Nat} : Keeps s0 (s.portLock p lock far rtt) := by
  unfold State.portLock
  repeat' first
    | (intro _; try beta_reduce)
    | with_reducible first | assumption | apply Keeps.ite | apply Keeps.foldl | apply State.noteRepair_keeps | apply State.setInt_keeps
    | with_reducible first | apply State.wrP_keeps | apply State.setPort_keeps | apply State.setP_keeps | apply State.portSync_keeps
    | with_reducible first | apply State.portAlign_keeps
    | ((fail_if_no_progress extract_lets +onlyGivenNames x)
       first
        | (refine (?_ : Keeps s0 x → _) ?_; (clear_value x; intro _); on_goal 2 => unfold x)
        | clear_value x)
    | (fail_if_no_progress with_reducible apply Keeps.upd)

theorem execPortTraining_answers {s0 s : State} (h : Keeps s0 s) {t : Nat} {port : Fin 24} {lock far : BitVec 9} {rtt : BitVec 16}
    : Answers s0 (execPortTraining t port lock far rtt s) := by
  unfold execPortTraining
  repeat' first
    | with_reducible first | assumption | apply Answers.next | apply State.begin_keeps | apply State.passTime_keeps | apply State.portLock_keeps

theorem State.linkTake_keeps {s0 s : State} (h : Keeps s0 s) {p : Nat} : Keeps s0 (s.linkTake p) := by
  unfold State.linkTake
  repeat' first
    | (intro _; try beta_reduce)
    | with_reducible first | assumption | apply Keeps.ite | apply State.setFab_keeps | apply State.setInt_keeps | apply State.wrP_keeps
    | with_reducible first | apply State.setP_keeps | apply State.setPort_keeps | apply State.portSync_keeps | apply State.portAlign_keeps
    | with_reducible first | apply State.releaseCell_keeps
    | ((fail_if_no_progress extract_lets +onlyGivenNames x)
       first
        | (refine (?_ : Keeps s0 x → _) ?_; (clear_value x; intro _); on_goal 2 => unfold x)
        | clear_value x)
    | (fail_if_no_progress with_reducible apply Keeps.upd)
    | split

theorem execLink_answers {s0 s : State} (h : Keeps s0 s) {t : Nat} {port : Fin 24} : Answers s0 (execLink t port s) := by
  unfold execLink
  repeat' first
    | with_reducible first | assumption | apply Answers.next | apply State.begin_keeps | apply State.passTime_keeps | apply State.linkTake_keeps

theorem execLinkCellTimer_answers {s0 s : State} (h : Keeps s0 s) {t : Nat} {port : Fin 24} : Answers s0 (execLinkCellTimer t port s) := by
  unfold execLinkCellTimer
  repeat' first
    | with_reducible first | assumption | apply Answers.next | apply Answers.ite | apply Keeps.ite | apply State.begin_keeps
    | with_reducible first | apply State.passTime_keeps | apply State.queueLink_keeps
    | ((fail_if_no_progress extract_lets +onlyGivenNames x)
       first
        | (refine (?_ : Keeps s0 x → _) ?_; (clear_value x; intro _); on_goal 2 => unfold x)
        | clear_value x)

theorem State.countSymbols_keeps {s0 s : State} (h : Keeps s0 s) {p wl n : Nat} : Keeps s0 (s.countSymbols p wl n) := by
  unfold State.countSymbols
  repeat' first
    | with_reducible first | assumption | apply Keeps.ite | apply State.bump64_keeps | apply State.bump_keeps | apply State.setPort_keeps
    | ((fail_if_no_progress extract_lets +onlyGivenNames x)
       first
        | (refine (?_ : Keeps s0 x → _) ?_; (clear_value x; intro _); on_goal 2 => unfold x)
        | clear_value x)
    | (fail_if_no_progress with_reducible apply Keeps.upd)

theorem State.portHalf_keeps {s0 s : State} (h : Keeps s0 s) {p : Nat} : Keeps s0 (s.portHalf p) := by
  unfold State.portHalf
  repeat' first | with_reducible first | assumption | apply State.raise_keeps | apply State.portTrain_keeps

theorem State.takeRequest_keeps {s0 s : State} (h : Keeps s0 s) {p req : Nat} : Keeps s0 (s.takeRequest p req) := by
  unfold State.takeRequest
  repeat' first
    | with_reducible first | assumption | apply Keeps.ite | apply State.setPort_keeps | apply State.portSync_keeps | apply State.portHalf_keeps
    | ((fail_if_no_progress extract_lets +onlyGivenNames x)
       first
        | (refine (?_ : Keeps s0 x → _) ?_; (clear_value x; intro _); on_goal 2 => unfold x)
        | clear_value x)
    | (fail_if_no_progress with_reducible apply Keeps.upd)

theorem State.takeWake_keeps {s0 s : State} (h : Keeps s0 s) {p req : Nat} : Keeps s0 (s.takeWake p req) := by
  unfold State.takeWake
  repeat' first
    | with_reducible first | assumption | apply Keeps.ite | apply State.setPort_keeps | apply State.wrP_keeps
    | ((fail_if_no_progress extract_lets +onlyGivenNames x)
       first
        | (refine (?_ : Keeps s0 x → _) ?_; (clear_value x; intro _); on_goal 2 => unfold x)
        | clear_value x)
    | (fail_if_no_progress with_reducible apply Keeps.upd)

theorem State.takeBlock_keeps {s0 s : State} (h : Keeps s0 s) {p : Nat} {moved : Bool} {errs : List Nat} {ctrl : Nat} {cells : List (List Byte)}
    : Keeps s0 (s.takeBlock p moved errs ctrl cells) := by
  unfold State.takeBlock
  repeat' first
    | (intro _; try beta_reduce)
    | with_reducible first | assumption | apply Keeps.ite | apply Keeps.foldl | apply State.takeWake_keeps | apply State.countSymbols_keeps
    | with_reducible first | apply State.bump_keeps | apply State.portTrain_keeps | apply State.setPort_keeps | apply State.bump64_keeps
    | with_reducible first | apply State.arrive_keeps | apply State.takeRequest_keeps
    | ((fail_if_no_progress extract_lets +onlyGivenNames x)
       first
        | (refine (?_ : Keeps s0 x → _) ?_; (clear_value x; intro _); on_goal 2 => unfold x)
        | clear_value x)
    | (fail_if_no_progress with_reducible apply Keeps.upd)
    | split

theorem execBlockReceive_answers {s0 s : State} (h : Keeps s0 s) {t : Nat} {port : Fin 24} {moved : Bool} {errs : List Nat} {ctrl : BitVec 160}
    {cells : List (List Byte)} : Answers s0 (execBlockReceive t port moved errs ctrl cells s) := by
  unfold execBlockReceive
  repeat' first
    | with_reducible first | assumption | apply Answers.next | apply State.begin_keeps | apply State.passTime_keeps | apply State.takeBlock_keeps

theorem State.sendBlock_keeps {s0 s : State} (h : Keeps s0 s) {p : Nat} : Keeps s0 (s.sendBlock p) := by
  unfold State.sendBlock
  repeat' first
    | (intro _; try beta_reduce)
    | with_reducible first | assumption | apply Keeps.ite | apply Keeps.foldl | apply State.setPort_keeps | apply State.setP_keeps
    | with_reducible first | apply State.bump64_keeps | apply State.releaseCell_keeps | apply State.portSync_keeps
    | ((fail_if_no_progress extract_lets +onlyGivenNames x)
       first
        | (refine (?_ : Keeps s0 x → _) ?_; (clear_value x; intro _); on_goal 2 => unfold x)
        | clear_value x)
    | (fail_if_no_progress with_reducible apply Keeps.upd)
    | with_reducible refine Keeps.p1 (by assumption) ?_
    | split

theorem execBlockTransmit_answers {s0 s : State} (h : Keeps s0 s) {t : Nat} {port : Fin 24} : Answers s0 (execBlockTransmit t port s) := by
  unfold execBlockTransmit
  repeat' first
    | with_reducible first | assumption | apply Answers.next | apply State.begin_keeps | apply State.passTime_keeps | apply State.sendBlock_keeps

theorem State.wlFail_keeps {s0 s : State} (h : Keeps s0 s) {p wl reason : Nat} : Keeps s0 (s.wlFail p wl reason) := by
  unfold State.wlFail
  repeat' first
    | with_reducible first | assumption | apply Keeps.ite | apply State.bump_keeps | apply State.raise_keeps | apply State.setInt_keeps
    | with_reducible first | apply State.noteRepair_keeps | apply State.setPort_keeps | apply State.portSync_keeps | apply State.portHalf_keeps
    | ((fail_if_no_progress extract_lets +onlyGivenNames x)
       first
        | (refine (?_ : Keeps s0 x → _) ?_; (clear_value x; intro _); on_goal 2 => unfold x)
        | clear_value x)
    | (fail_if_no_progress with_reducible apply Keeps.upd)

theorem execWlFail_answers {s0 s : State} (h : Keeps s0 s) {t : Nat} {port : Fin 24} {wl : Fin 9} {lock : Bool}
    : Answers s0 (execWlFail t port wl lock s) := by
  unfold execWlFail
  repeat' first
    | with_reducible first | assumption | apply Answers.next | apply State.begin_keeps | apply State.passTime_keeps | apply State.wlFail_keeps

theorem execLaserLow_answers {s0 s : State} (h : Keeps s0 s) {t : Nat} {source : Fin 2} : Answers s0 (execLaserLow t source s) := by
  unfold execLaserLow
  repeat' first
    | (intro _; try beta_reduce)
    | with_reducible first | assumption | apply Answers.next | apply Answers.ite | apply Keeps.ite | apply Keeps.foldl | apply State.setP_keeps
    | with_reducible first | apply State.raise_keeps | apply State.portSync_keeps | apply State.begin_keeps | apply State.passTime_keeps
    | ((fail_if_no_progress extract_lets +onlyGivenNames x)
       first
        | (refine (?_ : Keeps s0 x → _) ?_; (clear_value x; intro _); on_goal 2 => unfold x)
        | clear_value x)

theorem execLaserReturn_answers {s0 s : State} (h : Keeps s0 s) {t : Nat} {source : Fin 2} : Answers s0 (execLaserReturn t source s) := by
  unfold execLaserReturn
  repeat' first
    | (intro _; try beta_reduce)
    | with_reducible first | assumption | apply Answers.next | apply Answers.ite | apply Keeps.ite | apply Keeps.foldl | apply State.setP_keeps
    | with_reducible first | apply State.portSync_keeps | apply State.portTrain_keeps | apply State.begin_keeps | apply State.passTime_keeps
    | ((fail_if_no_progress extract_lets +onlyGivenNames x)
       first
        | (refine (?_ : Keeps s0 x → _) ?_; (clear_value x; intro _); on_goal 2 => unfold x)
        | clear_value x)

theorem execCellForward_answers {s0 s : State} (h : Keeps s0 s) {t : Nat} : Answers s0 (execCellForward t s) := by
  unfold execCellForward
  repeat' first
    | (intro _; try beta_reduce)
    | with_reducible first | assumption | apply Answers.next | apply State.begin_keeps | apply State.passTime_keeps | apply State.setFab_keeps
    | with_reducible first | apply State.routeCell_keeps
    | ((fail_if_no_progress extract_lets +onlyGivenNames x)
       first
        | (refine (?_ : Keeps s0 x → _) ?_; (clear_value x; intro _); on_goal 2 => unfold x)
        | clear_value x)
    | (fail_if_no_progress with_reducible apply Keeps.upd)
    | split

theorem State.ageDrop_keeps {s0 s : State} (h : Keeps s0 s) {a : Arrived} : Keeps s0 (s.ageDrop a) := by
  unfold State.ageDrop
  repeat' first | with_reducible first | assumption | apply Keeps.ite | apply State.bump_keeps | apply State.releaseCell_keeps

theorem execCellAgeDrop_answers {s0 s : State} (h : Keeps s0 s) {t : Nat} : Answers s0 (execCellAgeDrop t s) := by
  unfold execCellAgeDrop
  repeat' first
    | (intro _; try beta_reduce)
    | with_reducible first | assumption | apply Answers.next | apply Keeps.foldl | apply State.begin_keeps | apply State.passTime_keeps
    | with_reducible first | apply State.setFab_keeps | apply State.ageDrop_keeps
    | ((fail_if_no_progress extract_lets +onlyGivenNames x)
       first
        | (refine (?_ : Keeps s0 x → _) ?_; (clear_value x; intro _); on_goal 2 => unfold x)
        | clear_value x)
    | (fail_if_no_progress with_reducible apply Keeps.upd)

theorem State.stalls_keeps {s0 s : State} (h : Keeps s0 s) {p : Nat} : Keeps s0 (s.stalls p) := by
  unfold State.stalls
  repeat' first
    | (intro _; try beta_reduce)
    | with_reducible first | assumption | apply Keeps.ite | apply Keeps.foldl | apply State.setPort_keeps | apply State.raise_keeps
    | with_reducible first | apply State.setInt_keeps
    | ((fail_if_no_progress extract_lets +onlyGivenNames x)
       first
        | (refine (?_ : Keeps s0 x → _) ?_; (clear_value x; intro _); on_goal 2 => unfold x)
        | clear_value x)
    | (fail_if_no_progress with_reducible apply Keeps.upd)
    | split

theorem execCreditStall_answers {s0 s : State} (h : Keeps s0 s) {t : Nat} {port : Fin 24} : Answers s0 (execCreditStall t port s) := by
  unfold execCreditStall
  repeat' first
    | with_reducible first | assumption | apply Answers.next | apply State.begin_keeps | apply State.passTime_keeps | apply State.stalls_keeps

/-! ## Streams -/

theorem State.waiterDone_keeps {s0 s : State} (h : Keeps s0 s) {w : Waiter} : Keeps s0 (s.waiterDone w) := by
  cases w <;> unfold State.waiterDone <;> with_reducible first | exact h | exact State.setRecv_keeps h

theorem State.wake_keeps {s0 s : State} (h : Keeps s0 s) : Keeps s0 (s.wake) := by
  unfold State.wake
  repeat' first
    | (intro _; try beta_reduce)
    | with_reducible first | assumption | apply Keeps.ite | apply Keeps.foldl | apply State.waiterDone_keeps | apply State.setFrame_keeps
    | with_reducible first | apply State.thaw_keeps
    | ((fail_if_no_progress extract_lets +onlyGivenNames x)
       first
        | (refine (?_ : Keeps s0 x → _) ?_; (clear_value x; intro _); on_goal 2 => unfold x)
        | clear_value x)
    | (fail_if_no_progress with_reducible apply Keeps.upd)
    | split

theorem State.storeFull_keeps {s0 s : State} (h : Keeps s0 s) {stream node : Nat} : Keeps s0 (s.storeFull stream node) := by
  unfold State.storeFull
  repeat' first | with_reducible first | assumption | apply State.raise_keeps | apply State.setInt_keeps | apply State.abortFrame_keeps

theorem State.sendWord_keeps {s0 s : State} (h : Keeps s0 s) {w : SWord} : Keeps s0 (s.sendWord w) := by
  unfold State.sendWord
  repeat' first
    | (intro _; try beta_reduce)
    | with_reducible first | assumption | apply Keeps.ite | apply Keeps.foldl | apply State.storeFull_keeps | apply State.bookFlits_keeps
    | with_reducible first | apply State.setSend_keeps | apply State.later_keeps
    | ((fail_if_no_progress extract_lets +onlyGivenNames x)
       first
        | (refine (?_ : Keeps s0 x → _) ?_; (clear_value x; intro _); on_goal 2 => unfold x)
        | clear_value x)
    | (fail_if_no_progress with_reducible apply Keeps.upd)

theorem execSend_answers {s0 s : State} (h : Keeps s0 s) {w : SWord} : Answers s0 (execSend w s) := by
  unfold execSend
  repeat' first
    | (intro _; try beta_reduce)
    | with_reducible first | assumption | apply Answers.next | apply State.issue_keeps | apply State.sendWord_keeps | apply State.settle_keeps

theorem State.recvWord_keeps {s0 s : State} (h : Keeps s0 s) {w : SWord} : Keeps s0 (s.recvWord w) := by
  unfold State.recvWord
  repeat' first
    | with_reducible first | assumption | apply Keeps.ite | apply State.setRecv_keeps | apply State.freeze_keeps
    | ((fail_if_no_progress extract_lets +onlyGivenNames x)
       first
        | (refine (?_ : Keeps s0 x → _) ?_; (clear_value x; intro _); on_goal 2 => unfold x)
        | clear_value x)
    | (fail_if_no_progress with_reducible apply Keeps.upd)

theorem execRecv_answers {s0 s : State} (h : Keeps s0 s) {w : SWord} : Answers s0 (execRecv w s) := by
  unfold execRecv
  repeat' first
    | (intro _; try beta_reduce)
    | with_reducible first | assumption | apply Answers.next | apply State.issueWait_keeps | apply State.recvWord_keeps

theorem State.takeHere_keeps {s0 s : State} (h : Keeps s0 s) {typ : Nat} : ∀ q, s.takeHere typ = some q → Keeps s0 q.2 := by
  intro q e
  unfold State.takeHere at e
  split at e
  · cases e; exact State.setFab_keeps h
  · cases e

theorem State.onCell_keeps {s0 s : State} (h : Keeps s0 s) {typ : Nat} {f : State → Arrived → State} (hf : ∀ t y1, Keeps s0 t → Keeps s0 (f t y1))
    : Keeps s0 (s.onCell typ f) := by
  unfold State.onCell
  repeat' first
    | (intro _; try beta_reduce)
    | with_reducible first | assumption | apply Keeps.ite | apply hf | apply State.bump_keeps
    | with_reducible first | refine Keeps.o2 (by assumption) (State.takeHere_keeps ?_)
    | (fail_if_no_progress with_reducible apply Keeps.upd)
    | with_reducible refine Keeps.p1 (by assumption) ?_
    | split

theorem State.staleCell_keeps {s0 s : State} (h : Keeps s0 s) {high : Nat} {addr : Option Nat} : Keeps s0 (s.staleCell high addr) := by
  unfold State.staleCell
  repeat' first | with_reducible first | assumption | apply State.bump_keeps | apply State.raise_keeps | apply State.setInt_keeps

theorem State.sendAck_keeps {s0 s : State} (h : Keeps s0 s) {st : Nat} : Keeps s0 (s.sendAck st) := by
  unfold State.sendAck
  repeat' first
    | (intro _; try beta_reduce)
    | with_reducible first | assumption | apply Keeps.ite | apply Keeps.foldl | apply State.setRecv_keeps | apply State.create_keeps
    | ((fail_if_no_progress extract_lets +onlyGivenNames x)
       first
        | (refine (?_ : Keeps s0 x → _) ?_; (clear_value x; intro _); on_goal 2 => unfold x)
        | clear_value x)
    | (fail_if_no_progress with_reducible apply Keeps.upd)

theorem State.dupData_keeps {s0 s : State} (h : Keeps s0 s) {st : Nat} : Keeps s0 (s.dupData st) := by
  unfold State.dupData
  repeat' first
    | with_reducible first | assumption | apply Keeps.ite | apply State.bump_keeps | apply State.setRecv_keeps | apply State.sendAck_keeps
    | ((fail_if_no_progress extract_lets +onlyGivenNames x)
       first
        | (refine (?_ : Keeps s0 x → _) ?_; (clear_value x; intro _); on_goal 2 => unfold x)
        | clear_value x)
    | (fail_if_no_progress with_reducible apply Keeps.upd)
    | split

theorem State.takeData_keeps {s0 s : State} (h : Keeps s0 s) {c : Cell} : Keeps s0 (s.takeData c) := by
  unfold State.takeData
  repeat' first
    | with_reducible first | assumption | apply Keeps.ite | apply State.staleCell_keeps | apply State.bump_keeps | apply State.dupData_keeps
    | with_reducible first | apply State.writeTo_keeps | apply State.write_keeps | apply State.setRecv_keeps | apply State.sendAck_keeps
    | ((fail_if_no_progress extract_lets +onlyGivenNames x)
       first
        | (refine (?_ : Keeps s0 x → _) ?_; (clear_value x; intro _); on_goal 2 => unfold x)
        | clear_value x)
    | (fail_if_no_progress with_reducible apply Keeps.upd)
    | with_reducible refine Keeps.p1 (by assumption) ?_
    | split

theorem execData_answers {s0 s : State} (h : Keeps s0 s) {t : Nat} {errs : List AccessErr} : Answers s0 (execData t errs s) := by
  unfold execData
  repeat' first
    | with_reducible first | assumption | apply Answers.next | apply State.begin_keeps | apply State.facing_keeps | apply State.passTime_keeps
    | with_reducible first | apply State.takeData_keeps | apply State.wake_keeps | refine Keeps.o2 (by assumption) (State.takeHere_keeps ?_)
    | ((fail_if_no_progress extract_lets +onlyGivenNames x)
       first
        | (refine (?_ : Keeps s0 x → _) ?_; (clear_value x; intro _); on_goal 2 => unfold x)
        | clear_value x)
    | (fail_if_no_progress with_reducible apply Keeps.upd)
    | with_reducible refine Keeps.p1 (by assumption) ?_
    | split

theorem execAckTimer_answers {s0 s : State} (h : Keeps s0 s) {t : Nat} {stream : Fin 256} : Answers s0 (execAckTimer t stream s) := by
  unfold execAckTimer
  repeat' first
    | with_reducible first | assumption | apply Answers.next | apply Answers.ite | apply Keeps.ite | apply State.begin_keeps
    | with_reducible first | apply State.passTime_keeps | apply State.sendAck_keeps
    | ((fail_if_no_progress extract_lets +onlyGivenNames x)
       first
        | (refine (?_ : Keeps s0 x → _) ?_; (clear_value x; intro _); on_goal 2 => unfold x)
        | clear_value x)
    | (fail_if_no_progress with_reducible apply Keeps.upd)
    | split

theorem State.takeAck_keeps {s0 s : State} (h : Keeps s0 s) {a : Arrived} : Keeps s0 (s.takeAck a) := by
  unfold State.takeAck
  repeat' first
    | (intro _; try beta_reduce)
    | with_reducible first | assumption | apply Keeps.ite | apply State.setSend_keeps
    | ((fail_if_no_progress extract_lets +onlyGivenNames x)
       first
        | (refine (?_ : Keeps s0 x → _) ?_; (clear_value x; intro _); on_goal 2 => unfold x)
        | clear_value x)
    | (fail_if_no_progress with_reducible apply Keeps.upd)
    | split

theorem execAck_answers {s0 s : State} (h : Keeps s0 s) {t : Nat} : Answers s0 (execAck t s) := by
  unfold execAck
  repeat' first
    | (intro _; try beta_reduce)
    | with_reducible first | assumption | apply Answers.next | apply State.begin_keeps | apply State.passTime_keeps | apply State.onCell_keeps
    | with_reducible first | apply State.takeAck_keeps

theorem State.streamFail_keeps {s0 s : State} (h : Keeps s0 s) {st : Nat} : Keeps s0 (s.streamFail st) := by
  unfold State.streamFail
  repeat' first
    | with_reducible first | assumption | apply State.setSend_keeps | apply State.raise_keeps | apply State.setInt_keeps
    | ((fail_if_no_progress extract_lets +onlyGivenNames x)
       first
        | (refine (?_ : Keeps s0 x → _) ?_; (clear_value x; intro _); on_goal 2 => unfold x)
        | clear_value x)
    | (fail_if_no_progress with_reducible apply Keeps.upd)

theorem State.streamDue_keeps {s0 s : State} (h : Keeps s0 s) {st : Nat} : Keeps s0 (s.streamDue st) := by
  unfold State.streamDue
  repeat' first
    | (intro _; try beta_reduce)
    | with_reducible first | assumption | apply Keeps.ite | apply Keeps.foldl | apply State.streamFail_keeps | apply State.setSend_keeps
    | with_reducible first | apply State.sendCellAt_keeps | apply State.bump_keeps
    | ((fail_if_no_progress extract_lets +onlyGivenNames x)
       first
        | (refine (?_ : Keeps s0 x → _) ?_; (clear_value x; intro _); on_goal 2 => unfold x)
        | clear_value x)
    | (fail_if_no_progress with_reducible apply Keeps.upd)
    | split

theorem execResendTimeout_answers {s0 s : State} (h : Keeps s0 s) {t : Nat} {stream : Fin 256} : Answers s0 (execResendTimeout t stream s) := by
  unfold execResendTimeout
  repeat' first
    | with_reducible first | assumption | apply Answers.next | apply State.begin_keeps | apply State.passTime_keeps | apply State.streamDue_keeps

theorem State.echoGo_keeps {s0 s : State} (h : Keeps s0 s) {v : Nat} : Keeps s0 (s.echoGo v) := by
  unfold State.echoGo
  repeat' first
    | with_reducible first | assumption | apply Keeps.ite | apply State.setFab_keeps | apply State.wrP_keeps | apply State.create_keeps
    | ((fail_if_no_progress extract_lets +onlyGivenNames x)
       first
        | (refine (?_ : Keeps s0 x → _) ?_; (clear_value x; intro _); on_goal 2 => unfold x)
        | clear_value x)
    | (fail_if_no_progress with_reducible apply Keeps.upd)

theorem State.echoAnswer_keeps {s0 s : State} (h : Keeps s0 s) {a : Arrived} : Keeps s0 (s.echoAnswer a) := by
  unfold State.echoAnswer
  repeat' first | with_reducible first | assumption | apply State.create_keeps | (fail_if_no_progress with_reducible apply Keeps.upd)

theorem execEchoReq_answers {s0 s : State} (h : Keeps s0 s) {t : Nat} : Answers s0 (execEchoReq t s) := by
  unfold execEchoReq
  repeat' first
    | (intro _; try beta_reduce)
    | with_reducible first | assumption | apply Answers.next | apply State.begin_keeps | apply State.passTime_keeps | apply State.onCell_keeps
    | with_reducible first | apply State.echoAnswer_keeps

theorem State.echoEnd_keeps {s0 s : State} (h : Keeps s0 s) {res : Nat} : Keeps s0 (s.echoEnd res) := by
  unfold State.echoEnd
  repeat' first
    | with_reducible first | assumption | apply State.setFab_keeps | apply State.wrP_keeps | apply State.setInt_keeps
    | ((fail_if_no_progress extract_lets +onlyGivenNames x)
       first
        | (refine (?_ : Keeps s0 x → _) ?_; (clear_value x; intro _); on_goal 2 => unfold x)
        | clear_value x)
    | (fail_if_no_progress with_reducible apply Keeps.upd)

theorem State.echoTake_keeps {s0 s : State} (h : Keeps s0 s) {a : Arrived} : Keeps s0 (s.echoTake a) := by
  unfold State.echoTake
  repeat' first
    | with_reducible first | assumption | apply Keeps.ite | apply State.echoEnd_keeps | apply State.setP_keeps
    | ((fail_if_no_progress extract_lets +onlyGivenNames x)
       first
        | (refine (?_ : Keeps s0 x → _) ?_; (clear_value x; intro _); on_goal 2 => unfold x)
        | clear_value x)
    | (fail_if_no_progress with_reducible apply Keeps.upd)
    | split

theorem execEchoRsp_answers {s0 s : State} (h : Keeps s0 s) {t : Nat} : Answers s0 (execEchoRsp t s) := by
  unfold execEchoRsp
  repeat' first
    | (intro _; try beta_reduce)
    | with_reducible first | assumption | apply Answers.next | apply State.begin_keeps | apply State.passTime_keeps | apply State.onCell_keeps
    | with_reducible first | apply State.echoTake_keeps

theorem execEchoTimeout_answers {s0 s : State} (h : Keeps s0 s) {t : Nat} : Answers s0 (execEchoTimeout t s) := by
  unfold execEchoTimeout
  repeat' first
    | with_reducible first | assumption | apply Answers.next | apply Answers.ite | apply Keeps.ite | apply State.begin_keeps
    | with_reducible first | apply State.passTime_keeps | apply State.echoEnd_keeps
    | ((fail_if_no_progress extract_lets +onlyGivenNames x)
       first
        | (refine (?_ : Keeps s0 x → _) ?_; (clear_value x; intro _); on_goal 2 => unfold x)
        | clear_value x)
    | (fail_if_no_progress with_reducible apply Keeps.upd)
    | split

theorem State.mgmtGo_keeps {s0 s : State} (h : Keeps s0 s) {v : Nat} : Keeps s0 (s.mgmtGo v) := by
  unfold State.mgmtGo
  repeat' first
    | (intro _; try beta_reduce)
    | with_reducible first | assumption | apply Keeps.ite | apply State.create_keeps
    | ((fail_if_no_progress extract_lets +onlyGivenNames x)
       first
        | (refine (?_ : Keeps s0 x → _) ?_; (clear_value x; intro _); on_goal 2 => unfold x)
        | clear_value x)
    | (fail_if_no_progress with_reducible apply Keeps.upd)

theorem State.mgmtTake_keeps {s0 s : State} (h : Keeps s0 s) {a : Arrived} : Keeps s0 (s.mgmtTake a) := by
  unfold State.mgmtTake
  repeat' first
    | (intro _; try beta_reduce)
    | with_reducible first | assumption | apply Keeps.ite | apply Keeps.foldl | apply State.bump_keeps | apply State.wrP_keeps
    | with_reducible first | apply State.setP_keeps | apply State.setInt_keeps
    | ((fail_if_no_progress extract_lets +onlyGivenNames x)
       first
        | (refine (?_ : Keeps s0 x → _) ?_; (clear_value x; intro _); on_goal 2 => unfold x)
        | clear_value x)

theorem execMgmt_answers {s0 s : State} (h : Keeps s0 s) {t : Nat} : Answers s0 (execMgmt t s) := by
  unfold execMgmt
  repeat' first
    | (intro _; try beta_reduce)
    | with_reducible first | assumption | apply Answers.next | apply State.begin_keeps | apply State.passTime_keeps | apply State.onCell_keeps
    | with_reducible first | apply State.mgmtTake_keeps

theorem State.mgmtPop_keeps {s0 s : State} (h : Keeps s0 s) {v : Nat} : Keeps s0 (s.mgmtPop v) := by
  unfold State.mgmtPop
  repeat' first
    | with_reducible first | assumption | apply Keeps.ite | apply State.setP_keeps
    | ((fail_if_no_progress extract_lets +onlyGivenNames x)
       first
        | (refine (?_ : Keeps s0 x → _) ?_; (clear_value x; intro _); on_goal 2 => unfold x)
        | clear_value x)

theorem State.resetStreams_keeps {s0 s : State} (h : Keeps s0 s) : Keeps s0 (s.resetStreams) := by
  unfold State.resetStreams
  repeat' first
    | (intro _; try beta_reduce)
    | with_reducible first | assumption | apply State.bump_keeps | apply State.setFab_keeps
    | ((fail_if_no_progress extract_lets +onlyGivenNames x)
       first
        | (refine (?_ : Keeps s0 x → _) ?_; (clear_value x; intro _); on_goal 2 => unfold x)
        | clear_value x)
    | (fail_if_no_progress with_reducible apply Keeps.upd)

theorem State.bindStream_keeps {s0 s : State} (h : Keeps s0 s) {b : Binding} : Keeps s0 (s.bindStream b) := by
  unfold State.bindStream
  repeat' first
    | with_reducible first | assumption | apply Keeps.ite | apply State.setSend_keeps | apply State.setRecv_keeps
    | ((fail_if_no_progress extract_lets +onlyGivenNames x)
       first
        | (refine (?_ : Keeps s0 x → _) ?_; (clear_value x; intro _); on_goal 2 => unfold x)
        | clear_value x)
    | (fail_if_no_progress with_reducible apply Keeps.upd)

/-! ## Colls -/

theorem State.shareAbort_keeps {s0 : State} {x : State × Option Nat} (h : Keeps s0 x.1) : Keeps s0 (State.shareAbort x) := by
  unfold State.shareAbort
  split
  · exact State.abortFrame_keeps h
  · exact h

theorem State.cstart_keeps {s0 s : State} (h : Keeps s0 s) {w : SWord} : Keeps s0 (s.cstart w) := by
  unfold State.cstart
  repeat' first
    | (intro _; try beta_reduce)
    | with_reducible first | assumption | apply Keeps.ite | apply Keeps.foldl | apply State.raise_keeps | apply State.abortFrame_keeps
    | with_reducible first | apply State.storeFull_keeps | apply State.bookFlits_keeps | apply State.beginInst_keeps | apply State.later_keeps
    | ((fail_if_no_progress extract_lets +onlyGivenNames x)
       first
        | (refine (?_ : Keeps s0 x → _) ?_; (clear_value x; intro _); on_goal 2 => unfold x)
        | clear_value x)

theorem execCstart_answers {s0 s : State} (h : Keeps s0 s) {w : SWord} : Answers s0 (execCstart w s) := by
  unfold execCstart
  repeat' first
    | (intro _; try beta_reduce)
    | with_reducible first | assumption | apply Answers.next | apply State.issue_keeps | apply State.cstart_keeps | apply State.settle_keeps

theorem execCwait_answers {s0 s : State} (h : Keeps s0 s) {w : SWord} : Answers s0 (execCwait w s) := by
  unfold execCwait
  repeat' first
    | (intro _; try beta_reduce)
    | with_reducible first | assumption | apply Answers.next | apply Answers.ite | apply Keeps.ite | apply State.issueWait_keeps
    | with_reducible first | apply State.freeze_keeps

theorem State.onColl_keeps {s0 s : State} (h : Keeps s0 s) {typ : Nat} {fromNext : Cell → Bool} {f : State → Arrived → Nat → Leg → State}
    (hf : ∀ t y1 y2 y3, Keeps s0 t → Keeps s0 (f t y1 y2 y3)) : Keeps s0 (s.onColl typ fromNext f) := by
  unfold State.onColl
  repeat' first
    | (intro _; try beta_reduce)
    | with_reducible first | assumption | apply Keeps.ite | apply hf | apply State.onCell_keeps | apply State.bump_keeps
    | ((fail_if_no_progress extract_lets +onlyGivenNames x)
       first
        | (refine (?_ : Keeps s0 x → _) ?_; (clear_value x; intro _); on_goal 2 => unfold x)
        | clear_value x)
    | (fail_if_no_progress with_reducible apply Keeps.upd)
    | split

theorem State.lateCell_keeps {s0 s : State} (h : Keeps s0 s) {entry inst : Nat} {l : Leg} {count : Bool} :
    ∀ q, s.lateCell entry inst l count = some q → Keeps s0 q := by
  intro q e
  unfold State.lateCell at e
  extract_lets x at e
  have hx : Keeps s0 x := Keeps.ite (State.bump_keeps h) h
  split at e
  · split at e
    · split at e
      rename_i j e1
      cases e
      exact State.setColl_keeps (Keeps.p1 e1 (State.cackDup_keeps hx))
    · cases e
  · cases e

theorem State.collAbort_keeps {s0 s : State} (h : Keeps s0 s) {i : Inst} {c : Cause} {suspect : Option Nat} {fp : List Byte} {seg : Option Nat}
    : Keeps s0 (s.collAbort i c suspect fp seg) := by
  unfold State.collAbort
  repeat' first
    | with_reducible first | assumption | apply Keeps.ite | apply State.bump_keeps | apply State.raise_keeps | apply State.abortInst_keeps
    | with_reducible first | apply State.stopJob_keeps | apply State.abortFrame_keeps
    | ((fail_if_no_progress extract_lets +onlyGivenNames x)
       first
        | (refine (?_ : Keeps s0 x → _) ?_; (clear_value x; intro _); on_goal 2 => unfold x)
        | clear_value x)

theorem State.takeAbort_keeps {s0 s : State} (h : Keeps s0 s) {a : Arrived} {entry : Nat} {l : Leg} : Keeps s0 (s.takeAbort a entry l) := by
  unfold State.takeAbort
  repeat' first
    | (intro _; try beta_reduce)
    | with_reducible first | assumption | apply Keeps.ite | apply State.abortInst_keeps | apply State.stopJob_keeps | apply State.shareAbort_keeps
    | ((fail_if_no_progress extract_lets +onlyGivenNames x)
       first
        | (refine (?_ : Keeps s0 x → _) ?_; (clear_value x; intro _); on_goal 2 => unfold x)
        | clear_value x)
    | (fail_if_no_progress with_reducible apply Keeps.upd)
    | with_reducible refine Keeps.p1 (by assumption) ?_
    | split

theorem execCabt_answers {s0 s : State} (h : Keeps s0 s) {t : Nat} : Answers s0 (execCabt t s) := by
  unfold execCabt
  repeat' first
    | (intro _; try beta_reduce)
    | with_reducible first | assumption | apply Answers.next | apply State.shareAbort_keeps | apply State.begin_keeps | apply State.passTime_keeps
    | with_reducible first | apply State.onColl_keeps | apply State.takeAbort_keeps | apply State.touchFresh_keeps

theorem execCabtResend_answers {s0 s : State} (h : Keeps s0 s) {t : Nat} : Answers s0 (execCabtResend t s) := by
  unfold execCabtResend
  repeat' first
    | (intro _; try beta_reduce)
    | with_reducible first | assumption | apply Answers.next | apply Keeps.foldl | apply State.begin_keeps | apply State.passTime_keeps
    | with_reducible first | apply State.setColl_keeps | apply State.arrive_keeps
    | ((fail_if_no_progress extract_lets +onlyGivenNames x)
       first
        | (refine (?_ : Keeps s0 x → _) ?_; (clear_value x; intro _); on_goal 2 => unfold x)
        | clear_value x)
    | (fail_if_no_progress with_reducible apply Keeps.upd)

theorem execCollTimeout_answers {s0 s : State} (h : Keeps s0 s) {t : Nat} {entry : Fin 4096} : Answers s0 (execCollTimeout t entry s) := by
  unfold execCollTimeout
  repeat' first
    | (intro _; try beta_reduce)
    | with_reducible first | assumption | apply Answers.next | apply Answers.ite | apply Keeps.ite | apply State.begin_keeps
    | with_reducible first | apply State.passTime_keeps | apply State.shareAbort_keeps | apply State.collAbort_keeps | apply State.touchFresh_keeps
    | ((fail_if_no_progress extract_lets +onlyGivenNames x)
       first
        | (refine (?_ : Keeps s0 x → _) ?_; (clear_value x; intro _); on_goal 2 => unfold x)
        | clear_value x)
    | (fail_if_no_progress with_reducible apply Keeps.upd)
    | split

theorem State.touched_keeps {s0 s : State} (h : Keeps s0 s) {i : Inst} : Keeps s0 (s.touched i) := by
  unfold State.touched
  repeat' first
    | (intro _; try beta_reduce)
    | with_reducible first | assumption | apply State.shareAbort_keeps | apply State.putInst_keeps | apply State.touchEntry_keeps
    | (fail_if_no_progress with_reducible apply Keeps.upd)

theorem State.takeFp_keeps {s0 s : State} (h : Keeps s0 s) {a : Arrived} {entry : Nat} {l : Leg} : Keeps s0 (s.takeFp a entry l) := by
  unfold State.takeFp
  repeat' first
    | with_reducible first | assumption | apply Keeps.ite | apply State.cack_keeps | apply State.touched_keeps | apply State.cackDup_keeps
    | with_reducible first | apply State.putInst_keeps | apply State.setColl_keeps | refine Keeps.o0 (by assumption) (State.lateCell_keeps ?_)
    | ((fail_if_no_progress extract_lets +onlyGivenNames x)
       first
        | (refine (?_ : Keeps s0 x → _) ?_; (clear_value x; intro _); on_goal 2 => unfold x)
        | clear_value x)
    | (fail_if_no_progress with_reducible apply Keeps.upd)
    | with_reducible refine Keeps.p1 (by assumption) ?_
    | split

theorem State.takeAgreed_keeps {s0 s : State} (h : Keeps s0 s) {a : Arrived} {entry : Nat} {l : Leg} : Keeps s0 (s.takeAgreed a entry l) := by
  unfold State.takeAgreed
  repeat' first
    | (intro _; try beta_reduce)
    | with_reducible first | assumption | apply Keeps.ite | apply Keeps.ite1 | apply Keeps.ite2 | apply Keeps.ite21 | apply Keeps.foldl
    | with_reducible first | apply Keeps.foldl1 | apply Keeps.foldl2 | apply State.cackDup_keeps | apply State.putInst_keeps | apply State.cack_keeps
    | with_reducible first | apply State.collAbort_keeps | apply State.sendFp_keeps | apply State.touched_keeps
    | with_reducible first | refine Keeps.getD (State.lateCell_keeps ?_) ?_ | refine Keeps.o0 (by assumption) (State.lateCell_keeps ?_)
    | ((fail_if_no_progress extract_lets +onlyGivenNames x)
       first
        | (refine (?_ : (∀ t, Keeps s0 t → Keeps s0 (x t)) → _) ?_; (clear_value x; intro _); on_goal 2 => unfold x)
        | (refine (?_ : (∀ y, Keeps s0 (x y)) → _) ?_; (clear_value x; intro _); on_goal 2 => unfold x)
        | (refine (?_ : Keeps s0 x.1 → _) ?_; (clear_value x; intro _); on_goal 2 => unfold x)
        | (refine (?_ : Keeps s0 x.2 → _) ?_; (clear_value x; intro _); on_goal 2 => unfold x)
        | (refine (?_ : Keeps s0 x → _) ?_; (clear_value x; intro _); on_goal 2 => unfold x)
        | (refine (?_ : (∀ t y, Keeps s0 t → Keeps s0 (x t y)) → _) ?_; (clear_value x; intro _); on_goal 2 => unfold x)
        | clear_value x)
    | (fail_if_no_progress with_reducible apply Keeps.upd)
    | with_reducible apply_assumption
    | with_reducible refine Keeps.p1 (by assumption) ?_
    | with_reducible refine Keeps.p2 (by assumption) ?_
    | with_reducible refine Keeps.p21 (by assumption) ?_
    | split

theorem execCfpr_answers {s0 s : State} (h : Keeps s0 s) {t : Nat} : Answers s0 (execCfpr t s) := by
  unfold execCfpr
  repeat' first
    | (intro _; try beta_reduce)
    | with_reducible first | assumption | apply Answers.next | apply Answers.ite | apply Keeps.ite | apply State.begin_keeps
    | with_reducible first | apply State.passTime_keeps | apply State.onColl_keeps | apply State.takeAgreed_keeps | apply State.takeFp_keeps

theorem execFingerprintAccept_answers {s0 s : State} (h : Keeps s0 s) {t : Nat} {entry : Fin 4096} {errs : List AccessErr}
    : Answers s0 (execFingerprintAccept t entry errs s) := by
  unfold execFingerprintAccept
  repeat' first
    | (intro _; try beta_reduce)
    | with_reducible first | assumption | apply Answers.next | apply Answers.ite | apply Keeps.ite | apply State.begin_keeps
    | with_reducible first | apply State.facing_keeps | apply State.passTime_keeps | apply State.shareAbort_keeps | apply State.putInst_keeps
    | with_reducible first | apply State.touchEntry_keeps | apply State.bump_keeps
    | ((fail_if_no_progress extract_lets +onlyGivenNames x)
       first
        | (refine (?_ : Keeps s0 x → _) ?_; (clear_value x; intro _); on_goal 2 => unfold x)
        | clear_value x)
    | (fail_if_no_progress with_reducible apply Keeps.upd)
    | split

theorem State.dupCell_keeps {s0 s : State} (h : Keeps s0 s) {i : Inst} {l : Leg} : Keeps s0 (s.dupCell i l) := by
  unfold State.dupCell
  repeat' first
    | with_reducible first | assumption | apply State.bump_keeps | apply State.cackDup_keeps | apply State.putInst_keeps
    | ((fail_if_no_progress extract_lets +onlyGivenNames x)
       first
        | (refine (?_ : Keeps s0 x → _) ?_; (clear_value x; intro _); on_goal 2 => unfold x)
        | clear_value x)
    | with_reducible refine Keeps.p1 (by assumption) ?_
    | split

theorem State.accepting_keeps {s0 s : State} (h : Keeps s0 s) {a : Arrived} {entry : Nat} {l : Leg} {f : State → Inst → State}
    (hf : ∀ t y1, Keeps s0 t → Keeps s0 (f t y1)) : Keeps s0 (s.accepting a entry l f) := by
  unfold State.accepting
  repeat' first
    | (intro _; try beta_reduce)
    | with_reducible first | assumption | apply Keeps.ite | apply Keeps.ite1 | apply Keeps.ite2 | apply Keeps.ite21 | apply Keeps.foldl
    | with_reducible first | apply Keeps.foldl1 | apply Keeps.foldl2 | apply hf | apply State.bump_keeps
    | with_reducible first | refine Keeps.getD (State.lateCell_keeps ?_) ?_ | refine Keeps.o0 (by assumption) (State.lateCell_keeps ?_)
    | ((fail_if_no_progress extract_lets +onlyGivenNames x)
       first
        | (refine (?_ : (∀ t, Keeps s0 t → Keeps s0 (x t)) → _) ?_; (clear_value x; intro _); on_goal 2 => unfold x)
        | (refine (?_ : (∀ y, Keeps s0 (x y)) → _) ?_; (clear_value x; intro _); on_goal 2 => unfold x)
        | (refine (?_ : Keeps s0 x.1 → _) ?_; (clear_value x; intro _); on_goal 2 => unfold x)
        | (refine (?_ : Keeps s0 x.2 → _) ?_; (clear_value x; intro _); on_goal 2 => unfold x)
        | (refine (?_ : Keeps s0 x → _) ?_; (clear_value x; intro _); on_goal 2 => unfold x)
        | (refine (?_ : (∀ t y, Keeps s0 t → Keeps s0 (x t y)) → _) ?_; (clear_value x; intro _); on_goal 2 => unfold x)
        | clear_value x)
    | (fail_if_no_progress with_reducible apply Keeps.upd)
    | with_reducible apply_assumption
    | with_reducible refine Keeps.p1 (by assumption) ?_
    | with_reducible refine Keeps.p2 (by assumption) ?_
    | with_reducible refine Keeps.p21 (by assumption) ?_
    | split

theorem State.epochGate_keeps {s0 s : State} (h : Keeps s0 s) {c : Cell} {i : Inst} {delivers : Bool} {f : State → State}
    (hf : ∀ t, Keeps s0 t → Keeps s0 (f t)) : Keeps s0 (s.epochGate c i delivers f) := by
  unfold State.epochGate
  repeat' first
    | (intro _; try beta_reduce)
    | with_reducible first | assumption | apply Keeps.ite | apply hf | apply State.staleCell_keeps | apply State.bump_keeps
    | with_reducible first | apply State.collAbort_keeps
    | ((fail_if_no_progress extract_lets +onlyGivenNames x)
       first
        | (refine (?_ : Keeps s0 x → _) ?_; (clear_value x; intro _); on_goal 2 => unfold x)
        | clear_value x)

theorem State.takeCell_keeps {s0 s : State} (h : Keeps s0 s) {i : Inst} {l : Leg} {c : Cell} {down dis : Bool} : Keeps s0 (s.takeCell i l c down dis)
    := by
  unfold State.takeCell
  repeat' first
    | (intro _; try beta_reduce)
    | with_reducible first | assumption | apply Keeps.ite | apply State.dupCell_keeps | apply State.bump_keeps | apply State.legDone_keeps
    | with_reducible first | apply State.putInst_keeps | apply State.collAbort_keeps | apply State.touched_keeps
    | ((fail_if_no_progress extract_lets +onlyGivenNames x)
       first
        | (refine (?_ : Keeps s0 x → _) ?_; (clear_value x; intro _); on_goal 2 => unfold x)
        | clear_value x)
    | (fail_if_no_progress with_reducible apply Keeps.upd)
    | with_reducible refine Keeps.p1 (by assumption) ?_
    | split

theorem execCup_answers {s0 s : State} (h : Keeps s0 s) {t : Nat} {dis : Bool} {errs : List AccessErr} : Answers s0 (execCup t dis errs s) := by
  unfold execCup
  repeat' first
    | (intro _; try beta_reduce)
    | with_reducible first | assumption | apply Answers.next | apply Answers.ite | apply Keeps.ite | apply State.wake_keeps | apply State.begin_keeps
    | with_reducible first | apply State.facing_keeps | apply State.passTime_keeps | apply State.onColl_keeps | apply State.accepting_keeps
    | with_reducible first | apply State.epochGate_keeps | apply State.takeCell_keeps | apply State.collAbort_keeps
    | ((fail_if_no_progress extract_lets +onlyGivenNames x)
       first
        | (refine (?_ : Keeps s0 x → _) ?_; (clear_value x; intro _); on_goal 2 => unfold x)
        | clear_value x)

theorem execCdn_answers {s0 s : State} (h : Keeps s0 s) {t : Nat} {errs : List AccessErr} : Answers s0 (execCdn t errs s) := by
  unfold execCdn
  repeat' first
    | (intro _; try beta_reduce)
    | with_reducible first | assumption | apply Answers.next | apply Answers.ite | apply Keeps.ite | apply State.wake_keeps | apply State.begin_keeps
    | with_reducible first | apply State.facing_keeps | apply State.passTime_keeps | apply State.onColl_keeps | apply State.bump_keeps
    | with_reducible first | apply State.accepting_keeps | apply State.epochGate_keeps | apply State.takeCell_keeps

theorem State.segWritten_keeps {s0 s : State} (h : Keeps s0 s) {entry n : Nat} : Keeps s0 (s.segWritten entry n) := by
  unfold State.segWritten
  repeat' first
    | (intro _; try beta_reduce)
    | with_reducible first | assumption | apply Keeps.ite | apply State.writeTo_keeps | apply State.shareAbort_keeps | apply State.putInst_keeps
    | with_reducible first | apply State.touchEntry_keeps | apply State.store_keeps | apply State.bump_keeps | apply State.finishColl_keeps
    | ((fail_if_no_progress extract_lets +onlyGivenNames x)
       first
        | (refine (?_ : Keeps s0 x → _) ?_; (clear_value x; intro _); on_goal 2 => unfold x)
        | clear_value x)
    | (fail_if_no_progress with_reducible apply Keeps.upd)
    | with_reducible refine Keeps.p1 (by assumption) ?_
    | split

theorem execSegmentWritten_answers {s0 s : State} (h : Keeps s0 s) {t : Nat} {entry : Fin 4096} {seg : Fin 32768} {errs : List AccessErr}
    : Answers s0 (execSegmentWritten t entry seg errs s) := by
  unfold execSegmentWritten
  repeat' first
    | with_reducible first | assumption | apply Answers.next | apply State.begin_keeps | apply State.facing_keeps | apply State.passTime_keeps
    | with_reducible first | apply State.segWritten_keeps | apply State.wake_keeps

theorem State.takeCack_keeps {s0 s : State} (h : Keeps s0 s) {a : Arrived} {entry : Nat} {l : Leg} : Keeps s0 (s.takeCack a entry l) := by
  unfold State.takeCack
  repeat' first
    | (intro _; try beta_reduce)
    | with_reducible first | assumption | apply Keeps.ite | apply State.touched_keeps
    | ((fail_if_no_progress extract_lets +onlyGivenNames x)
       first
        | (refine (?_ : Keeps s0 x → _) ?_; (clear_value x; intro _); on_goal 2 => unfold x)
        | clear_value x)
    | (fail_if_no_progress with_reducible apply Keeps.upd)
    | split

theorem execCack_answers {s0 s : State} (h : Keeps s0 s) {t : Nat} {errs : List AccessErr} : Answers s0 (execCack t errs s) := by
  unfold execCack
  repeat' first
    | (intro _; try beta_reduce)
    | with_reducible first | assumption | apply Answers.next | apply Answers.ite | apply Keeps.ite | apply State.begin_keeps
    | with_reducible first | apply State.facing_keeps | apply State.passTime_keeps | apply State.onColl_keeps | apply State.takeCack_keeps
    | with_reducible first | apply State.wake_keeps
    | ((fail_if_no_progress extract_lets +onlyGivenNames x)
       first
        | (refine (?_ : Keeps s0 x → _) ?_; (clear_value x; intro _); on_goal 2 => unfold x)
        | clear_value x)
    | (fail_if_no_progress with_reducible apply Keeps.upd)
    | split

theorem execCackTimer_answers {s0 s : State} (h : Keeps s0 s) {t : Nat} {entry : Fin 4096} {leg : LegName} : Answers s0 (execCackTimer t entry leg s)
    := by
  unfold execCackTimer
  repeat' first
    | (intro _; try beta_reduce)
    | with_reducible first | assumption | apply Answers.next | apply Answers.ite | apply Keeps.ite | apply Keeps.ite1 | apply Keeps.ite2
    | with_reducible first | apply Keeps.ite21 | apply Keeps.foldl | apply Keeps.foldl1 | apply Keeps.foldl2 | apply State.begin_keeps
    | with_reducible first | apply State.passTime_keeps | apply State.cack_keeps | apply State.putInst_keeps
    | ((fail_if_no_progress extract_lets +onlyGivenNames x)
       first
        | (refine (?_ : (∀ t, Keeps s0 t → Keeps s0 (x t)) → _) ?_; (clear_value x; intro _); on_goal 2 => unfold x)
        | (refine (?_ : (∀ y, Keeps s0 (x y)) → _) ?_; (clear_value x; intro _); on_goal 2 => unfold x)
        | (refine (?_ : Keeps s0 x.1 → _) ?_; (clear_value x; intro _); on_goal 2 => unfold x)
        | (refine (?_ : Keeps s0 x.2 → _) ?_; (clear_value x; intro _); on_goal 2 => unfold x)
        | (refine (?_ : Keeps s0 x → _) ?_; (clear_value x; intro _); on_goal 2 => unfold x)
        | (refine (?_ : (∀ t y, Keeps s0 t → Keeps s0 (x t y)) → _) ?_; (clear_value x; intro _); on_goal 2 => unfold x)
        | clear_value x)
    | (fail_if_no_progress with_reducible apply Keeps.upd)
    | with_reducible apply_assumption
    | with_reducible refine Keeps.p1 (by assumption) ?_
    | with_reducible refine Keeps.p2 (by assumption) ?_
    | with_reducible refine Keeps.p21 (by assumption) ?_
    | split

theorem State.resendUnit_keeps {s0 s : State} (h : Keeps s0 s) {i : Inst} {l : Leg} {q : SentSeg} : Keeps s0 (s.resendUnit i l q).1 := by
  unfold State.resendUnit
  repeat' first
    | (intro _; try beta_reduce)
    | with_reducible first | assumption | apply Keeps.ite | apply Keeps.ite1 | apply Keeps.foldl1 | apply State.fpCell_keeps
    | with_reducible first | apply State.segOut_keeps
    | ((fail_if_no_progress extract_lets +onlyGivenNames x)
       first
        | (refine (?_ : Keeps s0 x → _) ?_; (clear_value x; intro _); on_goal 2 => unfold x)
        | clear_value x)
    | (fail_if_no_progress with_reducible apply Keeps.upd)
    | split

theorem State.legDue_keeps {s0 s : State} (h : Keeps s0 s) {i : Inst} {l : Leg} : Keeps s0 (s.legDue i l) := by
  unfold State.legDue
  repeat' first
    | (intro _; try beta_reduce)
    | with_reducible first | assumption | apply Keeps.ite | apply Keeps.ite1 | apply Keeps.ite2 | apply Keeps.ite21 | apply Keeps.foldl
    | with_reducible first | apply Keeps.foldl1 | apply Keeps.foldl2 | apply State.collAbort_keeps | apply State.resendUnit_keeps
    | with_reducible first | apply State.bump_keeps | apply State.putInst_keeps
    | ((fail_if_no_progress extract_lets +onlyGivenNames x)
       first
        | (refine (?_ : (∀ t, Keeps s0 t → Keeps s0 (x t)) → _) ?_; (clear_value x; intro _); on_goal 2 => unfold x)
        | (refine (?_ : (∀ y, Keeps s0 (x y)) → _) ?_; (clear_value x; intro _); on_goal 2 => unfold x)
        | (refine (?_ : Keeps s0 x.1 → _) ?_; (clear_value x; intro _); on_goal 2 => unfold x)
        | (refine (?_ : Keeps s0 x.2 → _) ?_; (clear_value x; intro _); on_goal 2 => unfold x)
        | (refine (?_ : Keeps s0 x → _) ?_; (clear_value x; intro _); on_goal 2 => unfold x)
        | (refine (?_ : (∀ t y, Keeps s0 t → Keeps s0 (x t y)) → _) ?_; (clear_value x; intro _); on_goal 2 => unfold x)
        | clear_value x)
    | (fail_if_no_progress with_reducible apply Keeps.upd)
    | with_reducible apply_assumption
    | with_reducible refine Keeps.p1 (by assumption) ?_
    | with_reducible refine Keeps.p2 (by assumption) ?_
    | with_reducible refine Keeps.p21 (by assumption) ?_
    | split

theorem execLegResendTimeout_answers {s0 s : State} (h : Keeps s0 s) {t : Nat} {entry : Fin 4096} {leg : LegName}
    : Answers s0 (execLegResendTimeout t entry leg s) := by
  unfold execLegResendTimeout
  repeat' first
    | (intro _; try beta_reduce)
    | with_reducible first | assumption | apply Answers.next | apply State.begin_keeps | apply State.passTime_keeps | apply State.shareAbort_keeps
    | with_reducible first | apply State.legDue_keeps | apply State.touchFresh_keeps
    | ((fail_if_no_progress extract_lets +onlyGivenNames x)
       first
        | (refine (?_ : Keeps s0 x → _) ?_; (clear_value x; intro _); on_goal 2 => unfold x)
        | clear_value x)
    | (fail_if_no_progress with_reducible apply Keeps.upd)
    | split

/-! ## Admission -/

theorem State.admitError_keeps {s0 s : State} (h : Keeps s0 s) {f : AdmitFail} : Keeps s0 (s.admitError f).1 := by
  unfold State.admitError
  repeat' first
    | with_reducible first | assumption | apply Keeps.ite | apply Keeps.ite1 | apply Keeps.foldl1 | apply State.raise_keeps
    | ((fail_if_no_progress extract_lets +onlyGivenNames x)
       first
        | (refine (?_ : Keeps s0 x → _) ?_; (clear_value x; intro _); on_goal 2 => unfold x)
        | clear_value x)

/-! ## Arbiter -/

theorem State.noteServed_keeps {s0 s : State} (h : Keeps s0 s) {x : Transfer} {a : Access} : Keeps s0 (s.noteServed x a) := by
  unfold State.noteServed
  repeat' first
    | (intro _; try beta_reduce)
    | with_reducible first | assumption | apply Keeps.ite | apply State.write_keeps | apply State.served_keeps | apply State.setLink_keeps
    | with_reducible first | apply State.setStack_keeps
    | ((fail_if_no_progress extract_lets +onlyGivenNames x)
       first
        | (refine (?_ : Keeps s0 x → _) ?_; (clear_value x; intro _); on_goal 2 => unfold x)
        | clear_value x)
    | (fail_if_no_progress with_reducible apply Keeps.upd)
    | with_reducible refine Keeps.p1 (by assumption) ?_
    | split

end Sys2Proof.Machine
end

