-- ==== Sys2Proof/Laws/KeepsHost.lean ====
section
/-!
SUPPORT. What every command keeps, kept by power domains, the Stubble, the security core, the host ports, the descriptors and memory accesses.
-/
namespace Sys2Proof.Machine

set_option Elab.async false
set_option linter.unreachableTactic false
set_option linter.unusedTactic false
set_option linter.unusedVariables false

/-! ## Power -/

theorem State.setPwr_keeps {s0 s : State} (h : Keeps s0 s) {p : Power} : Keeps s0 (s.setPwr p) := by
  unfold State.setPwr
  repeat' first | with_reducible first | assumption | (fail_if_no_progress with_reducible apply Keeps.upd)

theorem State.setDom_keeps {s0 s : State} (h : Keeps s0 s) {n hi lo v : Nat} : Keeps s0 (s.setDom n hi lo v) := by
  unfold State.setDom
  repeat' first | with_reducible first | assumption | apply State.wr_keeps

theorem State.countRefusal_keeps {s0 s : State} (h : Keeps s0 s) {n refuser : Nat} : Keeps s0 (s.countRefusal n refuser) := by
  unfold State.countRefusal
  repeat' first
    | with_reducible first | assumption | apply State.wrP_keeps
    | ((fail_if_no_progress extract_lets +onlyGivenNames x)
       first
        | (refine (?_ : Keeps s0 x → _) ?_; (clear_value x; intro _); on_goal 2 => unfold x)
        | clear_value x)

theorem State.saveDomain_keeps {s0 s : State} (h : Keeps s0 s) {n : Nat} : Keeps s0 (s.saveDomain n) := by
  unfold State.saveDomain
  repeat' first
    | (intro _; try beta_reduce)
    | with_reducible first | assumption | apply State.setPwr_keeps
    | (fail_if_no_progress with_reducible apply Keeps.upd)

theorem State.clearDomain_keeps {s0 s : State} (h : Keeps s0 s) {n : Nat} : Keeps s0 (s.clearDomain n) :=
  Keeps.of h (fun x => Sparse.filter_wf _ x) id rfl rfl

theorem State.restoreDomain_keeps {s0 s : State} (h : Keeps s0 s) {n : Nat} {ecc : Bool} : Keeps s0 (s.restoreDomain n ecc) := by
  unfold State.restoreDomain
  repeat' first
    | (intro _; try beta_reduce)
    | with_reducible first | assumption | apply Keeps.ite | apply Keeps.foldl | apply State.clearDomain_keeps | apply State.setPwr_keeps
    | with_reducible first | apply State.bump_keeps | apply State.setInt_keeps | apply State.wr_keeps
    | ((fail_if_no_progress extract_lets +onlyGivenNames x)
       first
        | (refine (?_ : Keeps s0 x → _) ?_; (clear_value x; intro _); on_goal 2 => unfold x)
        | clear_value x)
    | (fail_if_no_progress with_reducible apply Keeps.upd)
    | split

theorem State.loseStack_keeps {s0 s : State} (h : Keeps s0 s) {k : Nat} : Keeps s0 (s.loseStack k) := by
  unfold State.loseStack
  repeat' first | with_reducible first | assumption | apply State.lose_keeps

theorem State.loseDomain_keeps {s0 s : State} (h : Keeps s0 s) {n : Nat} : Keeps s0 (s.loseDomain n) := by
  unfold State.loseDomain
  repeat' first
    | (intro _; try beta_reduce)
    | with_reducible first | assumption | apply Keeps.ite | apply State.lose_keeps | apply State.loseStack_keeps
    | ((fail_if_no_progress extract_lets +onlyGivenNames x)
       first
        | (refine (?_ : Keeps s0 x → _) ?_; (clear_value x; intro _); on_goal 2 => unfold x)
        | clear_value x)
    | (fail_if_no_progress with_reducible apply Keeps.upd)

theorem State.applyStackRepairs_keeps {s0 s : State} (h : Keeps s0 s) {k : Nat} : Keeps s0 (s.applyStackRepairs k) := by
  unfold State.applyStackRepairs
  repeat' first
    | (intro _; try beta_reduce)
    | with_reducible first | assumption | apply State.setStack_keeps
    | ((fail_if_no_progress extract_lets +onlyGivenNames x)
       first
        | (refine (?_ : Keeps s0 x → _) ?_; (clear_value x; intro _); on_goal 2 => unfold x)
        | clear_value x)
    | (fail_if_no_progress with_reducible apply Keeps.upd)

theorem State.seedNow_keeps {s0 s : State} (h : Keeps s0 s) {p : Page} : Keeps s0 (s.seedNow p) := by
  unfold State.seedNow
  repeat' first
    | (intro _; try beta_reduce)
    | with_reducible first | assumption | apply Keeps.ite | apply State.draw_keeps | apply State.bump_keeps
    | ((fail_if_no_progress extract_lets +onlyGivenNames x)
       first
        | (refine (?_ : Keeps s0 x → _) ?_; (clear_value x; intro _); on_goal 2 => unfold x)
        | clear_value x)
    | (fail_if_no_progress with_reducible apply Keeps.upd)
    | with_reducible refine Keeps.p1 (by assumption) ?_
    | split

theorem State.seedEngine_keeps {s0 s : State} (h : Keeps s0 s) {p : Page} {kat : Bool} : Keeps s0 (s.seedEngine p kat) := by
  unfold State.seedEngine
  repeat' first
    | with_reducible first | assumption | apply Keeps.ite | apply State.setP_keeps | apply State.setInt_keeps | apply State.raise_keeps
    | with_reducible first | apply State.seedNow_keeps
    | ((fail_if_no_progress extract_lets +onlyGivenNames x)
       first
        | (refine (?_ : Keeps s0 x → _) ?_; (clear_value x; intro _); on_goal 2 => unfold x)
        | clear_value x)

theorem State.dropTransit_keeps {s0 s : State} (h : Keeps s0 s) {n : Nat} : Keeps s0 (s.dropTransit n) := by
  unfold State.dropTransit
  repeat' first
    | (intro _; try beta_reduce)
    | with_reducible first | assumption | apply State.setPwr_keeps
    | (fail_if_no_progress with_reducible apply Keeps.upd)

theorem State.beginTransit_keeps {s0 s : State} (h : Keeps s0 s) {n target from_ cycles : Nat} : Keeps s0 (s.beginTransit n target from_ cycles) := by
  unfold State.beginTransit
  repeat' first
    | (intro _; try beta_reduce)
    | with_reducible first | assumption | apply State.setDom_keeps | apply State.setPwr_keeps
    | ((fail_if_no_progress extract_lets +onlyGivenNames x)
       first
        | (refine (?_ : Keeps s0 x → _) ?_; (clear_value x; intro _); on_goal 2 => unfold x)
        | clear_value x)
    | (fail_if_no_progress with_reducible apply Keeps.upd)

theorem State.leaveOn_keeps {s0 s : State} (h : Keeps s0 s) {n target : Nat} : Keeps s0 (s.leaveOn n target) := by
  unfold State.leaveOn
  repeat' first
    | with_reducible first | assumption | apply Keeps.ite | apply State.setPort_keeps | apply State.portSync_keeps | apply State.wrP_keeps
    | with_reducible first | apply State.setInt_keeps
    | ((fail_if_no_progress extract_lets +onlyGivenNames x)
       first
        | (refine (?_ : Keeps s0 x → _) ?_; (clear_value x; intro _); on_goal 2 => unfold x)
        | clear_value x)
    | (fail_if_no_progress with_reducible apply Keeps.upd)

theorem State.beginEntry_keeps {s0 s : State} (h : Keeps s0 s) {n target : Nat} : Keeps s0 (s.beginEntry n target) := by
  unfold State.beginEntry
  repeat' first
    | with_reducible first | assumption | apply Keeps.ite | apply State.saveDomain_keeps | apply State.leaveOn_keeps | apply State.beginTransit_keeps
    | ((fail_if_no_progress extract_lets +onlyGivenNames x)
       first
        | (refine (?_ : Keeps s0 x → _) ?_; (clear_value x; intro _); on_goal 2 => unfold x)
        | clear_value x)

theorem State.beginExit_keeps {s0 s : State} (h : Keeps s0 s) {n from_ : Nat} : Keeps s0 (s.beginExit n from_) := by
  unfold State.beginExit
  repeat' first
    | with_reducible first | assumption | apply Keeps.ite | apply State.beginTransit_keeps | apply State.linkTrainStart_keeps
    | ((fail_if_no_progress extract_lets +onlyGivenNames x)
       first
        | (refine (?_ : Keeps s0 x → _) ?_; (clear_value x; intro _); on_goal 2 => unfold x)
        | clear_value x)

theorem State.endEntry_keeps {s0 s : State} (h : Keeps s0 s) {x : Transit} : Keeps s0 (s.endEntry x) := by
  unfold State.endEntry
  repeat' first
    | with_reducible first | assumption | apply Keeps.ite | apply State.dropTransit_keeps | apply State.setDom_keeps | apply State.loseDomain_keeps
    | with_reducible first | apply State.setPort_keeps | apply State.portSync_keeps | apply State.bump_keeps | apply State.setInt_keeps
    | with_reducible first | apply State.beginExit_keeps
    | ((fail_if_no_progress extract_lets +onlyGivenNames x)
       first
        | (refine (?_ : Keeps s0 x → _) ?_; (clear_value x; intro _); on_goal 2 => unfold x)
        | clear_value x)
    | (fail_if_no_progress with_reducible apply Keeps.upd)

theorem State.endExit_keeps {s0 s : State} (h : Keeps s0 s) {x : Transit} {ecc kat : Bool} {lanes : List (Nat × Nat)}
    : Keeps s0 (s.endExit x ecc kat lanes) := by
  unfold State.endExit
  repeat' first
    | (intro _; try beta_reduce)
    | with_reducible first | assumption | apply Keeps.ite | apply State.dropTransit_keeps | apply State.restoreDomain_keeps | apply State.setDom_keeps
    | with_reducible first | apply State.setPwr_keeps | apply State.seedEngine_keeps | apply State.applyStackRepairs_keeps
    | with_reducible first | apply State.portTrain_keeps | apply State.setPort_keeps | apply State.portSync_keeps | apply State.setPci_keeps
    | with_reducible first | apply State.linkTrainStart_keeps | apply State.linkTrainEnd_keeps
    | ((fail_if_no_progress extract_lets +onlyGivenNames x)
       first
        | (refine (?_ : Keeps s0 x → _) ?_; (clear_value x; intro _); on_goal 2 => unfold x)
        | clear_value x)
    | (fail_if_no_progress with_reducible apply Keeps.upd)
    | with_reducible refine Keeps.p1 (by assumption) ?_
    | split

theorem State.requestPower_keeps {s0 s : State} (h : Keeps s0 s) {n v : Nat} : Keeps s0 (s.requestPower n v) := by
  unfold State.requestPower
  repeat' first
    | with_reducible first | assumption | apply Keeps.ite | apply State.setDom_keeps
    | ((fail_if_no_progress extract_lets +onlyGivenNames x)
       first
        | (refine (?_ : Keeps s0 x → _) ?_; (clear_value x; intro _); on_goal 2 => unfold x)
        | clear_value x)
    | (fail_if_no_progress with_reducible apply Keeps.upd)
    | split

theorem State.wakeDomain_keeps {s0 s : State} (h : Keeps s0 s) {level : Bool} {n : Nat} : Keeps s0 (s.wakeDomain level n) := by
  unfold State.wakeDomain
  repeat' first
    | (intro _; try beta_reduce)
    | with_reducible first | assumption | apply Keeps.ite | apply State.setDom_keeps | apply State.dropTransit_keeps | apply State.countRefusal_keeps
    | with_reducible first | apply State.beginExit_keeps | apply State.setPwr_keeps | apply State.bump_keeps | apply State.setInt_keeps
    | ((fail_if_no_progress extract_lets +onlyGivenNames x)
       first
        | (refine (?_ : Keeps s0 x → _) ?_; (clear_value x; intro _); on_goal 2 => unfold x)
        | clear_value x)
    | (fail_if_no_progress with_reducible apply Keeps.upd)
    | split

theorem State.rampDomain_keeps {s0 s : State} (h : Keeps s0 s) {n : Nat} : Keeps s0 (s.rampDomain n) := by
  unfold State.rampDomain
  repeat' first
    | (intro _; try beta_reduce)
    | with_reducible first | assumption | apply Keeps.ite | apply State.setPwr_keeps | apply State.setDom_keeps
    | ((fail_if_no_progress extract_lets +onlyGivenNames x)
       first
        | (refine (?_ : Keeps s0 x → _) ?_; (clear_value x; intro _); on_goal 2 => unfold x)
        | clear_value x)
    | (fail_if_no_progress with_reducible apply Keeps.upd)

theorem State.turnOn_keeps {s0 s : State} (h : Keeps s0 s) {n : Nat} : Keeps s0 (s.turnOn n) := by
  unfold State.turnOn
  repeat' first
    | with_reducible first | assumption | apply Keeps.ite | apply State.setDom_keeps | apply State.flushMaps_keeps
    | ((fail_if_no_progress extract_lets +onlyGivenNames x)
       first
        | (refine (?_ : Keeps s0 x → _) ?_; (clear_value x; intro _); on_goal 2 => unfold x)
        | clear_value x)

theorem State.domainBoundary_keeps {s0 s : State} (h : Keeps s0 s) {n : Nat} : Keeps s0 (s.domainBoundary n) := by
  unfold State.domainBoundary
  repeat' first
    | with_reducible first | assumption | apply Keeps.ite | apply State.rampDomain_keeps | apply State.turnOn_keeps | apply State.beginExit_keeps
    | with_reducible first | apply State.countRefusal_keeps | apply State.beginEntry_keeps
    | ((fail_if_no_progress extract_lets +onlyGivenNames x)
       first
        | (refine (?_ : Keeps s0 x → _) ?_; (clear_value x; intro _); on_goal 2 => unfold x)
        | clear_value x)
    | (fail_if_no_progress with_reducible apply Keeps.upd)
    | split

theorem State.powerBoundary_keeps {s0 s : State} (h : Keeps s0 s) : Keeps s0 (s.powerBoundary) := by
  unfold State.powerBoundary
  repeat' first | (intro _; try beta_reduce) | with_reducible first | assumption | apply Keeps.foldl | apply State.domainBoundary_keeps

theorem execPowerEntryComplete_answers {s0 s : State} (h : Keeps s0 s) {t : Nat} {dom : Fin 211} : Answers s0 (execPowerEntryComplete t dom s) := by
  unfold execPowerEntryComplete
  repeat' first
    | with_reducible first | assumption | apply Answers.next | apply Answers.ite | apply Keeps.ite | apply State.begin_keeps
    | with_reducible first | apply State.passTime_keeps | apply State.endEntry_keeps
    | ((fail_if_no_progress extract_lets +onlyGivenNames x)
       first
        | (refine (?_ : Keeps s0 x → _) ?_; (clear_value x; intro _); on_goal 2 => unfold x)
        | clear_value x)
    | (fail_if_no_progress with_reducible apply Keeps.upd)
    | split

theorem execPowerExitComplete_answers {s0 s : State} (h : Keeps s0 s) {t : Nat} {dom : Fin 211} {ecc kat : Bool} {lanes : List (Bool × Fin 1632)}
    : Answers s0 (execPowerExitComplete t dom ecc kat lanes s) := by
  unfold execPowerExitComplete
  repeat' first
    | (intro _; try beta_reduce)
    | with_reducible first | assumption | apply Answers.next | apply Answers.ite | apply Keeps.ite | apply State.begin_keeps
    | with_reducible first | apply State.passTime_keeps | apply State.endExit_keeps
    | ((fail_if_no_progress extract_lets +onlyGivenNames x)
       first
        | (refine (?_ : Keeps s0 x → _) ?_; (clear_value x; intro _); on_goal 2 => unfold x)
        | clear_value x)
    | (fail_if_no_progress with_reducible apply Keeps.upd)
    | split

theorem execDividerHoldInterval_answers {s0 s : State} (h : Keeps s0 s) {t : Nat} : Answers s0 (execDividerHoldInterval t s) := by
  unfold execDividerHoldInterval
  repeat' first
    | (intro _; try beta_reduce)
    | with_reducible first | assumption | apply Answers.next | apply Answers.ite | apply Keeps.ite | apply Keeps.foldl | apply State.begin_keeps
    | with_reducible first | apply State.passTime_keeps | apply State.rampDomain_keeps
    | ((fail_if_no_progress extract_lets +onlyGivenNames x)
       first
        | (refine (?_ : Keeps s0 x → _) ?_; (clear_value x; intro _); on_goal 2 => unfold x)
        | clear_value x)

/-! ## Stubble -/

theorem State.setStb_keeps {s0 s : State} (h : Keeps s0 s) {x : Stubble} : Keeps s0 (s.setStb x) := by
  unfold State.setStb
  repeat' first | with_reducible first | assumption | (fail_if_no_progress with_reducible apply Keeps.upd)

theorem State.dropRails_keeps {s0 s : State} (h : Keeps s0 s) : Keeps s0 s.dropRails :=
  Keeps.of (State.abortFrame_keeps h (s0 := s0)) (fun x => Sparse.filter_wf _ x) (fun _ => rfl) rfl rfl

theorem State.trip_keeps {s0 s : State} (h : Keeps s0 s) {cause source value : Nat} : Keeps s0 (s.trip cause source value) := by
  unfold State.trip
  repeat' first
    | with_reducible first | assumption | apply Keeps.ite | apply State.wrP_keeps | apply State.dropRails_keeps
    | ((fail_if_no_progress extract_lets +onlyGivenNames x)
       first
        | (refine (?_ : Keeps s0 x → _) ?_; (clear_value x; intro _); on_goal 2 => unfold x)
        | clear_value x)
    | (fail_if_no_progress with_reducible apply Keeps.upd)

theorem State.noteInput_keeps {s0 s : State} (h : Keeps s0 s) {i : Nat} {ok : Bool} : Keeps s0 (s.noteInput i ok) := by
  unfold State.noteInput
  repeat' first
    | (intro _; try beta_reduce)
    | with_reducible first | assumption | apply Keeps.ite | apply State.setStb_keeps | apply State.raise_keeps
    | ((fail_if_no_progress extract_lets +onlyGivenNames x)
       first
        | (refine (?_ : Keeps s0 x → _) ?_; (clear_value x; intro _); on_goal 2 => unfold x)
        | clear_value x)
    | (fail_if_no_progress with_reducible apply Keeps.upd)

theorem State.setInput_keeps {s0 s : State} (h : Keeps s0 s) {i : Nat} {v : Option Int} : Keeps s0 (s.setInput i v) := by
  unfold State.setInput
  repeat' first
    | with_reducible first | assumption | apply State.wr_keeps | apply State.noteInput_keeps
    | ((fail_if_no_progress extract_lets +onlyGivenNames x)
       first
        | (refine (?_ : Keeps s0 x → _) ?_; (clear_value x; intro _); on_goal 2 => unfold x)
        | clear_value x)
    | (fail_if_no_progress with_reducible apply Keeps.upd)
    | with_reducible refine Keeps.p1 (by assumption) ?_
    | split

theorem State.setCond_keeps {s0 s : State} (h : Keeps s0 s) {c : Nat} {x : CondState} : Keeps s0 (s.setCond c x) := by
  unfold State.setCond
  repeat' first | with_reducible first | assumption | apply State.setStb_keeps | (fail_if_no_progress with_reducible apply Keeps.upd)

theorem State.deassert_keeps {s0 s : State} (h : Keeps s0 s) {c : Nat} : Keeps s0 (s.deassert c) := by
  unfold State.deassert
  repeat' first | with_reducible first | assumption | apply State.wr_keeps

theorem State.condOn_keeps {s0 s : State} (h : Keeps s0 s) {c : Nat} : Keeps s0 (s.condOn c) := by
  unfold State.condOn
  repeat' first
    | (intro _; try beta_reduce)
    | with_reducible first | assumption | apply Keeps.ite | apply State.wr_keeps | apply State.setCond_keeps | apply State.raise_keeps
    | with_reducible first | apply State.setInt_keeps
    | ((fail_if_no_progress extract_lets +onlyGivenNames x)
       first
        | (refine (?_ : Keeps s0 x → _) ?_; (clear_value x; intro _); on_goal 2 => unfold x)
        | clear_value x)
    | (fail_if_no_progress with_reducible apply Keeps.upd)

theorem State.evalCond_keeps {s0 s : State} (h : Keeps s0 s) {c : Nat} : Keeps s0 (s.evalCond c) := by
  unfold State.evalCond
  repeat' first
    | with_reducible first | assumption | apply Keeps.ite | apply State.wr_keeps | apply State.setCond_keeps | apply State.condOn_keeps
    | with_reducible first | apply State.deassert_keeps
    | ((fail_if_no_progress extract_lets +onlyGivenNames x)
       first
        | (refine (?_ : Keeps s0 x → _) ?_; (clear_value x; intro _); on_goal 2 => unfold x)
        | clear_value x)
    | (fail_if_no_progress with_reducible apply Keeps.upd)

theorem State.stbSync_keeps {s0 s : State} (h : Keeps s0 s) : Keeps s0 (s.stbSync) := by
  unfold State.stbSync
  repeat' first
    | (intro _; try beta_reduce)
    | with_reducible first | assumption | apply Keeps.ite | apply Keeps.foldl | apply State.wrP_keeps
    | ((fail_if_no_progress extract_lets +onlyGivenNames x)
       first
        | (refine (?_ : Keeps s0 x → _) ?_; (clear_value x; intro _); on_goal 2 => unfold x)
        | clear_value x)

theorem State.fireRule_keeps {s0 s : State} (h : Keeps s0 s) {woken : List Nat} {r : Nat} : Keeps s0 (s.fireRule woken r) := by
  unfold State.fireRule
  repeat' first
    | (intro _; try beta_reduce)
    | with_reducible first | assumption | apply Keeps.ite | apply Keeps.ite1 | apply Keeps.ite2 | apply Keeps.ite21 | apply Keeps.foldl
    | with_reducible first | apply Keeps.foldl1 | apply Keeps.foldl2 | apply State.raise_keeps | apply State.setP_keeps | apply State.setInt_keeps
    | with_reducible first | apply State.stbSync_keeps | apply State.setStb_keeps | apply State.wakeDomain_keeps | apply State.requestPower_keeps
    | with_reducible first | apply State.trip_keeps
    | ((fail_if_no_progress extract_lets +onlyGivenNames x)
       first
        | (refine (?_ : (∀ t, Keeps s0 t → Keeps s0 (x t)) → _) ?_; (clear_value x; intro _); on_goal 2 => unfold x)
        | (refine (?_ : (∀ y, Keeps s0 (x y)) → _) ?_; (clear_value x; intro _); on_goal 2 => unfold x)
        | (refine (?_ : Keeps s0 x.1 → _) ?_; (clear_value x; intro _); on_goal 2 => unfold x)
        | (refine (?_ : Keeps s0 x.2 → _) ?_; (clear_value x; intro _); on_goal 2 => unfold x)
        | (refine (?_ : Keeps s0 x → _) ?_; (clear_value x; intro _); on_goal 2 => unfold x)
        | (refine (?_ : (∀ t y, Keeps s0 t → Keeps s0 (x t y)) → _) ?_; (clear_value x; intro _); on_goal 2 => unfold x)
        | clear_value x)
    | (fail_if_no_progress with_reducible apply Keeps.upd)
    | with_reducible apply_assumption
    | with_reducible refine Keeps.p1 (by assumption) ?_
    | with_reducible refine Keeps.p2 (by assumption) ?_
    | with_reducible refine Keeps.p21 (by assumption) ?_
    | split

theorem State.runRules_keeps {s0 s : State} (h : Keeps s0 s) : Keeps s0 (s.runRules) := by
  unfold State.runRules
  repeat' first
    | (intro _; try beta_reduce)
    | with_reducible first | assumption | apply Keeps.ite | apply Keeps.foldl | apply State.setStb_keeps | apply State.stbSync_keeps
    | with_reducible first | apply State.trip_keeps | apply State.fireRule_keeps
    | ((fail_if_no_progress extract_lets +onlyGivenNames x)
       first
        | (refine (?_ : Keeps s0 x → _) ?_; (clear_value x; intro _); on_goal 2 => unfold x)
        | clear_value x)
    | (fail_if_no_progress with_reducible apply Keeps.upd)
    | split

theorem State.samplePower_keeps {s0 s : State} (h : Keeps s0 s) : Keeps s0 (s.samplePower) := by
  unfold State.samplePower
  repeat' first
    | with_reducible first | assumption | apply Keeps.ite | apply State.setPwr_keeps
    | (fail_if_no_progress with_reducible apply Keeps.upd)

theorem State.analogSample_keeps {s0 s : State} (h : Keeps s0 s) {vals : List (Option Int)} : Keeps s0 (s.analogSample vals) := by
  unfold State.analogSample
  repeat' first
    | (intro _; try beta_reduce)
    | with_reducible first | assumption | apply Keeps.ite | apply Keeps.foldl | apply State.setInput_keeps | apply State.samplePower_keeps
    | with_reducible first | apply State.raise_keeps | apply State.trip_keeps | apply State.evalCond_keeps | apply State.runRules_keeps
    | ((fail_if_no_progress extract_lets +onlyGivenNames x)
       first
        | (refine (?_ : Keeps s0 x → _) ?_; (clear_value x; intro _); on_goal 2 => unfold x)
        | clear_value x)
    | (fail_if_no_progress with_reducible apply Keeps.upd)
    | split

theorem execStubbleAnalogSample_answers {s0 s : State} (h : Keeps s0 s) {t : Nat} {vals : List (Option Int)}
    : Answers s0 (execStubbleAnalogSample t vals s) := by
  unfold execStubbleAnalogSample
  repeat' first
    | with_reducible first | assumption | apply Answers.next | apply Answers.ite | apply Keeps.ite | apply State.begin_keeps
    | with_reducible first | apply State.passTime_keeps | apply State.analogSample_keeps
    | ((fail_if_no_progress extract_lets +onlyGivenNames x)
       first
        | (refine (?_ : Keeps s0 x → _) ?_; (clear_value x; intro _); on_goal 2 => unfold x)
        | clear_value x)

theorem State.digitalSample_keeps {s0 s : State} (h : Keeps s0 s) {wake flow : Bool} : Keeps s0 (s.digitalSample wake flow) := by
  unfold State.digitalSample
  repeat' first
    | (intro _; try beta_reduce)
    | with_reducible first | assumption | apply Keeps.foldl | apply State.setInput_keeps | apply State.evalCond_keeps | apply State.runRules_keeps
    | ((fail_if_no_progress extract_lets +onlyGivenNames x)
       first
        | (refine (?_ : Keeps s0 x → _) ?_; (clear_value x; intro _); on_goal 2 => unfold x)
        | clear_value x)
    | (fail_if_no_progress with_reducible apply Keeps.upd)

theorem execStubbleDigitalSample_answers {s0 s : State} (h : Keeps s0 s) {t : Nat} {wake flow : Bool}
    : Answers s0 (execStubbleDigitalSample t wake flow s) := by
  unfold execStubbleDigitalSample
  repeat' first
    | with_reducible first | assumption | apply Answers.next | apply Answers.ite | apply Keeps.ite | apply State.begin_keeps
    | with_reducible first | apply State.passTime_keeps | apply State.digitalSample_keeps
    | ((fail_if_no_progress extract_lets +onlyGivenNames x)
       first
        | (refine (?_ : Keeps s0 x → _) ?_; (clear_value x; intro _); on_goal 2 => unfold x)
        | clear_value x)

theorem execInputStuck_answers {s0 s : State} (h : Keeps s0 s) {t : Nat} {cond : Fin 64} : Answers s0 (execInputStuck t cond s) := by
  unfold execInputStuck
  repeat' first
    | with_reducible first | assumption | apply Answers.next | apply Answers.ite | apply Keeps.ite | apply State.begin_keeps
    | with_reducible first | apply State.passTime_keeps | apply State.wr_keeps | apply State.raise_keeps | apply State.setInt_keeps
    | ((fail_if_no_progress extract_lets +onlyGivenNames x)
       first
        | (refine (?_ : Keeps s0 x → _) ?_; (clear_value x; intro _); on_goal 2 => unfold x)
        | clear_value x)

theorem execHoldoffExpiry_answers {s0 s : State} (h : Keeps s0 s) {t : Nat} {cond : Fin 64} : Answers s0 (execHoldoffExpiry t cond s) := by
  unfold execHoldoffExpiry
  repeat' first
    | with_reducible first | assumption | apply Answers.next | apply Answers.ite | apply Keeps.ite | apply State.begin_keeps
    | with_reducible first | apply State.passTime_keeps | apply State.wr_keeps | apply State.setCond_keeps
    | ((fail_if_no_progress extract_lets +onlyGivenNames x)
       first
        | (refine (?_ : Keeps s0 x → _) ?_; (clear_value x; intro _); on_goal 2 => unfold x)
        | clear_value x)
    | (fail_if_no_progress with_reducible apply Keeps.upd)
    | split

theorem execRailFault_answers {s0 s : State} (h : Keeps s0 s) {t : Nat} {input : Fin 41} {mv : BitVec 16} : Answers s0 (execRailFault t input mv s)
    := by
  unfold execRailFault
  repeat' first
    | with_reducible first | assumption | apply Answers.next | apply Answers.ite | apply Keeps.ite | apply State.begin_keeps
    | with_reducible first | apply State.passTime_keeps | apply State.raise_keeps | apply State.wrP_keeps | apply State.abortFrame_keeps
    | ((fail_if_no_progress extract_lets +onlyGivenNames x)
       first
        | (refine (?_ : Keeps s0 x → _) ?_; (clear_value x; intro _); on_goal 2 => unfold x)
        | clear_value x)

theorem State.sendWakes_keeps {s0 s : State} (h : Keeps s0 s) {mask : Nat} : Keeps s0 (s.sendWakes mask) := by
  unfold State.sendWakes
  repeat' first
    | (intro _; try beta_reduce)
    | with_reducible first | assumption | apply Keeps.ite | apply Keeps.foldl | apply State.wrP_keeps | apply State.setPort_keeps
    | ((fail_if_no_progress extract_lets +onlyGivenNames x)
       first
        | (refine (?_ : Keeps s0 x → _) ?_; (clear_value x; intro _); on_goal 2 => unfold x)
        | clear_value x)
    | (fail_if_no_progress with_reducible apply Keeps.upd)

theorem execCtlrBeat_answers {s0 s : State} (h : Keeps s0 s) {t : Nat} : Answers s0 (execCtlrBeat t s) := by
  unfold execCtlrBeat
  repeat' first
    | with_reducible first | assumption | apply Answers.next | apply Answers.ite | apply Keeps.ite | apply State.begin_keeps
    | with_reducible first | apply State.passTime_keeps | apply State.wrP_keeps
    | ((fail_if_no_progress extract_lets +onlyGivenNames x)
       first
        | (refine (?_ : Keeps s0 x → _) ?_; (clear_value x; intro _); on_goal 2 => unfold x)
        | clear_value x)

/-! ## SecCore -/

theorem State.setSec_keeps {s0 s : State} (h : Keeps s0 s) {x : Security} : Keeps s0 (s.setSec x) := by
  unfold State.setSec
  repeat' first | with_reducible first | assumption | (fail_if_no_progress with_reducible apply Keeps.upd)

theorem State.fresh_keeps {s0 s : State} (h : Keeps s0 s) {n : Nat} : Keeps s0 (s.fresh n).2 := by
  unfold State.fresh
  repeat' first
    | with_reducible first | assumption | apply State.draw_keeps
    | ((fail_if_no_progress extract_lets +onlyGivenNames x)
       first
        | (refine (?_ : Keeps s0 x → _) ?_; (clear_value x; intro _); on_goal 2 => unfold x)
        | clear_value x)
    | with_reducible refine Keeps.p1 (by assumption) ?_
    | split

theorem State.wrBytes_keeps {s0 s : State} (h : Keeps s0 s) {off : Nat} {l : List Byte} : Keeps s0 (s.wrBytes off l) := by
  unfold State.wrBytes
  repeat' first | (intro _; try beta_reduce) | with_reducible first | assumption | apply Keeps.foldl | apply State.wr_keeps

theorem State.newHoNonce_keeps {s0 s : State} (h : Keeps s0 s) {n : Nat} : Keeps s0 (s.newHoNonce n) := by
  unfold State.newHoNonce
  repeat' first
    | (intro _; try beta_reduce)
    | with_reducible first | assumption | apply Keeps.ite | apply State.setSec_keeps | apply State.fresh_keeps | apply State.wrBytes_keeps
    | ((fail_if_no_progress extract_lets +onlyGivenNames x)
       first
        | (refine (?_ : Keeps s0 x → _) ?_; (clear_value x; intro _); on_goal 2 => unfold x)
        | clear_value x)
    | (fail_if_no_progress with_reducible apply Keeps.upd)
    | with_reducible refine Keeps.p1 (by assumption) ?_
    | split

theorem State.newSecNonce_keeps {s0 s : State} (h : Keeps s0 s) : Keeps s0 (s.newSecNonce) := by
  unfold State.newSecNonce
  repeat' first
    | with_reducible first | assumption | apply Keeps.ite | apply State.setSec_keeps | apply State.fresh_keeps | apply State.wrBytes_keeps
    | ((fail_if_no_progress extract_lets +onlyGivenNames x)
       first
        | (refine (?_ : Keeps s0 x → _) ?_; (clear_value x; intro _); on_goal 2 => unfold x)
        | clear_value x)
    | (fail_if_no_progress with_reducible apply Keeps.upd)
    | with_reducible refine Keeps.p1 (by assumption) ?_
    | split

theorem State.authFailed_keeps {s0 s : State} (h : Keeps s0 s) : Keeps s0 (s.authFailed) := by
  unfold State.authFailed
  repeat' first | with_reducible first | assumption | apply State.bump_keeps

theorem State.deny_keeps {s0 s : State} (h : Keeps s0 s) {p : Page} {c : Cause} {addr : Option Nat} {info : Nat} : Keeps s0 (s.deny p c addr info)
    := by
  unfold State.deny
  repeat' first | with_reducible first | assumption | apply State.raise_keeps | apply State.refuse_keeps

theorem State.reported_keeps {s0 s : State} (h : Keeps s0 s) {n : Nat} : Keeps s0 (s.reported n) := by
  unfold State.reported
  repeat' first | with_reducible first | assumption | apply State.setPci_keeps | (fail_if_no_progress with_reducible apply Keeps.upd) | split

/-! ## HostPorts -/

theorem State.discardFetched_keeps {s0 s : State} (h : Keeps s0 s) {n : Nat} : Keeps s0 (s.discardFetched n) := by
  unfold State.discardFetched
  repeat' first
    | (intro _; try beta_reduce)
    | with_reducible first | assumption | apply Keeps.ite | apply State.setHost_keeps | apply State.setP_keeps
    | ((fail_if_no_progress extract_lets +onlyGivenNames x)
       first
        | (refine (?_ : Keeps s0 x → _) ?_; (clear_value x; intro _); on_goal 2 => unfold x)
        | clear_value x)
    | (fail_if_no_progress with_reducible apply Keeps.upd)
    | split

theorem State.pcieDown_keeps {s0 s : State} (h : Keeps s0 s) {n : Nat} : Keeps s0 (s.pcieDown n) := by
  unfold State.pcieDown
  repeat' first
    | with_reducible first | assumption | apply Keeps.ite | apply State.wrP_keeps | apply State.setPci_keeps | apply State.fresh_keeps
    | with_reducible first | apply State.discardFetched_keeps | apply State.setInt_keeps
    | ((fail_if_no_progress extract_lets +onlyGivenNames x)
       first
        | (refine (?_ : Keeps s0 x → _) ?_; (clear_value x; intro _); on_goal 2 => unfold x)
        | clear_value x)

theorem execPcieLinkDown_answers {s0 s : State} (h : Keeps s0 s) {t : Nat} {port : Fin 2} : Answers s0 (execPcieLinkDown t port s) := by
  unfold execPcieLinkDown
  repeat' first
    | with_reducible first | assumption | apply Answers.next | apply State.begin_keeps | apply State.passTime_keeps | apply State.pcieDown_keeps

theorem execPerstAssert_answers {s0 s : State} (h : Keeps s0 s) {t : Nat} {port : Fin 2} : Answers s0 (execPerstAssert t port s) := by
  unfold execPerstAssert
  repeat' first
    | (intro _; try beta_reduce)
    | with_reducible first | assumption | apply Answers.next | apply State.begin_keeps | apply State.passTime_keeps | apply State.pcieDown_keeps
    | with_reducible first | apply State.setHost_keeps
    | ((fail_if_no_progress extract_lets +onlyGivenNames x)
       first
        | (refine (?_ : Keeps s0 x → _) ?_; (clear_value x; intro _); on_goal 2 => unfold x)
        | clear_value x)
    | with_reducible apply Keeps.updRegs (Sparse.filter_wf _)
    | (fail_if_no_progress with_reducible apply Keeps.upd)

theorem execPerstDeassert_answers {s0 s : State} (h : Keeps s0 s) {t : Nat} {port : Fin 2} : Answers s0 (execPerstDeassert t port s) := by
  unfold execPerstDeassert
  repeat' first
    | with_reducible first | assumption | apply Answers.next | apply State.begin_keeps | apply State.passTime_keeps | apply State.setHost_keeps
    | ((fail_if_no_progress extract_lets +onlyGivenNames x)
       first
        | (refine (?_ : Keeps s0 x → _) ?_; (clear_value x; intro _); on_goal 2 => unfold x)
        | clear_value x)
    | (fail_if_no_progress with_reducible apply Keeps.upd)

theorem execPcieLinkUp_answers {s0 s : State} (h : Keeps s0 s) {t : Nat} {port : Fin 2} {speed : Fin 6} {width : Fin 4} {cfg : HostConfig}
    : Answers s0 (execPcieLinkUp t port speed width cfg s) := by
  unfold execPcieLinkUp
  repeat' first
    | with_reducible first | assumption | apply Answers.next | apply Answers.ite | apply Keeps.ite | apply State.begin_keeps
    | with_reducible first | apply State.passTime_keeps | apply State.wrP_keeps | apply State.setPci_keeps | apply State.msixFlush_keeps
    | ((fail_if_no_progress extract_lets +onlyGivenNames x)
       first
        | (refine (?_ : Keeps s0 x → _) ?_; (clear_value x; intro _); on_goal 2 => unfold x)
        | clear_value x)
    | (fail_if_no_progress with_reducible apply Keeps.upd)

theorem execPcieLinkPowerState_answers {s0 s : State} (h : Keeps s0 s) {t : Nat} {port : Fin 2} {l1 l0p : Bool}
    : Answers s0 (execPcieLinkPowerState t port l1 l0p s) := by
  unfold execPcieLinkPowerState
  repeat' first
    | with_reducible first | assumption | apply Answers.next | apply Answers.ite | apply Keeps.ite | apply State.begin_keeps
    | with_reducible first | apply State.passTime_keeps | apply State.setP_keeps
    | ((fail_if_no_progress extract_lets +onlyGivenNames x)
       first
        | (refine (?_ : Keeps s0 x → _) ?_; (clear_value x; intro _); on_goal 2 => unfold x)
        | clear_value x)

theorem State.ringCfg_keeps {s0 s : State} (h : Keeps s0 s) {port ring : Nat} {cq : Bool} {v : Word} : Keeps s0 (s.ringCfg port ring cq v) := by
  unfold State.ringCfg
  repeat' first
    | with_reducible first | assumption | apply Keeps.ite | apply State.deny_keeps | apply State.wrP_keeps
    | ((fail_if_no_progress extract_lets +onlyGivenNames x)
       first
        | (refine (?_ : Keeps s0 x → _) ?_; (clear_value x; intro _); on_goal 2 => unfold x)
        | clear_value x)

theorem State.ringBase_keeps {s0 s : State} (h : Keeps s0 s) {port ring : Nat} {cq : Bool} {o : Nat} {v : Word}
    : Keeps s0 (s.ringBase port ring cq o v) := by
  unfold State.ringBase
  repeat' first
    | with_reducible first | assumption | apply Keeps.ite | apply State.deny_keeps | apply State.wrP_keeps
    | ((fail_if_no_progress extract_lets +onlyGivenNames x)
       first
        | (refine (?_ : Keeps s0 x → _) ?_; (clear_value x; intro _); on_goal 2 => unfold x)
        | clear_value x)

theorem State.ringTail_keeps {s0 s : State} (h : Keeps s0 s) {port ring : Nat} {v : Word} : Keeps s0 (s.ringTail port ring v) := by
  unfold State.ringTail
  repeat' first
    | with_reducible first | assumption | apply Keeps.ite | apply State.wrP_keeps | apply State.raise_keeps
    | ((fail_if_no_progress extract_lets +onlyGivenNames x)
       first
        | (refine (?_ : Keeps s0 x → _) ?_; (clear_value x; intro _); on_goal 2 => unfold x)
        | clear_value x)

theorem State.badDesc_keeps {s0 s : State} (h : Keeps s0 s) {d : Desc} : Keeps s0 (s.badDesc d) := by
  unfold State.badDesc
  repeat' first | with_reducible first | assumption | apply State.raise_keeps | apply State.refuseDesc_keeps

theorem State.popDesc_keeps {s0 s : State} (h : Keeps s0 s) {d : Desc} : Keeps s0 (s.popDesc d) := by
  unfold State.popDesc
  repeat' first
    | (intro _; try beta_reduce)
    | with_reducible first | assumption | apply State.setRing_keeps
    | ((fail_if_no_progress extract_lets +onlyGivenNames x)
       first
        | (refine (?_ : Keeps s0 x → _) ?_; (clear_value x; intro _); on_goal 2 => unfold x)
        | clear_value x)
    | (fail_if_no_progress with_reducible apply Keeps.upd)

theorem State.takeDup_keeps {s0 s : State} (h : Keeps s0 s) {d : Desc} {r : TagRec} : Keeps s0 (s.takeDup d r) := by
  unfold State.takeDup
  repeat' first
    | with_reducible first | assumption | apply State.popDesc_keeps | apply State.bump_keeps | apply State.holdDup_keeps | apply State.setHost_keeps
    | ((fail_if_no_progress extract_lets +onlyGivenNames x)
       first
        | (refine (?_ : Keeps s0 x → _) ?_; (clear_value x; intro _); on_goal 2 => unfold x)
        | clear_value x)
    | (fail_if_no_progress with_reducible apply Keeps.upd)
    | split

theorem State.sweepRing_keeps {s0 : State} {n : Nat} : ∀ {s : State} (_ : Keeps s0 s) {port ring : Nat}, Keeps s0 (s.sweepRing port ring n) := by
  induction n with
  | zero => exact fun h => h
  | succ n ih =>
    intro s h port ring
    unfold State.sweepRing
    repeat' first
      | with_reducible first | assumption | apply Keeps.ite | apply ih | apply State.takeDup_keeps | apply State.badDesc_keeps
      | with_reducible first | apply State.popDesc_keeps
      | split

theorem State.fetchDesc_keeps {s0 s : State} (h : Keeps s0 s) {port ring : Nat} {bytes : List Byte} : Keeps s0 (s.fetchDesc port ring bytes) := by
  unfold State.fetchDesc
  repeat' first
    | with_reducible first | assumption | apply State.setRing_keeps | apply State.setHost_keeps | apply State.wrP_keeps | apply State.sweepRing_keeps
    | ((fail_if_no_progress extract_lets +onlyGivenNames x)
       first
        | (refine (?_ : Keeps s0 x → _) ?_; (clear_value x; intro _); on_goal 2 => unfold x)
        | clear_value x)
    | (fail_if_no_progress with_reducible apply Keeps.upd)

theorem execDescriptorFetch_answers {s0 s : State} (h : Keeps s0 s) {t : Nat} {port : Fin 2} {ring : Fin 16} {bytes : Vector Byte 64}
    : Answers s0 (execDescriptorFetch t port ring bytes s) := by
  unfold execDescriptorFetch
  repeat' first
    | with_reducible first | assumption | apply Answers.next | apply Answers.ite | apply Keeps.ite | apply State.begin_keeps
    | with_reducible first | apply State.passTime_keeps | apply State.fetchDesc_keeps
    | ((fail_if_no_progress extract_lets +onlyGivenNames x)
       first
        | (refine (?_ : Keeps s0 x → _) ?_; (clear_value x; intro _); on_goal 2 => unfold x)
        | clear_value x)

theorem State.writeCompletion_keeps {s0 s : State} (h : Keeps s0 s) {port ring : Nat} : Keeps s0 (s.writeCompletion port ring) := by
  unfold State.writeCompletion
  dsimp only
  repeat' first
    | with_reducible first | assumption | apply Keeps.ite | apply State.sweepRing_keeps | apply State.bump_keeps | apply State.setRing_keeps
    | with_reducible first | apply State.wrP_keeps | apply State.msix_keeps | exact Keeps.upd h
    | split

theorem execCompletionWrite_answers {s0 s : State} (h : Keeps s0 s) {t : Nat} {port : Fin 2} {ring : Fin 16}
    : Answers s0 (execCompletionWrite t port ring s) := by
  unfold execCompletionWrite
  repeat' first
    | with_reducible first | assumption | apply Answers.next | apply State.begin_keeps | apply State.passTime_keeps
    | with_reducible first | apply State.writeCompletion_keeps

theorem State.handoverGo_keeps {s0 s : State} (h : Keeps s0 s) {n : Nat} {byOwner : Bool} {v : Word} : Keeps s0 (s.handoverGo n byOwner v) := by
  unfold State.handoverGo
  repeat' first
    | with_reducible first | assumption | apply Keeps.ite | apply State.setP_keeps | apply State.wrP_keeps
    | ((fail_if_no_progress extract_lets +onlyGivenNames x)
       first
        | (refine (?_ : Keeps s0 x → _) ?_; (clear_value x; intro _); on_goal 2 => unfold x)
        | clear_value x)

theorem execHandoverVerifyDone_answers {s0 s : State} (h : Keeps s0 s) {t : Nat} {port : Fin 2} : Answers s0 (execHandoverVerifyDone t port s) := by
  unfold execHandoverVerifyDone
  repeat' first
    | with_reducible first | assumption | apply Answers.next | apply Answers.ite | apply Keeps.ite | apply State.begin_keeps
    | with_reducible first | apply State.passTime_keeps | apply State.wrP_keeps | apply State.setP_keeps | apply State.setInt_keeps
    | with_reducible first | apply State.newHoNonce_keeps | apply State.raise_keeps | apply State.authFailed_keeps
    | ((fail_if_no_progress extract_lets +onlyGivenNames x)
       first
        | (refine (?_ : Keeps s0 x → _) ?_; (clear_value x; intro _); on_goal 2 => unfold x)
        | clear_value x)

theorem State.passOwnership_keeps {s0 s : State} (h : Keeps s0 s) {n : Nat} : Keeps s0 (s.passOwnership n) := by
  unfold State.passOwnership
  repeat' first
    | (intro _; try beta_reduce)
    | with_reducible first | assumption | apply Keeps.ite | apply Keeps.foldl | apply State.wrP_keeps | apply State.setP_keeps
    | ((fail_if_no_progress extract_lets +onlyGivenNames x)
       first
        | (refine (?_ : Keeps s0 x → _) ?_; (clear_value x; intro _); on_goal 2 => unfold x)
        | clear_value x)

theorem State.ownershipBoundary_keeps {s0 s : State} (h : Keeps s0 s) : Keeps s0 (s.ownershipBoundary) := by
  unfold State.ownershipBoundary
  repeat' first
    | (intro _; try beta_reduce)
    | with_reducible first | assumption | apply Keeps.ite | apply Keeps.foldl | apply State.setHost_keeps | apply State.setP_keeps
    | with_reducible first | apply State.refuseDesc_keeps | apply State.passOwnership_keeps
    | ((fail_if_no_progress extract_lets +onlyGivenNames x)
       first
        | (refine (?_ : Keeps s0 x → _) ?_; (clear_value x; intro _); on_goal 2 => unfold x)
        | clear_value x)
    | (fail_if_no_progress with_reducible apply Keeps.upd)
    | split

/-! ## Starts -/

theorem State.startNow_keeps {s0 s : State} (h : Keeps s0 s) {d : Desc} : Keeps s0 (s.startNow d) := by
  unfold State.startNow
  repeat' first | with_reducible first | assumption | apply State.popDesc_keeps | apply State.enterWindow_keeps

theorem State.turnAway_keeps {s0 s : State} (h : Keeps s0 s) {d : Desc} {code : Nat} : Keeps s0 (s.turnAway d code) := by
  unfold State.turnAway
  repeat' first | with_reducible first | assumption | apply State.popDesc_keeps | apply State.refuseDesc_keeps

theorem State.atOnce_keeps {s0 s : State} (h : Keeps s0 s) {d : Desc} {code info : Nat} : Keeps s0 (s.atOnce d code info) := by
  unfold State.atOnce
  repeat' first | with_reducible first | assumption | apply State.startNow_keeps | apply State.finish_keeps

theorem State.consider_keeps {s0 s : State} (h : Keeps s0 s) {port ring kind : Nat} {bad : Desc → Bool} {go : State → Desc → State}
    (hgo : ∀ t y1, Keeps s0 t → Keeps s0 (go t y1)) : Keeps s0 (s.consider port ring kind bad go) := by
  unfold State.consider
  repeat' first
    | (intro _; try beta_reduce)
    | with_reducible first | assumption | apply Keeps.ite | apply hgo | apply State.takeDup_keeps | apply State.popDesc_keeps
    | with_reducible first | apply State.badDesc_keeps | apply State.sweepRing_keeps
    | ((fail_if_no_progress extract_lets +onlyGivenNames x)
       first
        | (refine (?_ : Keeps s0 x → _) ?_; (clear_value x; intro _); on_goal 2 => unfold x)
        | clear_value x)
    | (fail_if_no_progress with_reducible apply Keeps.upd)
    | split

theorem State.moveEpoch_keeps {s0 s : State} (h : Keeps s0 s) {d : Desc} : Keeps s0 (s.moveEpoch d) := by
  unfold State.moveEpoch
  repeat' first | with_reducible first | assumption | apply State.wrP_keeps | apply State.setInt_keeps

theorem State.epochThen_keeps {s0 s : State} (h : Keeps s0 s) {d : Desc} {go : State → Desc → State} (hgo : ∀ t y1, Keeps s0 t → Keeps s0 (go t y1))
    : Keeps s0 (s.epochThen d go) := by
  unfold State.epochThen
  repeat' first
    | (intro _; try beta_reduce)
    | with_reducible first | assumption | apply Keeps.ite | apply hgo | apply State.turnAway_keeps | apply State.moveEpoch_keeps
    | with_reducible first | apply State.setP_keeps | apply State.setHost_keeps
    | ((fail_if_no_progress extract_lets +onlyGivenNames x)
       first
        | (refine (?_ : Keeps s0 x → _) ?_; (clear_value x; intro _); on_goal 2 => unfold x)
        | clear_value x)
    | (fail_if_no_progress with_reducible apply Keeps.upd)

theorem execNop_answers {s0 s : State} (h : Keeps s0 s) {t : Nat} {port : Fin 2} {ring : Fin 16} : Answers s0 (execNop t port ring s) := by
  unfold execNop
  repeat' first
    | (intro _; try beta_reduce)
    | with_reducible first | assumption | apply Answers.next | apply State.begin_keeps | apply State.passTime_keeps | apply State.consider_keeps
    | with_reducible first | apply State.atOnce_keeps

theorem execBarrier_answers {s0 s : State} (h : Keeps s0 s) {t : Nat} {port : Fin 2} {ring : Fin 16} : Answers s0 (execBarrier t port ring s) := by
  unfold execBarrier
  repeat' first
    | (intro _; try beta_reduce)
    | with_reducible first | assumption | apply Answers.next | apply Answers.ite | apply Keeps.ite | apply State.begin_keeps
    | with_reducible first | apply State.passTime_keeps | apply State.consider_keeps | apply State.atOnce_keeps

theorem State.startRun_keeps {s0 s : State} (h : Keeps s0 s) {d : Desc} : Keeps s0 (s.startRun d) := by
  unfold State.startRun
  repeat' first
    | with_reducible first | assumption | apply Keeps.ite | apply State.turnAway_keeps | apply State.raise_keeps | apply State.bump_keeps
    | with_reducible first | apply State.wrP_keeps | apply State.setInt_keeps | apply State.startNow_keeps | apply State.setHost_keeps
    | with_reducible first | apply State.setFrame_keeps | apply State.setP_keeps
    | ((fail_if_no_progress extract_lets +onlyGivenNames x)
       first
        | (refine (?_ : Keeps s0 x → _) ?_; (clear_value x; intro _); on_goal 2 => unfold x)
        | clear_value x)
    | (fail_if_no_progress with_reducible apply Keeps.upd)
    | split

theorem execFrameRun_answers {s0 s : State} (h : Keeps s0 s) {t : Nat} {port : Fin 2} {ring : Fin 16} : Answers s0 (execFrameRun t port ring s) := by
  unfold execFrameRun
  repeat' first
    | (intro _; try beta_reduce)
    | with_reducible first | assumption | apply Answers.next | apply Answers.ite | apply Keeps.ite | apply State.begin_keeps
    | with_reducible first | apply State.passTime_keeps | apply State.consider_keeps | apply State.popDesc_keeps | apply State.badDesc_keeps
    | with_reducible first | apply State.epochThen_keeps | apply State.startRun_keeps

theorem State.considerSlot_keeps {s0 s : State} (h : Keeps s0 s) {port ring op : Nat} {go : State → Desc → State}
    (hgo : ∀ t y1, Keeps s0 t → Keeps s0 (go t y1)) : Keeps s0 (s.considerSlot port ring op go) := by
  unfold State.considerSlot
  repeat' first
    | (intro _; try beta_reduce)
    | with_reducible first | assumption | apply Keeps.ite | apply hgo | apply State.consider_keeps
    | (fail_if_no_progress with_reducible apply Keeps.upd)
    | split

theorem State.readSlotImage_keeps {s0 s : State} (h : Keeps s0 s) {d : Desc} {base : Nat} : Keeps s0 (s.readSlotImage d base).1 := by
  unfold State.readSlotImage
  dsimp only
  split
  · rename_i e
    exact Keeps.p1 e (State.readFrom_keeps h)
  · rename_i e
    have ht := Keeps.p1 e (State.readFrom_keeps h)
    exact Keeps.ite1 ht (State.readFrom_keeps ht)

theorem execLoad_answers {s0 s : State} (h : Keeps s0 s) {t : Nat} {port : Fin 2} {ring : Fin 16} {errs : List AccessErr}
    : Answers s0 (execLoad t port ring errs s) := by
  unfold execLoad
  repeat' first
    | (intro _; try beta_reduce)
    | with_reducible first | assumption | apply Answers.next | apply Answers.ite | apply Keeps.ite | apply State.begin_keeps
    | with_reducible first | apply State.facing_keeps | apply State.passTime_keeps | apply State.considerSlot_keeps | apply State.atOnce_keeps
    | with_reducible first | apply State.readSlotImage_keeps | apply State.admitError_keeps
    | ((fail_if_no_progress extract_lets +onlyGivenNames x)
       first
        | (refine (?_ : Keeps s0 x → _) ?_; (clear_value x; intro _); on_goal 2 => unfold x)
        | clear_value x)
    | (fail_if_no_progress with_reducible apply Keeps.upd)
    | with_reducible refine Keeps.p1 (by assumption) ?_
    | split

theorem execSwitch_answers {s0 s : State} (h : Keeps s0 s) {t : Nat} {port : Fin 2} {ring : Fin 16} : Answers s0 (execSwitch t port ring s) := by
  unfold execSwitch
  repeat' first
    | (intro _; try beta_reduce)
    | with_reducible first | assumption | apply Answers.next | apply Answers.ite | apply Keeps.ite | apply State.begin_keeps
    | with_reducible first | apply State.passTime_keeps | apply State.considerSlot_keeps | apply State.atOnce_keeps | apply State.startNow_keeps
    | with_reducible first | apply State.setHost_keeps
    | ((fail_if_no_progress extract_lets +onlyGivenNames x)
       first
        | (refine (?_ : Keeps s0 x → _) ?_; (clear_value x; intro _); on_goal 2 => unfold x)
        | clear_value x)
    | (fail_if_no_progress with_reducible apply Keeps.upd)

theorem execUnload_answers {s0 s : State} (h : Keeps s0 s) {t : Nat} {port : Fin 2} {ring : Fin 16} : Answers s0 (execUnload t port ring s) := by
  unfold execUnload
  repeat' first
    | (intro _; try beta_reduce)
    | with_reducible first | assumption | apply Answers.next | apply Answers.ite | apply Keeps.ite | apply State.begin_keeps
    | with_reducible first | apply State.passTime_keeps | apply State.considerSlot_keeps | apply State.atOnce_keeps
    | ((fail_if_no_progress extract_lets +onlyGivenNames x)
       first
        | (refine (?_ : Keeps s0 x → _) ?_; (clear_value x; intro _); on_goal 2 => unfold x)
        | clear_value x)
    | (fail_if_no_progress with_reducible apply Keeps.upd)

theorem State.addJob_keeps {s0 s : State} (h : Keeps s0 s) {d : Desc} {w : Work} : Keeps s0 (s.addJob d w) := by
  unfold State.addJob
  repeat' first | with_reducible first | assumption | apply State.setHost_keeps | (fail_if_no_progress with_reducible apply Keeps.upd)

theorem execDma_answers {s0 s : State} (h : Keeps s0 s) {t : Nat} {port : Fin 2} {ring : Fin 16} : Answers s0 (execDma t port ring s) := by
  unfold execDma
  repeat' first
    | (intro _; try beta_reduce)
    | with_reducible first | assumption | apply Answers.next | apply State.begin_keeps | apply State.passTime_keeps | apply State.consider_keeps
    | with_reducible first | apply State.raise_keeps | apply State.atOnce_keeps | apply State.startNow_keeps | apply State.addJob_keeps
    | ((fail_if_no_progress extract_lets +onlyGivenNames x)
       first
        | (refine (?_ : Keeps s0 x → _) ?_; (clear_value x; intro _); on_goal 2 => unfold x)
        | clear_value x)
    | (fail_if_no_progress with_reducible apply Keeps.upd)
    | split

theorem State.startColl_keeps {s0 s : State} (h : Keeps s0 s) {d : Desc} : Keeps s0 (s.startColl d) := by
  unfold State.startColl
  repeat' first
    | (intro _; try beta_reduce)
    | with_reducible first | assumption | apply Keeps.ite | apply State.raise_keeps | apply State.atOnce_keeps | apply State.startNow_keeps
    | with_reducible first | apply State.addJob_keeps | apply State.shareAbort_keeps | apply State.beginInst_keeps | apply State.touchFresh_keeps
    | ((fail_if_no_progress extract_lets +onlyGivenNames x)
       first
        | (refine (?_ : Keeps s0 x → _) ?_; (clear_value x; intro _); on_goal 2 => unfold x)
        | clear_value x)
    | (fail_if_no_progress with_reducible apply Keeps.upd)
    | split

theorem execCollective_answers {s0 s : State} (h : Keeps s0 s) {t : Nat} {port : Fin 2} {ring : Fin 16} {errs : List AccessErr}
    : Answers s0 (execCollective t port ring errs s) := by
  unfold execCollective
  repeat' first
    | (intro _; try beta_reduce)
    | with_reducible first | assumption | apply Answers.next | apply State.begin_keeps | apply State.facing_keeps | apply State.passTime_keeps
    | with_reducible first | apply State.consider_keeps | apply State.epochThen_keeps | apply State.startColl_keeps | apply State.wake_keeps
    | ((fail_if_no_progress extract_lets +onlyGivenNames x)
       first
        | (refine (?_ : Keeps s0 x → _) ?_; (clear_value x; intro _); on_goal 2 => unfold x)
        | clear_value x)

/-! ## Access -/

theorem State.takeRead_keeps {s0 s : State} (h : Keeps s0 s) {me : Page} {info cls a n : Nat} : Keeps s0 (s.takeRead me info cls a n).1 := by
  unfold State.takeRead
  repeat' first
    | with_reducible first | assumption | apply Keeps.ite1 | apply Keeps.foldl1 | apply State.captureDenial_keeps | apply State.served_keeps
    | with_reducible first | apply State.meet_keeps
    | (fail_if_no_progress with_reducible apply Keeps.upd)
    | split

theorem State.fetchBytes_keeps {s0 s : State} (h : Keeps s0 s) {a n : Nat} : Keeps s0 (s.fetchBytes a n).2 := by
  unfold State.fetchBytes
  repeat' first
    | (intro _; try beta_reduce)
    | with_reducible first | assumption | apply State.draw_keeps
    | ((fail_if_no_progress extract_lets +onlyGivenNames x)
       first
        | (refine (?_ : Keeps s0 x → _) ?_; (clear_value x; intro _); on_goal 2 => unfold x)
        | clear_value x)
    | (fail_if_no_progress with_reducible apply Keeps.upd)
    | with_reducible refine Keeps.p1 (by assumption) ?_
    | split

theorem State.placeBytes_keeps {s0 s : State} (h : Keeps s0 s) {a : Nat} {l : List Byte} : Keeps s0 (s.placeBytes a l) := by
  unfold State.placeBytes
  repeat' first
    | (intro _; try beta_reduce)
    | with_reducible first | assumption | apply State.store_keeps
    | ((fail_if_no_progress extract_lets +onlyGivenNames x)
       first
        | (refine (?_ : Keeps s0 x → _) ?_; (clear_value x; intro _); on_goal 2 => unfold x)
        | clear_value x)
    | (fail_if_no_progress with_reducible apply Keeps.upd)
    | split

end Sys2Proof.Machine
end

