-- ==== Sys2Proof/Laws/KeepsUnits.lean ====
section
/-!
SUPPORT. What every command keeps, kept by the Granary, security, tests, repair, the ends of frames, boundaries and bring-up.
-/
namespace Sys2Proof.Machine

set_option Elab.async false
set_option linter.unreachableTactic false
set_option linter.unusedTactic false
set_option linter.unusedVariables false

/-! ## Granary -/

theorem State.setGrn_keeps {s0 s : State} (h : Keeps s0 s) {g : Granary} : Keeps s0 (s.setGrn g) := by
  unfold State.setGrn
  repeat' first | with_reducible first | assumption | (fail_if_no_progress with_reducible apply Keeps.upd)

theorem State.charge_keeps {s0 s : State} (h : Keeps s0 s) {n : Nat} : Keeps s0 (s.charge n) := by
  unfold State.charge
  repeat' first
    | with_reducible first | assumption | apply Keeps.ite | apply State.setGrn_keeps | apply State.setInt_keeps | apply State.raise_keeps
    | ((fail_if_no_progress extract_lets +onlyGivenNames x)
       first
        | (refine (?_ : Keeps s0 x → _) ?_; (clear_value x; intro _); on_goal 2 => unfold x)
        | clear_value x)
    | (fail_if_no_progress with_reducible apply Keeps.upd)

theorem State.flashFail_keeps {s0 s : State} (h : Keeps s0 s) {n : Nat} : Keeps s0 (s.flashFail n) := by
  unfold State.flashFail
  repeat' first
    | with_reducible first | assumption | apply Keeps.ite | apply State.setGrn_keeps | apply State.raise_keeps | apply State.setInt_keeps
    | with_reducible first | apply State.setP_keeps
    | ((fail_if_no_progress extract_lets +onlyGivenNames x)
       first
        | (refine (?_ : Keeps s0 x → _) ?_; (clear_value x; intro _); on_goal 2 => unfold x)
        | clear_value x)
    | (fail_if_no_progress with_reducible apply Keeps.upd)
    | split

theorem State.blockBad_keeps {s0 s : State} (h : Keeps s0 s) {n : Nat} : Keeps s0 (s.blockBad n) := by
  unfold State.blockBad
  repeat' first
    | with_reducible first | assumption | apply Keeps.ite | apply State.setGrn_keeps | apply State.flashFail_keeps
    | (fail_if_no_progress with_reducible apply Keeps.upd)
    | split

theorem execBlockBad_answers {s0 s : State} (h : Keeps s0 s) {t : Nat} {die : Fin 8} : Answers s0 (execBlockBad t die s) := by
  unfold execBlockBad
  repeat' first
    | with_reducible first | assumption | apply Answers.next | apply State.begin_keeps | apply State.passTime_keeps | apply State.blockBad_keeps

theorem execWearMove_answers {s0 s : State} (h : Keeps s0 s) {t : Nat} {die : Fin 8} {hi lo : BitVec 16} : Answers s0 (execWearMove t die hi lo s)
    := by
  unfold execWearMove
  repeat' first
    | with_reducible first | assumption | apply Answers.next | apply Answers.ite | apply Keeps.ite | apply State.begin_keeps
    | with_reducible first | apply State.passTime_keeps | apply State.setGrn_keeps
    | ((fail_if_no_progress extract_lets +onlyGivenNames x)
       first
        | (refine (?_ : Keeps s0 x → _) ?_; (clear_value x; intro _); on_goal 2 => unfold x)
        | clear_value x)
    | (fail_if_no_progress with_reducible apply Keeps.upd)
    | split

theorem execScrub_answers {s0 s : State} (h : Keeps s0 s) {t : Nat} {die : Fin 8} {rewrite : Bool} {rebuilt : Nat} {last : Bool}
    : Answers s0 (execScrub t die rewrite rebuilt last s) := by
  unfold execScrub
  repeat' first
    | (intro _; try beta_reduce)
    | with_reducible first | assumption | apply Answers.next | apply Answers.ite | apply Keeps.ite | apply State.begin_keeps
    | with_reducible first | apply State.passTime_keeps | apply State.bump_keeps | apply State.setGrn_keeps
    | ((fail_if_no_progress extract_lets +onlyGivenNames x)
       first
        | (refine (?_ : Keeps s0 x → _) ?_; (clear_value x; intro _); on_goal 2 => unfold x)
        | clear_value x)
    | (fail_if_no_progress with_reducible apply Keeps.upd)

theorem execScrubLate_answers {s0 s : State} (h : Keeps s0 s) {t : Nat} : Answers s0 (execScrubLate t s) := by
  unfold execScrubLate
  repeat' first
    | with_reducible first | assumption | apply Answers.next | apply Answers.ite | apply Keeps.ite | apply State.begin_keeps
    | with_reducible first | apply State.passTime_keeps | apply State.setP_keeps | apply State.setInt_keeps
    | ((fail_if_no_progress extract_lets +onlyGivenNames x)
       first
        | (refine (?_ : Keeps s0 x → _) ?_; (clear_value x; intro _); on_goal 2 => unfold x)
        | clear_value x)

theorem State.grnCommand_keeps {s0 s : State} (h : Keeps s0 s) {op : Nat} : Keeps s0 (s.grnCommand op) := by
  unfold State.grnCommand
  repeat' first
    | with_reducible first | assumption | apply Keeps.ite | apply State.setGrn_keeps | apply State.wrP_keeps
    | ((fail_if_no_progress extract_lets +onlyGivenNames x)
       first
        | (refine (?_ : Keeps s0 x → _) ?_; (clear_value x; intro _); on_goal 2 => unfold x)
        | clear_value x)
    | (fail_if_no_progress with_reducible apply Keeps.upd)

theorem State.runCommand_keeps {s0 s : State} (h : Keeps s0 s) {op gen : Nat} : Keeps s0 (s.runCommand op gen).1 := by
  unfold State.runCommand
  repeat' first
    | (intro _; try beta_reduce)
    | with_reducible first | assumption | apply Keeps.ite | apply Keeps.ite1 | apply Keeps.foldl1 | apply State.raise_keeps | apply State.setGrn_keeps
    | ((fail_if_no_progress extract_lets +onlyGivenNames x)
       first
        | (refine (?_ : Keeps s0 x → _) ?_; (clear_value x; intro _); on_goal 2 => unfold x)
        | clear_value x)
    | (fail_if_no_progress with_reducible apply Keeps.upd)
    | split

theorem execGrnCommandEnd_answers {s0 s : State} (h : Keeps s0 s) {t : Nat} : Answers s0 (execGrnCommandEnd t s) := by
  unfold execGrnCommandEnd
  repeat' first
    | with_reducible first | assumption | apply Answers.next | apply Answers.ite | apply Keeps.ite | apply State.begin_keeps
    | with_reducible first | apply State.passTime_keeps | apply State.runCommand_keeps | apply State.setGrn_keeps | apply State.wrP_keeps
    | with_reducible first | apply State.setInt_keeps
    | ((fail_if_no_progress extract_lets +onlyGivenNames x)
       first
        | (refine (?_ : Keeps s0 x → _) ?_; (clear_value x; intro _); on_goal 2 => unfold x)
        | clear_value x)
    | (fail_if_no_progress with_reducible apply Keeps.upd)
    | with_reducible refine Keeps.p1 (by assumption) ?_
    | split

theorem State.grnFail_keeps {s0 s : State} (h : Keeps s0 s) {d : Desc} {c : Cause} : Keeps s0 (s.grnFail d c) := by
  unfold State.grnFail
  repeat' first | with_reducible first | assumption | apply State.raise_keeps | apply State.atOnce_keeps

theorem State.grnDenied_keeps {s0 s : State} (h : Keeps s0 s) {d : Desc} {x : Denial} : Keeps s0 (s.grnDenied d x) := by
  unfold State.grnDenied
  repeat' first | with_reducible first | assumption | apply State.captureDenial_keeps | apply State.atOnce_keeps

theorem State.startGrn_keeps {s0 s : State} (h : Keeps s0 s) {d : Desc} {restore : Bool} {gen len : Nat} {places : List (Nat × Nat)}
    {data : List Byte} : Keeps s0 (s.startGrn d restore gen len places data) := by
  unfold State.startGrn
  repeat' first
    | with_reducible first | assumption | apply Keeps.ite | apply State.startNow_keeps | apply State.addJob_keeps | apply State.setGrn_keeps
    | with_reducible first | apply State.set64_keeps
    | ((fail_if_no_progress extract_lets +onlyGivenNames x)
       first
        | (refine (?_ : Keeps s0 x → _) ?_; (clear_value x; intro _); on_goal 2 => unfold x)
        | clear_value x)
    | (fail_if_no_progress with_reducible apply Keeps.upd)

theorem State.startCheckpoint_keeps {s0 s : State} (h : Keeps s0 s) {d : Desc} : Keeps s0 (s.startCheckpoint d) := by
  unfold State.startCheckpoint
  repeat' first
    | with_reducible first | assumption | apply Keeps.ite | apply State.turnAway_keeps | apply State.grnFail_keeps | apply State.takeRead_keeps
    | with_reducible first | apply State.atOnce_keeps | apply State.popDesc_keeps | apply State.badDesc_keeps | apply State.setGrn_keeps
    | with_reducible first | apply State.grnDenied_keeps | apply State.startGrn_keeps
    | ((fail_if_no_progress extract_lets +onlyGivenNames x)
       first
        | (refine (?_ : Keeps s0 x → _) ?_; (clear_value x; intro _); on_goal 2 => unfold x)
        | clear_value x)
    | (fail_if_no_progress with_reducible apply Keeps.upd)
    | with_reducible refine Keeps.p1 (by assumption) ?_
    | split

theorem execCheckpoint_answers {s0 s : State} (h : Keeps s0 s) {t : Nat} {port : Fin 2} {ring : Fin 16} {errs : List AccessErr}
    : Answers s0 (execCheckpoint t port ring errs s) := by
  unfold execCheckpoint
  repeat' first
    | (intro _; try beta_reduce)
    | with_reducible first | assumption | apply Answers.next | apply Answers.ite | apply Keeps.ite | apply State.begin_keeps
    | with_reducible first | apply State.facing_keeps | apply State.passTime_keeps | apply State.consider_keeps | apply State.epochThen_keeps
    | with_reducible first | apply State.startCheckpoint_keeps

theorem State.startRestore_keeps {s0 s : State} (h : Keeps s0 s) {manifest : Bool} {d : Desc} : Keeps s0 (State.startRestore manifest s d) := by
  unfold State.startRestore
  repeat' first
    | (intro _; try beta_reduce)
    | with_reducible first | assumption | apply Keeps.ite | apply State.grnFail_keeps | apply State.grnDenied_keeps | apply State.startGrn_keeps
    | ((fail_if_no_progress extract_lets +onlyGivenNames x)
       first
        | (refine (?_ : Keeps s0 x → _) ?_; (clear_value x; intro _); on_goal 2 => unfold x)
        | clear_value x)
    | (fail_if_no_progress with_reducible apply Keeps.upd)
    | with_reducible refine Keeps.p1 (by assumption) ?_
    | split

theorem execRestore_answers {s0 s : State} (h : Keeps s0 s) {t : Nat} {port : Fin 2} {ring : Fin 16} {manifest : Bool}
    : Answers s0 (execRestore t port ring manifest s) := by
  unfold execRestore
  repeat' first
    | (intro _; try beta_reduce)
    | with_reducible first | assumption | apply Answers.next | apply Answers.ite | apply Keeps.ite | apply State.begin_keeps
    | with_reducible first | apply State.passTime_keeps | apply State.consider_keeps | apply State.epochThen_keeps | apply State.startRestore_keeps

theorem State.startFence_keeps {s0 s : State} (h : Keeps s0 s) {d : Desc} : Keeps s0 (s.startFence d) := by
  unfold State.startFence
  repeat' first
    | with_reducible first | assumption | apply Keeps.ite | apply State.startRun_keeps | apply State.startColl_keeps
    | with_reducible first | apply State.startCheckpoint_keeps | apply State.sweepRing_keeps
    | ((fail_if_no_progress extract_lets +onlyGivenNames x)
       first
        | (refine (?_ : Keeps s0 x → _) ?_; (clear_value x; intro _); on_goal 2 => unfold x)
        | clear_value x)

theorem execFenceDrain_answers {s0 s : State} (h : Keeps s0 s) {t : Nat} {errs : List AccessErr} : Answers s0 (execFenceDrain t errs s) := by
  unfold execFenceDrain
  repeat' first
    | with_reducible first | assumption | apply Answers.next | apply Answers.ite | apply Keeps.ite | apply State.begin_keeps
    | with_reducible first | apply State.facing_keeps | apply State.passTime_keeps | apply State.setHost_keeps | apply State.moveEpoch_keeps
    | with_reducible first | apply State.startFence_keeps
    | ((fail_if_no_progress extract_lets +onlyGivenNames x)
       first
        | (refine (?_ : Keeps s0 x → _) ?_; (clear_value x; intro _); on_goal 2 => unfold x)
        | clear_value x)
    | (fail_if_no_progress with_reducible apply Keeps.upd)
    | split

/-! ## Fence -/

theorem State.fenceReject_keeps {s0 s : State} (h : Keeps s0 s) {id kind : Nat} {addr : Option Nat} : Keeps s0 (s.fenceReject id kind addr) := by
  unfold State.fenceReject
  repeat' first
    | with_reducible first | assumption | apply Keeps.ite | apply State.fenceLog_keeps | apply State.setP_keeps | apply State.setInt_keeps
    | with_reducible first | apply State.portSync_keeps | apply State.setGrn_keeps | apply State.flashFail_keeps
    | ((fail_if_no_progress extract_lets +onlyGivenNames x)
       first
        | (refine (?_ : Keeps s0 x → _) ?_; (clear_value x; intro _); on_goal 2 => unfold x)
        | clear_value x)
    | (fail_if_no_progress with_reducible apply Keeps.upd)
    | split

theorem execFenceReject_answers {s0 s : State} (h : Keeps s0 s) {t : Nat} {tries : List FenceTry} : Answers s0 (execFenceReject t tries s) := by
  unfold execFenceReject
  repeat' first
    | (intro _; try beta_reduce)
    | with_reducible first | assumption | apply Answers.next | apply Keeps.foldl | apply State.fenceReject_keeps | apply State.begin_keeps
    | with_reducible first | apply State.passTime_keeps

theorem execEngineSidebandWrite_answers {s0 s : State} (h : Keeps s0 s) {port : Fin 24} {off : BitVec 12} {v : BitVec 32}
    : Answers s0 (execEngineSidebandWrite port off v s) := by
  unfold execEngineSidebandWrite
  repeat' first
    | with_reducible first | assumption | apply Answers.next | apply Answers.ite | apply Keeps.ite | apply State.begin_keeps
    | with_reducible first | apply State.fenceReject_keeps | apply State.wrP_keeps
    | ((fail_if_no_progress extract_lets +onlyGivenNames x)
       first
        | (refine (?_ : Keeps s0 x → _) ?_; (clear_value x; intro _); on_goal 2 => unfold x)
        | clear_value x)

/-! ## Security -/

theorem State.secCommand_keeps {s0 s : State} (h : Keeps s0 s) {op len : Nat} : Keeps s0 (s.secCommand op len) := by
  unfold State.secCommand
  repeat' first
    | with_reducible first | assumption | apply Keeps.ite | apply State.setSec_keeps | apply State.wrP_keeps
    | ((fail_if_no_progress extract_lets +onlyGivenNames x)
       first
        | (refine (?_ : Keeps s0 x → _) ?_; (clear_value x; intro _); on_goal 2 => unfold x)
        | clear_value x)
    | (fail_if_no_progress with_reducible apply Keeps.upd)

theorem State.secRefuse_keeps {s0 s : State} (h : Keeps s0 s) {c : Cause} {info : Nat} : Keeps s0 (s.secRefuse c info).1 := by
  unfold State.secRefuse
  repeat' first | with_reducible first | assumption | apply Keeps.ite1 | apply Keeps.foldl1 | apply State.raise_keeps | apply State.authFailed_keeps

theorem State.fwUpdate_keeps {s0 s : State} (h : Keeps s0 s) {len : Nat} : Keeps s0 (s.fwUpdate len).1 := by
  unfold State.fwUpdate
  repeat' first
    | with_reducible first | assumption | apply Keeps.ite | apply Keeps.ite1 | apply Keeps.foldl1 | apply State.secRefuse_keeps
    | with_reducible first | apply State.takeRead_keeps | apply State.setSec_keeps
    | ((fail_if_no_progress extract_lets +onlyGivenNames x)
       first
        | (refine (?_ : Keeps s0 x → _) ?_; (clear_value x; intro _); on_goal 2 => unfold x)
        | clear_value x)
    | (fail_if_no_progress with_reducible apply Keeps.upd)
    | with_reducible refine Keeps.p1 (by assumption) ?_
    | split

theorem State.commitFw_keeps {s0 s : State} (h : Keeps s0 s) : Keeps s0 (s.commitFw) := by
  unfold State.commitFw
  repeat' first
    | with_reducible first | assumption | apply Keeps.ite | apply State.setSec_keeps
    | ((fail_if_no_progress extract_lets +onlyGivenNames x)
       first
        | (refine (?_ : Keeps s0 x → _) ?_; (clear_value x; intro _); on_goal 2 => unfold x)
        | clear_value x)
    | (fail_if_no_progress with_reducible apply Keeps.upd)
    | split

theorem State.keyCommand_keeps {s0 s : State} (h : Keeps s0 s) {c : SecCmd} : Keeps s0 (s.keyCommand c).1 := by
  unfold State.keyCommand
  repeat' first
    | with_reducible first | assumption | apply Keeps.ite | apply Keeps.ite1 | apply Keeps.foldl1 | apply State.setSec_keeps
    | with_reducible first | apply State.secRefuse_keeps
    | ((fail_if_no_progress extract_lets +onlyGivenNames x)
       first
        | (refine (?_ : Keeps s0 x → _) ?_; (clear_value x; intro _); on_goal 2 => unfold x)
        | clear_value x)
    | (fail_if_no_progress with_reducible apply Keeps.upd)

theorem State.debugCommand_keeps {s0 s : State} (h : Keeps s0 s) {c : SecCmd} : Keeps s0 (s.debugCommand c).1 := by
  unfold State.debugCommand
  repeat' first
    | with_reducible first | assumption | apply Keeps.ite | apply Keeps.ite1 | apply Keeps.foldl1 | apply State.setSec_keeps
    | with_reducible first | apply State.secRefuse_keeps
    | (fail_if_no_progress with_reducible apply Keeps.upd)

theorem State.runSec_keeps {s0 s : State} (h : Keeps s0 s) {c : SecCmd} : Keeps s0 (s.runSec c).1 := by
  unfold State.runSec
  repeat' first
    | with_reducible first | assumption | apply Keeps.ite | apply Keeps.ite1 | apply Keeps.foldl1 | apply State.setSec_keeps | apply State.raise_keeps
    | with_reducible first | apply State.fwUpdate_keeps | apply State.commitFw_keeps | apply State.keyCommand_keeps | apply State.debugCommand_keeps
    | (fail_if_no_progress with_reducible apply Keeps.upd)

theorem execSecCommandEnd_answers {s0 s : State} (h : Keeps s0 s) {t : Nat} {errs : List AccessErr} : Answers s0 (execSecCommandEnd t errs s) := by
  unfold execSecCommandEnd
  repeat' first
    | with_reducible first | assumption | apply Answers.next | apply Answers.ite | apply Keeps.ite | apply State.begin_keeps
    | with_reducible first | apply State.facing_keeps | apply State.passTime_keeps | apply State.runSec_keeps | apply State.setSec_keeps
    | with_reducible first | apply State.newSecNonce_keeps | apply State.wrP_keeps | apply State.setInt_keeps
    | ((fail_if_no_progress extract_lets +onlyGivenNames x)
       first
        | (refine (?_ : Keeps s0 x → _) ?_; (clear_value x; intro _); on_goal 2 => unfold x)
        | clear_value x)
    | (fail_if_no_progress with_reducible apply Keeps.upd)
    | with_reducible refine Keeps.p1 (by assumption) ?_
    | split

theorem execEntropyTestFail_answers {s0 s : State} (h : Keeps s0 s) {t : Nat} : Answers s0 (execEntropyTestFail t s) := by
  unfold execEntropyTestFail
  repeat' first
    | with_reducible first | assumption | apply Answers.next | apply Answers.ite | apply Keeps.ite | apply State.begin_keeps
    | with_reducible first | apply State.passTime_keeps | apply State.setSec_keeps | apply State.setP_keeps | apply State.setInt_keeps
    | ((fail_if_no_progress extract_lets +onlyGivenNames x)
       first
        | (refine (?_ : Keeps s0 x → _) ?_; (clear_value x; intro _); on_goal 2 => unfold x)
        | clear_value x)
    | (fail_if_no_progress with_reducible apply Keeps.upd)

theorem State.entropyBack_keeps {s0 s : State} (h : Keeps s0 s) : Keeps s0 (s.entropyBack) := by
  unfold State.entropyBack
  repeat' first
    | (intro _; try beta_reduce)
    | with_reducible first | assumption | apply Keeps.ite | apply Keeps.foldl | apply State.setP_keeps | apply State.setSec_keeps
    | with_reducible first | apply State.seedNow_keeps | apply State.newSecNonce_keeps | apply State.newHoNonce_keeps
    | ((fail_if_no_progress extract_lets +onlyGivenNames x)
       first
        | (refine (?_ : Keeps s0 x → _) ?_; (clear_value x; intro _); on_goal 2 => unfold x)
        | clear_value x)
    | (fail_if_no_progress with_reducible apply Keeps.upd)

theorem State.doeError_keeps {s0 s : State} (h : Keeps s0 s) {type : Nat} : Keeps s0 (s.doeError type) := by
  unfold State.doeError
  repeat' first
    | with_reducible first | assumption | apply State.draw_keeps
    | ((fail_if_no_progress extract_lets +onlyGivenNames x)
       first
        | (refine (?_ : Keeps s0 x → _) ?_; (clear_value x; intro _); on_goal 2 => unfold x)
        | clear_value x)
    | (fail_if_no_progress with_reducible apply Keeps.upd)
    | with_reducible refine Keeps.p1 (by assumption) ?_
    | split

theorem execGetReport_answers {s0 s : State} (h : Keeps s0 s) {t : Nat} {src : Fin 3} {nonce : Vector Byte 32}
    : Answers s0 (execGetReport t src nonce s) := by
  unfold execGetReport
  repeat' first
    | with_reducible first | assumption | apply Answers.next | apply Answers.ite | apply Keeps.ite | apply State.begin_keeps
    | with_reducible first | apply State.passTime_keeps | apply State.doeError_keeps | apply State.setSec_keeps
    | ((fail_if_no_progress extract_lets +onlyGivenNames x)
       first
        | (refine (?_ : Keeps s0 x → _) ?_; (clear_value x; intro _); on_goal 2 => unfold x)
        | clear_value x)
    | (fail_if_no_progress with_reducible apply Keeps.upd)

theorem execGetCerts_answers {s0 s : State} (h : Keeps s0 s) {src : Fin 3} {off len : BitVec 32} : Answers s0 (execGetCerts src off len s) := by
  unfold execGetCerts
  repeat' first
    | with_reducible first | assumption | apply Answers.next | apply Answers.ite | apply Keeps.ite | apply State.begin_keeps
    | with_reducible first | apply State.doeError_keeps | apply State.setSec_keeps
    | ((fail_if_no_progress extract_lets +onlyGivenNames x)
       first
        | (refine (?_ : Keeps s0 x → _) ?_; (clear_value x; intro _); on_goal 2 => unfold x)
        | clear_value x)
    | (fail_if_no_progress with_reducible apply Keeps.upd)

theorem State.snapshots_keeps {s0 s : State} (h : Keeps s0 s) : Keeps s0 (s.snapshots) := by
  unfold State.snapshots
  repeat' first
    | (intro _; try beta_reduce)
    | with_reducible first | assumption | apply Keeps.ite | apply State.setSec_keeps
    | (fail_if_no_progress with_reducible apply Keeps.upd)

theorem execSnapshotTimeout_answers {s0 s : State} (h : Keeps s0 s) {t : Nat} : Answers s0 (execSnapshotTimeout t s) := by
  unfold execSnapshotTimeout
  repeat' first
    | (intro _; try beta_reduce)
    | with_reducible first | assumption | apply Answers.next | apply Answers.ite | apply Keeps.ite | apply State.begin_keeps
    | with_reducible first | apply State.passTime_keeps | apply State.setSec_keeps
    | ((fail_if_no_progress extract_lets +onlyGivenNames x)
       first
        | (refine (?_ : Keeps s0 x → _) ?_; (clear_value x; intro _); on_goal 2 => unfold x)
        | clear_value x)
    | (fail_if_no_progress with_reducible apply Keeps.upd)

theorem execReportReady_answers {s0 s : State} (h : Keeps s0 s) {t : Nat} : Answers s0 (execReportReady t s) := by
  unfold execReportReady
  repeat' first
    | with_reducible first | assumption | apply Answers.next | apply Answers.ite | apply Keeps.ite | apply State.begin_keeps
    | with_reducible first | apply State.passTime_keeps | apply State.setSec_keeps | apply State.bump_keeps
    | ((fail_if_no_progress extract_lets +onlyGivenNames x)
       first
        | (refine (?_ : Keeps s0 x → _) ?_; (clear_value x; intro _); on_goal 2 => unfold x)
        | clear_value x)
    | (fail_if_no_progress with_reducible apply Keeps.upd)
    | split

theorem execDoeDiscovery_answers {s0 s : State} (h : Keeps s0 s) {port : Fin 2} {index : BitVec 8} : Answers s0 (execDoeDiscovery port index s) := by
  unfold execDoeDiscovery
  repeat' first
    | with_reducible first | assumption | apply Answers.next | apply Answers.ite | apply Keeps.ite | apply State.begin_keeps
    | ((fail_if_no_progress extract_lets +onlyGivenNames x)
       first
        | (refine (?_ : Keeps s0 x → _) ?_; (clear_value x; intro _); on_goal 2 => unfold x)
        | clear_value x)
    | (fail_if_no_progress with_reducible apply Keeps.upd)
    | with_reducible refine Keeps.p1 (by assumption) ?_
    | split

/-! ## TestWork -/

theorem State.countHeader_keeps {s0 s : State} (h : Keeps s0 s) {a : Nat} : Keeps s0 (s.countHeader a) := by
  unfold State.countHeader
  repeat' first | with_reducible first | assumption | apply State.placeBytes_keeps | apply State.servedWrite_keeps

theorem State.ringErr_keeps {s0 s : State} (h : Keeps s0 s) {d k a : Nat} {write : Bool} {ecc : List BurstEvent}
    : Keeps s0 (s.ringErr d k a write ecc).1 := by
  unfold State.ringErr
  repeat' first
    | (intro _; try beta_reduce)
    | with_reducible first | assumption | apply Keeps.ite1 | apply Keeps.foldl1 | apply State.burstErr_keeps
    | ((fail_if_no_progress extract_lets +onlyGivenNames x)
       first
        | (refine (?_ : Keeps s0 x → _) ?_; (clear_value x; intro _); on_goal 2 => unfold x)
        | clear_value x)
    | (fail_if_no_progress with_reducible apply Keeps.upd)
    | with_reducible refine Keeps.p1 (by assumption) ?_
    | split

theorem State.ringAccess_keeps {s0 s : State} (h : Keeps s0 s) {d k a n : Nat} {write : Bool} {ecc : List BurstEvent}
    : Keeps s0 (s.ringAccess d k a n write ecc).1 := by
  unfold State.ringAccess
  repeat' first
    | with_reducible first | assumption | apply Keeps.ite1 | apply Keeps.foldl1 | apply State.ringErr_keeps
    | (fail_if_no_progress with_reducible apply Keeps.upd)
    | with_reducible refine Keeps.p1 (by assumption) ?_
    | split

theorem State.lostRecord_keeps {s0 s : State} (h : Keeps s0 s) {d : Nat} {x : Denial} {ecc : List BurstEvent} : Keeps s0 (s.lostRecord d x ecc) := by
  unfold State.lostRecord
  repeat' first
    | with_reducible first | assumption | apply Keeps.ite | apply State.captureDenial_keeps | apply State.raise_keeps | apply State.setInt_keeps
    | with_reducible first | apply State.ringAccess_keeps | apply State.countHeader_keeps | apply State.bump_keeps
    | ((fail_if_no_progress extract_lets +onlyGivenNames x)
       first
        | (refine (?_ : Keeps s0 x → _) ?_; (clear_value x; intro _); on_goal 2 => unfold x)
        | clear_value x)
    | (fail_if_no_progress with_reducible apply Keeps.upd)
    | with_reducible refine Keeps.p1 (by assumption) ?_
    | split

theorem State.dropRecord_keeps {s0 s : State} (h : Keeps s0 s) {d : Nat} {ecc : List BurstEvent} : Keeps s0 (s.dropRecord d ecc) := by
  unfold State.dropRecord
  repeat' first
    | with_reducible first | assumption | apply State.ringAccess_keeps | apply State.lostRecord_keeps | apply State.countHeader_keeps
    | with_reducible first | apply State.setInt_keeps
    | ((fail_if_no_progress extract_lets +onlyGivenNames x)
       first
        | (refine (?_ : Keeps s0 x → _) ?_; (clear_value x; intro _); on_goal 2 => unfold x)
        | clear_value x)
    | (fail_if_no_progress with_reducible apply Keeps.upd)
    | with_reducible refine Keeps.p1 (by assumption) ?_
    | split

theorem State.writeRecord_keeps {s0 s : State} (h : Keeps s0 s) {d a : Nat} {data : List Byte} {ecc : List BurstEvent}
    : Keeps s0 (s.writeRecord d a data ecc) := by
  unfold State.writeRecord
  repeat' first
    | with_reducible first | assumption | apply State.ringAccess_keeps | apply State.lostRecord_keeps | apply State.served_keeps
    | with_reducible first | apply State.placeBytes_keeps | apply State.countHeader_keeps
    | ((fail_if_no_progress extract_lets +onlyGivenNames x)
       first
        | (refine (?_ : Keeps s0 x → _) ?_; (clear_value x; intro _); on_goal 2 => unfold x)
        | clear_value x)
    | (fail_if_no_progress with_reducible apply Keeps.upd)
    | with_reducible refine Keeps.p1 (by assumption) ?_
    | split

theorem State.deliver_keeps {s0 s : State} (h : Keeps s0 s) {d : Nat} {data : List Byte} {ecc : List BurstEvent} : Keeps s0 (s.deliver d data ecc)
    := by
  unfold State.deliver
  repeat' first
    | with_reducible first | assumption | apply Keeps.ite | apply State.bump_keeps | apply State.setInt_keeps | apply State.ringAccess_keeps
    | with_reducible first | apply State.lostRecord_keeps | apply State.served_keeps | apply State.dropRecord_keeps | apply State.writeRecord_keeps
    | ((fail_if_no_progress extract_lets +onlyGivenNames x)
       first
        | (refine (?_ : Keeps s0 x → _) ?_; (clear_value x; intro _); on_goal 2 => unfold x)
        | clear_value x)
    | (fail_if_no_progress with_reducible apply Keeps.upd)
    | with_reducible refine Keeps.p1 (by assumption) ?_
    | split

theorem execRecordDelivery_answers {s0 s : State} (h : Keeps s0 s) {die : Fin 4} {ecc : List BurstEvent} : Answers s0 (execRecordDelivery die ecc s)
    := by
  unfold execRecordDelivery
  repeat' first
    | (intro _; try beta_reduce)
    | with_reducible first | assumption | apply Answers.next | apply Answers.ite | apply Keeps.ite | apply State.begin_keeps
    | with_reducible first | apply State.deliver_keeps
    | ((fail_if_no_progress extract_lets +onlyGivenNames x)
       first
        | (refine (?_ : Keeps s0 x → _) ?_; (clear_value x; intro _); on_goal 2 => unfold x)
        | clear_value x)
    | (fail_if_no_progress with_reducible apply Keeps.upd)
    | split

theorem State.ringControl_keeps {s0 s : State} (h : Keeps s0 s) {d : Nat} {v : Word} : Keeps s0 (s.ringControl d v) := by
  unfold State.ringControl
  repeat' first
    | with_reducible first | assumption | apply Keeps.ite | apply State.setP_keeps | apply State.deny_keeps | apply State.lostRecord_keeps
    | with_reducible first | apply State.served_keeps | apply State.placeBytes_keeps | apply State.servedWrite_keeps
    | ((fail_if_no_progress extract_lets +onlyGivenNames x)
       first
        | (refine (?_ : Keeps s0 x → _) ?_; (clear_value x; intro _); on_goal 2 => unfold x)
        | clear_value x)
    | (fail_if_no_progress with_reducible apply Keeps.upd)
    | split

theorem State.ringHdrWrite_keeps {s0 s : State} (h : Keeps s0 s) {d o : Nat} {v : Word} : Keeps s0 (s.ringHdrWrite d o v) := by
  unfold State.ringHdrWrite
  repeat' first
    | with_reducible first | assumption | apply Keeps.ite | apply State.deny_keeps | apply State.wrP_keeps
    | ((fail_if_no_progress extract_lets +onlyGivenNames x)
       first
        | (refine (?_ : Keeps s0 x → _) ?_; (clear_value x; intro _); on_goal 2 => unfold x)
        | clear_value x)

theorem State.seedState_keeps {s0 s : State} (h : Keeps s0 s) {n : Nat} : Keeps s0 (s.seedState n) := by
  unfold State.seedState
  repeat' first | with_reducible first | assumption | apply State.setP_keeps

theorem State.seedCommand_keeps {s0 s : State} (h : Keeps s0 s) {op len : Nat} : Keeps s0 (s.seedCommand op len) := by
  unfold State.seedCommand
  repeat' first
    | with_reducible first | assumption | apply Keeps.ite | apply State.takeRead_keeps | apply State.wrP_keeps | apply State.seedState_keeps
    | ((fail_if_no_progress extract_lets +onlyGivenNames x)
       first
        | (refine (?_ : Keeps s0 x → _) ?_; (clear_value x; intro _); on_goal 2 => unfold x)
        | clear_value x)
    | (fail_if_no_progress with_reducible apply Keeps.upd)
    | with_reducible refine Keeps.p1 (by assumption) ?_
    | split

theorem execSeedVerifyDone_answers {s0 s : State} (h : Keeps s0 s) {t : Nat} : Answers s0 (execSeedVerifyDone t s) := by
  unfold execSeedVerifyDone
  repeat' first
    | with_reducible first | assumption | apply Answers.next | apply Answers.ite | apply Keeps.ite | apply State.begin_keeps
    | with_reducible first | apply State.passTime_keeps | apply State.seedState_keeps | apply State.wrP_keeps | apply State.raise_keeps
    | with_reducible first | apply State.authFailed_keeps
    | ((fail_if_no_progress extract_lets +onlyGivenNames x)
       first
        | (refine (?_ : Keeps s0 x → _) ?_; (clear_value x; intro _); on_goal 2 => unfold x)
        | clear_value x)
    | (fail_if_no_progress with_reducible apply Keeps.upd)
    | split

theorem State.seedMismatch_keeps {s0 s : State} (h : Keeps s0 s) {x : SeedSet} {k die unit : Nat} {digest : List Byte}
    : Keeps s0 (s.seedMismatch x k die unit digest) := by
  unfold State.seedMismatch
  repeat' first
    | with_reducible first | assumption | apply Keeps.ite | apply State.raise_keeps | apply State.setP_keeps | apply State.stopJob_keeps
    | with_reducible first | apply State.offerRecord_keeps
    | ((fail_if_no_progress extract_lets +onlyGivenNames x)
       first
        | (refine (?_ : Keeps s0 x → _) ?_; (clear_value x; intro _); on_goal 2 => unfold x)
        | clear_value x)

theorem State.seedDone_keeps {s0 s : State} (h : Keeps s0 s) {x : SeedSet} : Keeps s0 (s.seedDone x) := by
  unfold State.seedDone
  repeat' first
    | (intro _; try beta_reduce)
    | with_reducible first | assumption | apply Keeps.foldl | apply State.offerRecord_keeps | apply State.seedState_keeps | apply State.setInt_keeps
    | ((fail_if_no_progress extract_lets +onlyGivenNames x)
       first
        | (refine (?_ : Keeps s0 x → _) ?_; (clear_value x; intro _); on_goal 2 => unfold x)
        | clear_value x)

theorem State.runPattern_keeps {s0 s : State} (h : Keeps s0 s) {l : List TestEvent} : Keeps s0 (s.runPattern l) := by
  unfold State.runPattern
  repeat' first
    | (intro _; try beta_reduce)
    | with_reducible first | assumption | apply Keeps.ite | apply Keeps.foldl | apply State.setP_keeps | apply State.seedMismatch_keeps
    | with_reducible first | apply State.seedDone_keeps
    | ((fail_if_no_progress extract_lets +onlyGivenNames x)
       first
        | (refine (?_ : Keeps s0 x → _) ?_; (clear_value x; intro _); on_goal 2 => unfold x)
        | clear_value x)
    | (fail_if_no_progress with_reducible apply Keeps.upd)
    | split

theorem State.runSeeds_keeps {s0 s : State} (h : Keeps s0 s) {l : List TestEvent} : Keeps s0 (s.runSeeds l) := by
  unfold State.runSeeds
  repeat' first
    | (intro _; try beta_reduce)
    | with_reducible first | assumption | apply Keeps.ite | apply Keeps.foldl | apply State.runPattern_keeps | apply State.seedState_keeps
    | ((fail_if_no_progress extract_lets +onlyGivenNames x)
       first
        | (refine (?_ : Keeps s0 x → _) ?_; (clear_value x; intro _); on_goal 2 => unfold x)
        | clear_value x)

theorem State.testSeed_keeps {s0 s : State} (h : Keeps s0 s) : Keeps s0 (s.testSeed).2 := by
  unfold State.testSeed
  repeat' first
    | with_reducible first | assumption | apply Keeps.ite | apply State.draw_keeps
    | ((fail_if_no_progress extract_lets +onlyGivenNames x)
       first
        | (refine (?_ : Keeps s0 x → _) ?_; (clear_value x; intro _); on_goal 2 => unfold x)
        | clear_value x)
    | with_reducible refine Keeps.p1 (by assumption) ?_
    | split

theorem State.spikelet_keeps {s0 s : State} (h : Keeps s0 s) {seed : BitVec 32} {die logical row col : Nat} {x : TestElem}
    : Keeps s0 (s.spikelet seed die logical row col x) := by
  unfold State.spikelet
  repeat' first
    | with_reducible first | assumption | apply State.raiseCode_keeps | apply State.draw_keeps | apply State.offerRecord_keeps
    | ((fail_if_no_progress extract_lets +onlyGivenNames x)
       first
        | (refine (?_ : Keeps s0 x → _) ?_; (clear_value x; intro _); on_goal 2 => unfold x)
        | clear_value x)
    | with_reducible refine Keeps.p1 (by assumption) ?_
    | split

theorem State.spikeletDie_keeps {s0 s : State} (h : Keeps s0 s) {seed : BitVec 32} {l : List TestEvent} {d : Nat} : Keeps s0 (s.spikeletDie seed l d)
    := by
  unfold State.spikeletDie
  repeat' first
    | (intro _; try beta_reduce)
    | with_reducible first | assumption | apply Keeps.foldl | apply State.spikelet_keeps | apply State.offerRecord_keeps
    | ((fail_if_no_progress extract_lets +onlyGivenNames x)
       first
        | (refine (?_ : Keeps s0 x → _) ?_; (clear_value x; intro _); on_goal 2 => unfold x)
        | clear_value x)

theorem State.spikelets_keeps {s0 s : State} (h : Keeps s0 s) {seed : BitVec 32} {l : List TestEvent} : Keeps s0 (s.spikelets seed l) := by
  unfold State.spikelets
  repeat' first | (intro _; try beta_reduce) | with_reducible first | assumption | apply Keeps.foldl | apply State.spikeletDie_keeps

theorem State.fogReservation_keeps {s0 s : State} (h : Keeps s0 s) : Keeps s0 (s.fogReservation) := by
  unfold State.fogReservation
  repeat' first | (intro _; try beta_reduce) | with_reducible first | assumption | apply Keeps.foldl | apply State.lose_keeps

theorem State.testWork_keeps {s0 s : State} (h : Keeps s0 s) {l : List TestEvent} : Keeps s0 (s.testWork l) := by
  unfold State.testWork
  repeat' first
    | (intro _; try beta_reduce)
    | with_reducible first | assumption | apply Keeps.ite | apply State.fogReservation_keeps | apply State.testSeed_keeps
    | with_reducible first | apply State.spikelets_keeps | apply State.raiseCode_keeps | apply State.runSeeds_keeps
    | ((fail_if_no_progress extract_lets +onlyGivenNames x)
       first
        | (refine (?_ : Keeps s0 x → _) ?_; (clear_value x; intro _); on_goal 2 => unfold x)
        | clear_value x)
    | (fail_if_no_progress with_reducible apply Keeps.upd)
    | with_reducible refine Keeps.p1 (by assumption) ?_
    | split

/-! ## Dras -/

theorem State.sensorCheck_keeps {s0 s : State} (h : Keeps s0 s) {k : Nat} {l : List (Option Int)} : Keeps s0 (s.sensorCheck k l) := by
  unfold State.sensorCheck
  repeat' first
    | (intro _; try beta_reduce)
    | with_reducible first | assumption | apply Keeps.foldl | apply State.raise_keeps | apply State.setInt_keeps | apply State.setP_keeps
    | with_reducible first | apply State.setStack_keeps
    | ((fail_if_no_progress extract_lets +onlyGivenNames x)
       first
        | (refine (?_ : Keeps s0 x → _) ?_; (clear_value x; intro _); on_goal 2 => unfold x)
        | clear_value x)
    | (fail_if_no_progress with_reducible apply Keeps.upd)

theorem State.setTemp_keeps {s0 s : State} (h : Keeps s0 s) {k : Nat} {t : Int} : Keeps s0 (s.setTemp k t) := by
  unfold State.setTemp
  repeat' first
    | with_reducible first | assumption | apply Keeps.ite | apply State.wrP_keeps | apply State.setStack_keeps
    | ((fail_if_no_progress extract_lets +onlyGivenNames x)
       first
        | (refine (?_ : Keeps s0 x → _) ?_; (clear_value x; intro _); on_goal 2 => unfold x)
        | clear_value x)
    | (fail_if_no_progress with_reducible apply Keeps.upd)

theorem State.setBand_keeps {s0 s : State} (h : Keeps s0 s) {k : Nat} {t : Option Int} : Keeps s0 (s.setBand k t) := by
  unfold State.setBand
  repeat' first
    | with_reducible first | assumption | apply Keeps.ite | apply State.setInt_keeps | apply State.raise_keeps | apply State.setP_keeps
    | ((fail_if_no_progress extract_lets +onlyGivenNames x)
       first
        | (refine (?_ : Keeps s0 x → _) ?_; (clear_value x; intro _); on_goal 2 => unfold x)
        | clear_value x)

theorem State.selfTest_keeps {s0 s : State} (h : Keeps s0 s) {k : Nat} {bad : List Nat} : Keeps s0 (s.selfTest k bad) := by
  unfold State.selfTest
  repeat' first
    | (intro _; try beta_reduce)
    | with_reducible first | assumption | apply Keeps.ite | apply State.sensorCheck_keeps | apply State.setBand_keeps

theorem State.tempSample_keeps {s0 s : State} (h : Keeps s0 s) {k : Nat} {l : List (Option Int)} : Keeps s0 (s.tempSample k l) := by
  unfold State.tempSample
  repeat' first
    | with_reducible first | assumption | apply Keeps.ite | apply State.sensorCheck_keeps | apply State.setTemp_keeps | apply State.setBand_keeps
    | with_reducible first | apply State.raise_keeps | apply State.abortFrame_keeps | apply State.trip_keeps
    | ((fail_if_no_progress extract_lets +onlyGivenNames x)
       first
        | (refine (?_ : Keeps s0 x → _) ?_; (clear_value x; intro _); on_goal 2 => unfold x)
        | clear_value x)
    | (fail_if_no_progress with_reducible apply Keeps.upd)
    | split

theorem execStackTempSample_answers {s0 s : State} (h : Keeps s0 s) {t : Nat} {stack : Fin 12} {readings : List (Option Int)}
    : Answers s0 (execStackTempSample t stack readings s) := by
  unfold execStackTempSample
  repeat' first
    | with_reducible first | assumption | apply Answers.next | apply Answers.ite | apply Keeps.ite | apply State.begin_keeps
    | with_reducible first | apply State.passTime_keeps | apply State.tempSample_keeps
    | ((fail_if_no_progress extract_lets +onlyGivenNames x)
       first
        | (refine (?_ : Keeps s0 x → _) ?_; (clear_value x; intro _); on_goal 2 => unfold x)
        | clear_value x)

theorem execWatchAgeHalving_answers {s0 s : State} (h : Keeps s0 s) {stack : Fin 12} : Answers s0 (execWatchAgeHalving stack s) := by
  unfold execWatchAgeHalving
  repeat' first
    | with_reducible first | assumption | apply Answers.next | apply Answers.ite | apply Keeps.ite | apply State.begin_keeps
    | with_reducible first | apply State.halveWatch_keeps | apply State.setStack_keeps
    | ((fail_if_no_progress extract_lets +onlyGivenNames x)
       first
        | (refine (?_ : Keeps s0 x → _) ?_; (clear_value x; intro _); on_goal 2 => unfold x)
        | clear_value x)
    | (fail_if_no_progress with_reducible apply Keeps.upd)

theorem State.remapRest_keeps {s0 : State} {k n : Nat} {ecc : List BurstEvent} : ∀ {s : State} (_ : Keeps s0 s)
    {j : Nat}, Keeps s0 (s.remapRest k ecc j n) := by
  induction n with
  | zero => exact fun h => h
  | succ n ih =>
    intro s h j
    unfold State.remapRest
    repeat' first | with_reducible first | assumption | apply Keeps.ite | apply ih | apply State.remapStep_keeps | split

theorem execRemapCopyDone_answers {s0 s : State} (h : Keeps s0 s) {t : Nat} {stack : Fin 12} {ecc : List BurstEvent}
    : Answers s0 (execRemapCopyDone t stack ecc s) := by
  unfold execRemapCopyDone
  repeat' first
    | with_reducible first | assumption | apply Answers.next | apply Answers.ite | apply Keeps.ite | apply State.begin_keeps
    | with_reducible first | apply State.passTime_keeps | apply State.remapRest_keeps
    | ((fail_if_no_progress extract_lets +onlyGivenNames x)
       first
        | (refine (?_ : Keeps s0 x → _) ?_; (clear_value x; intro _); on_goal 2 => unfold x)
        | clear_value x)
    | (fail_if_no_progress with_reducible apply Keeps.upd)
    | split

theorem State.drasBlock_keeps {s0 s : State} (h : Keeps s0 s) {die : Nat} : Keeps s0 (s.drasBlock die) := by
  unfold State.drasBlock
  repeat' first | with_reducible first | assumption | apply State.raise_keeps

theorem State.failing_keeps {s0 s : State} (h : Keeps s0 s) {f : DrasFind} : Keeps s0 (s.failing f).2 := by
  unfold State.failing
  repeat' first
    | (intro _; try beta_reduce)
    | with_reducible first | assumption
    | ((fail_if_no_progress extract_lets +onlyGivenNames x)
       first
        | (refine (?_ : Keeps s0 x → _) ?_; (clear_value x; intro _); on_goal 2 => unfold x)
        | clear_value x)
    | (fail_if_no_progress with_reducible apply Keeps.upd)
    | split

theorem State.failBits_keeps {s0 s : State} (h : Keeps s0 s) {f : DrasFind} : Keeps s0 (s.failBits f).2 := by
  unfold State.failBits
  repeat' first
    | with_reducible first | assumption | apply State.draw_keeps
    | ((fail_if_no_progress extract_lets +onlyGivenNames x)
       first
        | (refine (?_ : Keeps s0 x → _) ?_; (clear_value x; intro _); on_goal 2 => unfold x)
        | clear_value x)
    | (fail_if_no_progress with_reducible apply Keeps.upd)
    | with_reducible refine Keeps.p1 (by assumption) ?_
    | split

theorem State.setWindow_keeps {s0 s : State} (h : Keeps s0 s) {off : Nat} {l : List Byte} : Keeps s0 (s.setWindow off l) := by
  unfold State.setWindow
  repeat' first | (intro _; try beta_reduce) | with_reducible first | assumption | apply Keeps.foldl | apply State.wr_keeps

theorem State.drasRead_keeps {s0 s : State} (h : Keeps s0 s) {die : Nat} {x : DrasTarget} {raw : Bool} {l : List Nat}
    : Keeps s0 (s.drasRead die x raw l).1 := by
  unfold State.drasRead
  repeat' first
    | (intro _; try beta_reduce)
    | with_reducible first | assumption | apply Keeps.ite | apply Keeps.foldl | apply Keeps.ite1 | apply Keeps.foldl1 | apply State.draw_keeps
    | with_reducible first | apply State.rowErr_keeps | apply State.setWindow_keeps
    | ((fail_if_no_progress extract_lets +onlyGivenNames x)
       first
        | (refine (?_ : Keeps s0 x → _) ?_; (clear_value x; intro _); on_goal 2 => unfold x)
        | clear_value x)
    | (fail_if_no_progress with_reducible apply Keeps.upd)
    | with_reducible refine Keeps.p1 (by assumption) ?_
    | split

theorem State.drasWrite_keeps {s0 s : State} (h : Keeps s0 s) {die : Nat} {x : DrasTarget} : Keeps s0 (s.drasWrite die x) := by
  unfold State.drasWrite
  repeat' first | (intro _; try beta_reduce) | with_reducible first | assumption | apply Keeps.foldl | apply State.setCell_keeps

theorem State.connResult_keeps {s0 s : State} (h : Keeps s0 s) {die site ch : Nat} {bad : List Nat} : Keeps s0 (s.connResult die site ch bad) := by
  unfold State.connResult
  repeat' first | (intro _; try beta_reduce) | with_reducible first | assumption | apply Keeps.foldl | apply State.wr_keeps

theorem State.drasAction_keeps {s0 s : State} (h : Keeps s0 s) {die op site : Nat} {raw : Bool} {f : DrasFind}
    : Keeps s0 (s.drasAction die op site raw f).1 := by
  unfold State.drasAction
  repeat' first
    | (intro _; try beta_reduce)
    | with_reducible first | assumption | apply Keeps.ite | apply Keeps.ite1 | apply Keeps.foldl1 | apply State.failing_keeps
    | with_reducible first | apply State.connResult_keeps | apply State.applyStackRepairs_keeps | apply State.setStack_keeps
    | with_reducible first | apply State.drasRead_keeps | apply State.drasWrite_keeps | apply State.failBits_keeps | apply State.lose_keeps
    | ((fail_if_no_progress extract_lets +onlyGivenNames x)
       first
        | (refine (?_ : Keeps s0 x → _) ?_; (clear_value x; intro _); on_goal 2 => unfold x)
        | clear_value x)
    | (fail_if_no_progress with_reducible apply Keeps.upd)
    | with_reducible refine Keeps.p1 (by assumption) ?_
    | split

theorem State.drasCommand_keeps {s0 s : State} (h : Keeps s0 s) {die v : Nat} {f : DrasFind} : Keeps s0 (s.drasCommand die v f) := by
  unfold State.drasCommand
  repeat' first
    | with_reducible first | assumption | apply Keeps.ite | apply State.setP_keeps | apply State.drasBlock_keeps | apply State.drasAction_keeps
    | ((fail_if_no_progress extract_lets +onlyGivenNames x)
       first
        | (refine (?_ : Keeps s0 x → _) ?_; (clear_value x; intro _); on_goal 2 => unfold x)
        | clear_value x)
    | (fail_if_no_progress with_reducible apply Keeps.upd)
    | with_reducible refine Keeps.p1 (by assumption) ?_
    | split

theorem execDrasCommandEnd_answers {s0 s : State} (h : Keeps s0 s) {t : Nat} {die : Fin 4} : Answers s0 (execDrasCommandEnd t die s) := by
  unfold execDrasCommandEnd
  repeat' first
    | with_reducible first | assumption | apply Answers.next | apply State.begin_keeps | apply State.passTime_keeps | apply State.setP_keeps
    | ((fail_if_no_progress extract_lets +onlyGivenNames x)
       first
        | (refine (?_ : Keeps s0 x → _) ?_; (clear_value x; intro _); on_goal 2 => unfold x)
        | clear_value x)
    | (fail_if_no_progress with_reducible apply Keeps.upd)
    | split

/-! ## FrameEnd -/

theorem State.setFleet_keeps {s0 s : State} (h : Keeps s0 s) {f : Fleet} : Keeps s0 (s.setFleet f) := by
  unfold State.setFleet
  repeat' first | with_reducible first | assumption | (fail_if_no_progress with_reducible apply Keeps.upd)

theorem State.toBoundary_keeps {s0 s : State} (h : Keeps s0 s) : Keeps s0 (s.toBoundary) := by
  unfold State.toBoundary
  repeat' first
    | with_reducible first | assumption | apply Keeps.ite | apply State.advance_keeps | apply State.passTime_keeps
    | ((fail_if_no_progress extract_lets +onlyGivenNames x)
       first
        | (refine (?_ : Keeps s0 x → _) ?_; (clear_value x; intro _); on_goal 2 => unfold x)
        | clear_value x)

theorem State.lastEffects_keeps {s0 s : State} (h : Keeps s0 s) : Keeps s0 (s.lastEffects) := by
  unfold State.lastEffects
  repeat' first
    | (intro _; try beta_reduce)
    | with_reducible first | assumption | apply Keeps.foldl | apply State.apply_keeps
    | ((fail_if_no_progress extract_lets +onlyGivenNames x)
       first
        | (refine (?_ : Keeps s0 x → _) ?_; (clear_value x; intro _); on_goal 2 => unfold x)
        | clear_value x)
    | (fail_if_no_progress with_reducible apply Keeps.upd)

theorem State.countFrame_keeps {s0 s : State} (h : Keeps s0 s) {n : Nat} : Keeps s0 (s.countFrame n) := by
  unfold State.countFrame
  repeat' first
    | (intro _; try beta_reduce)
    | with_reducible first | assumption | apply Keeps.ite | apply Keeps.foldl | apply State.countIdle_keeps | apply State.setFrame_keeps
    | with_reducible first | apply State.bump64_keeps
    | ((fail_if_no_progress extract_lets +onlyGivenNames x)
       first
        | (refine (?_ : Keeps s0 x → _) ?_; (clear_value x; intro _); on_goal 2 => unfold x)
        | clear_value x)
    | (fail_if_no_progress with_reducible apply Keeps.upd)
    | split

theorem State.recordSlip_keeps {s0 s : State} (h : Keeps s0 s) : Keeps s0 (s.recordSlip) := by
  unfold State.recordSlip
  repeat' first
    | with_reducible first | assumption | apply Keeps.ite | apply State.wrP_keeps | apply State.setP_keeps | apply State.bump_keeps
    | ((fail_if_no_progress extract_lets +onlyGivenNames x)
       first
        | (refine (?_ : Keeps s0 x → _) ?_; (clear_value x; intro _); on_goal 2 => unfold x)
        | clear_value x)

theorem State.watchTick_keeps {s0 s : State} (h : Keeps s0 s) : Keeps s0 (s.watchTick) := by
  unfold State.watchTick
  repeat' first
    | with_reducible first | assumption | apply Keeps.ite | apply State.bump_keeps | apply State.setFleet_keeps | apply State.setP_keeps
    | with_reducible first | apply State.setInt_keeps | apply State.raise_keeps
    | ((fail_if_no_progress extract_lets +onlyGivenNames x)
       first
        | (refine (?_ : Keeps s0 x → _) ?_; (clear_value x; intro _); on_goal 2 => unfold x)
        | clear_value x)
    | (fail_if_no_progress with_reducible apply Keeps.upd)

theorem State.updateDebt_keeps {s0 s : State} (h : Keeps s0 s) : Keeps s0 (s.updateDebt) := by
  unfold State.updateDebt
  repeat' first
    | (intro _; try beta_reduce)
    | with_reducible first | assumption | apply State.wrP_keeps
    | ((fail_if_no_progress extract_lets +onlyGivenNames x)
       first
        | (refine (?_ : Keeps s0 x → _) ?_; (clear_value x; intro _); on_goal 2 => unfold x)
        | clear_value x)
    | (fail_if_no_progress with_reducible apply Keeps.upd)
    | split

theorem State.carryErrs_keeps {s0 : State} {l : List BurstEvent} : ∀ {s : State} (_ : Keeps s0 s) {c : Carry}
    {write : Bool}, Keeps s0 (s.carryErrs c write l).1 := by
  induction l with
  | nil => exact fun h => h
  | cons e r ih =>
    intro s h c write
    unfold State.carryErrs
    dsimp only
    have hx : Keeps s0 (s.burstErr (c.save + 2048 * e.burst) 0 false write e.err) := State.burstErr_keeps h
    split
    · exact hx
    · exact ih hx

theorem State.copyCarries_keeps {s0 : State} {ev : List CarryEvent} {l : List (Nat × Carry)} : ∀ {s : State} (_ : Keeps s0 s) {restore : Bool},
    Keeps s0 (s.copyCarries restore ev l).1 := by
  induction l with
  | nil => exact fun h => h
  | cons q r ih =>
    intro s h restore
    obtain ⟨k, c⟩ := q
    unfold State.copyCarries
    dsimp only
    split
    all_goals
      split
      · first | exact State.captureDenial_keeps h | exact State.carryErrs_keeps h
      · refine ih (Keeps.ite (State.store_keeps ?_) (State.putFrom_keeps ?_)) <;> first | exact State.captureDenial_keeps h | exact State.carryErrs_keeps h

theorem State.zeroScratch_keeps {s0 s : State} (h : Keeps s0 s) : Keeps s0 (s.zeroScratch) := by
  unfold State.zeroScratch
  repeat' first | (intro _; try beta_reduce) | with_reducible first | assumption | apply Keeps.foldl | apply State.lose_keeps

theorem State.loseSaves_keeps {s0 s : State} (h : Keeps s0 s) {l : List (Nat × Carry)} : Keeps s0 (s.loseSaves l) := by
  unfold State.loseSaves
  repeat' first | (intro _; try beta_reduce) | with_reducible first | assumption | apply Keeps.foldl | apply State.fogRange_keeps

theorem State.loadScalars_keeps {s0 s : State} (h : Keeps s0 s) {x : Slot} : Keeps s0 (s.loadScalars x) := by
  unfold State.loadScalars
  repeat' first
    | (intro _; try beta_reduce)
    | with_reducible first | assumption | apply Keeps.foldl | apply State.set64_keeps | apply State.setSreg_keeps
    | ((fail_if_no_progress extract_lets +onlyGivenNames x)
       first
        | (refine (?_ : Keeps s0 x → _) ?_; (clear_value x; intro _); on_goal 2 => unfold x)
        | clear_value x)

theorem State.switchCopies_keeps {s0 s : State} (h : Keeps s0 s) {x : Switching} {ev : List CarryEvent} : Keeps s0 (s.switchCopies x ev).1 := by
  unfold State.switchCopies
  repeat' first
    | with_reducible first | assumption | apply Keeps.ite | apply Keeps.ite1 | apply Keeps.foldl1 | apply State.copyCarries_keeps
    | with_reducible first | apply State.zeroScratch_keeps | apply State.loseSaves_keeps
    | ((fail_if_no_progress extract_lets +onlyGivenNames x)
       first
        | (refine (?_ : Keeps s0 x → _) ?_; (clear_value x; intro _); on_goal 2 => unfold x)
        | clear_value x)
    | with_reducible refine Keeps.p1 (by assumption) ?_
    | split

theorem State.endSwitch_keeps {s0 s : State} (h : Keeps s0 s) {ev : List CarryEvent} : Keeps s0 (s.endSwitch ev) := by
  unfold State.endSwitch
  repeat' first
    | (intro _; try beta_reduce)
    | with_reducible first | assumption | apply Keeps.ite | apply Keeps.foldl | apply State.switchCopies_keeps | apply State.loadScalars_keeps
    | with_reducible first | apply State.bindStream_keeps | apply State.setHost_keeps | apply State.finish_keeps
    | ((fail_if_no_progress extract_lets +onlyGivenNames x)
       first
        | (refine (?_ : Keeps s0 x → _) ?_; (clear_value x; intro _); on_goal 2 => unfold x)
        | clear_value x)
    | (fail_if_no_progress with_reducible apply Keeps.upd)
    | with_reducible refine Keeps.p1 (by assumption) ?_
    | split

theorem State.runProgress_keeps {s0 s : State} (h : Keeps s0 s) : Keeps s0 (s.runProgress) := by
  unfold State.runProgress
  repeat' first
    | (intro _; try beta_reduce)
    | with_reducible first | assumption | apply Keeps.ite | apply State.setHost_keeps | apply State.completeRun_keeps
    | ((fail_if_no_progress extract_lets +onlyGivenNames x)
       first
        | (refine (?_ : Keeps s0 x → _) ?_; (clear_value x; intro _); on_goal 2 => unfold x)
        | clear_value x)
    | (fail_if_no_progress with_reducible apply Keeps.upd)
    | split

theorem State.endFrame_keeps {s0 s : State} (h : Keeps s0 s) {carry : List CarryEvent} {tests : List TestEvent} : Keeps s0 (s.endFrame carry tests)
    := by
  unfold State.endFrame
  repeat' first
    | with_reducible first | assumption | apply Keeps.ite | apply State.lastEffects_keeps | apply State.testWork_keeps | apply State.setP_keeps
    | with_reducible first | apply State.countFrame_keeps | apply State.recordSlip_keeps | apply State.endSwitch_keeps | apply State.runProgress_keeps
    | with_reducible first | apply State.watchTick_keeps | apply State.updateDebt_keeps
    | ((fail_if_no_progress extract_lets +onlyGivenNames x)
       first
        | (refine (?_ : Keeps s0 x → _) ?_; (clear_value x; intro _); on_goal 2 => unfold x)
        | clear_value x)

/-! ## Boundary -/

theorem State.setTlrMap_keeps {s0 s : State} (h : Keeps s0 s) {d n hi lo v : Nat} : Keeps s0 (s.setTlrMap d n hi lo v) := by
  unfold State.setTlrMap
  repeat' first | with_reducible first | assumption | apply State.wr_keeps

theorem State.retireNow_keeps {s0 s : State} (h : Keeps s0 s) {d n : Nat} : Keeps s0 (s.retireNow d n).1 := by
  unfold State.retireNow
  repeat' first
    | (intro _; try beta_reduce)
    | with_reducible first | assumption | apply Keeps.ite | apply Keeps.ite1 | apply Keeps.foldl1 | apply State.setTlrMap_keeps
    | ((fail_if_no_progress extract_lets +onlyGivenNames x)
       first
        | (refine (?_ : Keeps s0 x → _) ?_; (clear_value x; intro _); on_goal 2 => unfold x)
        | clear_value x)
    | (fail_if_no_progress with_reducible apply Keeps.upd)
    | with_reducible refine Keeps.p1 (by assumption) ?_
    | split

theorem State.stopImages_keeps {s0 s : State} (h : Keeps s0 s) {d l : Nat} : Keeps s0 (s.stopImages d l) := by
  unfold State.stopImages
  repeat' first
    | (intro _; try beta_reduce)
    | with_reducible first | assumption | apply Keeps.ite
    | (fail_if_no_progress with_reducible apply Keeps.upd)

theorem State.retireInts_keeps {s0 s : State} (h : Keeps s0 s) {old : State} {d n : Nat} : Keeps s0 (s.retireInts old d n) := by
  unfold State.retireInts
  repeat' first | (intro _; try beta_reduce) | with_reducible first | assumption | apply Keeps.ite | apply Keeps.foldl | apply State.setInt_keeps

theorem State.retireBoundary_keeps {s0 s : State} (h : Keeps s0 s) : Keeps s0 (s.retireBoundary) := by
  unfold State.retireBoundary
  with_reducible refine Keeps.foldl h fun t d ht => ?_
  with_reducible refine Keeps.foldl ht fun v n hv => ?_
  have hn := State.noteRepair_keeps (State.retireInts_keeps (State.retireNow_keeps hv (d := d) (n := n)) (old := v) (d := d) (n := n))
    (e := tillerEntry d n 0)
  refine Keeps.ite ?_ hv
  beta_reduce
  extract_lets r x
  split
  · exact State.stopImages_keeps hn
  · exact hn

theorem State.widthCheck_keeps {s0 s : State} (h : Keeps s0 s) : Keeps s0 (s.widthCheck) := by
  unfold State.widthCheck
  repeat' first
    | (intro _; try beta_reduce)
    | with_reducible first | assumption | apply Keeps.ite | apply Keeps.foldl | apply State.raise_keeps
    | ((fail_if_no_progress extract_lets +onlyGivenNames x)
       first
        | (refine (?_ : Keeps s0 x → _) ?_; (clear_value x; intro _); on_goal 2 => unfold x)
        | clear_value x)
    | (fail_if_no_progress with_reducible apply Keeps.upd)
    | split

theorem State.dropRun_keeps {s0 s : State} (h : Keeps s0 s) : Keeps s0 (s.dropRun) := by
  unfold State.dropRun
  repeat' first
    | (intro _; try beta_reduce)
    | with_reducible first | assumption | apply Keeps.ite | apply State.endRun_keeps | apply State.finish_keeps
    | ((fail_if_no_progress extract_lets +onlyGivenNames x)
       first
        | (refine (?_ : Keeps s0 x → _) ?_; (clear_value x; intro _); on_goal 2 => unfold x)
        | clear_value x)
    | (fail_if_no_progress with_reducible apply Keeps.upd)
    | split

theorem State.sendIdleReq_keeps {s0 s : State} (h : Keeps s0 s) {kind : Nat} : Keeps s0 (s.sendIdleReq kind) := by
  unfold State.sendIdleReq
  repeat' first | with_reducible first | assumption | apply State.create_keeps

theorem State.idleDecision_keeps {s0 s : State} (h : Keeps s0 s) {len k : Nat} : Keeps s0 (s.idleDecision len k).2 := by
  unfold State.idleDecision
  repeat' first
    | (intro _; try beta_reduce)
    | with_reducible first | assumption | apply Keeps.ite | apply Keeps.foldl | apply State.setFleet_keeps | apply State.sendIdleReq_keeps
    | with_reducible first | apply State.setP_keeps
    | ((fail_if_no_progress extract_lets +onlyGivenNames x)
       first
        | (refine (?_ : Keeps s0 x → _) ?_; (clear_value x; intro _); on_goal 2 => unfold x)
        | clear_value x)
    | (fail_if_no_progress with_reducible apply Keeps.upd)
    | with_reducible refine Keeps.p1 (by assumption) ?_
    | split

theorem State.beginIdle_keeps {s0 s : State} (h : Keeps s0 s) {c : IdleChoice} : Keeps s0 (s.beginIdle c) := by
  unfold State.beginIdle
  repeat' first
    | (intro _; try beta_reduce)
    | with_reducible first | assumption | apply Keeps.ite | apply State.setP_keeps | apply State.bump_keeps | apply State.setInt_keeps
    | ((fail_if_no_progress extract_lets +onlyGivenNames x)
       first
        | (refine (?_ : Keeps s0 x → _) ?_; (clear_value x; intro _); on_goal 2 => unfold x)
        | clear_value x)
    | (fail_if_no_progress with_reducible apply Keeps.upd)
    | split

theorem State.sendTick_keeps {s0 s : State} (h : Keeps s0 s) {len k : Nat} : Keeps s0 (s.sendTick len k) := by
  unfold State.sendTick
  repeat' first
    | with_reducible first | assumption | apply Keeps.ite | apply State.create_keeps | apply State.setFab_keeps | apply State.setFleet_keeps
    | ((fail_if_no_progress extract_lets +onlyGivenNames x)
       first
        | (refine (?_ : Keeps s0 x → _) ?_; (clear_value x; intro _); on_goal 2 => unfold x)
        | clear_value x)
    | (fail_if_no_progress with_reducible apply Keeps.upd)

theorem State.beginTest_keeps {s0 s : State} (h : Keeps s0 s) : Keeps s0 (s.beginTest) := by
  unfold State.beginTest
  repeat' first
    | with_reducible first | assumption | apply Keeps.ite | apply State.bump_keeps | apply State.setP_keeps | apply State.setFleet_keeps
    | ((fail_if_no_progress extract_lets +onlyGivenNames x)
       first
        | (refine (?_ : Keeps s0 x → _) ?_; (clear_value x; intro _); on_goal 2 => unfold x)
        | clear_value x)
    | (fail_if_no_progress with_reducible apply Keeps.upd)

theorem State.countFetch_keeps {s0 s : State} (h : Keeps s0 s) {x : Slot} {f d : Nat} : Keeps s0 (s.countFetch x f d).1 := by
  unfold State.countFetch
  repeat' first
    | (intro _; try beta_reduce)
    | with_reducible first | assumption | apply Keeps.ite | apply Keeps.foldl | apply Keeps.ite1 | apply Keeps.foldl1 | apply State.readFrom_keeps
    | ((fail_if_no_progress extract_lets +onlyGivenNames x)
       first
        | (refine (?_ : Keeps s0 x → _) ?_; (clear_value x; intro _); on_goal 2 => unfold x)
        | clear_value x)

theorem State.newFrame_keeps {s0 s : State} (h : Keeps s0 s) {kind : FrameKind} {len idleCode : Nat} {testing : Bool}
    : Keeps s0 (s.newFrame kind len idleCode testing) := by
  unfold State.newFrame
  repeat' first
    | with_reducible first | assumption | apply Keeps.ite | apply State.setFrame_keeps | apply State.fresh_keeps
    | ((fail_if_no_progress extract_lets +onlyGivenNames x)
       first
        | (refine (?_ : Keeps s0 x → _) ?_; (clear_value x; intro _); on_goal 2 => unfold x)
        | clear_value x)
    | (fail_if_no_progress with_reducible apply Keeps.upd)

theorem State.beginImage_keeps {s0 s : State} (h : Keeps s0 s) {r : Run} {len : Nat} : Keeps s0 (s.beginImage r len) := by
  unfold State.beginImage
  repeat' first
    | (intro _; try beta_reduce)
    | with_reducible first | assumption | apply Keeps.ite | apply Keeps.foldl | apply State.newFrame_keeps | apply State.setFrame_keeps
    | with_reducible first | apply State.setHost_keeps | apply State.setP_keeps | apply State.abortFrame_keeps | apply State.bump_keeps
    | with_reducible first | apply State.setInt_keeps | apply State.freeze_keeps
    | ((fail_if_no_progress extract_lets +onlyGivenNames x)
       first
        | (refine (?_ : Keeps s0 x → _) ?_; (clear_value x; intro _); on_goal 2 => unfold x)
        | clear_value x)
    | (fail_if_no_progress with_reducible apply Keeps.upd)
    | split

theorem State.beginSwitch_keeps {s0 s : State} (h : Keeps s0 s) {x : Switching} {len : Nat} : Keeps s0 (s.beginSwitch x len) := by
  unfold State.beginSwitch
  repeat' first
    | with_reducible first | assumption | apply Keeps.ite | apply State.newFrame_keeps | apply State.bump_keeps | apply State.resetStreams_keeps
    | with_reducible first | apply State.abortScheduled_keeps | apply State.setHost_keeps
    | ((fail_if_no_progress extract_lets +onlyGivenNames x)
       first
        | (refine (?_ : Keeps s0 x → _) ?_; (clear_value x; intro _); on_goal 2 => unfold x)
        | clear_value x)
    | (fail_if_no_progress with_reducible apply Keeps.upd)

theorem State.chooseFrame_keeps {s0 s : State} (h : Keeps s0 s) {len k : Nat} : Keeps s0 (s.chooseFrame len k).1 := by
  unfold State.chooseFrame
  repeat' first
    | (intro _; try beta_reduce)
    | with_reducible first | assumption | apply Keeps.ite | apply Keeps.ite1 | apply Keeps.foldl1 | apply State.idleDecision_keeps
    | with_reducible first | apply State.bump_keeps | apply State.widthCheck_keeps | apply State.dropRun_keeps | apply State.setP_keeps
    | with_reducible first | apply State.beginIdle_keeps | apply State.beginTest_keeps | apply State.newFrame_keeps | apply State.beginSwitch_keeps
    | with_reducible first | apply State.beginImage_keeps
    | ((fail_if_no_progress extract_lets +onlyGivenNames x)
       first
        | (refine (?_ : Keeps s0 x → _) ?_; (clear_value x; intro _); on_goal 2 => unfold x)
        | clear_value x)
    | (fail_if_no_progress with_reducible apply Keeps.upd)
    | with_reducible refine Keeps.p1 (by assumption) ?_
    | split

theorem State.pinBoundary_keeps {s0 s : State} (h : Keeps s0 s) : Keeps s0 (s.pinBoundary) := by
  unfold State.pinBoundary
  repeat' first
    | with_reducible first | assumption | apply Keeps.ite | apply State.setPwr_keeps | apply State.wrP_keeps
    | ((fail_if_no_progress extract_lets +onlyGivenNames x)
       first
        | (refine (?_ : Keeps s0 x → _) ?_; (clear_value x; intro _); on_goal 2 => unfold x)
        | clear_value x)
    | (fail_if_no_progress with_reducible apply Keeps.upd)

theorem State.clearIdle_keeps {s0 s : State} (h : Keeps s0 s) : Keeps s0 (s.clearIdle) := by
  unfold State.clearIdle
  repeat' first
    | (intro _; try beta_reduce)
    | with_reducible first | assumption | apply Keeps.ite | apply Keeps.foldl | apply State.setP_keeps | apply State.set64_keeps
    | ((fail_if_no_progress extract_lets +onlyGivenNames x)
       first
        | (refine (?_ : Keeps s0 x → _) ?_; (clear_value x; intro _); on_goal 2 => unfold x)
        | clear_value x)

theorem State.clearServed_keeps {s0 s : State} (h : Keeps s0 s) : Keeps s0 (s.clearServed) := by
  unfold State.clearServed
  repeat' first | (intro _; try beta_reduce) | with_reducible first | assumption | (fail_if_no_progress with_reducible apply Keeps.upd)

theorem State.boundaryWork_keeps {s0 s : State} (h : Keeps s0 s) : Keeps s0 (s.boundaryWork) := by
  unfold State.boundaryWork
  repeat' first
    | (intro _; try beta_reduce)
    | with_reducible first | assumption | apply Keeps.foldl | apply State.clearIdle_keeps | apply State.pinBoundary_keeps
    | with_reducible first | apply State.clearServed_keeps | apply State.linksBoundary_keeps | apply State.retireBoundary_keeps
    | with_reducible first | apply State.ownershipBoundary_keeps | apply State.switchRemap_keeps | apply State.powerBoundary_keeps
    | ((fail_if_no_progress extract_lets +onlyGivenNames x)
       first
        | (refine (?_ : Keeps s0 x → _) ?_; (clear_value x; intro _); on_goal 2 => unfold x)
        | clear_value x)

theorem State.boundary_keeps {s0 : State} {s : State} (h : Keeps s0 s) {carry : List CarryEvent} {tests : List TestEvent}
    : Keeps s0 (s.boundary carry tests).1 := by
  refine Keeps.eq1 (State.boundary.eq_1 s carry tests) ?_
  split
  rename_i t loc e
  have ht : Keeps s0 t := by
    refine Keeps.p1 e (State.chooseFrame_keeps ?_)
    clear e
    exact State.setP_keeps (State.setFleet_keeps (State.set64_keeps (State.boundaryWork_keeps (State.endFrame_keeps h))))
  clear e
  refine State.snapshots_keeps ?_
  with_reducible refine Keeps.foldl (State.setP_keeps (State.setFleet_keeps (State.sendTick_keeps ht))) fun v d hv => ?_
  have hw := State.setP_keeps hv (p := Pg.rch d) (o := Reg.RCH_STAT) (hi := 2) (lo := 2) (v := 1 - v.fldP (Pg.rch d) Reg.RCH_STAT 2 2)
  exact Keeps.ite hw (State.clearRun_keeps hw)

theorem State.reachBoundary_keeps {s0 s : State} (h : Keeps s0 s) : ∀ q, s.reachBoundary = some q → Keeps s0 q := by
  intro q e
  unfold State.reachBoundary at e
  split at e
  · cases e
  · extract_lets x at e
    have hx : Keeps s0 x := Keeps.ite h (State.toBoundary_keeps h)
    split at e
    · cases e
    · exact Option.some.inj e ▸ hx

theorem execFrameBoundary_answers {s0 s : State} (h : Keeps s0 s) {carry : List CarryEvent} {tests : List TestEvent}
    : Answers s0 (execFrameBoundary carry tests s) := by
  unfold execFrameBoundary
  repeat' first
    | with_reducible first | assumption | apply Answers.next | apply Answers.ite | apply Keeps.ite | apply State.begin_keeps
    | with_reducible first | apply State.boundary_keeps | apply State.toBoundary_keeps
    | with_reducible first | refine Keeps.o0 (by assumption) (State.reachBoundary_keeps ?_)
    | ((fail_if_no_progress extract_lets +onlyGivenNames x)
       first
        | (refine (?_ : Keeps s0 x → _) ?_; (clear_value x; intro _); on_goal 2 => unfold x)
        | clear_value x)
    | (fail_if_no_progress with_reducible apply Keeps.upd)
    | split

theorem execLocalIdleInsert_answers {s0 s : State} (h : Keeps s0 s) {carry : List CarryEvent} {tests : List TestEvent}
    : Answers s0 (execLocalIdleInsert carry tests s) := by
  unfold execLocalIdleInsert
  repeat' first
    | with_reducible first | assumption | apply Answers.next | apply Answers.ite | apply Keeps.ite | apply State.begin_keeps
    | with_reducible first | apply State.boundary_keeps | refine Keeps.o0 (by assumption) (State.reachBoundary_keeps ?_)
    | ((fail_if_no_progress extract_lets +onlyGivenNames x)
       first
        | (refine (?_ : Keeps s0 x → _) ?_; (clear_value x; intro _); on_goal 2 => unfold x)
        | clear_value x)
    | (fail_if_no_progress with_reducible apply Keeps.upd)
    | split

theorem execTickLost_answers {s0 s : State} (h : Keeps s0 s) {carry : List CarryEvent} {tests : List TestEvent}
    : Answers s0 (execTickLost carry tests s) := by
  unfold execTickLost
  repeat' first
    | with_reducible first | assumption | apply Answers.next | apply Answers.ite | apply Keeps.ite | apply State.begin_keeps
    | with_reducible first | apply State.boundary_keeps | refine Keeps.o0 (by assumption) (State.reachBoundary_keeps ?_)
    | ((fail_if_no_progress extract_lets +onlyGivenNames x)
       first
        | (refine (?_ : Keeps s0 x → _) ?_; (clear_value x; intro _); on_goal 2 => unfold x)
        | clear_value x)
    | (fail_if_no_progress with_reducible apply Keeps.upd)
    | split

theorem State.takeTick_keeps {s0 s : State} (h : Keeps s0 s) {a : Arrived} : Keeps s0 (s.takeTick a) := by
  unfold State.takeTick
  repeat' first
    | (intro _; try beta_reduce)
    | with_reducible first | assumption | apply Keeps.ite | apply State.bump_keeps | apply State.setP_keeps | apply State.setFrame_keeps
    | with_reducible first | apply State.setFleet_keeps
    | ((fail_if_no_progress extract_lets +onlyGivenNames x)
       first
        | (refine (?_ : Keeps s0 x → _) ?_; (clear_value x; intro _); on_goal 2 => unfold x)
        | clear_value x)
    | (fail_if_no_progress with_reducible apply Keeps.upd)
    | with_reducible refine Keeps.p1 (by assumption) ?_
    | split

theorem execTick_answers {s0 s : State} (h : Keeps s0 s) {t : Nat} : Answers s0 (execTick t s) := by
  unfold execTick
  repeat' first
    | (intro _; try beta_reduce)
    | with_reducible first | assumption | apply Answers.next | apply State.begin_keeps | apply State.passTime_keeps | apply State.onCell_keeps
    | with_reducible first | apply State.takeTick_keeps

theorem execIdleReq_answers {s0 s : State} (h : Keeps s0 s) {t : Nat} : Answers s0 (execIdleReq t s) := by
  unfold execIdleReq
  repeat' first
    | (intro _; try beta_reduce)
    | with_reducible first | assumption | apply Answers.next | apply Answers.ite | apply Keeps.ite | apply State.begin_keeps
    | with_reducible first | apply State.passTime_keeps | apply State.onCell_keeps | apply State.setFab_keeps | apply State.bump_keeps
    | (fail_if_no_progress with_reducible apply Keeps.upd)

theorem execStretchExceeded_answers {s0 s : State} (h : Keeps s0 s) {t : Nat} : Answers s0 (execStretchExceeded t s) := by
  unfold execStretchExceeded
  repeat' first
    | with_reducible first | assumption | apply Answers.next | apply Answers.ite | apply Keeps.ite | apply State.begin_keeps
    | with_reducible first | apply State.passTime_keeps

theorem State.fetchNow_keeps {s0 s : State} (h : Keeps s0 s) {d : Nat} : Keeps s0 (s.fetchNow d) := by
  unfold State.fetchNow
  repeat' first
    | with_reducible first | assumption | apply State.countFetch_keeps | apply State.abortFrame_keeps | apply State.setFrame_keeps
    | with_reducible first | apply State.wake_keeps
    | ((fail_if_no_progress extract_lets +onlyGivenNames x)
       first
        | (refine (?_ : Keeps s0 x → _) ?_; (clear_value x; intro _); on_goal 2 => unfold x)
        | clear_value x)
    | (fail_if_no_progress with_reducible apply Keeps.upd)
    | with_reducible refine Keeps.p1 (by assumption) ?_
    | split

theorem State.fetchNext_keeps {s0 s : State} (h : Keeps s0 s) {d : Nat} : Keeps s0 (s.fetchNext d) := by
  unfold State.fetchNext
  repeat' first
    | with_reducible first | assumption | apply Keeps.ite | apply State.countFetch_keeps | apply State.setFrame_keeps
    | (fail_if_no_progress with_reducible apply Keeps.upd)
    | with_reducible refine Keeps.p1 (by assumption) ?_
    | split

theorem execFetchComplete_answers {s0 s : State} (h : Keeps s0 s) {t : Nat} {die : Fin 4} {errs : List AccessErr}
    : Answers s0 (execFetchComplete t die errs s) := by
  unfold execFetchComplete
  repeat' first
    | with_reducible first | assumption | apply Answers.next | apply Answers.ite | apply Keeps.ite | apply State.begin_keeps
    | with_reducible first | apply State.facing_keeps | apply State.passTime_keeps | apply State.fetchNow_keeps | apply State.fetchNext_keeps
    | ((fail_if_no_progress extract_lets +onlyGivenNames x)
       first
        | (refine (?_ : Keeps s0 x → _) ?_; (clear_value x; intro _); on_goal 2 => unfold x)
        | clear_value x)

/-! ## BringUp -/

theorem State.setPhase_keeps {s0 s : State} (h : Keeps s0 s) {p : Phase} : Keeps s0 (s.setPhase p) := by
  unfold State.setPhase
  repeat' first | with_reducible first | assumption | (fail_if_no_progress with_reducible apply Keeps.upd)

theorem State.strapSettle_keeps {s0 s : State} (h : Keeps s0 s) {settle : Nat} : Keeps s0 (s.strapSettle settle) := by
  unfold State.strapSettle
  repeat' first | with_reducible first | assumption | apply State.setP_keeps

theorem State.unpowered_keeps {s0 s : State} (h : Keeps s0 s) {p : Phase} : Keeps s0 (s.unpowered p) := Keeps.of h (fun _ => rfl)
    (fun _ => rfl) rfl rfl

theorem execPowerUp_answers {s0 s : State} (h : Keeps s0 s) {t : Nat} {settle : Fin 8} {nodeboot release puf : Bool}
    : Answers s0 (execPowerUp t settle nodeboot release puf s) := by
  unfold execPowerUp
  repeat' first
    | with_reducible first | assumption | apply Answers.next | apply Answers.ite | apply Keeps.ite | apply State.begin_keeps
    | with_reducible first | apply State.unpowered_keeps | apply State.setSec_keeps | apply State.strapSettle_keeps
    | ((fail_if_no_progress extract_lets +onlyGivenNames x)
       first
        | (refine (?_ : Keeps s0 x → _) ?_; (clear_value x; intro _); on_goal 2 => unfold x)
        | clear_value x)
    | (fail_if_no_progress with_reducible apply Keeps.upd)

theorem execVinRemoval_answers {s0 s : State} (h : Keeps s0 s) {t : Nat} : Answers s0 (execVinRemoval t s) := by
  unfold execVinRemoval
  repeat' first
    | with_reducible first | assumption | apply Answers.next | apply State.begin_keeps | apply State.passTime_keeps | apply State.unpowered_keeps

theorem execModResetAssert_answers {s0 s : State} (h : Keeps s0 s) {t : Nat} : Answers s0 (execModResetAssert t s) := by
  unfold execModResetAssert
  repeat' first
    | (intro _; try beta_reduce)
    | with_reducible first | assumption | apply Answers.next | apply Answers.ite | apply Keeps.ite | apply State.begin_keeps
    | with_reducible first | apply State.passTime_keeps | apply State.dropRails_keeps | apply State.fresh_keeps
    | ((fail_if_no_progress extract_lets +onlyGivenNames x)
       first
        | (refine (?_ : Keeps s0 x → _) ?_; (clear_value x; intro _); on_goal 2 => unfold x)
        | clear_value x)
    | with_reducible apply Keeps.updRegs (Sparse.filter_wf _)
    | (fail_if_no_progress with_reducible apply Keeps.upd)

theorem execModResetRelease_answers {s0 s : State} (h : Keeps s0 s) {t : Nat} {settle : Fin 8} {nodeboot : Bool}
    : Answers s0 (execModResetRelease t settle nodeboot s) := by
  unfold execModResetRelease
  repeat' first
    | with_reducible first | assumption | apply Answers.next | apply Answers.ite | apply Keeps.ite | apply State.begin_keeps
    | with_reducible first | apply State.passTime_keeps | apply State.strapSettle_keeps
    | ((fail_if_no_progress extract_lets +onlyGivenNames x)
       first
        | (refine (?_ : Keeps s0 x → _) ?_; (clear_value x; intro _); on_goal 2 => unfold x)
        | clear_value x)
    | (fail_if_no_progress with_reducible apply Keeps.upd)

theorem execSettleDelayExpiry_answers {s0 s : State} (h : Keeps s0 s) {t : Nat} : Answers s0 (execSettleDelayExpiry t s) := by
  unfold execSettleDelayExpiry
  repeat' first
    | (intro _; try beta_reduce)
    | with_reducible first | assumption | apply Answers.next | apply Answers.ite | apply Keeps.ite | apply Keeps.foldl | apply State.begin_keeps
    | with_reducible first | apply State.passTime_keeps | apply State.setP_keeps | apply State.setPhase_keeps
    | ((fail_if_no_progress extract_lets +onlyGivenNames x)
       first
        | (refine (?_ : Keeps s0 x → _) ?_; (clear_value x; intro _); on_goal 2 => unfold x)
        | clear_value x)

theorem execRailSequence_answers {s0 s : State} (h : Keeps s0 s) {t vin : Nat} {flow : Bool} : Answers s0 (execRailSequence t vin flow s) := by
  unfold execRailSequence
  repeat' first
    | with_reducible first | assumption | apply Answers.next | apply Answers.ite | apply Keeps.ite | apply State.begin_keeps
    | with_reducible first | apply State.passTime_keeps | apply State.setPhase_keeps
    | ((fail_if_no_progress extract_lets +onlyGivenNames x)
       first
        | (refine (?_ : Keeps s0 x → _) ?_; (clear_value x; intro _); on_goal 2 => unfold x)
        | clear_value x)
    | (fail_if_no_progress with_reducible apply Keeps.upd)

theorem State.loadMap_keeps {s0 s : State} (h : Keeps s0 s) {f : BootFinds} : Keeps s0 (s.loadMap f) := by
  unfold State.loadMap
  repeat' first
    | with_reducible first | assumption | apply Keeps.ite | apply State.raise_keeps | apply State.authFailed_keeps
    | ((fail_if_no_progress extract_lets +onlyGivenNames x)
       first
        | (refine (?_ : Keeps s0 x → _) ?_; (clear_value x; intro _); on_goal 2 => unfold x)
        | clear_value x)
    | (fail_if_no_progress with_reducible apply Keeps.upd)

theorem State.mapTillers_keeps {s0 s : State} (h : Keeps s0 s) : Keeps s0 (s.mapTillers) := by
  unfold State.mapTillers
  repeat' first
    | (intro _; try beta_reduce)
    | with_reducible first | assumption | apply Keeps.ite | apply Keeps.foldl | apply State.retireNow_keeps | apply State.bump_keeps
    | ((fail_if_no_progress extract_lets +onlyGivenNames x)
       first
        | (refine (?_ : Keeps s0 x → _) ?_; (clear_value x; intro _); on_goal 2 => unfold x)
        | clear_value x)

theorem State.mapStack_keeps {s0 s : State} (h : Keeps s0 s) {k : Nat} : Keeps s0 (s.mapStack k) := by
  unfold State.mapStack
  repeat' first
    | (intro _; try beta_reduce)
    | with_reducible first | assumption | apply Keeps.ite | apply Keeps.foldl | apply State.applyStackRepairs_keeps | apply State.lose_keeps
    | with_reducible first | apply State.loseChannel_keeps
    | ((fail_if_no_progress extract_lets +onlyGivenNames x)
       first
        | (refine (?_ : Keeps s0 x → _) ?_; (clear_value x; intro _); on_goal 2 => unfold x)
        | clear_value x)

theorem State.loadRules_keeps {s0 s : State} (h : Keeps s0 s) : Keeps s0 (s.loadRules) := by
  unfold State.loadRules
  repeat' first
    | (intro _; try beta_reduce)
    | with_reducible first | assumption | apply Keeps.ite | apply Keeps.foldl | apply State.wr_keeps | apply State.setP_keeps
    | with_reducible first | apply State.stbSync_keeps
    | ((fail_if_no_progress extract_lets +onlyGivenNames x)
       first
        | (refine (?_ : Keeps s0 x → _) ?_; (clear_value x; intro _); on_goal 2 => unfold x)
        | clear_value x)

theorem State.haltBoot_keeps {s0 s : State} (h : Keeps s0 s) {step : Nat} : Keeps s0 (s.haltBoot step) := by
  unfold State.haltBoot
  repeat' first | with_reducible first | assumption | apply State.setP_keeps | apply State.setPhase_keeps

theorem State.recover_keeps {s0 s : State} (h : Keeps s0 s) : Keeps s0 (s.recover) := by
  unfold State.recover
  repeat' first | with_reducible first | assumption | apply State.setP_keeps | apply State.setPhase_keeps

theorem State.setReady_keeps {s0 s : State} (h : Keeps s0 s) : Keeps s0 (s.setReady) := by
  unfold State.setReady
  repeat' first
    | with_reducible first | assumption | apply State.setPhase_keeps | apply State.setP_keeps | apply State.setInt_keeps
    | ((fail_if_no_progress extract_lets +onlyGivenNames x)
       first
        | (refine (?_ : Keeps s0 x → _) ?_; (clear_value x; intro _); on_goal 2 => unfold x)
        | clear_value x)

theorem State.startGranary_keeps {s0 s : State} (h : Keeps s0 s) {cold : Bool} {f : BootFinds} : Keeps s0 (s.startGranary cold f) := by
  unfold State.startGranary
  repeat' first
    | (intro _; try beta_reduce)
    | with_reducible first | assumption | apply Keeps.ite | apply Keeps.foldl | apply State.setGrn_keeps | apply State.fresh_keeps
    | with_reducible first | apply State.flashFail_keeps | apply State.setP_keeps
    | ((fail_if_no_progress extract_lets +onlyGivenNames x)
       first
        | (refine (?_ : Keeps s0 x → _) ?_; (clear_value x; intro _); on_goal 2 => unfold x)
        | clear_value x)
    | (fail_if_no_progress with_reducible apply Keeps.upd)

theorem State.seedAll_keeps {s0 s : State} (h : Keeps s0 s) {f : BootFinds} : Keeps s0 (s.seedAll f) := by
  unfold State.seedAll
  repeat' first
    | (intro _; try beta_reduce)
    | with_reducible first | assumption | apply Keeps.foldl | apply State.seedEngine_keeps
    | ((fail_if_no_progress extract_lets +onlyGivenNames x)
       first
        | (refine (?_ : Keeps s0 x → _) ?_; (clear_value x; intro _); on_goal 2 => unfold x)
        | clear_value x)

theorem State.bringUp_keeps {s0 s : State} (h : Keeps s0 s) {cold : Bool} {f : BootFinds} : Keeps s0 (s.bringUp cold f) := by
  unfold State.bringUp
  repeat' first
    | (intro _; try beta_reduce)
    | with_reducible first | assumption | apply Keeps.ite | apply Keeps.foldl | apply State.setDom_keeps | apply State.loadMap_keeps
    | with_reducible first | apply State.mapTillers_keeps | apply State.linkTrainStart_keeps | apply State.linkTrainEnd_keeps
    | with_reducible first | apply State.mapStack_keeps | apply State.selfTest_keeps | apply State.portTrain_keeps | apply State.startGranary_keeps
    | with_reducible first | apply State.seedAll_keeps | apply State.loadRules_keeps | apply State.setP_keeps | apply State.setPhase_keeps
    | with_reducible first | apply State.setReady_keeps
    | ((fail_if_no_progress extract_lets +onlyGivenNames x)
       first
        | (refine (?_ : Keeps s0 x → _) ?_; (clear_value x; intro _); on_goal 2 => unfold x)
        | clear_value x)

theorem State.runCopy_keeps {s0 s : State} (h : Keeps s0 s) {b cold : Bool} {f : BootFinds} : Keeps s0 (s.runCopy b cold f) := by
  unfold State.runCopy
  repeat' first
    | with_reducible first | assumption | apply Keeps.ite | apply State.setSec_keeps | apply State.setP_keeps | apply State.wrP_keeps
    | with_reducible first | apply State.setInt_keeps | apply State.bringUp_keeps
    | ((fail_if_no_progress extract_lets +onlyGivenNames x)
       first
        | (refine (?_ : Keeps s0 x → _) ?_; (clear_value x; intro _); on_goal 2 => unfold x)
        | clear_value x)
    | (fail_if_no_progress with_reducible apply Keeps.upd)
    | split

theorem State.copyFails_keeps {s0 s : State} (h : Keeps s0 s) {b : Bool} {cause : Nat} : Keeps s0 (s.copyFails b cause) := by
  unfold State.copyFails
  repeat' first | with_reducible first | assumption | apply Keeps.ite | apply State.setP_keeps | apply State.authFailed_keeps

theorem State.bootRun_keeps {s0 s : State} (h : Keeps s0 s) {cold : Bool} {f : BootFinds} : Keeps s0 (s.bootRun cold f) := by
  unfold State.bootRun
  repeat' first
    | with_reducible first | assumption | apply Keeps.ite | apply State.raise_keeps | apply State.authFailed_keeps | apply State.haltBoot_keeps
    | with_reducible first | apply State.setP_keeps | apply State.newSecNonce_keeps | apply State.newHoNonce_keeps | apply State.recover_keeps
    | with_reducible first | apply State.runCopy_keeps | apply State.copyFails_keeps
    | ((fail_if_no_progress extract_lets +onlyGivenNames x)
       first
        | (refine (?_ : Keeps s0 x → _) ?_; (clear_value x; intro _); on_goal 2 => unfold x)
        | clear_value x)

theorem execBoot_answers {s0 s : State} (h : Keeps s0 s) {t : Nat} {finds : BootFinds} : Answers s0 (execBoot t finds s) := by
  unfold execBoot
  repeat' first
    | with_reducible first | assumption | apply Answers.next | apply Answers.ite | apply Keeps.ite | apply State.begin_keeps
    | with_reducible first | apply State.passTime_keeps | apply State.bootRun_keeps
    | ((fail_if_no_progress extract_lets +onlyGivenNames x)
       first
        | (refine (?_ : Keeps s0 x → _) ?_; (clear_value x; intro _); on_goal 2 => unfold x)
        | clear_value x)

theorem execEntropyTestPass_answers {s0 s : State} (h : Keeps s0 s) {t : Nat} : Answers s0 (execEntropyTestPass t s) := by
  unfold execEntropyTestPass
  repeat' first
    | with_reducible first | assumption | apply Answers.next | apply Answers.ite | apply Keeps.ite | apply State.begin_keeps
    | with_reducible first | apply State.passTime_keeps | apply State.entropyBack_keeps | apply State.setReady_keeps
    | ((fail_if_no_progress extract_lets +onlyGivenNames x)
       first
        | (refine (?_ : Keeps s0 x → _) ?_; (clear_value x; intro _); on_goal 2 => unfold x)
        | clear_value x)

theorem State.standbyReject_keeps {s0 s : State} (h : Keeps s0 s) {port : Nat} : Keeps s0 (s.standbyReject port) := by
  unfold State.standbyReject
  repeat' first | with_reducible first | assumption | apply State.bump_keeps | apply State.deny_keeps | apply State.reported_keeps

theorem State.keepHeld_keeps {s0 s : State} (h : Keeps s0 s) : Keeps s0 (s.keepHeld) := by
  unfold State.keepHeld
  repeat' first | (intro _; try beta_reduce) | with_reducible first | assumption | apply Keeps.ite | apply Keeps.foldl | apply State.setP_keeps

theorem State.warmReset_keeps {s0 s : State} (h : Keeps s0 s) : Keeps s0 (s.warmReset) := by
  unfold State.warmReset
  repeat' first
    | (intro _; try beta_reduce)
    | with_reducible first | assumption | apply Keeps.ite | apply Keeps.foldl | apply State.passOwnership_keeps | apply State.fogRange_keeps
    | with_reducible first | apply State.loseDomain_keeps | apply State.flushMaps_keeps | apply State.pcieDown_keeps | apply State.lose_keeps
    | with_reducible first | apply State.keepHeld_keeps | apply State.fresh_keeps
    | ((fail_if_no_progress extract_lets +onlyGivenNames x)
       first
        | (refine (?_ : Keeps s0 x → _) ?_; (clear_value x; intro _); on_goal 2 => unfold x)
        | clear_value x)
    | with_reducible apply Keeps.updRegs warmRegs_wf
    | (fail_if_no_progress with_reducible apply Keeps.upd)
    | split

theorem execWarmReset_answers {s0 s : State} (h : Keeps s0 s) {t : Nat} {port : Fin 2} {tap : Bool} {finds : BootFinds}
    : Answers s0 (execWarmReset t port tap finds s) := by
  unfold execWarmReset
  repeat' first
    | with_reducible first | assumption | apply Answers.next | apply Answers.ite | apply Keeps.ite | apply State.begin_keeps
    | with_reducible first | apply State.passTime_keeps | apply State.standbyReject_keeps | apply State.warmReset_keeps | apply State.bootRun_keeps
    | ((fail_if_no_progress extract_lets +onlyGivenNames x)
       first
        | (refine (?_ : Keeps s0 x → _) ?_; (clear_value x; intro _); on_goal 2 => unfold x)
        | clear_value x)
    | (fail_if_no_progress with_reducible apply Keeps.upd)

theorem execVinLow_answers {s0 s : State} (h : Keeps s0 s) {t : Nat} : Answers s0 (execVinLow t s) := by
  unfold execVinLow
  repeat' first
    | (intro _; try beta_reduce)
    | with_reducible first | assumption | apply Answers.next | apply Answers.ite | apply Keeps.ite | apply Keeps.foldl | apply State.begin_keeps
    | with_reducible first | apply State.passTime_keeps | apply State.dropRails_keeps | apply State.wrP_keeps | apply State.setP_keeps
    | with_reducible first | apply State.setPhase_keeps
    | ((fail_if_no_progress extract_lets +onlyGivenNames x)
       first
        | (refine (?_ : Keeps s0 x → _) ?_; (clear_value x; intro _); on_goal 2 => unfold x)
        | clear_value x)

theorem execRefLost_answers {s0 s : State} (h : Keeps s0 s) {t : Nat} {pll : Option (Fin 27)} : Answers s0 (execRefLost t pll s) := by
  unfold execRefLost
  repeat' first
    | (intro _; try beta_reduce)
    | with_reducible first | assumption | apply Answers.next | apply Answers.ite | apply Keeps.ite | apply Keeps.foldl | apply State.begin_keeps
    | with_reducible first | apply State.passTime_keeps | apply State.setP_keeps | apply State.abortFrame_keeps | apply State.raise_keeps
    | with_reducible first | apply State.setPort_keeps | apply State.portSync_keeps | apply State.pcieDown_keeps | apply State.bump_keeps
    | with_reducible first | apply State.set64_keeps | apply State.setPwr_keeps | apply State.setInt_keeps
    | ((fail_if_no_progress extract_lets +onlyGivenNames x)
       first
        | (refine (?_ : Keeps s0 x → _) ?_; (clear_value x; intro _); on_goal 2 => unfold x)
        | clear_value x)
    | (fail_if_no_progress with_reducible apply Keeps.upd)
    | split

theorem execReferenceRelock_answers {s0 s : State} (h : Keeps s0 s) {t : Nat} : Answers s0 (execReferenceRelock t s) := by
  unfold execReferenceRelock
  repeat' first
    | (intro _; try beta_reduce)
    | with_reducible first | assumption | apply Answers.next | apply Answers.ite | apply Keeps.ite | apply Keeps.foldl | apply State.begin_keeps
    | with_reducible first | apply State.passTime_keeps | apply State.setP_keeps | apply State.bump_keeps | apply State.setPwr_keeps
    | with_reducible first | apply State.setInt_keeps | apply State.portTrain_keeps | apply State.setDom_keeps | apply State.setFrame_keeps
    | ((fail_if_no_progress extract_lets +onlyGivenNames x)
       first
        | (refine (?_ : Keeps s0 x → _) ?_; (clear_value x; intro _); on_goal 2 => unfold x)
        | clear_value x)
    | (fail_if_no_progress with_reducible apply Keeps.upd)
    | split

end Sys2Proof.Machine
end

