-- ==== Sys2Proof/Laws/KeepsAccess.lean ====
section
/-!
SUPPORT. What every command keeps, kept by the accesses of BAR0, register writes, transfers and management.
-/
namespace Sys2Proof.Machine

set_option Elab.async false
set_option linter.unreachableTactic false
set_option linter.unusedTactic false
set_option linter.unusedVariables false

/-! ## Bus -/

theorem State.denyVia_keeps {s0 s : State} (h : Keeps s0 s) {via : Via} {d : Denial} : Keeps s0 (s.denyVia via d) := by
  unfold State.denyVia
  repeat' first
    | with_reducible first | assumption | apply Keeps.ite | apply State.raise_keeps | apply State.deny_keeps | apply State.reported_keeps
    | (fail_if_no_progress with_reducible apply Keeps.upd)
    | split

theorem State.readWord_keeps {s0 s : State} (h : Keeps s0 s) {via : Via} {off : Nat} : Keeps s0 (s.readWord via off).2 := by
  unfold State.readWord
  repeat' first
    | (intro _; try beta_reduce)
    | with_reducible first | assumption | apply Keeps.ite | apply State.wr_keeps
    | ((fail_if_no_progress extract_lets +onlyGivenNames x)
       first
        | (refine (?_ : Keeps s0 x → _) ?_; (clear_value x; intro _); on_goal 2 => unfold x)
        | clear_value x)
    | (fail_if_no_progress with_reducible apply Keeps.upd)
    | with_reducible refine Keeps.p1 (by assumption) ?_
    | split

theorem State.busRead_keeps {s0 s : State} (h : Keeps s0 s) {via : Via} {off : Nat} : Keeps s0 (s.busRead via off) := by
  unfold State.busRead
  repeat' first
    | with_reducible first | assumption | apply Keeps.ite | apply State.denyVia_keeps | apply State.readWord_keeps
    | ((fail_if_no_progress extract_lets +onlyGivenNames x)
       first
        | (refine (?_ : Keeps s0 x → _) ?_; (clear_value x; intro _); on_goal 2 => unfold x)
        | clear_value x)
    | (fail_if_no_progress with_reducible apply Keeps.upd)
    | with_reducible refine Keeps.p1 (by assumption) ?_
    | split

theorem State.plainWrite_keeps {s0 s : State} (h : Keeps s0 s) {p : Page} {o : Nat} {v : Word} : Keeps s0 (s.plainWrite p o v) := by
  unfold State.plainWrite
  repeat' first
    | with_reducible first | assumption | apply Keeps.ite | apply State.deny_keeps | apply State.wrP_keeps
    | ((fail_if_no_progress extract_lets +onlyGivenNames x)
       first
        | (refine (?_ : Keeps s0 x → _) ?_; (clear_value x; intro _); on_goal 2 => unfold x)
        | clear_value x)
    | (fail_if_no_progress with_reducible apply Keeps.upd)
    | split

theorem State.writeRefused_keeps {s0 s : State} (h : Keeps s0 s) {p : Page} : Keeps s0 (s.writeRefused p) := by
  unfold State.writeRefused
  repeat' first | with_reducible first | assumption | apply State.deny_keeps

theorem State.headerWrite_keeps {s0 s : State} (h : Keeps s0 s) {p : Page} {o : Nat} {v : Word} : Keeps s0 (s.headerWrite p o v) := by
  unfold State.headerWrite
  repeat' first
    | with_reducible first | assumption | apply Keeps.ite | apply State.setP_keeps | apply State.setInts_keeps | apply State.requestPower_keeps
    | with_reducible first | apply State.plainWrite_keeps
    | (fail_if_no_progress with_reducible apply Keeps.upd)
    | split

theorem State.hubWrite_keeps {s0 s : State} (h : Keeps s0 s) {via : Via} {o : Nat} {v : Word} : Keeps s0 (s.hubWrite via o v) := by
  unfold State.hubWrite
  repeat' first
    | with_reducible first | assumption | apply Keeps.ite | apply State.writeRefused_keeps | apply State.warmReset_keeps
    | with_reducible first | apply State.plainWrite_keeps
    | ((fail_if_no_progress extract_lets +onlyGivenNames x)
       first
        | (refine (?_ : Keeps s0 x → _) ?_; (clear_value x; intro _); on_goal 2 => unfold x)
        | clear_value x)
    | (fail_if_no_progress with_reducible apply Keeps.upd)
    | split

theorem State.stbWrite_keeps {s0 s : State} (h : Keeps s0 s) {o : Nat} {v : Word} : Keeps s0 (s.stbWrite o v) := by
  unfold State.stbWrite
  repeat' first
    | with_reducible first | assumption | apply Keeps.ite | apply State.sendWakes_keeps | apply State.plainWrite_keeps | apply State.stbSync_keeps

theorem State.pcieWrite_keeps {s0 s : State} (h : Keeps s0 s) {via : Via} {n o : Nat} {v : Word} : Keeps s0 (s.pcieWrite via n o v) := by
  unfold State.pcieWrite
  repeat' first
    | with_reducible first | assumption | apply Keeps.ite | apply State.handoverGo_keeps | apply State.ringCfg_keeps | apply State.ringBase_keeps
    | with_reducible first | apply State.ringTail_keeps | apply State.plainWrite_keeps
    | ((fail_if_no_progress extract_lets +onlyGivenNames x)
       first
        | (refine (?_ : Keeps s0 x → _) ?_; (clear_value x; intro _); on_goal 2 => unfold x)
        | clear_value x)

theorem State.fabWrite_keeps {s0 s : State} (h : Keeps s0 s) {n o : Nat} {v : Word} : Keeps s0 (s.fabWrite n o v) := by
  unfold State.fabWrite
  repeat' first
    | (intro _; try beta_reduce)
    | with_reducible first | assumption | apply Keeps.ite | apply Keeps.foldl | apply State.plainWrite_keeps | apply State.setP_keeps
    | with_reducible first | apply State.portTrain_keeps | apply State.portSync_keeps | apply State.writeRefused_keeps
    | ((fail_if_no_progress extract_lets +onlyGivenNames x)
       first
        | (refine (?_ : Keeps s0 x → _) ?_; (clear_value x; intro _); on_goal 2 => unfold x)
        | clear_value x)

theorem State.rteWrite_keeps {s0 s : State} (h : Keeps s0 s) {o : Nat} {v : Word} : Keeps s0 (s.rteWrite o v) := by
  unfold State.rteWrite
  repeat' first
    | with_reducible first | assumption | apply Keeps.ite | apply State.plainWrite_keeps | apply State.writeRefused_keeps | apply State.echoGo_keeps
    | with_reducible first | apply State.mgmtGo_keeps | apply State.mgmtPop_keeps
    | ((fail_if_no_progress extract_lets +onlyGivenNames x)
       first
        | (refine (?_ : Keeps s0 x → _) ?_; (clear_value x; intro _); on_goal 2 => unfold x)
        | clear_value x)

theorem State.tradeWrite_keeps {s0 s : State} (h : Keeps s0 s) {o : Nat} {v : Word} : Keeps s0 (s.tradeWrite o v) := by
  unfold State.tradeWrite
  repeat' first
    | with_reducible first | assumption | apply Keeps.ite | apply State.writeRefused_keeps | apply State.plainWrite_keeps
    | with_reducible first | apply State.seedCommand_keeps
    | ((fail_if_no_progress extract_lets +onlyGivenNames x)
       first
        | (refine (?_ : Keeps s0 x → _) ?_; (clear_value x; intro _); on_goal 2 => unfold x)
        | clear_value x)

theorem State.drasWriteReg_keeps {s0 s : State} (h : Keeps s0 s) {d o : Nat} {v : Word} {f : DrasFind} : Keeps s0 (s.drasWriteReg d o v f) := by
  unfold State.drasWriteReg
  repeat' first
    | with_reducible first | assumption | apply Keeps.ite | apply State.drasCommand_keeps | apply State.deny_keeps | apply State.plainWrite_keeps
    | ((fail_if_no_progress extract_lets +onlyGivenNames x)
       first
        | (refine (?_ : Keeps s0 x → _) ?_; (clear_value x; intro _); on_goal 2 => unfold x)
        | clear_value x)

theorem State.recount_keeps {s0 s : State} (h : Keeps s0 s) {o : Nat} : Keeps s0 (s.recount o) := by
  unfold State.recount
  repeat' first
    | (intro _; try beta_reduce)
    | with_reducible first | assumption | apply Keeps.ite
    | (fail_if_no_progress with_reducible apply Keeps.upd)

theorem State.pageWrite_keeps {s0 s : State} (h : Keeps s0 s) {via : Via} {p : Page} {o : Nat} {v : Word} {f : DrasFind}
    : Keeps s0 (s.pageWrite via p o v f) := by
  unfold State.pageWrite
  repeat' first
    | with_reducible first | assumption | apply Keeps.ite | apply State.hubWrite_keeps | apply State.secCommand_keeps | apply State.plainWrite_keeps
    | with_reducible first | apply State.stbWrite_keeps | apply State.recount_keeps | apply State.pcieWrite_keeps | apply State.fabWrite_keeps
    | with_reducible first | apply State.rteWrite_keeps | apply State.grnCommand_keeps | apply State.tradeWrite_keeps | apply State.ringControl_keeps
    | with_reducible first | apply State.ringHdrWrite_keeps | apply State.drasWriteReg_keeps
    | (fail_if_no_progress with_reducible apply Keeps.upd)
    | split

theorem State.collTableWrite_keeps {s0 s : State} (h : Keeps s0 s) {off o : Nat} {v : Word} : Keeps s0 (s.collTableWrite off o v) := by
  unfold State.collTableWrite
  repeat' first
    | (intro _; try beta_reduce)
    | with_reducible first | assumption | apply Keeps.ite | apply State.deny_keeps | apply State.wr_keeps
    | ((fail_if_no_progress extract_lets +onlyGivenNames x)
       first
        | (refine (?_ : Keeps s0 x → _) ?_; (clear_value x; intro _); on_goal 2 => unfold x)
        | clear_value x)

theorem State.stbWindowWrite_keeps {s0 s : State} (h : Keeps s0 s) {off : Nat} {v : Word} : Keeps s0 (s.stbWindowWrite off v) := by
  unfold State.stbWindowWrite
  repeat' first | with_reducible first | assumption | apply Keeps.ite | apply State.deny_keeps | apply State.wr_keeps

theorem State.domainWrite_keeps {s0 s : State} (h : Keeps s0 s) {off n : Nat} {v : Word} : Keeps s0 (s.domainWrite off n v) := by
  unfold State.domainWrite
  repeat' first
    | with_reducible first | assumption | apply Keeps.ite | apply State.wr_keeps | apply State.requestPower_keeps
    | ((fail_if_no_progress extract_lets +onlyGivenNames x)
       first
        | (refine (?_ : Keeps s0 x → _) ?_; (clear_value x; intro _); on_goal 2 => unfold x)
        | clear_value x)

theorem State.windowWrite_keeps {s0 s : State} (h : Keeps s0 s) {w : Window} {off o : Nat} {v : Word} : Keeps s0 (s.windowWrite w off o v) := by
  unfold State.windowWrite
  repeat' first
    | with_reducible first | assumption | apply Keeps.ite | apply State.wr_keeps | apply State.wake_keeps | apply State.signal_keeps
    | with_reducible first | apply State.collTableWrite_keeps | apply State.domainWrite_keeps | apply State.stbWindowWrite_keeps
    | (fail_if_no_progress with_reducible apply Keeps.upd)
    | split

theorem State.writeWord_keeps {s0 s : State} (h : Keeps s0 s) {via : Via} {off : Nat} {v : Word} {f : DrasFind} : Keeps s0 (s.writeWord via off v f)
    := by
  unfold State.writeWord
  repeat' first
    | with_reducible first | assumption | apply Keeps.ite | apply State.headerWrite_keeps | apply State.pageWrite_keeps
    | with_reducible first | apply State.windowWrite_keeps
    | (fail_if_no_progress with_reducible apply Keeps.upd)
    | with_reducible refine Keeps.p1 (by assumption) ?_
    | split

theorem State.tapRefusal_keeps {s0 s : State} (h : Keeps s0 s) {after : State} (ha : Keeps s0 after) : Keeps s0 (s.tapRefusal after) := by
  unfold State.tapRefusal
  split
  · exact State.deny_keeps h
  · exact ha

theorem State.busWrite_keeps {s0 s : State} (h : Keeps s0 s) {via : Via} {off : Nat} {v : Word} {f : DrasFind} : Keeps s0 (s.busWrite via off v f)
    := by
  unfold State.busWrite
  repeat' first
    | with_reducible first | assumption | apply Keeps.ite | apply State.standbyReject_keeps | apply State.denyVia_keeps | apply State.writeWord_keeps
    | with_reducible first | apply State.tapRefusal_keeps | apply State.reported_keeps
    | ((fail_if_no_progress extract_lets +onlyGivenNames x)
       first
        | (refine (?_ : Keeps s0 x → _) ?_; (clear_value x; intro _); on_goal 2 => unfold x)
        | clear_value x)
    | (fail_if_no_progress with_reducible apply Keeps.upd)
    | split

theorem State.busReadN_keeps {s0 s : State} (h : Keeps s0 s) {via : Via} {off n : Nat} : Keeps s0 (s.busReadN via off n) := by
  unfold State.busReadN
  repeat' first
    | with_reducible first | assumption | apply Keeps.ite | apply State.denyVia_keeps | apply State.busRead_keeps
    | ((fail_if_no_progress extract_lets +onlyGivenNames x)
       first
        | (refine (?_ : Keeps s0 x → _) ?_; (clear_value x; intro _); on_goal 2 => unfold x)
        | clear_value x)
    | (fail_if_no_progress with_reducible apply Keeps.upd)
    | split

theorem State.busWriteN_keeps {s0 s : State} (h : Keeps s0 s) {via : Via} {off : Nat} {v : BitVec 64} {n : Nat} : Keeps s0 (s.busWriteN via off v n)
    := by
  unfold State.busWriteN
  repeat' first
    | with_reducible first | assumption | apply Keeps.ite | apply State.standbyReject_keeps | apply State.denyVia_keeps | apply State.busWrite_keeps
    | ((fail_if_no_progress extract_lets +onlyGivenNames x)
       first
        | (refine (?_ : Keeps s0 x → _) ?_; (clear_value x; intro _); on_goal 2 => unfold x)
        | clear_value x)
    | (fail_if_no_progress with_reducible apply Keeps.upd)
    | split

theorem State.portWrite_keeps {s0 s : State} (h : Keeps s0 s) {t port off : Nat} {v : Word} : Keeps s0 (s.portWrite t port off v) := by
  unfold State.portWrite
  repeat' first | with_reducible first | assumption | apply State.begin_keeps | apply State.passTime_keeps | apply State.busWrite_keeps

theorem State.pagePortWrite_keeps {s0 s : State} (h : Keeps s0 s) {t port : Nat} {p : Page} {o : Nat} {v : Word}
    : Keeps s0 (s.pagePortWrite t port p o v) := by
  unfold State.pagePortWrite
  repeat' first | with_reducible first | assumption | apply State.portWrite_keeps

/-! ## Writes -/

theorem execRegisterWrite_answers {s0 s : State} (h : Keeps s0 s) {t : Nat} {port : Fin 2} {off : BitVec 26} {v : BitVec 64} {n : Nat}
    : Answers s0 (execRegisterWrite t port off v n s) := by
  unfold execRegisterWrite
  repeat' first
    | with_reducible first | assumption | apply Answers.next | apply State.begin_keeps | apply State.passTime_keeps | apply State.busWriteN_keeps

theorem execCounterLoRead_answers {s0 s : State} (h : Keeps s0 s) {t : Nat} {port : Fin 2} {off : BitVec 26} {n : Nat}
    : Answers s0 (execCounterLoRead t port off n s) := by
  unfold execCounterLoRead
  repeat' first
    | with_reducible first | assumption | apply Answers.next | apply State.begin_keeps | apply State.passTime_keeps | apply State.busReadN_keeps

theorem execErrRearm_answers {s0 s : State} (h : Keeps s0 s) {t : Nat} {port : Fin 2} {off : BitVec 26} : Answers s0 (execErrRearm t port off s) := by
  unfold execErrRearm
  repeat' first | with_reducible first | assumption | apply Answers.next | apply State.portWrite_keeps

theorem execLock_answers {s0 s : State} (h : Keeps s0 s) {t : Nat} {port : Fin 2} {off : BitVec 26} : Answers s0 (execLock t port off s) := by
  unfold execLock
  repeat' first | with_reducible first | assumption | apply Answers.next | apply State.portWrite_keeps

theorem execFrameLenWrite_answers {s0 s : State} (h : Keeps s0 s) {t : Nat} {port : Fin 2} {v : BitVec 32}
    : Answers s0 (execFrameLenWrite t port v s) := by
  unfold execFrameLenWrite
  repeat' first | with_reducible first | assumption | apply Answers.next | apply State.pagePortWrite_keeps

theorem execTickDelayWrite_answers {s0 s : State} (h : Keeps s0 s) {t : Nat} {port : Fin 2} {v : BitVec 32}
    : Answers s0 (execTickDelayWrite t port v s) := by
  unfold execTickDelayWrite
  repeat' first | with_reducible first | assumption | apply Answers.next | apply State.pagePortWrite_keeps

theorem execSqTailWrite_answers {s0 s : State} (h : Keeps s0 s) {t : Nat} {port : Fin 2} {ring : Fin 16} {v : BitVec 32}
    : Answers s0 (execSqTailWrite t port ring v s) := by
  unfold execSqTailWrite
  repeat' first | with_reducible first | assumption | apply Answers.next | apply State.pagePortWrite_keeps

theorem execRingEnable_answers {s0 s : State} (h : Keeps s0 s) {t : Nat} {port : Fin 2} {ring : Fin 16} {cq : Bool} {v : BitVec 32}
    : Answers s0 (execRingEnable t port ring cq v s) := by
  unfold execRingEnable
  repeat' first | with_reducible first | assumption | apply Answers.next | apply Answers.ite | apply Keeps.ite | apply State.pagePortWrite_keeps

theorem execCqHeadWrite_answers {s0 s : State} (h : Keeps s0 s) {t : Nat} {port : Fin 2} {ring : Fin 16} {v : BitVec 32}
    : Answers s0 (execCqHeadWrite t port ring v s) := by
  unfold execCqHeadWrite
  repeat' first | with_reducible first | assumption | apply Answers.next | apply State.pagePortWrite_keeps

theorem execEventCounterWrite_answers {s0 s : State} (h : Keeps s0 s) {t : Nat} {port : Fin 2} {ctr : Fin 4096} {v : BitVec 32}
    : Answers s0 (execEventCounterWrite t port ctr v s) := by
  unfold execEventCounterWrite
  repeat' first | with_reducible first | assumption | apply Answers.next | apply State.portWrite_keeps

theorem execEventCounterAdd_answers {s0 s : State} (h : Keeps s0 s) {t : Nat} {port : Fin 2} {ctr : Fin 4096} {v : BitVec 32}
    : Answers s0 (execEventCounterAdd t port ctr v s) := by
  unfold execEventCounterAdd
  repeat' first | with_reducible first | assumption | apply Answers.next | apply State.portWrite_keeps

theorem execHandoverGo_answers {s0 s : State} (h : Keeps s0 s) {t : Nat} {port : Fin 2} {v : BitVec 32} : Answers s0 (execHandoverGo t port v s) := by
  unfold execHandoverGo
  repeat' first | with_reducible first | assumption | apply Answers.next | apply State.pagePortWrite_keeps

theorem execEchoGo_answers {s0 s : State} (h : Keeps s0 s) {t : Nat} {port : Fin 2} {v : BitVec 32} : Answers s0 (execEchoGo t port v s) := by
  unfold execEchoGo
  repeat' first | with_reducible first | assumption | apply Answers.next | apply State.pagePortWrite_keeps

theorem execMgmtGo_answers {s0 s : State} (h : Keeps s0 s) {t : Nat} {port : Fin 2} {v : BitVec 32} : Answers s0 (execMgmtGo t port v s) := by
  unfold execMgmtGo
  repeat' first | with_reducible first | assumption | apply Answers.next | apply State.pagePortWrite_keeps

theorem execMgmtPop_answers {s0 s : State} (h : Keeps s0 s) {t : Nat} {port : Fin 2} {v : BitVec 32} : Answers s0 (execMgmtPop t port v s) := by
  unfold execMgmtPop
  repeat' first | with_reducible first | assumption | apply Answers.next | apply State.pagePortWrite_keeps

theorem execNodeIdWrite_answers {s0 s : State} (h : Keeps s0 s) {t : Nat} {port : Fin 2} {v : BitVec 32} : Answers s0 (execNodeIdWrite t port v s)
    := by
  unfold execNodeIdWrite
  repeat' first | with_reducible first | assumption | apply Answers.next | apply State.pagePortWrite_keeps

theorem execCreditAllocationWrite_answers {s0 s : State} (h : Keeps s0 s) {t : Nat} {port : Fin 2} {p : Fin 24} {vc : Fin 4} {v : BitVec 32}
    : Answers s0 (execCreditAllocationWrite t port p vc v s) := by
  unfold execCreditAllocationWrite
  repeat' first | with_reducible first | assumption | apply Answers.next | apply State.pagePortWrite_keeps

theorem execRouteTableWrite_answers {s0 s : State} (h : Keeps s0 s) {t : Nat} {port : Fin 2} {dst : BitVec 16} {v : BitVec 32}
    : Answers s0 (execRouteTableWrite t port dst v s) := by
  unfold execRouteTableWrite
  repeat' first | with_reducible first | assumption | apply Answers.next | apply State.portWrite_keeps

theorem execCollTableWrite_answers {s0 s : State} (h : Keeps s0 s) {t : Nat} {port : Fin 2} {entry : Fin 4096} {word : Fin 16} {v : BitVec 32}
    : Answers s0 (execCollTableWrite t port entry word v s) := by
  unfold execCollTableWrite
  repeat' first | with_reducible first | assumption | apply Answers.next | apply State.portWrite_keeps

theorem execRetrain_answers {s0 s : State} (h : Keeps s0 s) {t : Nat} {port : Fin 2} {p : Fin 24} : Answers s0 (execRetrain t port p s) := by
  unfold execRetrain
  repeat' first
    | with_reducible first | assumption | apply Answers.next | apply State.begin_keeps | apply State.passTime_keeps | apply State.busWrite_keeps
    | ((fail_if_no_progress extract_lets +onlyGivenNames x)
       first
        | (refine (?_ : Keeps s0 x → _) ?_; (clear_value x; intro _); on_goal 2 => unfold x)
        | clear_value x)

theorem execPwrReq_answers {s0 s : State} (h : Keeps s0 s) {t : Nat} {port : Fin 2} {dom : Fin 211} {req : Fin 4}
    : Answers s0 (execPwrReq t port dom req s) := by
  unfold execPwrReq
  repeat' first
    | with_reducible first | assumption | apply Answers.next | apply State.begin_keeps | apply State.passTime_keeps | apply State.busWrite_keeps
    | ((fail_if_no_progress extract_lets +onlyGivenNames x)
       first
        | (refine (?_ : Keeps s0 x → _) ?_; (clear_value x; intro _); on_goal 2 => unfold x)
        | clear_value x)

theorem execRefLostClear_answers {s0 s : State} (h : Keeps s0 s) {t : Nat} {port : Fin 2} : Answers s0 (execRefLostClear t port s) := by
  unfold execRefLostClear
  repeat' first | with_reducible first | assumption | apply Answers.next | apply State.pagePortWrite_keeps

theorem execConditionStatusRead_answers {s0 s : State} (h : Keeps s0 s) {t : Nat} {port : Fin 2} {cond : Fin 64}
    : Answers s0 (execConditionStatusRead t port cond s) := by
  unfold execConditionStatusRead
  repeat' first
    | with_reducible first | assumption | apply Answers.next | apply State.begin_keeps | apply State.passTime_keeps | apply State.busRead_keeps

theorem execLinkWakeSend_answers {s0 s : State} (h : Keeps s0 s) {t : Nat} {port : Fin 2} {mask : BitVec 24}
    : Answers s0 (execLinkWakeSend t port mask s) := by
  unfold execLinkWakeSend
  repeat' first | with_reducible first | assumption | apply Answers.next | apply State.pagePortWrite_keeps

theorem execRetire_answers {s0 s : State} (h : Keeps s0 s) {t : Nat} {port : Fin 2} {die : Fin 4} {tiller : Fin 84}
    : Answers s0 (execRetire t port die tiller s) := by
  unfold execRetire
  repeat' first | with_reducible first | assumption | apply Answers.next | apply State.pagePortWrite_keeps

theorem execStatRingEnable_answers {s0 s : State} (h : Keeps s0 s) {t : Nat} {port : Fin 2} {die : Fin 4} {v : BitVec 32}
    : Answers s0 (execStatRingEnable t port die v s) := by
  unfold execStatRingEnable
  repeat' first | with_reducible first | assumption | apply Answers.next | apply State.pagePortWrite_keeps

theorem execCounterClear_answers {s0 s : State} (h : Keeps s0 s) {t : Nat} {port : Fin 2} : Answers s0 (execCounterClear t port s) := by
  unfold execCounterClear
  repeat' first | with_reducible first | assumption | apply Answers.next | apply State.pagePortWrite_keeps

theorem execDrasCtrlWrite_answers {s0 s : State} (h : Keeps s0 s) {t : Nat} {port : Fin 2} {die : Fin 4} {v : BitVec 32}
    : Answers s0 (execDrasCtrlWrite t port die v s) := by
  unfold execDrasCtrlWrite
  repeat' first | with_reducible first | assumption | apply Answers.next | apply State.pagePortWrite_keeps

theorem State.drasWrite32_keeps {s0 s : State} (h : Keeps s0 s) {t port die op site : Nat} {raw : Bool} {f : DrasFind}
    : Keeps s0 (s.drasWrite32 t port die op site raw f) := by
  unfold State.drasWrite32
  repeat' first | with_reducible first | assumption | apply State.begin_keeps | apply State.passTime_keeps | apply State.busWrite_keeps

theorem execReadRow_answers {s0 s : State} (h : Keeps s0 s) {t : Nat} {port : Fin 2} {die site : Fin 4} {raw : Bool} {wrong : List (Fin 65536)}
    : Answers s0 (execReadRow t port die site raw wrong s) := by
  unfold execReadRow
  repeat' first | (intro _; try beta_reduce) | with_reducible first | assumption | apply Answers.next | apply State.drasWrite32_keeps

theorem execWriteRow_answers {s0 s : State} (h : Keeps s0 s) {t : Nat} {port : Fin 2} {die site : Fin 4}
    : Answers s0 (execWriteRow t port die site s) := by
  unfold execWriteRow
  repeat' first | with_reducible first | assumption | apply Answers.next | apply State.drasWrite32_keeps

theorem execMapRow_answers {s0 s : State} (h : Keeps s0 s) {t : Nat} {port : Fin 2} {die site : Fin 4} : Answers s0 (execMapRow t port die site s)
    := by
  unfold execMapRow
  repeat' first | with_reducible first | assumption | apply Answers.next | apply State.drasWrite32_keeps

theorem execMapBank_answers {s0 s : State} (h : Keeps s0 s) {t : Nat} {port : Fin 2} {die site : Fin 4} : Answers s0 (execMapBank t port die site s)
    := by
  unfold execMapBank
  repeat' first | with_reducible first | assumption | apply Answers.next | apply State.drasWrite32_keeps

theorem execMapConn_answers {s0 s : State} (h : Keeps s0 s) {t : Nat} {port : Fin 2} {die site : Fin 4} : Answers s0 (execMapConn t port die site s)
    := by
  unfold execMapConn
  repeat' first | with_reducible first | assumption | apply Answers.next | apply State.drasWrite32_keeps

theorem execConnTest_answers {s0 s : State} (h : Keeps s0 s) {t : Nat} {port : Fin 2} {die site : Fin 4} {bad : List (Fin 280)}
    : Answers s0 (execConnTest t port die site bad s) := by
  unfold execConnTest
  repeat' first | (intro _; try beta_reduce) | with_reducible first | assumption | apply Answers.next | apply State.drasWrite32_keeps

theorem execRowTest_answers {s0 s : State} (h : Keeps s0 s) {t : Nat} {port : Fin 2} {die site : Fin 4} {bad : BitVec 16}
    : Answers s0 (execRowTest t port die site bad s) := by
  unfold execRowTest
  repeat' first | with_reducible first | assumption | apply Answers.next | apply State.drasWrite32_keeps

theorem execDrasRestore_answers {s0 s : State} (h : Keeps s0 s) {t : Nat} {port : Fin 2} {die site : Fin 4}
    : Answers s0 (execDrasRestore t port die site s) := by
  unfold execDrasRestore
  repeat' first | with_reducible first | assumption | apply Answers.next | apply State.drasWrite32_keeps

theorem execTradeModeWrite_answers {s0 s : State} (h : Keeps s0 s) {t : Nat} {port : Fin 2} {v : BitVec 32}
    : Answers s0 (execTradeModeWrite t port v s) := by
  unfold execTradeModeWrite
  repeat' first | with_reducible first | assumption | apply Answers.next | apply State.pagePortWrite_keeps

theorem execStopClear_answers {s0 s : State} (h : Keeps s0 s) {t : Nat} {port : Fin 2} : Answers s0 (execStopClear t port s) := by
  unfold execStopClear
  repeat' first | with_reducible first | assumption | apply Answers.next | apply State.pagePortWrite_keeps

theorem execTestReq_answers {s0 s : State} (h : Keeps s0 s) {t : Nat} {port : Fin 2} : Answers s0 (execTestReq t port s) := by
  unfold execTestReq
  repeat' first
    | with_reducible first | assumption | apply Answers.next | apply State.begin_keeps | apply State.passTime_keeps | apply State.busWrite_keeps
    | ((fail_if_no_progress extract_lets +onlyGivenNames x)
       first
        | (refine (?_ : Keeps s0 x → _) ?_; (clear_value x; intro _); on_goal 2 => unfold x)
        | clear_value x)

theorem execSeedLoad_answers {s0 s : State} (h : Keeps s0 s) {t : Nat} {port : Fin 2} {len : BitVec 21} {errs : List AccessErr}
    : Answers s0 (execSeedLoad t port len errs s) := by
  unfold execSeedLoad
  repeat' first
    | with_reducible first | assumption | apply Answers.next | apply State.begin_keeps | apply State.facing_keeps | apply State.passTime_keeps
    | with_reducible first | apply State.busWrite_keeps

theorem execSeedCancel_answers {s0 s : State} (h : Keeps s0 s) {t : Nat} {port : Fin 2} : Answers s0 (execSeedCancel t port s) := by
  unfold execSeedCancel
  repeat' first | with_reducible first | assumption | apply Answers.next | apply State.pagePortWrite_keeps

theorem execPin_answers {s0 s : State} (h : Keeps s0 s) {t : Nat} {port : Fin 2} : Answers s0 (execPin t port s) := by
  unfold execPin
  repeat' first | with_reducible first | assumption | apply Answers.next | apply State.pagePortWrite_keeps

theorem execUnpin_answers {s0 s : State} (h : Keeps s0 s) {t : Nat} {port : Fin 2} : Answers s0 (execUnpin t port s) := by
  unfold execUnpin
  repeat' first | with_reducible first | assumption | apply Answers.next | apply State.pagePortWrite_keeps

theorem execDelete_answers {s0 s : State} (h : Keeps s0 s) {t : Nat} {port : Fin 2} : Answers s0 (execDelete t port s) := by
  unfold execDelete
  repeat' first | with_reducible first | assumption | apply Answers.next | apply State.pagePortWrite_keeps

theorem execFwUpdate_answers {s0 s : State} (h : Keeps s0 s) {t : Nat} {port : Fin 2} {len : BitVec 25} : Answers s0 (execFwUpdate t port len s) := by
  unfold execFwUpdate
  repeat' first | with_reducible first | assumption | apply Answers.next | apply State.pagePortWrite_keeps

theorem execCommit_answers {s0 s : State} (h : Keeps s0 s) {t : Nat} {port : Fin 2} : Answers s0 (execCommit t port s) := by
  unfold execCommit
  repeat' first | with_reducible first | assumption | apply Answers.next | apply State.pagePortWrite_keeps

theorem execKey_answers {s0 s : State} (h : Keeps s0 s) {t : Nat} {port : Fin 2} : Answers s0 (execKey t port s) := by
  unfold execKey
  repeat' first | with_reducible first | assumption | apply Answers.next | apply State.pagePortWrite_keeps

theorem execDebugUnlock_answers {s0 s : State} (h : Keeps s0 s) {t : Nat} {port : Fin 2} : Answers s0 (execDebugUnlock t port s) := by
  unfold execDebugUnlock
  repeat' first | with_reducible first | assumption | apply Answers.next | apply State.pagePortWrite_keeps

theorem execDebugCancel_answers {s0 s : State} (h : Keeps s0 s) {t : Nat} {port : Fin 2} : Answers s0 (execDebugCancel t port s) := by
  unfold execDebugCancel
  repeat' first | with_reducible first | assumption | apply Answers.next | apply State.pagePortWrite_keeps

/-! ## Transfers -/

theorem State.chunkDenied_keeps {s0 s : State} (h : Keeps s0 s) {d : Denial} : Keeps s0 (s.chunkDenied d).1 := by
  unfold State.chunkDenied
  repeat' first
    | with_reducible first | assumption | apply Keeps.ite1 | apply Keeps.foldl1 | apply State.captureDenial_keeps
    | (fail_if_no_progress with_reducible apply Keeps.upd)

theorem State.burstMeets_keeps {s0 s : State} (h : Keeps s0 s) {a cls : Nat} {write : Bool} {e : Option BurstErr}
    : Keeps s0 (s.burstMeets a cls write e).1 := by
  unfold State.burstMeets
  repeat' first
    | (intro _; try beta_reduce)
    | with_reducible first | assumption | apply Keeps.ite | apply Keeps.ite1 | apply Keeps.foldl1 | apply State.burstErr_keeps
    | (fail_if_no_progress with_reducible apply Keeps.upd)
    | with_reducible refine Keeps.p1 (by assumption) ?_
    | split

theorem State.readPiece_keeps {s0 s : State} (h : Keeps s0 s) {me : Page} {info cls a n : Nat} {aged : Bool} {e : Option BurstErr}
    : Keeps s0 (s.readPiece me info cls a n aged e).2.1 := by
  unfold State.readPiece
  repeat' first
    | with_reducible first | assumption | apply Keeps.ite | apply State.chunkDenied_keeps | apply State.busRead_keeps | apply State.servedBurst_keeps
    | with_reducible first | apply State.burstMeets_keeps | apply State.fetchBytes_keeps
    | ((fail_if_no_progress extract_lets +onlyGivenNames x)
       first
        | (refine (?_ : Keeps s0 x → _) ?_; (clear_value x; intro _); on_goal 2 => unfold x)
        | clear_value x)
    | (fail_if_no_progress with_reducible apply Keeps.upd)
    | with_reducible refine Keeps.p1 (by assumption) ?_
    | split

theorem State.writePiece_keeps {s0 s : State} (h : Keeps s0 s) {me : Page} {info cls a : Nat} {l : List Byte} {aged : Bool} {e : Option BurstErr}
    : Keeps s0 (s.writePiece me info cls a l aged e).1 := by
  unfold State.writePiece
  repeat' first
    | with_reducible first | assumption | apply Keeps.ite | apply Keeps.ite1 | apply Keeps.foldl1 | apply State.chunkDenied_keeps
    | with_reducible first | apply State.busWrite_keeps | apply State.servedBurst_keeps | apply State.servedPart_keeps | apply State.burstMeets_keeps
    | with_reducible first | apply State.placeBytes_keeps
    | ((fail_if_no_progress extract_lets +onlyGivenNames x)
       first
        | (refine (?_ : Keeps s0 x → _) ?_; (clear_value x; intro _); on_goal 2 => unfold x)
        | clear_value x)
    | (fail_if_no_progress with_reducible apply Keeps.upd)
    | with_reducible refine Keeps.p1 (by assumption) ?_
    | split

theorem State.copyRead_keeps {s0 s : State} (h : Keeps s0 s) {x : Transfer} {aged : Bool} {re : Option BurstErr}
    : Keeps s0 (s.copyRead x aged re).state := by
  unfold State.copyRead
  repeat' first
    | with_reducible first | assumption | apply State.chunkDenied_keeps | apply State.readPiece_keeps
    | ((fail_if_no_progress extract_lets +onlyGivenNames x)
       first
        | (refine (?_ : Keeps s0 x → _) ?_; (clear_value x; intro _); on_goal 2 => unfold x)
        | clear_value x)
    | (fail_if_no_progress with_reducible apply Keeps.upd)
    | with_reducible refine Keeps.p1 (by assumption) ?_
    | split

theorem State.copyWrite_keeps {s0 s : State} (h : Keeps s0 s) {x : Transfer} {aged : Bool} {we : Option BurstErr}
    : Keeps s0 (s.copyWrite x aged we).state := by
  unfold State.copyWrite
  repeat' first
    | with_reducible first | assumption | apply State.writePiece_keeps
    | ((fail_if_no_progress extract_lets +onlyGivenNames x)
       first
        | (refine (?_ : Keeps s0 x → _) ?_; (clear_value x; intro _); on_goal 2 => unfold x)
        | clear_value x)
    | (fail_if_no_progress with_reducible apply Keeps.upd)
    | with_reducible refine Keeps.p1 (by assumption) ?_
    | split

theorem State.saveChunk_keeps {s0 s : State} (h : Keeps s0 s) {x : Transfer} {aged : Bool} {re : Option BurstErr}
    : Keeps s0 (s.saveChunk x aged re).state := by
  unfold State.saveChunk
  repeat' first
    | (intro _; try beta_reduce)
    | with_reducible first | assumption | apply Keeps.ite | apply Keeps.ite1 | apply Keeps.ite2 | apply Keeps.ite21 | apply Keeps.foldl
    | with_reducible first | apply Keeps.foldl1 | apply Keeps.foldl2 | apply State.readPiece_keeps | apply State.setGrn_keeps
    | ((fail_if_no_progress extract_lets +onlyGivenNames x)
       first
        | (refine (?_ : (∀ t, Keeps s0 t → Keeps s0 (x t)) → _) ?_; (clear_value x; intro _); on_goal 2 => unfold x)
        | (refine (?_ : (∀ y, Keeps s0 (x y)) → _) ?_; (clear_value x; intro _); on_goal 2 => unfold x)
        | (refine (?_ : Keeps s0 x.1 → _) ?_; (clear_value x; intro _); on_goal 2 => unfold x)
        | (refine (?_ : Keeps s0 x.2 → _) ?_; (clear_value x; intro _); on_goal 2 => unfold x)
        | (refine (?_ : Keeps s0 x → _) ?_; (clear_value x; intro _); on_goal 2 => unfold x)
        | (refine (?_ : (∀ t y, Keeps s0 t → Keeps s0 (x t y)) → _) ?_; (clear_value x; intro _); on_goal 2 => unfold x)
        | clear_value x)
    | (fail_if_no_progress with_reducible apply Keeps.upd)
    | with_reducible apply_assumption
    | with_reducible refine Keeps.p1 (by assumption) ?_
    | with_reducible refine Keeps.p2 (by assumption) ?_
    | with_reducible refine Keeps.p21 (by assumption) ?_
    | split

theorem State.putChunk_keeps {s0 s : State} (h : Keeps s0 s) {x : Transfer} {limit : Nat} {aged : Bool} {we : Option BurstErr}
    : Keeps s0 (s.putChunk x limit aged we).state := by
  unfold State.putChunk
  repeat' first
    | with_reducible first | assumption | apply State.writePiece_keeps
    | ((fail_if_no_progress extract_lets +onlyGivenNames x)
       first
        | (refine (?_ : Keeps s0 x → _) ?_; (clear_value x; intro _); on_goal 2 => unfold x)
        | clear_value x)
    | (fail_if_no_progress with_reducible apply Keeps.upd)
    | with_reducible refine Keeps.p1 (by assumption) ?_
    | split

theorem State.access_keeps {s0 s : State} (h : Keeps s0 s) {x : Transfer} {limit : Nat} {aged : Bool} {re we : Option BurstErr}
    : Keeps s0 (s.access x limit aged re we).state := by
  unfold State.access
  repeat' first
    | with_reducible first | assumption | apply Keeps.ite | apply State.saveChunk_keeps | apply State.putChunk_keeps | apply State.copyRead_keeps
    | with_reducible first | apply State.copyWrite_keeps
    | (fail_if_no_progress with_reducible apply Keeps.upd)
    | split

theorem State.chunkEnds_keeps {s0 s : State} (h : Keeps s0 s) {x : Transfer} {f : ChunkFail} : Keeps s0 (s.chunkEnds x f).1 := by
  unfold State.chunkEnds
  repeat' first
    | with_reducible first | assumption | apply Keeps.ite | apply Keeps.ite1 | apply Keeps.foldl1 | apply State.raise_keeps
    | ((fail_if_no_progress extract_lets +onlyGivenNames x)
       first
        | (refine (?_ : Keeps s0 x → _) ?_; (clear_value x; intro _); on_goal 2 => unfold x)
        | clear_value x)
    | (fail_if_no_progress with_reducible apply Keeps.upd)
    | with_reducible refine Keeps.p1 (by assumption) ?_
    | split

theorem Moved.settle_keeps {s0 : State} {m : Moved} (h : Keeps s0 m.state) {x : Transfer} : Keeps s0 (m.settle x).1 := by
  unfold Moved.settle
  extract_lets y
  split
  · exact State.chunkEnds_keeps h
  · exact h

theorem State.moveRest_keeps {s0 : State} {ecc : List BurstEvent} {limit fuel : Nat} : ∀ {s : State} (_ : Keeps s0 s) {k : Nat} {x : Transfer},
    Keeps s0 (State.moveRest ecc limit fuel k s x).1 := by
  induction fuel with
  | zero => exact fun h => h
  | succ n ih =>
    intro s h k x
    unfold State.moveRest
    split
    · exact h
    · exact ih (Moved.settle_keeps (State.access_keeps h))

theorem State.moveAll_keeps {s0 s : State} (h : Keeps s0 s) {x : Transfer} {limit : Nat} {ecc : List BurstEvent}
    : Keeps s0 (s.moveAll x limit ecc).1 := by
  unfold State.moveAll
  repeat' first | (intro _; try beta_reduce) | with_reducible first | assumption | apply Keeps.ite1 | apply Keeps.foldl1 | apply State.moveRest_keeps

theorem State.dropTransfer_keeps {s0 s : State} (h : Keeps s0 s) {id : Nat} : Keeps s0 (s.dropTransfer id) := by
  unfold State.dropTransfer
  repeat' first | (intro _; try beta_reduce) | with_reducible first | assumption | (fail_if_no_progress with_reducible apply Keeps.upd)

theorem State.setTransfer_keeps {s0 s : State} (h : Keeps s0 s) {x : Transfer} : Keeps s0 (s.setTransfer x) := by
  unfold State.setTransfer
  repeat' first
    | (intro _; try beta_reduce)
    | with_reducible first | assumption | apply Keeps.ite
    | (fail_if_no_progress with_reducible apply Keeps.upd)

theorem State.progress_keeps {s0 s : State} (h : Keeps s0 s) {x : Transfer} : Keeps s0 (s.progress x) := by
  unfold State.progress
  repeat' first | with_reducible first | assumption | apply State.set64_keeps | (fail_if_no_progress with_reducible apply Keeps.upd) | split

theorem State.serve_keeps {s0 s : State} (h : Keeps s0 s) {x : Transfer} {aged : Bool} {re we : Option BurstErr}
    : Keeps s0 (s.serve x aged re we).1 := by
  have hs : ∀ {t : State} {y : Transfer}, Keeps s0 t → Keeps s0 ((t.access y x.len aged re we).settle y).1 := fun ht => Moved.settle_keeps (State.access_keeps ht)
  unfold State.serve
  exact Keeps.ite1 (hs (hs h)) (hs h)

theorem execUnscheduledBurst_answers {s0 s : State} (h : Keeps s0 s) {t id : Nat} {read write : Option BurstErr}
    : Answers s0 (execUnscheduledBurst t id read write s) := by
  unfold execUnscheduledBurst
  repeat' first
    | (intro _; try beta_reduce)
    | with_reducible first | assumption | apply Answers.next | apply Answers.ite | apply Keeps.ite | apply Keeps.ite1 | apply Keeps.ite2
    | with_reducible first | apply Keeps.ite21 | apply Keeps.foldl | apply Keeps.foldl1 | apply Keeps.foldl2 | apply State.begin_keeps
    | with_reducible first | apply State.passTime_keeps | apply State.serve_keeps | apply State.setTransfer_keeps | apply State.noteServed_keeps
    | with_reducible first | apply State.progress_keeps
    | ((fail_if_no_progress extract_lets +onlyGivenNames x)
       first
        | (refine (?_ : (∀ t, Keeps s0 t → Keeps s0 (x t)) → _) ?_; (clear_value x; intro _); on_goal 2 => unfold x)
        | (refine (?_ : (∀ y, Keeps s0 (x y)) → _) ?_; (clear_value x; intro _); on_goal 2 => unfold x)
        | (refine (?_ : Keeps s0 x.1 → _) ?_; (clear_value x; intro _); on_goal 2 => unfold x)
        | (refine (?_ : Keeps s0 x.2 → _) ?_; (clear_value x; intro _); on_goal 2 => unfold x)
        | (refine (?_ : Keeps s0 x → _) ?_; (clear_value x; intro _); on_goal 2 => unfold x)
        | (refine (?_ : (∀ t y, Keeps s0 t → Keeps s0 (x t y)) → _) ?_; (clear_value x; intro _); on_goal 2 => unfold x)
        | clear_value x)
    | (fail_if_no_progress with_reducible apply Keeps.upd)
    | with_reducible apply_assumption
    | with_reducible refine Keeps.p1 (by assumption) ?_
    | with_reducible refine Keeps.p2 (by assumption) ?_
    | with_reducible refine Keeps.p21 (by assumption) ?_
    | split

theorem execXferComplete_answers {s0 s : State} (h : Keeps s0 s) {t id : Nat} {ecc : List BurstEvent} : Answers s0 (execXferComplete t id ecc s) := by
  unfold execXferComplete
  repeat' first
    | with_reducible first | assumption | apply Answers.next | apply Answers.ite | apply Keeps.ite | apply State.begin_keeps
    | with_reducible first | apply State.passTime_keeps | apply State.signal_keeps | apply State.moveAll_keeps | apply State.dropTransfer_keeps
    | with_reducible first | apply State.wake_keeps
    | ((fail_if_no_progress extract_lets +onlyGivenNames x)
       first
        | (refine (?_ : Keeps s0 x → _) ?_; (clear_value x; intro _); on_goal 2 => unfold x)
        | clear_value x)
    | (fail_if_no_progress with_reducible apply Keeps.upd)
    | with_reducible refine Keeps.p1 (by assumption) ?_
    | split

theorem State.endJob_keeps {s0 s : State} (h : Keeps s0 s) {j : Job} {code info : Nat} : Keeps s0 (s.endJob j code info) := by
  unfold State.endJob
  repeat' first
    | (intro _; try beta_reduce)
    | with_reducible first | assumption | apply State.setHost_keeps | apply State.finish_keeps | apply State.wake_keeps
    | (fail_if_no_progress with_reducible apply Keeps.upd)

theorem execDmaComplete_answers {s0 s : State} (h : Keeps s0 s) {t id : Nat} {ecc : List BurstEvent} : Answers s0 (execDmaComplete t id ecc s) := by
  unfold execDmaComplete
  repeat' first
    | with_reducible first | assumption | apply Answers.next | apply Answers.ite | apply Keeps.ite | apply State.begin_keeps
    | with_reducible first | apply State.passTime_keeps | apply State.moveAll_keeps | apply State.dropTransfer_keeps | apply State.endJob_keeps
    | ((fail_if_no_progress extract_lets +onlyGivenNames x)
       first
        | (refine (?_ : Keeps s0 x → _) ?_; (clear_value x; intro _); on_goal 2 => unfold x)
        | clear_value x)
    | (fail_if_no_progress with_reducible apply Keeps.upd)
    | with_reducible refine Keeps.p1 (by assumption) ?_
    | split

theorem State.endGrn_keeps {s0 s : State} (h : Keeps s0 s) {x : Transfer} {j : Job} {code info : Nat} : Keeps s0 (s.endGrn x j code info) := by
  unfold State.endGrn
  repeat' first
    | with_reducible first | assumption | apply State.progress_keeps | apply State.dropTransfer_keeps | apply State.setGrn_keeps
    | with_reducible first | apply State.endJob_keeps
    | ((fail_if_no_progress extract_lets +onlyGivenNames x)
       first
        | (refine (?_ : Keeps s0 x → _) ?_; (clear_value x; intro _); on_goal 2 => unfold x)
        | clear_value x)
    | (fail_if_no_progress with_reducible apply Keeps.upd)

theorem State.checkpointEnd_keeps {s0 s : State} (h : Keeps s0 s) {r : GrnRun} {x : Transfer} {j : Job} {ecc : List BurstEvent}
    : Keeps s0 (s.checkpointEnd r x j ecc) := by
  unfold State.checkpointEnd
  repeat' first
    | (intro _; try beta_reduce)
    | with_reducible first | assumption | apply Keeps.ite | apply State.moveAll_keeps | apply State.setGrn_keeps | apply State.endGrn_keeps
    | with_reducible first | apply State.raise_keeps | apply State.charge_keeps
    | ((fail_if_no_progress extract_lets +onlyGivenNames x)
       first
        | (refine (?_ : Keeps s0 x → _) ?_; (clear_value x; intro _); on_goal 2 => unfold x)
        | clear_value x)
    | (fail_if_no_progress with_reducible apply Keeps.upd)
    | with_reducible refine Keeps.p1 (by assumption) ?_
    | split

theorem execCheckpointComplete_answers {s0 s : State} (h : Keeps s0 s) {t : Nat} {ecc : List BurstEvent}
    : Answers s0 (execCheckpointComplete t ecc s) := by
  unfold execCheckpointComplete
  repeat' first
    | with_reducible first | assumption | apply Answers.next | apply Answers.ite | apply Keeps.ite | apply State.begin_keeps
    | with_reducible first | apply State.passTime_keeps | apply State.checkpointEnd_keeps
    | ((fail_if_no_progress extract_lets +onlyGivenNames x)
       first
        | (refine (?_ : Keeps s0 x → _) ?_; (clear_value x; intro _); on_goal 2 => unfold x)
        | clear_value x)
    | (fail_if_no_progress with_reducible apply Keeps.upd)
    | split

theorem State.restoreEnd_keeps {s0 s : State} (h : Keeps s0 s) {r : GrnRun} {x : Transfer} {j : Job} {bad : Option (Nat × Bool)}
    {ecc : List BurstEvent} : Keeps s0 (s.restoreEnd r x j bad ecc) := by
  unfold State.restoreEnd
  repeat' first
    | with_reducible first | assumption | apply Keeps.ite | apply State.moveAll_keeps | apply State.endGrn_keeps | apply State.raise_keeps
    | with_reducible first | apply State.zeroLost_keeps
    | ((fail_if_no_progress extract_lets +onlyGivenNames x)
       first
        | (refine (?_ : Keeps s0 x → _) ?_; (clear_value x; intro _); on_goal 2 => unfold x)
        | clear_value x)
    | (fail_if_no_progress with_reducible apply Keeps.upd)
    | with_reducible refine Keeps.p1 (by assumption) ?_
    | split

theorem execRestoreComplete_answers {s0 s : State} (h : Keeps s0 s) {t : Nat} {bad : Option (Nat × Bool)} {rebuilt : Nat} {ecc : List BurstEvent}
    : Answers s0 (execRestoreComplete t bad rebuilt ecc s) := by
  unfold execRestoreComplete
  repeat' first
    | with_reducible first | assumption | apply Answers.next | apply Answers.ite | apply Keeps.ite | apply State.begin_keeps
    | with_reducible first | apply State.passTime_keeps | apply State.bump_keeps | apply State.raise_keeps | apply State.endGrn_keeps
    | with_reducible first | apply State.restoreEnd_keeps
    | ((fail_if_no_progress extract_lets +onlyGivenNames x)
       first
        | (refine (?_ : Keeps s0 x → _) ?_; (clear_value x; intro _); on_goal 2 => unfold x)
        | clear_value x)
    | (fail_if_no_progress with_reducible apply Keeps.upd)
    | split

/-! ## Window -/

theorem State.windowRead_keeps {s0 : State} {me : Page} {ecc : List BurstEvent} {a : Nat} {l : List ((Nat × Nat) × Nat)} : ∀ {s : State}
    (_ : Keeps s0 s) {d : List Byte},
    Keeps s0 (s.windowRead me ecc a l d) := by
  induction l with
  | nil => exact fun h => Keeps.upd h
  | cons q r ih =>
    intro s h d
    obtain ⟨⟨o, n⟩, k⟩ := q
    unfold State.windowRead
    split
    · rename_i e
      exact State.refuse_keeps (Keeps.p21 e (State.readPiece_keeps h))
    · rename_i e
      exact ih (Keeps.p21 e (State.readPiece_keeps h))

theorem State.windowStore_keeps {s0 : State} {me : Page} {ecc : List BurstEvent} {a : Nat} {data : List Byte} {l : List ((Nat × Nat) × Nat)}
    : ∀ {s : State} (_ : Keeps s0 s),
    Keeps s0 (s.windowStore me ecc a data l) := by
  induction l with
  | nil => exact fun h => Keeps.upd h
  | cons q r ih =>
    intro s h
    obtain ⟨⟨o, n⟩, k⟩ := q
    unfold State.windowStore
    split
    · rename_i e
      exact State.refuse_keeps (Keeps.p1 e (State.writePiece_keeps h))
    · rename_i e
      exact ih (Keeps.p1 e (State.writePiece_keeps h))

theorem State.stagingAccess_keeps {s0 s : State} (h : Keeps s0 s) {port off len : Nat} {data : Option (List Byte)}
    : Keeps s0 (s.stagingAccess port off len data) := by
  unfold State.stagingAccess
  repeat' first
    | (intro _; try beta_reduce)
    | with_reducible first | assumption | apply Keeps.ite | apply Keeps.foldl | apply State.deny_keeps | apply State.setSec_keeps
    | ((fail_if_no_progress extract_lets +onlyGivenNames x)
       first
        | (refine (?_ : Keeps s0 x → _) ?_; (clear_value x; intro _); on_goal 2 => unfold x)
        | clear_value x)
    | (fail_if_no_progress with_reducible apply Keeps.upd)
    | split

theorem State.windowAccess_keeps {s0 s : State} (h : Keeps s0 s) {port a n : Nat} {data : Option (List Byte)} {ecc : List BurstEvent}
    : Keeps s0 (s.windowAccess port a n data ecc) := by
  unfold State.windowAccess
  repeat' first
    | (intro _; try beta_reduce)
    | with_reducible first | assumption | apply Keeps.ite | apply State.deny_keeps | apply State.windowStore_keeps | apply State.windowRead_keeps
    | ((fail_if_no_progress extract_lets +onlyGivenNames x)
       first
        | (refine (?_ : Keeps s0 x → _) ?_; (clear_value x; intro _); on_goal 2 => unfold x)
        | clear_value x)
    | (fail_if_no_progress with_reducible apply Keeps.upd)
    | split

theorem State.bar4Access_keeps {s0 s : State} (h : Keeps s0 s) {port off n : Nat} {data : Option (List Byte)}
    : Keeps s0 (s.bar4Access port off n data) := by
  unfold State.bar4Access
  repeat' first
    | (intro _; try beta_reduce)
    | with_reducible first | assumption | apply Keeps.foldl | apply State.setPci_keeps | apply State.msixFlush_keeps
    | ((fail_if_no_progress extract_lets +onlyGivenNames x)
       first
        | (refine (?_ : Keeps s0 x → _) ?_; (clear_value x; intro _); on_goal 2 => unfold x)
        | clear_value x)
    | (fail_if_no_progress with_reducible apply Keeps.upd)
    | split

theorem State.configAccess_keeps {s0 s : State} (h : Keeps s0 s) {port off n : Nat} {data : Option (List Byte)}
    : Keeps s0 (s.configAccess port off n data) := by
  unfold State.configAccess
  repeat' first
    | (intro _; try beta_reduce)
    | with_reducible first | assumption | apply Keeps.ite | apply State.draw_keeps | apply State.setPci_keeps | apply State.msixFlush_keeps
    | ((fail_if_no_progress extract_lets +onlyGivenNames x)
       first
        | (refine (?_ : Keeps s0 x → _) ?_; (clear_value x; intro _); on_goal 2 => unfold x)
        | clear_value x)
    | (fail_if_no_progress with_reducible apply Keeps.upd)
    | with_reducible refine Keeps.p1 (by assumption) ?_
    | split

theorem execHostWindowAccess_answers {s0 s : State} (h : Keeps s0 s) {t : Nat} {port : Fin 2} {space : HostSpace} {off : BitVec 40} {len : Nat}
    {data : Option (List Byte)} {ecc : List BurstEvent} : Answers s0 (execHostWindowAccess t port space off len data ecc s) := by
  unfold execHostWindowAccess
  repeat' first
    | with_reducible first | assumption | apply Answers.next | apply Answers.ite | apply Keeps.ite | apply State.begin_keeps
    | with_reducible first | apply State.passTime_keeps | apply State.configAccess_keeps | apply State.bar4Access_keeps
    | with_reducible first | apply State.standbyReject_keeps | apply State.stagingAccess_keeps | apply State.windowAccess_keeps
    | with_reducible first | apply State.reported_keeps
    | ((fail_if_no_progress extract_lets +onlyGivenNames x)
       first
        | (refine (?_ : Keeps s0 x → _) ?_; (clear_value x; intro _); on_goal 2 => unfold x)
        | clear_value x)
    | (fail_if_no_progress with_reducible apply Keeps.upd)
    | split

/-! ## Management -/

theorem State.setTap_keeps {s0 s : State} (h : Keeps s0 s) {x : Tap} : Keeps s0 (s.setTap x) := by
  unfold State.setTap
  repeat' first | with_reducible first | assumption | (fail_if_no_progress with_reducible apply Keeps.upd)

theorem execI3cEntdaa_answers {s0 s : State} (h : Keeps s0 s) {addr : BitVec 7} : Answers s0 (execI3cEntdaa addr s) := by
  unfold execI3cEntdaa
  repeat' first
    | with_reducible first | assumption | apply Answers.next | apply Answers.ite | apply Keeps.ite | apply State.begin_keeps
    | with_reducible first | apply State.setTap_keeps
    | ((fail_if_no_progress extract_lets +onlyGivenNames x)
       first
        | (refine (?_ : Keeps s0 x → _) ?_; (clear_value x; intro _); on_goal 2 => unfold x)
        | clear_value x)
    | (fail_if_no_progress with_reducible apply Keeps.upd)

theorem execI3cSetdasa_answers {s0 s : State} (h : Keeps s0 s) {static addr : BitVec 7} : Answers s0 (execI3cSetdasa static addr s) := by
  unfold execI3cSetdasa
  repeat' first
    | with_reducible first | assumption | apply Answers.next | apply Answers.ite | apply Keeps.ite | apply State.begin_keeps
    | with_reducible first | apply State.setTap_keeps
    | ((fail_if_no_progress extract_lets +onlyGivenNames x)
       first
        | (refine (?_ : Keeps s0 x → _) ?_; (clear_value x; intro _); on_goal 2 => unfold x)
        | clear_value x)
    | (fail_if_no_progress with_reducible apply Keeps.upd)

theorem execMctpControl_answers {s0 s : State} (h : Keeps s0 s) {command : BitVec 8} {data : List Byte} : Answers s0 (execMctpControl command data s)
    := by
  unfold execMctpControl
  repeat' first
    | with_reducible first | assumption | apply Answers.next | apply Answers.ite | apply Keeps.ite | apply State.begin_keeps
    | with_reducible first | apply State.setTap_keeps
    | ((fail_if_no_progress extract_lets +onlyGivenNames x)
       first
        | (refine (?_ : Keeps s0 x → _) ?_; (clear_value x; intro _); on_goal 2 => unfold x)
        | clear_value x)
    | (fail_if_no_progress with_reducible apply Keeps.upd)
    | with_reducible refine Keeps.p1 (by assumption) ?_
    | split

theorem State.readWords_keeps {s0 : State} {n : Nat} : ∀ {s : State} (_ : Keeps s0 s) {off : Nat}, Keeps s0 (s.readWords off n).2.1 := by
  induction n with
  | zero => exact fun h => h
  | succ n ih =>
    intro s h off
    unfold State.readWords
    split
    · exact h
    · split
      rename_i w t e
      have ht : Keeps s0 t := Keeps.p2 e (State.readWord_keeps h)
      have hu : Keeps s0 (t.readWords (off + 4) n).2.1 := ih ht
      split
      rename_i l u code e
      exact Keeps.p21 e hu

theorem execRead32_answers {s0 s : State} (h : Keeps s0 s) {t : Nat} {off : BitVec 32} {count : BitVec 16} : Answers s0 (execRead32 t off count s)
    := by
  unfold execRead32
  repeat' first
    | with_reducible first | assumption | apply Answers.next | apply Answers.ite | apply Keeps.ite | apply State.begin_keeps
    | with_reducible first | apply State.passTime_keeps | apply State.doeError_keeps | apply State.readWords_keeps | apply State.setSec_keeps
    | ((fail_if_no_progress extract_lets +onlyGivenNames x)
       first
        | (refine (?_ : Keeps s0 x → _) ?_; (clear_value x; intro _); on_goal 2 => unfold x)
        | clear_value x)
    | (fail_if_no_progress with_reducible apply Keeps.upd)
    | with_reducible refine Keeps.p1 (by assumption) ?_
    | split

theorem State.setIr_keeps {s0 s : State} (h : Keeps s0 s) {code : Nat} : Keeps s0 (s.setIr code) := by
  unfold State.setIr
  repeat' first | with_reducible first | assumption | apply State.setTap_keeps | (fail_if_no_progress with_reducible apply Keeps.upd)

theorem State.selectIr_keeps {s0 s : State} (h : Keeps s0 s) {code : Nat} : Keeps s0 (s.selectIr code) := by
  unfold State.selectIr
  repeat' first
    | with_reducible first | assumption | apply Keeps.ite | apply State.begin_keeps | apply State.setIr_keeps
    | ((fail_if_no_progress extract_lets +onlyGivenNames x)
       first
        | (refine (?_ : Keeps s0 x → _) ?_; (clear_value x; intro _); on_goal 2 => unfold x)
        | clear_value x)

theorem State.takePins_keeps {s0 s : State} (h : Keeps s0 s) {code : Nat} : Keeps s0 (s.takePins code) := by
  unfold State.takePins
  repeat' first
    | with_reducible first | assumption | apply Keeps.ite | apply State.begin_keeps | apply State.setIr_keeps
    | ((fail_if_no_progress extract_lets +onlyGivenNames x)
       first
        | (refine (?_ : Keeps s0 x → _) ?_; (clear_value x; intro _); on_goal 2 => unfold x)
        | clear_value x)
    | (fail_if_no_progress with_reducible apply Keeps.upd)

theorem execTrst_answers {s0 s : State} (h : Keeps s0 s) : Answers s0 (execTrst s) := by
  unfold execTrst
  repeat' first | with_reducible first | assumption | apply Answers.next | apply State.selectIr_keeps

theorem execExtest_answers {s0 s : State} (h : Keeps s0 s) : Answers s0 (execExtest s) := by
  unfold execExtest
  repeat' first | with_reducible first | assumption | apply Answers.next | apply State.takePins_keeps

theorem execSamplePreload_answers {s0 s : State} (h : Keeps s0 s) : Answers s0 (execSamplePreload s) := by
  unfold execSamplePreload
  repeat' first | with_reducible first | assumption | apply Answers.next | apply State.selectIr_keeps

theorem execIdcode_answers {s0 s : State} (h : Keeps s0 s) : Answers s0 (execIdcode s) := by
  unfold execIdcode
  repeat' first
    | with_reducible first | assumption | apply Answers.next | apply Answers.ite | apply Keeps.ite | apply State.selectIr_keeps
    | ((fail_if_no_progress extract_lets +onlyGivenNames x)
       first
        | (refine (?_ : Keeps s0 x → _) ?_; (clear_value x; intro _); on_goal 2 => unfold x)
        | clear_value x)
    | (fail_if_no_progress with_reducible apply Keeps.upd)

theorem execClamp_answers {s0 s : State} (h : Keeps s0 s) : Answers s0 (execClamp s) := by
  unfold execClamp
  repeat' first | with_reducible first | assumption | apply Answers.next | apply State.takePins_keeps

theorem execHighz_answers {s0 s : State} (h : Keeps s0 s) : Answers s0 (execHighz s) := by
  unfold execHighz
  repeat' first | with_reducible first | assumption | apply Answers.next | apply State.takePins_keeps

theorem execExtestPulse_answers {s0 s : State} (h : Keeps s0 s) : Answers s0 (execExtestPulse s) := by
  unfold execExtestPulse
  repeat' first | with_reducible first | assumption | apply Answers.next | apply State.takePins_keeps

theorem execExtestTrain_answers {s0 s : State} (h : Keeps s0 s) : Answers s0 (execExtestTrain s) := by
  unfold execExtestTrain
  repeat' first | with_reducible first | assumption | apply Answers.next | apply State.takePins_keeps

theorem execHubdbg_answers {s0 s : State} (h : Keeps s0 s) : Answers s0 (execHubdbg s) := by
  unfold execHubdbg
  repeat' first
    | with_reducible first | assumption | apply Answers.next | apply Answers.ite | apply Keeps.ite | apply State.selectIr_keeps
    | ((fail_if_no_progress extract_lets +onlyGivenNames x)
       first
        | (refine (?_ : Keeps s0 x → _) ?_; (clear_value x; intro _); on_goal 2 => unfold x)
        | clear_value x)

theorem execBypass_answers {s0 s : State} (h : Keeps s0 s) : Answers s0 (execBypass s) := by
  unfold execBypass
  repeat' first | with_reducible first | assumption | apply Answers.next | apply State.selectIr_keeps

theorem State.regaccAfter_keeps {s0 s : State} (h : Keeps s0 s) {dr : BitVec 64} : Keeps s0 (s.regaccAfter dr) := by
  unfold State.regaccAfter
  repeat' first
    | with_reducible first | assumption | apply Keeps.ite | apply State.setTap_keeps | apply State.draw_keeps
    | ((fail_if_no_progress extract_lets +onlyGivenNames x)
       first
        | (refine (?_ : Keeps s0 x → _) ?_; (clear_value x; intro _); on_goal 2 => unfold x)
        | clear_value x)
    | (fail_if_no_progress with_reducible apply Keeps.upd)
    | with_reducible refine Keeps.p1 (by assumption) ?_
    | split

theorem execRegacc_answers {s0 s : State} (h : Keeps s0 s) {t : Nat} {dr : BitVec 64} : Answers s0 (execRegacc t dr s) := by
  unfold execRegacc
  repeat' first
    | with_reducible first | assumption | apply Answers.next | apply Answers.ite | apply Keeps.ite | apply State.begin_keeps
    | with_reducible first | apply State.passTime_keeps | apply State.setIr_keeps | apply State.busWrite_keeps | apply State.busRead_keeps
    | with_reducible first | apply State.regaccAfter_keeps
    | ((fail_if_no_progress extract_lets +onlyGivenNames x)
       first
        | (refine (?_ : Keeps s0 x → _) ?_; (clear_value x; intro _); on_goal 2 => unfold x)
        | clear_value x)

end Sys2Proof.Machine
end

