-- ==== Sys2Proof/Laws/Writes.lean ====
section
/-!
SUPPORT. The laws of accesses of BAR0: what an access comes to that is accepted, denied, or refused to the standby port.
-/
namespace Sys2Proof.Machine

variable {s : State} {port off : Nat} {v : Word} {f : DrasFind}

/-- A write of the owner port that nothing denies is the register's own, with the answer that it is done. -/
theorem State.busWrite_accepted (h : s.Accepts port off) : s.busWrite (.port port) off v f = (s.answered.writeWord (.port port) off v f).reported port := by
  obtain ⟨h1, rfl, h3⟩ := h
  simp [State.busWrite, State.standbyBlocks, h1, h3, State.answered]

/-- A write of a field that the standby port may write, or by the owner port, that nothing denies. -/
theorem State.busWrite_allowed (h1 : s.boot.phase.commandable = true) (h2 : port = s.owner ∨ standbyMay port off = true)
    (h3 : s.regDenial (.port port) off = none) : s.busWrite (.port port) off v f = (s.answered.writeWord (.port port) off v f).reported port := by
  obtain rfl | h2 := h2 <;> simp_all [State.busWrite, State.standbyBlocks, State.answered]

/-- A write of the standby port that R391 does not allow. -/
theorem State.busWrite_standby (h1 : s.boot.phase.commandable = true) (h2 : port ≠ s.owner) (h3 : standbyMay port off = false) :
    s.busWrite (.port port) off v f = s.standbyReject port := by
  simp [State.busWrite, State.standbyBlocks, h1, h2, h3]

/-- A write of the owner port that something denies. -/
theorem State.busWrite_denied {d : Denial} (h1 : s.boot.phase.commandable = true) (h2 : port = s.owner) (h3 : s.regDenial (.port port) off = some d) :
    s.busWrite (.port port) off v f = (s.deny d.page d.cause d.addr d.info).reported port := by
  subst h2
  simp [State.busWrite, State.standbyBlocks, h1, h3, State.denyVia]

/-- A read that nothing denies. -/
theorem State.busRead_accepted (h1 : s.boot.phase.commandable = true) (h3 : s.regDenial (.port port) off = none) :
    s.busRead (.port port) off = { (s.readWord (.port port) off).2 with resp := .word (s.readWord (.port port) off).1 } := by
  simp [State.busRead, h1, h3]

/-- The access codes alone, for a register that LOCK does not hold. -/
theorem State.plainWrite_coded {p : Page} {o : Nat} {r : RegRow} (h : rowOf p.kind o = some r) (hl : s.Unlocked p o) :
    s.plainWrite p o v = s.coded p o v := by
  have h2 := hl r h
  unfold State.plainWrite State.coded codedWrite
  simp only [h]
  split
  · rename_i hc
    obtain h2 | h2 := h2
    · exact absurd h2 hc.1
    · exact absurd hc.2 h2
  · rfl

/-- A register that LOCK holds. -/
theorem State.plainWrite_locked {p : Page} {o : Nat} {r : RegRow} (h : rowOf p.kind o = some r) (h1 : r.rl ≠ 0) (h2 : s.fldP p Reg.LOCK 0 0 = 1) :
    s.plainWrite p o v = s.deny p .LOCKED none (s.refusedInfo p) := by
  simp [State.plainWrite, h, h1, h2]

theorem State.Unlocked.answered {p : Page} {o : Nat} (h : s.Unlocked p o) : s.answered.Unlocked p o := h

theorem State.answered_rd (o : Nat) : s.answered.rd o = s.rd o := rfl

end Sys2Proof.Machine
end

