-- ==== Sys2Proof/WellFormed.lean ====
section
/-!
DEFINITION. What a well-formed command is, beyond the types of its operands: the lengths of the lists that an event brings, and the registers that a row
names. A meaning is total and does not rely on it.
-/
namespace Sys2Proof

/-- A register space offset that is a header register of a page. -/
def headerOffset (o : Nat) (off : BitVec 26) : Bool :=
  match Machine.pageOf off.toNat with
  | some (_, k) => k == o
  | none => false

/-- Codewords that a block brings: one per lane, and the 80 bytes of each of at most 64 slots (R423, R424). -/
def blockFits (errs : List Nat) (cells : List (List Byte)) : Bool :=
  (errs.length == 8 || errs.length == 4) && decide (cells.length ≤ 64) && cells.all fun c => c.length == 80

/-- IDs that the firewall knows (R373). -/
def firewallId (id : Nat) : Bool := decide (id < 24) || (decide (0x20 ≤ id) && decide (id < 0x28))

/-- The well-formedness of a command. -/
def Instr.wf : Instr → Bool
  | .stackTempSample _ _ readings => readings.length == 17
  | .stubbleAnalogSample _ vals => vals.length == 36
  | .blockReceive _ _ _ errs _ cells => blockFits errs cells
  | .fenceReject _ l => l.all fun x => firewallId x.id
  | .errRearm _ _ off => headerOffset Machine.Reg.ERR_STAT off
  | .lock _ _ off => headerOffset Machine.Reg.LOCK off
  | .hostWindowAccess _ _ _ _ len bytes _ => (match bytes with
      | some l => !l.isEmpty
      | none => len != 0)
  | .mctpControl _ body => decide (body.length ≤ 250)
  | .chain _ more _ => decide (more.length ≤ 13)
  | _ => true

end Sys2Proof
end

