-- ==== Sys2Proof/Tests/Slice0.lean ====
section
/-!
SUPPORT. Tests: the well-formedness checks, worked examples of the spec, and for each statement a state and operands that meet its hypotheses.
-/
namespace Sys2Proof.Tests
open Sys2Proof Sys2Proof.Machine

set_option Elab.async false

/-! ## Well-formedness: an ill-formed command for each check -/

theorem test_wf_good : Instr.wf (.stackTempSample 0 0 (List.replicate 17 none)) = true := by decide
theorem test_wf_readings : Instr.wf (.stackTempSample 0 0 (List.replicate 16 none)) = false := by decide
theorem test_wf_inputs : Instr.wf (.stubbleAnalogSample 0 (List.replicate 37 none)) = false := by decide
theorem test_wf_codewords : Instr.wf (.blockReceive 0 0 false (List.replicate 5 0) 0 []) = false := by decide
theorem test_wf_slots : Instr.wf (.blockReceive 0 0 false (List.replicate 8 0) 0 (List.replicate 65 (List.replicate 80 0))) = false := by simp [Instr.wf, blockFits]
theorem test_wf_cell : Instr.wf (.blockReceive 0 0 false (List.replicate 8 0) 0 [List.replicate 79 0]) = false := by decide +kernel
theorem test_wf_firewall : Instr.wf (.fenceReject 0 [⟨24, 0, none⟩]) = false := by decide
theorem test_wf_rearm : Instr.wf (.errRearm 0 0 0x3C) = false := by decide
theorem test_wf_lock : Instr.wf (.lock 0 0 0x10) = false := by decide
theorem test_wf_write : Instr.wf (.hostWindowAccess 0 0 .bar2 0 4 (some []) []) = false := by decide
theorem test_wf_read : Instr.wf (.hostWindowAccess 0 0 .bar2 0 0 none []) = false := by decide
theorem test_wf_message (n : Nat) (h : 250 < n) : Instr.wf (.mctpControl 1 (List.replicate n 0)) = false := by
  unfold Instr.wf
  simp only [List.length_replicate]
  exact decide_eq_false (by omega)
theorem test_wf_chain : Instr.wf (.chain ⟨0, 0, 0, 0, 0⟩ (List.replicate 14 ⟨0, 0⟩) none) = false := by decide

/-! ## States of the witnesses -/

/-- A module that is ready, its memory all zeros, with some registers set. -/
def up (l : List (Nat × Word)) : State :=
  l.foldl (fun s q => s.wr q.1 q.2) { State.reset with boot := { State.reset.boot with phase := .ready }, fog := [] }

/-- A register of a page, for up. -/
def reg (p : Page) (o : Nat) (w : Word) : Nat × Word := (p.base + o, w)

/-- A power domain that is on. -/
def domOn (n : Nat) : Nat × Word := (0x310000 + 4 * n, 0x80000000)

/-- A die link at full width. -/
def linkFull (n : Nat) : Nat × Word := reg (Pg.d2d n) Reg.BLK_STAT 0

/-- A slot that holds an image for every die. -/
def slotOf (num : Nat) : Slot :=
  { num := num, base := 0, len := 1048576, dieMask := 15, epoch := 0, band := 0, prot := 0, halfWidth := 0, fp16 := false, frameCount := 2, seqBound := 8,
    frameTable := 0, carryTable := 0, carryCount := 0, scalarTable := 0, scalarCount := 0, refuses := 0, runs := 0 }

/-- An image frame of slot 0 issues at stamp 0. -/
def running (l : List (Nat × Word)) : State :=
  let s := up l
  { s with slots := [slotOf 0], running := some 0, eng := { s.eng with frame := { s.eng.frame with kind := .image } } }

/-- A word at stamp 0 of die 0. -/
def word (unit : BitVec 8) (args : BitVec 88) : SWord := ⟨0, 0, unit, 0, args⟩

/-- MayIssue, as a computation. -/
def mayIssue (s : State) (w : SWord) (kind op : Nat) (check : State → WordCtx → RawWord → List Finding) : Bool :=
  let u := s.atWord w
  u.canIssue w.stamp.toNat && u.runsOn w.die
    && (firstFinding (u.unitCheck w.die kind w.unit.toNat ++ badWord (decide (lastStamp u.eng.frame.len < w.stamp.toNat))
      ++ check u (u.issueCtx w.die) ⟨w.stamp.toNat, kind, w.unit.toNat, op, w.args⟩)).isNone

theorem mayIssue_of {s : State} {w : SWord} {kind op : Nat} {check : State → WordCtx → RawWord → List Finding} (h : mayIssue s w kind op check = true) :
    (s.atWord w).MayIssue w kind op check := by
  simp only [mayIssue, Bool.and_eq_true, Option.isNone_iff_eq_none] at h
  exact ⟨h.1.1, h.1.2, h.2⟩

/-- A Rachis word's ARGS. -/
def rargs (dst sa sb imm : Nat) : BitVec 88 := BitVec.ofNat 88 (dst * 2 ^ 80 + sa * 2 ^ 72 + sb * 2 ^ 64 + imm)

/-! ## Queue -/

theorem witness_EmptyQueueIdles : State.reset.pending = [] := rfl

/-! ## Words -/

/-- The two hypotheses of a scalar word: its registers are canonical, and it may issue. -/
theorem scalar_of {w : SWord} {op : Nat} (h : (Regs.wf ((running []).atWord w) && mayIssue (running []) w 5 op State.rachisCheck) = true) :
    Regs.wf ((running []).atWord w) = true ∧ ((running []).atWord w).MayIssue w 5 op State.rachisCheck := by
  simp only [Bool.and_eq_true] at h
  exact ⟨h.1, mayIssue_of h.2⟩

theorem witness_IntegerWords : ∀ q ∈ [(0x01, rargs 247 0 0 0xFFFFFFFFFFFFFFFF), (0x02, rargs 1 2 3 0), (0x03, rargs 1 2 0 1), (0x04, rargs 1 2 3 0),
      (0x05, rargs 1 2 3 0), (0x06, rargs 1 2 3 0), (0x07, rargs 1 2 3 0), (0x08, rargs 1 2 3 0), (0x09, rargs 1 2 0 63), (0x0A, rargs 1 2 0 63)],
      let u := (running []).atWord (word 0 q.2)
      Regs.wf u = true ∧ u.MayIssue (word 0 q.2) 5 q.1 State.rachisCheck :=
  fun q hq => scalar_of (by revert q; decide +kernel)

theorem witness_FloatWords : ∀ q ∈ [(0x0B, rargs 1 2 3 0), (0x0C, rargs 1 2 3 0), (0x0D, rargs 1 2 3 0), (0x0E, rargs 1 2 3 0), (0x0F, rargs 1 2 3 0),
      (0x10, rargs 1 2 3 0), (0x11, rargs 1 2 0 0), (0x12, rargs 1 2 0 0)],
      let u := (running []).atWord (word 0 q.2)
      Regs.wf u = true ∧ u.MayIssue (word 0 q.2) 5 q.1 State.rachisCheck :=
  fun q hq => scalar_of (by revert q; decide +kernel)

theorem witness_ScalarMemoryWords : ∀ q ∈ [(0x13, rargs 1 0 0 0x020000000000), (0x14, rargs 1 0 0 0x020000000008), (0x15, rargs 0 0 1 0x02000BFFFFFC),
      (0x16, rargs 0 0 1 0x02000BFFFFF8)],
      let u := (running []).atWord (word 0 q.2)
      Regs.wf u = true ∧ u.MayIssue (word 0 q.2) 5 q.1 State.rachisCheck :=
  fun q hq => scalar_of (by revert q; decide +kernel)

theorem witness_ScalarMemoryWords_ldscale : let u := (running [domOn 19]).atWord (word 0 (rargs 1 0 0 0x4FFF))
    Regs.wf u = true ∧ u.MayIssue (word 0 (rargs 1 0 0 0x4FFF)) 5 0x17 State.rachisCheck :=
  ⟨by decide +kernel, mayIssue_of (by decide +kernel)⟩

theorem witness_ScalarRegisters : Regs.wf State.reset = true ∧ 3 < 4 ∧ 255 < 256 ∧ 247 ≠ 0 ∧ 247 < 248 ∧ 252 ≤ 255 ∧ (0, 1) ≠ (3, 247) := by decide

/-- ARGS of an event word: HOST, CTR and the value. -/
def eargs (host ctr value : Nat) : BitVec 88 := BitVec.ofNat 88 (host * 2 ^ 87 + ctr * 2 ^ 64 + value * 2 ^ 32)

theorem witness_EventWords_signal : ((running []).atWord (word 0 (eargs 0 4095 1))).MayIssue (word 0 (eargs 0 4095 1)) 0x9 0 (eventCheck false) :=
  mayIssue_of (by decide +kernel)

theorem witness_EventWords_noOperation : ((running []).atWord (word 0 0)).MayIssue (word 0 0) 0 0 (fun _ _ r => badWord (r.args != 0)) :=
  mayIssue_of (by decide +kernel)

/-- A word that may issue is free to be examined. -/
theorem mayWait_of {s : State} {w : SWord} {kind op : Nat} {check : State → WordCtx → RawWord → List Finding} (h : mayIssue s w kind op check = true) :
    (s.atWord w).MayWait w kind op check := by
  obtain ⟨h1, h2, h3⟩ := mayIssue_of h
  simp only [State.canIssue, Bool.and_eq_true, beq_iff_eq] at h1
  exact ⟨h1.1.1, h1.2, h2, h3⟩

theorem witness_EventWords_wait : ((running []).atWord (word 0 (eargs 1 5 0))).MayWait (word 0 (eargs 1 5 0)) 0x8 0 (eventCheck true)
    ∧ ((running []).atWord (word 0 (eargs 1 5 0))).eventMet 5 0 = true :=
  ⟨mayWait_of (by decide +kernel), by decide +kernel⟩

theorem witness_EventWords_waitUnmet : ((running []).atWord (word 0 (eargs 0 5 1))).MayWait (word 0 (eargs 0 5 1)) 0x8 0 (eventCheck true)
    ∧ ((running []).atWord (word 0 (eargs 0 5 1))).eventMet 5 1 = false :=
  ⟨mayWait_of (by decide +kernel), by decide +kernel⟩

/-! ## Words of the movers and the engines -/

/-- Memory with bytes at an address. -/
def holding (s : State) (a : Nat) (l : List Byte) : State := s.putBytes a l

theorem witness_MoverWords_copy : ((running []).atWord (word 0 0x400000400000#88)).MayIssue (word 0 0x400000400000#88) 4 1 State.moverCheck :=
  mayIssue_of (by decide +kernel)

theorem witness_MoverWords_copyFar : ((running []).atWord (word 0 0x20400000400000#88)).MayIssue (word 0 0x20400000400000#88) 4 1 State.moverCheck :=
  mayIssue_of (by decide +kernel)

theorem witness_MoverWords_stread : ((running [domOn 160]).atWord (word 7 0x8800#88)).MayIssue (word 7 0x8800#88) 4 2 State.moverCheck :=
  mayIssue_of (by decide +kernel)

theorem witness_MoverWords_stwrite : ((running [domOn 160]).atWord (word 0 0x8800#88)).MayIssue (word 0 0x8800#88) 4 3 State.moverCheck :=
  mayIssue_of (by decide +kernel)

/-- An XFER block: 2^32 bytes from stack 0 to stack 1, class 3. -/
def xferBlock : List Byte := leBytes 8 0 ++ leBytes 8 0x001000000000 ++ leBytes 8 0x100000000 ++ leBytes 2 4095 ++ leBytes 6 3

theorem witness_MoverWords_xfer : ((holding (running []) 0x020000000000 xferBlock).atWord (word 0 0)).MayIssue (word 0 0) 4 5 State.moverCheck
    ∧ xferBad (((holding (running []) 0x020000000000 xferBlock).atWord (word 0 0)).bytesAt 0x020000000000 32) = false :=
  ⟨mayIssue_of (by decide +kernel), by decide +kernel⟩

/-- A frame in which Tiller 0 of die 0 has its B buffer 0 loaded, and SR5 holds a value. -/
def tiller (sr5 : Word) : State :=
  let s := running [domOn 0, reg (Pg.rch 0) (Reg.RCH_SRn_LO + 40) sr5]
  { s with eng := { s.eng with bbufs := [⟨0, 0, 0, 0, 0, none, 32, [], [], 0⟩] } }

/-- ARGS of a pass: INT8 with 16 rows into granule 1, from SR5; and of a record pass over granule 2. -/
def sumArgs (sreg : Nat) : BitVec 88 := BitVec.ofNat 88 (2 ^ 52 + 0x10 * 2 ^ 46 + 2 * 2 ^ 44 + sreg * 2 ^ 36)
def maxArgs : BitVec 88 := BitVec.ofNat 88 (0x200 * 2 ^ 64 + 2 ^ 52 + 2 * 2 ^ 44)

theorem witness_PassWords : ∀ q ∈ [(1, sumArgs 0), (2, sumArgs 0), (3, maxArgs), (4, maxArgs), (5, maxArgs), (6, maxArgs), (7, sumArgs 5)],
    ((tiller 30).atWord (word 0 q.2)).MayIssue (word 0 q.2) 1 q.1 State.passCheck :=
  fun q hq => mayIssue_of (by revert q; decide +kernel)

theorem witness_PassWords_scale : ((tiller 30).atWord (word 0 (sumArgs 5))).passScale 0 0 7 (passArgs (sumArgs 5)) = some 30 := by decide +kernel

theorem witness_PassWords_noScale : ((tiller 32).atWord (word 0 (sumArgs 5))).MayIssue (word 0 (sumArgs 5)) 1 7 State.passCheck
    ∧ ((tiller 32).atWord (word 0 (sumArgs 5))).passScale 0 0 7 (passArgs (sumArgs 5)) = none :=
  ⟨mayIssue_of (by decide +kernel), by decide +kernel⟩

theorem witness_LoadBWord : ((tiller 0).atWord (word 0 0)).MayIssue (word 0 0) 1 8 State.loadBCheck := mayIssue_of (by decide +kernel)

/-- A pass of Tiller 0 of die 3 into granule 255, not saturated. -/
def aPass : Pass :=
  { die := 3, logical := 79, phys := 79, op := 1, stamp := 0, args := BitVec.ofNat 88 (255 * 2 ^ 52 + 0x10 * 2 ^ 46 + 2 * 2 ^ 44), word := 0, scale := 31, btile := [], bscale := [], step := 0,
    arows := [], out := [], satRow := none, replay := false, redo := none, dis := none }

theorem witness_PassCommits_oldest : ({ up [] with eng := { (up []).eng with passes := [aPass] } } : State).begin.oldestPass 3 79 = some aPass := by decide +kernel

theorem witness_PassCommits : State.reset.Sound ∧ aPass.satRow = none ∧ isSumPass aPass.op = true ∧ (passArgs aPass.args).acc = 2 ∧ (passArgs aPass.args).gran < 256
    ∧ aPass.scale < 32 := by
  refine ⟨⟨by decide +kernel, by decide +kernel⟩, ?_⟩
  decide +kernel

/-- A chain of one FP32 element; its input's exponent comes from SR5 when esc is set. -/
def chainHeadArgs : BitVec 88 := BitVec.ofNat 88 (2 ^ 64 + 2 ^ 59 + 2 ^ 57)
def chainRest (esc : Nat) : List ChainWord :=
  [⟨2, BitVec.ofNat 88 (2 ^ 25 + esc * 2 ^ 24 + esc * 5 * 2 ^ 16)⟩, ⟨3, BitVec.ofNat 88 (0x20 * 2 ^ 64 + 2 ^ 25)⟩, ⟨0x16, 0⟩]

/-- Protection mode Guarded. -/
def guarded : Nat × Word := reg Pg.trade Reg.TRADE_MODE 1

def awn (l : List (Nat × Word)) : State := running ([domOn 84, domOn 92] ++ l)

theorem witness_ChainGroup : ∀ l ∈ [[], [guarded]], ((awn l).atWord (word 0 chainHeadArgs)).MayIssue (word 0 chainHeadArgs) 2 1
      (fun v c _ => v.chainCheck c (chainWords (word 0 chainHeadArgs) (chainRest 0)))
    ∧ (((awn l).atWord (word 0 chainHeadArgs)).chainExps 0 (chainPlan (chainWords (word 0 chainHeadArgs) (chainRest 0)))).any (fun e => decide (e < -64) || decide (63 < e)) = false
    ∧ (chainPlan (chainWords (word 0 chainHeadArgs) (chainRest 0))).cycles = 1
    ∧ ((chainPlan (chainWords (word 0 chainHeadArgs) (chainRest 0))).outs[0]?).isSome = true
    ∧ ((awn l).atWord (word 0 chainHeadArgs)).prot = l.length :=
  fun l hl => ⟨mayIssue_of (by revert l; decide +kernel), by revert l; decide +kernel, by decide +kernel, by decide +kernel, by revert l; decide +kernel⟩

theorem witness_ChainGroup_range : ((awn [reg (Pg.rch 0) (Reg.RCH_SRn_LO + 40) 64]).atWord (word 0 chainHeadArgs)).MayIssue (word 0 chainHeadArgs) 2 1
      (fun v c _ => v.chainCheck c (chainWords (word 0 chainHeadArgs) (chainRest 1)))
    ∧ (((awn [reg (Pg.rch 0) (Reg.RCH_SRn_LO + 40) 64]).atWord (word 0 chainHeadArgs)).chainExps 0 (chainPlan (chainWords (word 0 chainHeadArgs) (chainRest 1)))).any
      (fun e => decide (e < -64) || decide (63 < e)) = true :=
  ⟨mayIssue_of (by decide +kernel), by decide +kernel⟩

/-- A Culm block of one element in the image, of FP32 and in QUANT to BF16. -/
def culm (op : Nat) (l : List (Nat × Word)) : State :=
  holding (running ([domOn 148, domOn 160] ++ l)) 0 (leBytes 4 1 ++ List.replicate 0x55 0 ++ leBytes 7 (if op = 5 then 1 else 0))

def culmWordArgs : BitVec 88 := BitVec.ofNat 88 (2 ^ 45 + 3 * 2 ^ 30)

theorem witness_CulmWords : ∀ q ∈ [1, 2, 3, 4, 5, 6], ∀ l ∈ [[], [guarded]], ((culm q l).atWord (word 0 culmWordArgs)).MayIssue (word 0 culmWordArgs) 3 q State.culmCheck
    ∧ ((culm q l).atWord (word 0 culmWordArgs)).prot = l.length
    ∧ (culmBlock ((((culm q l).atWord (word 0 culmWordArgs)).culmBytes (((culm q l).atWord (word 0 culmWordArgs)).issueCtx 0) culmWordArgs).take 128)).n = 1 :=
  fun q hq l hl => ⟨mayIssue_of (by revert q l; decide +kernel), by revert q l; decide +kernel, by revert q l; decide +kernel⟩

/-! ## States of the other witnesses, and hypotheses as computations -/

/-- Every domain is on and every die link at full width. -/
def awake (l : List (Nat × Word)) : State :=
  ((List.range 4).map linkFull ++ l).foldl (fun s q => s.wr q.1 q.2) { up [] with regs := (List.range 211).map domOn }

def accepts (u : State) (port off : Nat) : Bool := u.boot.phase.commandable && port == u.owner && (u.regDenial (.port port) off).isNone

theorem accepts_of {u : State} {port off : Nat} (h : accepts u port off = true) : u.Accepts port off := by
  simp only [accepts, Bool.and_eq_true, beq_iff_eq, Option.isNone_iff_eq_none] at h
  exact ⟨h.1.1, h.1.2, h.2⟩

def unlocked (u : State) (p : Page) (o : Nat) : Bool :=
  match rowOf p.kind o with
  | some r => r.rl == 0 || u.fldP p Reg.LOCK 0 0 != 1
  | none => true

theorem unlocked_of {u : State} {p : Page} {o : Nat} (h : unlocked u p o = true) : u.Unlocked p o := by
  intro r hr
  simpa [unlocked, hr] using h

/-- A register of a page that a write reaches and no LOCK holds. -/
def open_ (u : State) (p : Page) (o : Nat) : Bool := accepts u 0 (p.base + o) && unlocked u p o

theorem open_of {u : State} {p : Page} {o : Nat} (h : open_ u p o = true) : u.Accepts 0 (p.base + o) ∧ u.Unlocked p o := by
  simp only [open_, Bool.and_eq_true] at h
  exact ⟨accepts_of h.1, unlocked_of h.2⟩

def sound (s : State) : Bool := Regs.wf s && Memory.wf s

theorem sound_of {s : State} (h : sound s = true) : s.Sound := by
  simp only [sound, Bool.and_eq_true] at h
  exact h

def collCell (u : State) (typ : Nat) (f : Cell → Bool) (a : Arrived) (n : Nat) (l : Leg) : Bool :=
  match u.takeHere typ with
  | some (b, v) => b == a && a.cell.good && n == a.cell.ctx % 4096 && (v.collEntry n).valid && (v.collEntry n).id == a.cell.ctx
      && (v.collEntry n).legFrom a (f a.cell) == some l
  | none => false

/-- A state without the oldest delivered cell of a TYPE. -/
def taken (u : State) (typ : Nat) : State := (u.takeHere typ).elim u fun q => q.2

theorem collCell_of {u : State} {typ : Nat} {f : Cell → Bool} {a : Arrived} {n : Nat} {l : Leg} (h : collCell u typ f a n l = true) :
    u.CollCell typ f a (taken u typ) n l := by
  unfold collCell at h
  unfold taken
  split at h
  · rename_i b v hb
    simp only [Bool.and_eq_true, beq_iff_eq] at h
    obtain ⟨⟨⟨⟨⟨rfl, h2⟩, h3⟩, h4⟩, h5⟩, h6⟩ := h
    rw [hb]
    exact ⟨hb, h2, h3, h4, h5, h6⟩
  · cases h

def here (u : State) (typ : Nat) (a : Arrived) : Bool :=
  match u.takeHere typ with
  | some (b, _) => b == a
  | none => false

theorem here_of {u : State} {typ : Nat} {a : Arrived} (h : here u typ a = true) : u.takeHere typ = some (a, taken u typ) := by
  unfold here at h
  unfold taken
  split at h
  · rename_i b v hb
    simp only [beq_iff_eq] at h
    subst h
    rw [hb]; rfl
  · cases h

def starts (u : State) (port ring kind : Nat) (bad : Desc → Bool) (d : Desc) : Bool :=
  u.front port ring kind == some d && (u.seen d).isNone && !(d.headerBad || bad d) && u.waitMet d

theorem starts_of {u : State} {port ring kind : Nat} {bad : Desc → Bool} {d : Desc} (h : starts u port ring kind bad d = true) :
    u.Starts port ring kind bad d := by
  simp only [starts, Bool.and_eq_true, beq_iff_eq, Option.isNone_iff_eq_none, Bool.not_eq_true'] at h
  exact ⟨h.1.1.1, h.1.1.2, h.1.2, h.2⟩

/-- A state with a cell delivered locally. -/
def withCell (s : State) (a : Arrived) : State := { s with fab := { s.fab with here := [a] } }

/-- A cell with a right CRC that came in by a port. -/
def cellOf (typ port ctx seq src : Nat) (pl : List Byte) : Arrived :=
  let c : Cell := ({ Cell.blank typ 0 pl with ctx := ctx, seq := seq, src := src } : Cell).sealed
  ⟨0, port, c.cls, 0, none, c⟩

/-! ## Fabric words, streams and messages -/

/-- A collective block: SUM of one FP32 element, with WINDOW 1. -/
def collBytes : List Byte :=
  leBytes 2 0 ++ leBytes 1 1 ++ leBytes 5 0 ++ leBytes 4 1 ++ leBytes 4 0 ++ leBytes 8 (spadBase 0) ++ leBytes 8 (spadBase 0 + 0x1000) ++ leBytes 2 1

def member (x : Starter) : Member := ⟨x, 0, 0, 0, 0, [], 0, 0, false⟩

/-- A frame whose image holds that block, on a module that is the only member of collective 0. -/
def collFrame : State := holding (running [(0x610000, 0xE0000000)]) 0 collBytes

/-- The same with an instance that a CSTART of a die's block began, of a number of elements. -/
def collBegun (die blk count : Nat) : State :=
  let s := collFrame
  { s with coll := { s.coll with insts := [s.newInst { collBlock collBytes with count := count } 0 0 (member (.word die blk))] } }

theorem witness_FabricWords_send : let u := (running []).atWord (word 63 0)
    u.MayIssue (word 63 0) 6 1 State.fabricCheck ∧ u.storeUsed + (sendArgs 0).nc ≤ storeCells ∧ (u.sendStream (streamOf (word 63 0))).failed = false :=
  ⟨mayIssue_of (by decide +kernel), by decide +kernel, by decide +kernel⟩

theorem witness_FabricWords_full : let u := (collBegun 3 64 8388608).atWord (word 0 0)
    u.MayIssue (word 0 0) 6 1 State.fabricCheck ∧ storeCells < u.storeUsed + (sendArgs 0).nc :=
  ⟨mayIssue_of (by decide +kernel), by decide +kernel⟩

theorem witness_FabricWords_recv : let s := (running []).setRecv 0 { RecvStream.idle with present := [0] }
    ∀ x ∈ [(s, true), (running [], false)], let u := x.1.atWord (word 0 0)
      u.MayWait (word 0 0) 7 1 State.fabricCheck
        ∧ ((u.setRecv 0 { u.recvStream 0 with c := (u.recvStream 0).p }).recvStream 0).has (recvArgs 0).nc = x.2 := by
  intro s x hx
  simp only [List.mem_cons, List.not_mem_nil, or_false] at hx
  rcases hx with rfl | rfl
  · exact ⟨mayWait_of (by decide +kernel), by decide +kernel⟩
  · exact ⟨mayWait_of (by decide +kernel), by decide +kernel⟩

theorem witness_FabricWords_cstart : let u := collFrame.atWord (word 0 0)
    u.MayIssue (word 0 0) 6 0x10 State.fabricCheck ∧ u.tableServes (u.collBlockOf (u.issueCtx 0) (rawOf (word 0 0) 6 0x10)) = true
      ∧ u.storeUsed + (u.wireCells (u.collBlockOf (u.issueCtx 0) (rawOf (word 0 0) 6 0x10)) + 1) ≤ storeCells :=
  ⟨mayIssue_of (by decide +kernel), by decide +kernel, by decide +kernel⟩

theorem witness_FabricWords_cwait : (collFrame.atWord (word 0 0)).MayWait (word 0 0) 7 0x10 State.fabricCheck
    ∧ (collFrame.atWord (word 0 0)).cwaitMet 0 (collBlk 0) = true
    ∧ ((collBegun 0 0 1).atWord (word 0 0)).MayWait (word 0 0) 7 0x10 State.fabricCheck ∧ ((collBegun 0 0 1).atWord (word 0 0)).cwaitMet 0 (collBlk 0) = false :=
  ⟨mayWait_of (by decide +kernel), by decide +kernel, mayWait_of (by decide +kernel), by decide +kernel⟩

/-- Stream 255 bound to node 0, and a DATA cell for it. -/
def bound (c : Nat) : State := (awake []).setRecv 255 { RecvStream.idle with bound := true, sstream := 255, c := c }

def dataOf (epoch seq : Nat) : Arrived :=
  let c : Cell := ({ Cell.blank 1 0 [1] with epoch := epoch, ctx := 65535, seq := seq } : Cell).sealed
  ⟨0, 24, c.cls, 0, none, c⟩

theorem witness_StreamData_epoch : ∀ q ∈ [(128, true, false), (127, false, true), (0, false, false)],
    let u := (withCell (awake []) (dataOf q.1 0)).atTime 1
    here u 1 (dataOf q.1 0) = true ∧ behind ((taken u 1).epochDist q.1) = q.2.1 ∧ ahead ((taken u 1).epochDist q.1) = q.2.2 := by decide +kernel

theorem witness_StreamData_crc : let a : Arrived := { dataOf 0 0 with cell := { (dataOf 0 0).cell with crc := 0 } }
    here ((withCell (awake []) a).atTime 1) 1 a = true ∧ a.cell.good = false := by decide +kernel

theorem witness_StreamData_unbound : ((taken ((withCell (awake []) (dataOf 0 0)).atTime 1) 1).recvStream 255).bound = false ∧ (dataOf 0 0).cell.good = true := by
  decide +kernel

/-- Below the window, at its last cell, and at the first cell past it. -/
theorem witness_StreamData_window : ∀ q ∈ [(1, 0), (0, 63), (0, 64)], let u := (withCell (bound q.1) (dataOf 0 q.2)).atTime 1
    here u 1 (dataOf 0 q.2) = true ∧ (dataOf 0 q.2).cell.good = true ∧ ((taken u 1).recvStream 255).bound = true
      ∧ ((taken u 1).recvStream 255).src = (dataOf 0 q.2).cell.src ∧ ((taken u 1).recvStream 255).sstream = 65535 / 256
      ∧ unwrap ((taken u 1).recvStream 255).c q.2 = q.2 ∧ ((taken u 1).recvStream 255).p = 0 ∧ ((taken u 1).recvStream 255).present = []
      ∧ ((taken u 1).recvStream 255).c = q.1 ∧ ringCells ((taken u 1).recvStream 255).log = 64 := by decide +kernel

/-- A send stream with one cell sent and unacknowledged. -/
def sending (retries : Nat) : State :=
  ((awake []).setSend 255 { SendStream.fresh with bound := true, dstream := 7, next := 1, cells := [⟨0, [], 0, some 0, false⟩], timer := ⟨none, none, retries⟩ }).setRecv 255
    { RecvStream.idle with since := some 0 }

def ackCell : Arrived := cellOf 2 24 (255 * 256 + 7) 1 0 []

theorem witness_StreamAcks : let u := (withCell (sending 0) ackCell).atTime 100000
    (u.recvStream 255).since = some 0 ∧ 0 + 256 ≤ u.wall ∧ here u 2 ackCell = true ∧ ackCell.cell.good = true
      ∧ ((taken u 2).sendStream 255).bound = true ∧ ((taken u 2).sendStream 255).dst = ackCell.cell.src
      ∧ ((taken u 2).sendStream 255).dstream = ackCell.cell.ctx % 256 := by decide +kernel

theorem witness_StreamAcks_resend : ∀ q ∈ [(0, true), (15, false)], let u := (sending q.1).atTime 100000
    (u.sendStream 255).cells = [⟨0, [], 0, some 0, false⟩] ∧ 0 + u.rtoOf (u.sendStream 255).timer ≤ u.wall
      ∧ decide ((u.sendStream 255).timer.retries < u.retryMax) = q.2 := by decide +kernel

def echoing : State := let s := awake []; s.setFab { s.fab with echo := some ⟨9, 0, true, 0⟩ }

theorem witness_Echoes : accepts ((awake []).atTime 1) 0 (Pg.rte.base + Reg.RTE_ECHO_CMD) = true ∧ ((awake []).atTime 1).fab.echo = none
    ∧ bit 0x80000000 31 = true ∧ bit 0x7FFFFFFF 31 = false ∧ accepts (echoing.atTime 1) 0 (Pg.rte.base + Reg.RTE_ECHO_CMD) = true
    ∧ (echoing.atTime (2 ^ 20)).fab.echo = some ⟨9, 0, true, 0⟩ ∧ 0 + 2 ^ 20 ≤ (echoing.atTime (2 ^ 20)).wall := by decide +kernel

theorem witness_Echoes_cells : let a := cellOf 0xA 3 5 0 0 []
    let b := cellOf 0xB 3 9 0 0 []
    here ((withCell (awake []) a).atTime 1) 0xA a = true ∧ a.cell.good = true ∧ here ((withCell echoing b).atTime 1) 0xB b = true ∧ b.cell.good = true
      ∧ (taken ((withCell echoing b).atTime 1) 0xB).fab.echo = some ⟨9, 0, true, 0⟩ ∧ b.cell.ctx = 9 := by decide +kernel

theorem witness_ManagementMessages : ∀ q ∈ [(0, 0), (7, 0x77), (8, 0x78)], let a := cellOf 0xC 3 0 0 5 []
    let u := (withCell (awake [reg Pg.rte Reg.RTE_MGMT_STAT (BitVec.ofNat 32 q.2)]) a).atTime 1
    accepts u 0 (Pg.rte.base + Reg.RTE_MGMT_CMD) = true ∧ accepts u 0 (Pg.rte.base + Reg.RTE_MGMT_POP) = true ∧ here u 0xC a = true ∧ a.cell.good = true
      ∧ (taken u 0xC).fldP Pg.rte Reg.RTE_MGMT_STAT 3 0 = q.1 := by decide +kernel

/-! ## Collectives -/

/-- Tables: a root with a child on port 3, a leaf below port 5, and a ring between nodes 7 and 9. -/
def tabRoot : List (Nat × Word) := [(0x610000, 0xE0000000), (0x610004, 8), (0x610008, 1), (0x610014, 0x10000)]
def tabLeaf : List (Nat × Word) := [(0x610000, 0xC0050000), (0x610008, 0x00010001)]
def tabRing : List (Nat × Word) := [(0x610000, 0xD0000000), (0x610008, 1), (0x61000C, 0x00070009)]

/-- An instance of one element under a table. -/
def instOf (l : List (Nat × Word)) (op : Nat) : Inst := (awake l).newInst { collBlock collBytes with op := op } 0 0 (member (.word 0 0))

def active (l : List (Nat × Word)) (i : Inst) : State := let s := awake l; { s with coll := { s.coll with insts := [i] } }

def childFp : Arrived := cellOf 3 3 0 0 0 ((awake tabRoot).ownFp (instOf tabRoot 1))

/-- A parent's fingerprint, that of the instance but for its first byte. -/
def parentFp (first : Byte) : Arrived := cellOf 3 5 0 0 0 (((awake tabLeaf).ownFp (instOf tabLeaf 1)).set 0 first ++ [1])

theorem witness_CollectiveAgreement_child : let u := (withCell (active tabRoot (instOf tabRoot 1)) childFp).atTime 1
    collCell u 3 (fun _ => false) childFp 0 (.child 3) = true ∧ (taken u 3).inst? 0 = some (instOf tabRoot 1)
      ∧ ((instOf tabRoot 1).leg (.child 3)).fp = none := by decide +kernel

theorem witness_CollectiveAgreement_parent : ∀ q ∈ [((1 : Byte), true), (9, false)], let a := parentFp q.1
    let u := (withCell (active tabLeaf (instOf tabLeaf 1)) a).atTime 1
    let i := instOf tabLeaf 1
    let r := (taken u 3).cack (i.setLeg { i.leg .parent with fp := some (a.cell.payload.take 32) }) .parent
    collCell u 3 (fun _ => false) a 0 .parent = true ∧ (taken u 3).inst? 0 = some i ∧ bit (leAt a.cell.payload 0x20 1) 0 = true
      ∧ i.inst = cellInst a.cell ∧ i.agreed = false ∧ r.2.member.isSome = true ∧ fpAgree (a.cell.payload.take 32) (r.1.ownFp r.2) = q.2 := by
  decide +kernel

/-- At the last slot of the window memory, past it, and waiting already. -/
theorem witness_CollectiveAgreement_accept : ∀ q ∈ [(8192, false), (8193, false), (8193, true)],
    let i : Inst := { instOf tabRoot 1 with ref := some [], w := q.1, waited := q.2 }
    let u := (active tabRoot i).atTime 1
    u.inst? 0 = some i ∧ i.accepted = false ∧ u.slotsUsed = 0 := by decide +kernel

def accepted (i : Inst) : Inst := { i with accepted := true, w := 1 }

theorem witness_CollectiveCells_tree : let i := accepted (instOf tabRoot 1)
    let a := cellOf 4 3 0 0 0 [1]
    let u := (withCell (active tabRoot i) a).atTime 1
    let v := taken u 4
    collCell u 4 (fun _ => false) a 0 (.child 3) = true ∧ v.inst? 0 = some i ∧ i.accepted = true ∧ i.inst = cellInst a.cell ∧ (v.collEntry 0).isMember = true
      ∧ (v.collEntry 0).ring = false ∧ cellSeg a.cell < v.segCount i ∧ cellNum a.cell < v.segCells i 0 ∧ (v.expected i 0).contains (.child 3) = true := by
  decide +kernel

theorem witness_CollectiveCells_ring : let i := accepted (instOf tabRing 7)
    let a := cellOf 4 9 0 0 9 [1]
    let u := (withCell (active tabRing i) a).atTime 1
    let v := taken u 4
    collCell u 4 (fun _ => false) a 0 .prev = true ∧ v.inst? 0 = some i ∧ i.inst = cellInst a.cell ∧ (v.collEntry 0).isMember = true ∧ (v.collEntry 0).ring = true
      ∧ cellSeg a.cell < v.segCount i ∧ cellNum a.cell < v.segCells i 0 ∧ behind (v.epochDist 0) = false ∧ ahead (v.epochDist 0) = false := by decide +kernel

theorem witness_CollectiveCells_early : let a := cellOf 4 9 0 0 9 [1]
    let u := (withCell (awake tabRing) a).atTime 1
    collCell u 4 (fun _ => false) a 0 .prev = true ∧ (taken u 4).inst? 0 = none ∧ (taken u 4).lateCell 0 0 .prev true = none := by decide +kernel

theorem witness_CollectiveCells_down : let i := accepted (instOf tabLeaf 1)
    let a := cellOf 5 5 0 0 0 [1]
    let u := (withCell (active tabLeaf i) a).atTime 1
    let v := taken u 5
    collCell u 5 (fun _ => false) a 0 .parent = true ∧ v.inst? 0 = some i ∧ i.inst = cellInst a.cell ∧ (v.collEntry 0).isMember = true
      ∧ behind (v.epochDist 0) = false ∧ ahead (v.epochDist 0) = false ∧ cellSeg a.cell < v.segCount i ∧ cellNum a.cell < v.segCells i 0 := by decide +kernel

/-- Released, taken before, and past the window. -/
theorem witness_CollectiveCells_window : let c := (cellOf 4 3 0 0 0 []).cell
    cellSeg c < 1 ∧ ((⟨0, [⟨.child 3, 0, [], false⟩], none, [], none, .none, false⟩ : Segment).up.any fun p => p.leg == .child 3 && p.cell == cellNum c) = true
      ∧ 0 ≤ cellSeg c ∧ 0 + 0 ≤ cellSeg c := by decide +kernel

/-- An instance with its fingerprint and a segment sent to the child, and one segment complete from it. -/
def outstanding : Inst :=
  let i := accepted (instOf tabRoot 1)
  i.setLeg { i.leg (.child 3) with sent := [⟨-1, 3, false⟩, ⟨1, 5, true⟩], since := some 0 }

def cackCell : Arrived := cellOf 6 3 0 (2 ^ 23 + 64) 0 (List.replicate 60 0 ++ [5, 0, 1])

theorem witness_CollectiveAcks_cell : let u := (withCell (active tabRoot outstanding) cackCell).atTime 1
    collCell u 6 (fun c => !cellTop c) cackCell 0 (.child 3) = true ∧ (taken u 6).inst? 0 = some outstanding ∧ outstanding.inst = cellInst cackCell.cell
      ∧ (outstanding.leg (.child 3)).sends = true ∧ cellTop cackCell.cell = true := by decide +kernel

theorem witness_CollectiveAcks_timers : let u := (active tabRoot outstanding).atTime (2 ^ 20)
    let x := outstanding.leg (legOf (.child 3))
    u.inst? 0 = some outstanding ∧ x.since = some 0 ∧ 0 + 256 ≤ u.wall ∧ x.sent = [⟨-1, 3, false⟩, ⟨1, 5, true⟩] ∧ 3 + u.rtoOf x.timer ≤ u.wall
      ∧ x.timer.retries < u.retryMax := by decide +kernel

theorem witness_CollectiveAcks_written : let i : Inst := { accepted (instOf tabRoot 1) with segs := [⟨0, [], none, [], some [], .pending, false⟩] }
    ((active tabRoot i).atTime 1).inst? 0 = some i ∧ i.member = some (member (.word 0 0)) ∧ (i.seg 0).dlv = .pending := by decide +kernel

theorem witness_CollectiveAborts : let i := accepted (instOf tabRoot 1)
    let a := cellOf 7 3 0 0 0 [1]
    let u := (withCell (active tabRoot i) a).atTime (2 ^ 30)
    u.inst? 0 = some i ∧ i.active + 2 ^ u.fldP Pg.coll Reg.COLL_CFG 4 0 ≤ u.wall ∧ collCell u 7 (fun _ => false) a 0 (.child 3) = true
      ∧ (taken u 7).inst? 0 = some i ∧ i.inst = cellInst a.cell := by decide +kernel

/-! ## Ports, routing and frames -/

/-- Port 23 in a line state, at full width or not. -/
def portIn (l : Line) (wide : Bool) (spoiled rx : Nat) : State :=
  let s := awake []
  (s.setPort 23 { s.port 23 with line := l, wide := wide, spoiled := spoiled, rxFailed := rx, aligned := true, csym := List.replicate 9 0 }).portSync 23

/-- Every line state; codewords at the limit of 15 symbols and past it; blocks spoiled at the limit and below it. -/
theorem witness_BlockReception : ∀ l ∈ [Line.off, .down, .retention, .training, .full, .half], ∀ k ∈ [1, 2],
    (((portIn l true k 0).atTime 1).port 23).line = l ∧ (((portIn l true k 0).atTime 1).port 23).spoiled = k := by decide +kernel

theorem witness_BlockReception_errors : (∃ e ∈ [15, 16], 15 < e) ∧ ¬∃ e ∈ [15, 15], 15 < e := by decide

theorem witness_BlockTransmission : ((portIn .off true 0 0).atTime 1).fldP (Pg.fab 23) Reg.FAB_STAT 31 29 = 0
    ∧ ∀ q ∈ [(Line.training, 1), (.full, 2), (.half, 3)], ((portIn q.1 true 0 0).atTime 1).fldP (Pg.fab 23) Reg.FAB_STAT 31 29 = q.2 := by decide +kernel

/-- A port that loses its ninth, its second and its sixth wavelength. -/
theorem witness_PortLife_wavelength : ∀ q ∈ [(0, 9), (1, 8), (31, 4)], let u := (portIn .full true 0 q.1).atTime 1
    (u.port 23).line = .full ∧ bit (u.port 23).rxFailed 8 = false ∧ goodWl (u.port 23).rxFailed = q.2 := by decide +kernel

/-- A LINK cell of node 0x201 that offers full width or not. -/
def linkCell (half : Byte) : Arrived := cellOf 0xD 23 0 0 0 [1, 2, 3, half]

theorem witness_PortLife_link : ∀ q ∈ [(Line.training, (0 : Byte)), (.training, 2), (.full, 0)],
    let s := portIn q.1 true 0 0
    let u := ({ s with fab := { s.fab with inbox := [linkCell q.2] } } : State).atTime (2 ^ 24)
    u.fab.inbox.find? (isLinkFrom 23) = some (linkCell q.2) ∧ (u.port 23).line = q.1 ∧ (u.port 23).aligned = true ∧ (u.port 23).wide = true
      ∧ bit (leAt (linkCell q.2).cell.payload 3 1) 1 = decide (q.2 = 2) := by decide +kernel

theorem witness_PortLife_timer : let u := (portIn .full true 0 0).atTime (2 ^ 24)
    u.portUp 23 = true ∧ (u.port 23).linkAt + 2 ^ 24 ≤ u.wall := by decide +kernel

theorem witness_LasersAndSideband : bit ((awake []).num Pg.hub Reg.HUB_FENCE_ISO) 23 = false ∧ (∃ k < 9, Reg.FAB_SB_RXPWRW + 32 = Reg.FAB_SB_RXPWRW + 4 * k)
    ∧ (∀ k < 9, Reg.FAB_SB_RXPWRW + 36 ≠ Reg.FAB_SB_RXPWRW + 4 * k)
    ∧ bit ((awake [reg Pg.hub Reg.HUB_FENCE_ISO 0x00800000]).num Pg.hub Reg.HUB_FENCE_ISO) 23 = true := by decide +kernel

/-- A state in which a cell has reached the switch. -/
def withInbox (s : State) (a : Arrived) : State := { s with fab := { s.fab with inbox := [a] } }

/-- A cell for node 7. -/
def toSeven (typ hops : Nat) : Arrived := let c : Cell := { Cell.blank typ 7 [] with hops := hops }; ⟨0, 24, c.cls, 0, none, c⟩

theorem witness_CellsRouted_local : let u := (withInbox (awake [reg Pg.rte Reg.RTE_CFG 0x00078001]) (toSeven 1 0)).atTime 1
    u.fab.inbox.find? (fun b => b.cell.typ != 0xD) = some (toSeven 1 0) ∧ (toSeven 1 0).cell.wellTyped = true ∧ (toSeven 1 0).direct = none
      ∧ (toSeven 1 0).cell.mc = false ∧ u.nodeValid = true ∧ (toSeven 1 0).cell.dst = u.node ∧ (toSeven 0xE 1).cell.wellTyped = false := by decide +kernel

/-- No route; both ports down; the primary up; the alternative up and chosen. -/
theorem witness_CellsRouted_away : ∀ q ∈ [((0x305 : Word), 24, false, false), (0xC0000305, 24, false, false), (0xC0000305, 5, true, false), (0xC0000305, 3, false, true)],
    let s := awake [(0x530000 + 28, q.1)]
    let u := (withInbox ((s.setPort q.2.1 { s.port 3 with line := .full }).portSync q.2.1) (toSeven 1 1)).atTime 1
    u.fab.inbox.find? (fun b => b.cell.typ != 0xD) = some (toSeven 1 1) ∧ ¬(u.nodeValid = true ∧ 7 = u.node)
      ∧ bit (u.routeOf 7) 31 = decide (q.1 ≠ 0x305) ∧ u.portUp (bits (u.routeOf 7) 4 0) = q.2.2.1 ∧ u.portUp (bits (u.routeOf 7) 12 8) = q.2.2.2 := by
  decide +kernel

theorem witness_CellsAgeAndStall : ∀ q ∈ [(0, true), (1, false)],
    let s := awake []
    let u := (s.setPort 23 { s.port 23 with queue := [toSeven 1 1], credits := List.replicate 8 q.1 }).atTime (2 ^ 30)
    (u.port 23).queue = [toSeven 1 1] ∧ (toSeven 1 1).cell.cls = 2 ∧ decide ((u.port 23).credits.getD 2 0 = 0) = q.2
      ∧ max (toSeven 1 1).at_ ((u.port 23).creditAt.getD 2 0) + 2 ^ u.fldP Pg.rte Reg.RTE_STALL 4 0 ≤ u.wall := by decide +kernel

/-- A state with a frame of a kind, and a fleet. -/
def framed (l : List (Nat × Word)) (k : FrameKind) (f : Fleet) : State :=
  let s := awake l
  { s with eng := { s.eng with frame := { s.eng.frame with kind := k }, fleet := f } }

/-- A follower, whose host asks for an idle frame, and which has missed 15 ticks. -/
def follower : State := framed [reg Pg.hub Reg.HUB_TICK_CFG 0x00070002, reg Pg.hub Reg.HUB_IDLE_REQ 1] .idle { Fleet.fresh with role := 2, misses := 15, num := 8 }

theorem witness_FrameBoundaries : (awake []).begin.reachBoundary.isSome = true ∧ (follower.begin.reachBoundary.map fun b =>
      (b.eng.fleet.role, b.eng.frame.ticked, b.eng.frame.kind, b.eng.fleet.misses)) = some (2, false, .idle, 15) := by decide +kernel

set_option maxRecDepth 100000 in
/-- A follower whose host asks for an idle frame while every power domain is on its way off. -/
theorem witness_FrameBoundaries_idle :
    let s := [reg Pg.hub Reg.HUB_TICK_CFG 0x00070002, reg Pg.hub Reg.HUB_IDLE_REQ 1].foldl (fun s q => s.wr q.1 q.2) { up [] with regs := [] }
    let ts := (List.range 211).map fun n => (⟨n, 2, 0, 0, 2 ^ 40, false⟩ : Transit)
    let s := { s with eng := { s.eng with fleet := { Fleet.fresh with role := 2 } }, pwr := { s.pwr with trans := ts } }
    ((s : State).begin.reachBoundary.map fun b =>
      let e := (b.endFrame [] []).boundaryWork
      let n := e.set64 Pg.hub Reg.HUB_FRAME_NUM_LO (e.frameNum + 1)
      let v := n.setFleet { e.eng.fleet with role := 2, num := e.eng.fleet.num + 1, misses := e.eng.fleet.misses }
      let v := v.setP Pg.hub Reg.HUB_FRAME_STAT 1 0 v.effectiveBand
      (v.chooseFrame v.frameLen (e.eng.fleet.num + 1)).2) = some true := by decide +kernel

/-- An image frame in whose slot die 3 has a word in each frame, fetched or not, with a run that is to go on. -/
def fetching (done : Bool) : State :=
  let s := holding (framed [] .image Fleet.fresh) 0 (List.replicate 0x2C 0 ++ [1] ++ List.replicate 63 0 ++ [1])
  { s with slots := [slotOf 0], running := some 0, host := { s.host with run := some ⟨⟨0, 0, 0, 0, []⟩, 0, 1, 5, 0, false, 0⟩ },
           eng := { s.eng with frame := { s.eng.frame with fetched := List.replicate 4 done, nextFetched := List.replicate 4 false } } }

theorem witness_StretchAndFetch : let u := (fetching false).atTime 1
    u.issuing = true ∧ bit u.runMask 3 = true ∧ u.eng.frame.fetched.getD 3 true = false ∧ u.slot? u.eng.frame.slot = some (slotOf 0) := by decide +kernel

theorem witness_StretchAndFetch_next : let u := (fetching true).atTime 1
    u.eng.frame.fetched.getD 3 true = true ∧ u.nextImage = some (slotOf 0, 1) ∧ u.hasWords (slotOf 0) 1 3 = true ∧ u.eng.frame.nextFetched.getD 3 false = false
      ∧ u.eng.frame.fetchError = none := by decide +kernel

/-- A tick from a node. -/
def tickCell (src : Nat) (idle : Byte) : Arrived := cellOf 8 3 0 0 src [9, 0, 0, 0, 0, 0, 0, 0, idle]

theorem witness_TicksAndIdleRequests : ∀ q ∈ [(6, (0 : Byte)), (7, 0), (7, 1)], let u := (withCell follower (tickCell q.1 q.2)).atTime 1
    here u 8 (tickCell q.1 q.2) = true ∧ (tickCell q.1 q.2).cell.good = true ∧ (taken u 8).eng.fleet.role = 2
      ∧ (taken u 8).fldP Pg.hub Reg.HUB_TICK_CFG 31 16 = 7 ∧ bit (leAt (tickCell q.1 q.2).cell.payload 8 1) 0 = decide (q.2 = 1) := by decide +kernel

theorem witness_TicksAndIdleRequests_ask : ∀ r ∈ [1, 2], let a := cellOf 9 3 0 0 7 []
    let u := (withCell (framed [] .idle { Fleet.fresh with role := r }) a).atTime 1
    here u 9 a = true ∧ a.cell.good = true ∧ (taken u 9).eng.fleet.role = r := by decide +kernel

/-! ## Bring-up, clocks, power and Stubble -/

/-- A module in a phase of bring-up. -/
def inPhase (p : Phase) : State := let s := awake []; { s with boot := { s.boot with phase := p } }

theorem witness_BringUpSteps : (∀ p ∈ [Phase.held, .settling, .locked], ((inPhase p).atTime 1).boot.phase = p) ∧ sound ((inPhase .ready).atTime 1) = true
    ∧ ((inPhase .ready).atTime 1).boot.phase ≠ .dead ∧ modResetKeeps (Pg.stb.base + Reg.STB_LAST_TRIP) = true ∧ modResetKeeps 0x210000 = true
    ∧ modResetKeeps 0x20FFFC = false ∧ modResetKeeps 0x214FFC = true ∧ modResetKeeps 0x215000 = false := by decide +kernel

/-- What boot finds when all is well but the chain, the replay-protected memory and the first stage of A may fail. -/
def finds (chain rpa : Bool) (a1 b1 : Fin 6) : BootFinds := ⟨chain, rpa, a1, 0, b1, 0, true, true, [], [], [], []⟩

theorem witness_BootRuns : ∀ w ∈ [true, false], ∀ n ∈ [true, false], ∀ d ∈ [true, false], ∀ a ∈ [(0 : Fin 6), 5], ∀ b ∈ [(0 : Fin 6), 5],
    let s := inPhase .powered
    let u := ({ s with boot := { s.boot with warm := w, nodeboot := n }, sec := { s.sec with seeded := d } } : State).atTime 1
    u.boot.phase = .powered ∧ u.fldP Pg.hub Reg.BLK_STAT 1 1 = 0 ∧ u.sec.seeded = d ∧ u.boot.warm = w ∧ u.boot.nodeboot = n
      ∧ u.sec.copyCause false (finds true true a b) = a.val ∧ u.sec.copyCause true (finds true true a b) = b.val := by decide +kernel

theorem witness_WarmReset : ((awake []).atTime 1).boot.phase.commandable = true ∧ 0 = ((awake []).atTime 1).owner ∧ 1 ≠ ((awake []).atTime 1).owner := by
  decide +kernel

theorem witness_InputAndReferenceLosses : ((inPhase .ready).atTime 1).boot.phase.commandable = true ∧ ((inPhase .locked).atTime 1).boot.phase = .locked
    ∧ ((inPhase .locked).atTime 1).pwr.coast = none ∧ ∀ p ∈ [Phase.ready, .recovery], let s := inPhase p
      let u := ({ s with pwr := { s.pwr with coast := some 0 } } : State).atTime 1
      u.pwr.coast = some 0 ∧ u.boot.phase = p := by decide +kernel

/-- A transition of each kind of domain to off and to on, from off and from retention, at the first and last domain of the kind. -/
theorem witness_PowerDomains : ∀ n ∈ [0, 83, 84, 159, 160, 171, 172, 175, 176, 199, 200, 206, 207, 210], ∀ q ∈ [(0, 2), (2, 0), (2, 1)],
    let x : Transit := ⟨n, q.1, q.2, 0, 1, false⟩
    let s := awake []
    let u := ({ s with pwr := { s.pwr with trans := [x] } } : State).atTime 1
    u.transit? n = some x ∧ x.stop ≤ u.wall := by decide +kernel

theorem witness_PowerDomains_engines : (domainInfo 84).owner = some (Pg.awn 0 0) ∧ (domainInfo 159).owner = some (Pg.culm 3 2)
    ∧ (awake []).eng.frame.kind = .none ∧ (awake []).eng.fleet.ready = 0 ∧ (awake []).boot.phase = .ready := by decide +kernel

/-- The hottest reading below the limit of 500 tenths and at it. -/
theorem witness_StubbleSamples : (∀ k ∈ [(499 : Int), 500],
      let v := (List.range 0x24).foldl (fun (v : State) i => v.setInput i ((List.replicate 36 (some k)).getD i none)) ((awake []).atTime 1)
      ((List.range 5).filter v.inputValid).map v.inputVal = List.replicate 5 k)
    ∧ ((awake []).atTime 1).stubbleRuns = true ∧ ((awake []).atTime 1).railServes 0x17 = true ∧ ((awake [reg Pg.hub Reg.BLK_STAT 2]).atTime 1).fldP Pg.hub Reg.BLK_STAT 1 1 = 1 := by decide +kernel

theorem witness_StubbleSamples_conditions : let u := ((awake [(condWord 63 + 12, 0x10000), (condStat 63, 0x80000000)]).setCond 63
      { CondState.fresh with held := some 7 }).atTime 2000000
    fld (u.rd (condWord 63 + 12)) 31 16 = 1 ∧ bit (u.rd (condStat 63)).toNat 31 = true ∧ bit (u.rd (condStat 63)).toNat 30 = false
      ∧ (u.condState 63).since + 1 * 2000000 ≤ u.wall ∧ (u.condState 63).held = some 7 ∧ 7 ≤ u.wall := by decide +kernel

/-! ## Host ports, descriptors, transfers -/

/-- Port 0's link is up, bus mastering is enabled, and completion ring 15 of 64 entries is enabled. -/
def hosted (l : List (Nat × Word)) : State :=
  let s := awake ([reg (Pg.pcie 0) (ringReg Reg.PCIE_CQq_CFG 15) 0xC0000006, reg (Pg.pcie 0) Reg.PCIE_LINK_STAT 0x200000] ++ l)
  { s with host := { s.host with pci := List.replicate 2 { PciPort.fresh with cfg := { PciPort.fresh.cfg with master := true } } } }

theorem witness_PciePorts : ((hosted []).atTime 5).fldP (Pg.pcie 0) Reg.PCIE_LINK_STAT 21 21 = 1
    ∧ (let s := hosted []; ({ s with host := { s.host with perst := [false, false] } } : State).atTime 2000000).linkMayRise 0 = true := by decide +kernel

/-- A ring that is off is enabled with size 6; one is given a size below 6; an enabled one another size; one is disabled. -/
theorem witness_Rings_enable : let p := Pg.pcie 0
    let bad := fun (was v : Word) => (fld was 31 31 = 1 ∧ fld v 4 0 ≠ fld was 4 0) ∨ (fld v 31 31 = 1 ∧ (fld v 4 0 < 6 ∨ 16 < fld v 4 0))
    accepts ((hosted []).atTime 1) 0 (p.base + ringReg Reg.PCIE_CQq_CFG 15) = true ∧ accepts ((hosted []).atTime 1) 0 (p.base + ringReg Reg.PCIE_SQq_CFG 0) = true
      ∧ ¬bad (((awake []).atTime 1).rdP p (ringReg Reg.PCIE_CQq_CFG 15)) 0xC0000006 ∧ bad (((awake []).atTime 1).rdP p (ringReg Reg.PCIE_CQq_CFG 15)) 0x80000005
      ∧ bad (((awake []).atTime 1).rdP p (ringReg Reg.PCIE_CQq_CFG 15)) 0x80000011
      ∧ bad (((hosted []).atTime 1).rdP p (ringReg Reg.PCIE_CQq_CFG 15)) 0xC0000010 ∧ ¬bad (((hosted []).atTime 1).rdP p (ringReg Reg.PCIE_CQq_CFG 15)) 6 := by decide +kernel

/-- Submission ring 15, of 64 entries, is enabled. -/
def sqOn : Nat × Word := reg (Pg.pcie 0) (ringReg Reg.PCIE_SQq_CFG 15) 0x80000006

theorem witness_Rings_pointers : let u := (hosted [sqOn]).atTime 1
    accepts u 0 ((Pg.pcie 0).base + ringReg Reg.PCIE_SQq_TAIL 15) = true ∧ accepts u 0 ((Pg.pcie 0).base + ringReg Reg.PCIE_CQq_HEAD 15) = true
      ∧ u.ringSize 0 Reg.PCIE_SQq_CFG 15 = 64 := by decide +kernel

theorem witness_Rings_fetch : ((hosted [sqOn, reg (Pg.pcie 0) (ringReg Reg.PCIE_SQq_HEAD 15) 63]).atTime 1).mayFetch 0 15 = true := by decide +kernel

/-- A completion that waits in ring 15. -/
def held (s : State) : State := s.setRing 0 15 { s.ring 0 15 with held := [⟨7, 0, 1, false, false, true, 3, 9⟩] }

theorem witness_Rings_completion : (((held (awake [])).atTime 1).ring 0 15).held = [⟨7, 0, 1, false, false, true, 3, 9⟩] ∧ ((held (awake [])).atTime 1).hostUp 0 = false
    ∧ (let u := (held (hosted [reg (Pg.pcie 0) (ringReg Reg.PCIE_CQq_TAIL 15) 63, reg (Pg.pcie 0) (ringReg Reg.PCIE_CQq_HEAD 15) 2])).atTime 1
      (u.ring 0 15).held = [⟨7, 0, 1, false, false, true, 3, 9⟩] ∧ u.hostUp 0 = true ∧ u.cqRoom 0 15 = true) := by decide +kernel

/-- A descriptor of a kind with a payload, and a state in which ring 15 of port 0 holds it as the oldest fetched one. -/
def mkDesc (kind : Nat) (payload : List Byte) : Desc := ⟨0, 15, 0, 0, (leBytes 24 kind ++ payload ++ List.replicate 40 0).take 64⟩
def descState (l : List (Nat × Word)) (d : Desc) : State := let s := hosted l; s.setRing 0 15 { s.ring 0 15 with fetched := [d] }

theorem witness_SimpleDescriptors : starts ((descState [] (mkDesc 0 [])).atTime 1) 0 15 0 (fun d => !d.restZero []) (mkDesc 0 []) = true
    ∧ starts ((descState [] (mkDesc 7 [1])).atTime 1) 0 15 7 (fun d => decide (1 < d.field 0x18 1) || !d.restZero [(0x18, 1)]) (mkDesc 7 [1]) = true := by decide +kernel

/-- DMA of bytes to stack 1. -/
def dmaDesc (src len : Nat) : Desc := mkDesc 3 (leBytes 8 src ++ leBytes 8 0x001000000000 ++ leBytes 8 len)

theorem witness_SimpleDescriptors_dma : ∀ q ∈ [(0, 0x1000), (0xFFFFFFFFFFFFFFFF, 1)], let d := dmaDesc q.1 q.2
    starts ((descState [] d).atTime 1) 0 15 3 Desc.dmaBad d = true
      ∧ (pairUnpopulated (d.field 0x18 8) (d.field 0x28 8) (d.field 0x20 8) (d.field 0x28 8)).isSome = decide (q.1 ≠ 0) := by decide +kernel

/-- FRAME_RUN of slot 0, and a state with an image in it. -/
def runDesc (first n bound : Nat) : Desc := mkDesc 1 (leBytes 4 0 ++ leBytes 4 first ++ leBytes 4 n ++ leBytes 4 bound)
def slotted (x : Slot) (s : State) : State := { s with slots := [x], running := some x.num }

def runs (d : Desc) (s : State) : Bool :=
  starts s 0 15 1 (fun _ => false) d && s.host.run == none && d.runBad == false && behind (s.epochDist d.epoch) == false && ahead (s.epochDist d.epoch) == false

theorem witness_FrameRunDescriptor_stopped : let u := (descState [reg Pg.trade Reg.TRADE_STAT 1] (runDesc 0 1 0)).atTime 1
    runs (runDesc 0 1 0) u = true ∧ u.fldP Pg.trade Reg.TRADE_STAT 0 0 = 1 := by decide +kernel

theorem witness_FrameRunDescriptor_empty : let u := (descState [] (runDesc 0 1 0)).atTime 1
    runs (runDesc 0 1 0) u = true ∧ u.fldP Pg.trade Reg.TRADE_STAT 0 0 ≠ 1 ∧ u.slot? ((runDesc 0 1 0).field 0x18 1) = none := by decide +kernel

/-- First frames at the image's count of 2 and below it; a slot that refuses; a slot of another epoch; the greatest bound. -/
theorem witness_FrameRunDescriptor : ∀ q ∈ [(2, slotOf 0, (0 : Nat)), (1, { slotOf 0 with refuses := 7 }, 0), (1, { slotOf 0 with epoch := 7 }, 0), (1, slotOf 0, 8)],
    let d := runDesc q.1 0xFFFFFFFF q.2.2
    let u := (slotted q.2.1 (descState [] d)).atTime 1
    runs d u = true ∧ u.fldP Pg.trade Reg.TRADE_STAT 0 0 ≠ 1 ∧ u.slot? (d.field 0x18 1) = some q.2.1 ∧ d.field 0x1C 4 = q.1 ∧ q.2.1.frameCount = 2 ∧ d.epoch = 0
      ∧ d.field 0x24 4 ≤ q.2.1.seqBound := by decide +kernel

/-- A slot operation on a slot. -/
def slotDesc (op n : Nat) : Desc := mkDesc 2 (leBytes 1 op ++ leBytes 1 n)

def slotStarts (d : Desc) (u : State) : Bool := starts u 0 15 2 Desc.slotBad d && u.host.switching.isNone && u.host.run == none

/-- LOAD, SWITCH and UNLOAD of a slot that is empty (255), that holds the running image (0), and that holds another image. -/
theorem witness_SlotDescriptors : ∀ op ∈ [0, 1, 2],
    (let u := (descState [] (slotDesc op 255)).atTime 1; slotStarts (slotDesc op 255) u = true ∧ u.slot? 255 = none ∧ (slotDesc op 255).field 0x19 1 = 255)
    ∧ (let u := (slotted (slotOf 0) (descState [] (slotDesc op 0))).atTime 1
      slotStarts (slotDesc op 0) u = true ∧ (u.slot? 0).isSome = true ∧ u.running = some 0 ∧ u.slotHeld 0 = true)
    ∧ (let s := slotted (slotOf 0) (descState [] (slotDesc op 0)); let u := ({ s with running := none } : State).atTime 1
      slotStarts (slotDesc op 0) u = true ∧ (u.slot? 0).isSome = true ∧ u.running ≠ some 0 ∧ u.slotHeld 0 = false) := by decide +kernel

/-- An image of one frame for four dies with an empty frame, at address 0. -/
def imgHead (len : Nat) : List Byte :=
  leBytes 4 0x4D494753 ++ leBytes 2 1 ++ leBytes 2 0 ++ leBytes 8 4096 ++ leBytes 4 len ++ leBytes 4 15 ++ leBytes 4 1 ++ leBytes 4 0 ++ leBytes 8 0x100 ++ List.replicate 212 0
def imgState : State :=
  let len := (awake []).fldP Pg.hub Reg.HUB_FRAME_CFG 4 0
  holding (descState [] (slotDesc 0 9)) 0 (imgHead len ++ leBytes 4 (crc32c (imgHead len)))

theorem witness_SlotDescriptors_load : let u := imgState.atTime 1
    slotStarts (slotDesc 0 9) u = true ∧ u.slot? 9 = none ∧ u.admission (u.header 9 ((slotDesc 0 9).field 0x20 8)) = none
      ∧ (let v := (descState [] (slotDesc 0 9)).atTime 1; (v.admission (v.header 9 ((slotDesc 0 9).field 0x20 8))).isSome = true) := by decide +kernel

/-- An all-reduce of one element by this node alone. -/
def collDesc : Desc := mkDesc 4 (leBytes 2 0 ++ leBytes 1 1 ++ leBytes 5 0 ++ leBytes 4 1 ++ leBytes 4 0 ++ leBytes 8 (spadBase 0) ++ leBytes 8 (spadBase 0 + 0x1000) ++ leBytes 2 1)

def present (d : Desc) (u : State) : Bool := behind (u.epochDist d.epoch) == false && ahead (u.epochDist d.epoch) == false

theorem witness_LongDescriptors_collective : let u := (descState [(0x610000, 0xE0000000)] collDesc).atTime 1
    let b := collDesc.collective
    starts u 0 15 4 u.collBad collDesc = true ∧ present collDesc u = true ∧ u.tableServes b = true
      ∧ pairUnpopulated b.src (u.giveBytes b) b.dst (destBytes b.op b.sfmt b.dfmt b.count (u.membersOf b.id)) = none := by decide +kernel

/-- A checkpoint of one region of 4096 bytes at address 0, whose list is at 0x1000; a restore to the first places, or of data or manifest to stack 0. -/
def ckptDesc : Desc := mkDesc 5 (leBytes 8 0x1000 ++ leBytes 4 1 ++ leBytes 1 1)
def restDesc (mode : Nat) : Desc :=
  mkDesc 6 (leBytes 8 7 ++ leBytes 1 mode ++ leBytes 7 0 ++ leBytes 8 (if mode = 0 then 0 else 0x800000) ++ leBytes 8 (if mode = 0 then 0 else 2 ^ 20))
def grnState (d : Desc) : State :=
  let s := holding (descState [] d) 0x1000 (leBytes 8 0 ++ leBytes 8 4096)
  { s with grn := { s.grn with dies := List.replicate 8 FlashDie.fresh } }

theorem witness_LongDescriptors_checkpoint : let u := (grnState ckptDesc).atTime 1
    let d := ckptDesc
    let l := u.regionList (d.field 0x18 8) (d.field 0x20 4)
    let v := u.setGrn { u.grn with nextGen := u.grn.nextGen + 1 }
    let g : Generation := { num := u.grn.nextGen, label := d.field 0x28 8, frame := v.frameNum, epoch := d.epoch, pinned := false, committed := false, regions := l, data := [] }
    starts u 0 15 5 Desc.checkpointBad d = true ∧ present d u = true ∧ u.grnIdle = true ∧ u.fldP Pg.trade Reg.TRADE_STAT 0 0 ≠ 1 ∧ u.domainOn 202 = true
      ∧ u.grn.failures < 2 ∧ u.denial Pg.grn (grnInfo 0xFF 0) 3 (d.field 0x18 8) (16 * d.field 0x20 4) false = none ∧ regionsBad l = false
      ∧ v.firstDenial l false = none ∧ (v.grn.reclaim g.room 64).hasRoom g.room = true := by decide +kernel

/-- A committed generation of 16 bytes. -/
def aGen : Generation := ⟨7, 1, 2, 0, false, true, [(0x4000, 16)], List.replicate 16 3⟩
def withGen (s : State) : State := { s with grn := { s.grn with dir := [some aGen] } }

theorem witness_LongDescriptors_restore : ∀ m ∈ [0, 1, 2], let d := restDesc m
    let u := (withGen (grnState d)).atTime 1
    let data := if d.restoreMode = 2 then aGen.manifest else aGen.data
    let places := if d.restoreMode = 0 then aGen.regions else [(d.field 0x28 8, data.length)]
    starts u 0 15 6 Desc.restoreBad d = true ∧ present d u = true ∧ u.grnIdle = true ∧ u.domainOn 202 = true ∧ u.grn.failures < 3 ∧ d.field 0x18 8 = 7
      ∧ u.grn.find 7 = some aGen ∧ ¬(d.restoreMode ≠ 0 ∧ d.field 0x30 8 < data.length) ∧ (places.findSome? fun r => unpopulated r.1 r.2) = none := by decide +kernel

theorem witness_LongDescriptors_fence : ∀ k ∈ [1, 4, 5, 6], let s := grnState (mkDesc k [0])
    let u := ({ s with host := { s.host with fenceWaiting := some (mkDesc k [0]) } } : State).atTime 1
    u.host.fenceWaiting = some (mkDesc k [0]) ∧ u.drained = true ∧ (mkDesc k [0]).kind = k := by decide +kernel

/-- A state in which a transfer moves for a job. -/
def moving (x : Transfer) (j : Option Job) : State :=
  let s := holding (grnState ckptDesc) 0x100 [1, 2, 3]
  { s with traffic := [x], host := { s.host with jobs := j.toList } }
def xferOf (iss : Issuer) (sig : Option (Nat × Nat)) : Transfer := ⟨3, iss, 2, 0x100, 0x001000000000, 5000, 0, [], 0, 0, none, sig⟩
def theXfer : Transfer := xferOf (.xfer 0 0) (some (5, 1))
def theDma : Transfer := xferOf (.descriptor 0 15 0) none
def jobOfWork (w : Work) : Job := ⟨ckptDesc, w⟩

/-- The next access is the read of the first chunk: granted; with nothing left; denied where a stack is off; held back while the reference is lost. -/
theorem witness_TransfersMoveAndEnd_burst : let u := (moving theDma none).atTime 1
    let a : Access := ⟨0x100, 1792, false⟩
    u.transfer? 4 = none ∧ u.transfer? 3 = some theDma ∧ u.nextAccess theDma = some a ∧ u.turnedAway theDma a = false ∧ u.stalled theDma = false
      ∧ u.grants theDma a = some false ∧ ((u.noteServed theDma a).serve theDma false none none).2.err = 0 ∧ theDma.issuer ≠ .checkpoint ∧ theDma.issuer ≠ .restore
      ∧ (let y := { theDma with moved := 5000 }; let v := (moving y none).atTime 1; v.transfer? 3 = some y ∧ v.nextAccess y = none)
      ∧ (let v := ({ moving theDma none with regs := [] } : State).atTime 1
        v.transfer? 3 = some theDma ∧ v.nextAccess theDma = some a ∧ v.turnedAway theDma a = true)
      ∧ (let s := moving theDma none; let v := ({ s with pwr := { s.pwr with coast := some 0 } } : State).atTime 1
        v.transfer? 3 = some theDma ∧ v.nextAccess theDma = some a ∧ v.turnedAway theDma a = false ∧ v.stalled theDma = true) := by decide +kernel

theorem witness_TransfersMoveAndEnd_xfer : let u := (moving theXfer none).atTime 1; u.transfer? 3 = some theXfer ∧ theXfer.signal = some (5, 1)
    ∧ (u.moveAll theXfer theXfer.len []).2.err = 0 := by decide +kernel

theorem witness_TransfersMoveAndEnd_dma : let u := (moving theDma (some (jobOfWork (.dma 3)))).atTime 1
    u.transfer? 3 = some theDma ∧ u.jobOf (.dma 3) = some (jobOfWork (.dma 3)) := by decide +kernel

/-- The run of a checkpoint or restore of 16 bytes, and its transfer. -/
def grnRunOf (restore : Bool) : GrnRun := ⟨ckptDesc, restore, 7, [(0x4000, 16)], List.replicate 16 5, 3⟩
def grnXfer (restore : Bool) : Transfer := ⟨3, if restore then .restore else .checkpoint, 3, 0, 0, 16, 0, [], 0, 0, none, none⟩
def grnMoving (restore : Bool) : State :=
  let s := moving (grnXfer restore) (some (jobOfWork (if restore then .restore else .checkpoint)))
  { s with grn := { s.grn with run := some (grnRunOf restore), dir := [some { aGen with committed := false, data := [] }] } }

theorem witness_TransfersMoveAndEnd_granary : ∀ r ∈ [false, true], let u := (grnMoving r).atTime 1
    u.grn.run = some (grnRunOf r) ∧ (grnRunOf r).restore = r ∧ u.transfer? 3 = some (grnXfer r)
      ∧ u.jobOf (if r then .restore else .checkpoint) = some (jobOfWork (if r then .restore else .checkpoint)) ∧ u.grn.failures < 2
      ∧ (u.moveAll (grnXfer r) 16 []).2.err = 0 ∧ (u.moveAll (grnXfer r) 16 []).1.grn.failures < 2 := by decide +kernel

theorem witness_TransfersMoveAndEnd_fails : ((grnMoving false).atTime 1).transfer? 3 = some (grnXfer false)
    ∧ (((grnMoving false).atTime 1).moveAll (grnXfer false) 16 [⟨0, .ue false⟩]).2.err ≠ 0
    ∧ (let x := { grnXfer true with err := 7 }; let u := ({ grnMoving true with traffic := [x] } : State).atTime 1
      u.transfer? 3 = some x ∧ (u.moveAll x 16 []).2.err ≠ 0) := by decide +kernel

/-- The standby port; a burst of 2048 bytes; the last byte of a burst. -/
theorem witness_HostWindow : let u := (hosted []).atTime 1
    u.boot.phase.commandable = true ∧ inRecovery u = false ∧ (1 : Fin 2).val ≠ u.owner ∧ (0 : Fin 2).val = u.owner
      ∧ (∀ q ∈ [(0, 2048), (0x7FF, 1)], let a := u.num64 (Pg.pcie 0) Reg.PCIE_WIN_BASE_LO + q.1
        isRegs a = false ∧ q.1 + q.2 ≤ u.spaceBytes 0 .bar2 ∧ a % 2048 + q.2 ≤ 2048 ∧ u.denial (Pg.pcie 0) 0 2 a q.2 false = none
          ∧ u.denial (Pg.pcie 0) 0 2 a q.2 true = none) := by decide +kernel

/-- The last word of BAR4, and configuration space in each phase in which a link can be up. -/
theorem witness_HostWindow_spaces : 0xFFFC + 4 ≤ 0x10000 ∧ 0xFFC + 4 ≤ 0x1000
    ∧ ∀ p ∈ [Phase.powered, .halted, .recovery, .ready], ((inPhase p).atTime 1).boot.phase = p ∧ p.commandable = true := by decide +kernel

theorem witness_EventsAndHandover : let u := (awake []).atTime 1
    (∀ c ∈ [0, 4095], accepts u 0 (0x410000 + 4 * c) = true ∧ accepts u 0 (0x420000 + 4 * c) = true) ∧ u.boot.phase.commandable = true
      ∧ (∀ port ∈ [(0 : Fin 2), 1], u.regDenial (.port port) ((Pg.pcie port).base + Reg.PCIE_HO_CMD) = none) ∧ fld 0xFFFFFFFF 0 0 = 1
      ∧ u.owner = 0 ∧ u.hoState 1 ≠ 1 ∧ u.hoState 1 ≠ 2
      ∧ (let v := (awake [reg (Pg.pcie 1) Reg.PCIE_HO_STAT 0x40000000]).atTime 1; v.hoState 1 = 1 ∧ v.handoverGood 1 = false) := by decide +kernel

/-! ## Registers -/

theorem witness_ErrorsCaptured : ∀ l ∈ [[], [reg Pg.hub Reg.ERR_STAT 1, reg Pg.hub Reg.ERR_CNT 0xFFFFFFFF]],
    sound (up l) = true ∧ (up l).captured.contains (Pg.hub.base, (up l).wall) = false ∧ (up l).fldP Pg.hub Reg.ERR_STAT 0 0 = l.length / 2 := by decide +kernel

theorem witness_CaptureRearms : let u := (up [reg Pg.hub Reg.ERR_STAT 3]).atTime 1
    let off := BitVec.ofNat 26 (Pg.hub.base + Reg.ERR_STAT)
    sound u = true ∧ u.boot.phase.commandable = true ∧ 0 = u.owner ∧ u.regDenial (.port 0) off.toNat = none ∧ pageOf off.toNat = some (Pg.hub, Reg.ERR_STAT) := by
  decide +kernel

/-- Where no page is; from the standby port; with sizes 1 and 8 and an offset that is no multiple of 8. -/
theorem witness_RegisterAccess_denied : let u := (up []).atTime 1
    u.boot.phase.commandable = true ∧ (u.regDenial (.port 0) 0x3FFFFF8).isSome = true ∧ 1 ≠ u.owner ∧ standbyMay 1 0x100 = false ∧ 0x14 % 8 ≠ 0 := by decide +kernel

/-- The low and the high half of a counter, and a register that is neither. -/
theorem witness_RegisterAccess_read : let u := (up []).atTime 1
    (∀ o ∈ [0x110, 0x114, 0], u.regDenial (.port 0) o = none ∧ pageOf o = some (Pg.hub, o)) ∧ counterLo PageKind.hub 0x110 = true ∧ counterLo PageKind.hub 0x114 = false
      ∧ counterLo PageKind.hub 0 = false := by decide +kernel

/-- A register under its page's LOCK, set and clear; a LOCK. -/
theorem witness_RegisterAccess_write : let o := Pg.pwr.base + 0x80
    pageOf o = some (Pg.pwr, 0x80) ∧ (rowOf PageKind.pwr 0x80).isSome = true ∧ open_ ((up []).atTime 1) Pg.pwr 0x80 = true
      ∧ accepts ((up [reg Pg.pwr Reg.LOCK 1]).atTime 1) 0 o = true ∧ unlocked ((up [reg Pg.pwr Reg.LOCK 1]).atTime 1) Pg.pwr 0x80 = false
      ∧ accepts ((up []).atTime 1) 0 Reg.LOCK = true ∧ pageOf Reg.LOCK = some (Pg.hub, Reg.LOCK) ∧ (rowOf PageKind.hub Reg.LOCK).isSome = true := by decide +kernel

/-- The registers of FrameAndFabricSettings take a write, with an image in a slot and without. -/
theorem witness_FrameAndFabricSettings : ∀ s ∈ [awake [], slotted (slotOf 0) (awake [])], let u := s.atTime 1
    (∀ q ∈ [(Pg.hub, Reg.HUB_FRAME_CFG), (Pg.hub, Reg.HUB_TICK_DELAY), (Pg.rte, Reg.RTE_CFG), (Pg.fab 0, Reg.FAB_CREDv), (Pg.fab 23, Reg.FAB_CREDv + 12),
        (Pg.trade, Reg.TRADE_MODE)], open_ u q.1 q.2 = true)
      ∧ (∀ o ∈ [0x530000, 0x530000 + 4 * 65535, 0x610000, 0x610000 + 64 * 4095 + 60], accepts u 0 o = true)
      ∧ u.frameLen = 2 ^ 16 ∧ u.fldP Pg.rte Reg.RTE_CFG 31 15 ≠ fld 0xFFFFFFF1 31 15
      ∧ (let old := u.rdP Pg.trade Reg.TRADE_MODE; fld 1 1 0 ≠ fld old 1 0 ∧ fld 1 1 0 ≠ 3 ∧ fld old 1 0 ≠ 3 ∧ fld old 3 2 ≠ 3) := by decide +kernel

/-- Credits that fill a port's buffer and that overfill it; an entry in use by a collective. -/
theorem witness_FrameAndFabricSettings_credits :
    (let held (v : Word) (k : Nat) := if k = 3 then v else ((awake []).atTime 1).rdP (Pg.fab 23) (Reg.FAB_CREDv + 4 * k)
      let total (v : Word) := ((List.range 4).map fun k => fld (held v k) 28 16 + fld (held v k) 12 0).sum
      total 0 ≤ 8192 ∧ 8192 < total 0xFFFFFFFF)
    ∧ (let s := awake []
      let u := ({ s with coll := { s.coll with insts := [⟨4095, 0, 0, 0, 0, 0, 0, 0, 0, none, none, false, false, false, [], [], 0, 0, false, 0, false, none⟩] } } : State).atTime 1
      (u.coll.insts.any fun x => x.entry == 4095) = true ∧ accepts u 0 (0x610000 + 64 * 4095) = true) := by decide +kernel

theorem witness_ControlsAndClears : let u := (awake []).atTime 1
    (∀ q ∈ [(Pg.trade, Reg.TRADE_STAT), (Pg.clk, Reg.CLK_STAT), (Pg.trade, Reg.TRADE_TEST), (Pg.idle, Reg.IDLE_CTRL), (Pg.tlr 0 0, Reg.TLR_MAP), (Pg.tlr 3 83, Reg.TLR_MAP),
        (Pg.fab 0, Reg.FAB_CFG), (Pg.fab 23, Reg.FAB_CFG)], open_ u q.1 q.2 = true)
      ∧ u.tlrMap 0 0 31 30 ≠ 3 ∧ u.tlrMap 3 79 31 30 ≠ 3 ∧ sound u = true ∧ u.transit? 210 = none
      ∧ (∀ o ∈ [Pg.stb.base + Reg.STB_LINK_WAKE, domOff 0, domOff 210, (Pg.culm 0 0).base + Reg.CULM_RING_CTRL, (Pg.culm 3 0).base + Reg.CULM_RING_CTRL], accepts u 0 o = true)
      ∧ (∀ c ∈ [0, 63], u.regDenial (.port 0) (condStat c) = none) := by decide +kernel

theorem witness_ControlsAndClears_power : let s := awake []
    let x : Transit := ⟨210, 0, 2, 0, 1000, false⟩
    let u := ({ s with pwr := { s.pwr with trans := [x] } } : State).atTime 1
    accepts u 0 (domOff 210) = true ∧ sound u = true ∧ u.transit? 210 = some x ∧ x.target ≠ 2 := by decide +kernel

theorem witness_ControlsAndClears_ring : let u := (awake []).atTime 1
    let p := Pg.culm 0 0
    let w := u.answered.setP p Reg.CULM_RING_CTRL 0 0 1
    (match regionOf (u.ringHeader 0) with | some (.stack _, _, _) => true | _ => false) = true ∧ w.ringHeader 0 = u.ringHeader 0
      ∧ w.denial p 0 2 (u.ringHeader 0 + 0x10) 24 true = none := by decide +kernel

/-! ## Repair, stacks and links -/

/-- Enabled for no site; enabled with a row to map and LOCK set; with connections to map; with an address that is no row. -/
theorem witness_RepairAccess : ∀ q ∈ [([], (0, true)), ([reg (Pg.dras 3) Reg.DRAS_CTRL 0xF, reg (Pg.dras 3) Reg.DRAS_ARG 6175, reg (Pg.dras 3) Reg.LOCK 1], (1, true)),
      ([reg (Pg.dras 3) Reg.DRAS_CTRL 0xF, reg (Pg.dras 3) Reg.DRAS_ARG 0x0117010F, reg (Pg.dras 3) Reg.DRAS_ADDR 0xFFFFFFFF], (0, false))], let u := (awake q.1).atTime 1
    accepts u 0 ((Pg.dras 3).base + Reg.DRAS_CTRL) = true ∧ accepts u 0 ((Pg.dras 3).base + Reg.DRAS_CMD) = true ∧ u.fldP (Pg.dras 3) Reg.LOCK 0 0 = q.2.1
      ∧ bit (u.answered.num (Pg.dras 3) Reg.DRAS_CTRL) 3 = decide (q.1 ≠ []) ∧ u.dras.getD 3 none = none ∧ (u.answered.drasTarget 3 3).ok = q.2.2 := by decide +kernel

theorem witness_RepairAccess_end : let s := awake []
    let u := ({ s with dras := [none, none, none, some ⟨1, 2, true, 7⟩] } : State).atTime 1
    u.dras.getD 3 none = some ⟨1, 2, true, 7⟩ := by decide +kernel

/-- Stack 11 without power; sampled at 439 tenths; an age halving due and not; a row that is copied. -/
theorem witness_StacksAndLinks_stack : ((awake [(domOff 171, 0)]).atTime 1).domainOn 171 = false ∧ sound ((awake []).atTime 1) = true ∧ ((awake []).atTime 1).domainOn 171 = true
    ∧ hottest (sampleOf (List.replicate 17 (some 439))) = some 439 ∧ 11 < ((awake []).atTime 1).stk.length
    ∧ (let b := (awake []).begin; b.frameNum < (b.stackOf 11).halved + 2 ^ (16 + b.fldP (Pg.stack 11) Reg.MEMC_CFG 7 4))
    ∧ (let s := awake [reg Pg.hub (Reg.HUB_FRAME_NUM_LO + 4) 1]; let b := s.begin
      sound s = true ∧ (b.stackOf 11).halved + 2 ^ (16 + b.fldP (Pg.stack 11) Reg.MEMC_CFG 7 4) ≤ b.frameNum) := by decide +kernel

theorem witness_StacksAndLinks_remap : let m : Remap := ⟨⟨63, 16, 6143⟩, 6175, [0, 1, 2, 3], 0⟩
    let u := ((awake []).setStack 11 { Stack.fresh with remap := some m }).atTime 1
    sound u = true ∧ (u.stackOf 11).remap = some m ∧ 11 < u.stk.length ∧ (((awake []).atTime 1).stackOf 11).remap = none := by decide +kernel

/-- Lane 1631 of a link on which lanes have failed before, and what its failure leaves. -/
def laneState (k : Nat) : State :=
  let s := awake [reg (Pg.d2d 3) Reg.BLK_STAT (BitVec.ofNat 32 k)]
  ({ s with rep := { s.rep with current := [laneEntry 3 1 1631 3] } } : State).atTime 1
def laneAfter (u : State) : State :=
  let v := (u.bump (Pg.d2d 3) Reg.D2D_LANE_FAIL_CNT 1).wrP (Pg.d2d 3) Reg.D2D_LAST_LANE (BitVec.ofNat 32 (2 ^ 31 + 2 ^ 30 + 3 * 2 ^ 28 + 1631))
  ((v.noteRepair (laneEntry 3 1 1631 3)).setInt (Pg.d2d 3) 1).markLane 3 1 1631

/-- 1, 48, 49, 840 and 841 lanes. -/
theorem witness_StacksAndLinks_lanes : ∀ k ∈ [0, 47, 48, 839, 840], (laneState k).laneFailed 3 1 1631 = false ∧ (laneState k).linkWidth 3 = 0
    ∧ (laneAfter (laneState k)).failedLanes 3 0 = 0 ∧ (laneAfter (laneState k)).failedLanes 3 1 = k + 1 ∧ (laneAfter (laneState k)).linkWidth 3 = 0 := by
  decide +kernel

theorem witness_StacksAndLinks_ends : ((awake []).setLink 3 { (awake []).link 3 with resume := some 7 }).link 3 = { (awake []).link 3 with resume := some 7 }
    ∧ ((awake []).markLane 3 1 1631).laneFailed 3 1 1631 = true := by decide +kernel

/-- Port 23 and flash die 7 reach the limit of 1; no requester has the number 24. -/
theorem witness_StacksAndLinks_fence : let s := awake [reg Pg.hub Reg.HUB_FENCE_CFG 1]
    let b := ({ s with grn := { s.grn with dies := List.replicate 8 FlashDie.fresh } } : State).begin
    (∀ id ∈ [23, 0x27], fenceId id = true ∧ b.isolated id = false ∧ (b.fenceLog id 3 (some 6)).fenceDue id = true) ∧ fenceId 24 = false
      ∧ ((awake []).begin.fenceLog 23 3 (some 6)).fenceDue 23 = false
      ∧ (let v := b.fenceLog 0x27 3 (some 6)
        (((v.setP Pg.hub Reg.HUB_FENCE_ISO (isoBit 0x27) (isoBit 0x27) 1).setInt Pg.hub 2).grn.dies[0x27 - 0x20]?) = some FlashDie.fresh) := by decide +kernel

/-- A record of die 0 for a ring of 16 entries at 0x2000, off and on. -/
def recorded (on : Nat) : State :=
  let s := holding (awake [reg (Pg.culm 0 0) Reg.CULM_RING_CTRL (BitVec.ofNat 32 on), reg (Pg.culm 0 0) Reg.CULM_RING_HDR_LO 0x1000]) 0x1000 (leBytes 8 0x2000 ++ [16])
  { s with records := [(0, [1, 2, 3])] }

theorem witness_StacksAndLinks_record : ∀ on ∈ [0, 1], ((recorded on).begin.records.find? fun q => q.1 == 0) = some (0, [1, 2, 3])
    ∧ (let v : State := { (recorded on).begin with records := [] }
      let q := Pg.culm 0 0
      v.fldP q Reg.CULM_RING_CTRL 0 0 = on ∧ v.ringHeader 0 = 0x1000 ∧ v.denial q 0 2 0x1000 64 false = none ∧ v.natAt 0x1008 8 = 16 ∧ ringSizeOk 16 = true
        ∧ v.natAt 0x1010 8 = 0 ∧ v.natAt 0x1018 8 = 0 ∧ v.natAt 0x1000 8 = 0x2000 ∧ v.denial q 0 2 0x2000 64 true = none ∧ v.denial q 0 2 0x1010 8 true = none) := by
  decide +kernel

/-! ## Granary, seeds, security and management. Signatures, hashes and the serial number are opaque: what they enter is shown for those that agree. -/

/-- A Granary that holds generation 5, and a command on a generation. -/
def granary (cmd : Option (Nat × Nat)) (pin : Bool) (spare : Nat) : State :=
  let s := awake [reg Pg.grn Reg.GRN_CFG 1]
  { s with grn := { s.grn with dies := List.replicate 8 { FlashDie.fresh with spare := spare }, dir := [some ⟨5, 0, 0, 0, pin, true, [], []⟩], command := cmd } }

theorem witness_GranaryAndSeeds : let u := (granary none false 3).atTime 1
    accepts u 0 (Pg.grn.base + Reg.GRN_CMD) = true ∧ u.grn.command = none ∧ u.grn.run = none ∧ u.domainOn 202 = true ∧ u.fldP Pg.grn Reg.GRN_CFG 0 0 = 1
      ∧ (∀ n ∈ [0, 7], u.grn.dies[n]? = some { FlashDie.fresh with spare := 3 }) ∧ ((granary none false 0).atTime 1).grn.dies[7]? = some { FlashDie.fresh with spare := 0 }
      ∧ FlashDie.fresh.failed = false ∧ accepts u 0 (Pg.trade.base + Reg.TRADE_SEED_CMD) = true
      ∧ u.answered.denial Pg.trade 0 2 (u.num64 Pg.trade Reg.TRADE_SEED_ADDR_LO) (2 ^ 21 - 1) false = none := by decide +kernel

theorem witness_GranaryAndSeeds_commands : ∀ op ∈ [1, 2, 3], ∀ pin ∈ [false, true], let u := (granary (some (op, 5)) pin 3).atTime 1
    u.grn.command = some (op, 5) ∧ u.grn.run = none ∧ u.domainOn 202 = true ∧ (u.grn.find 5).map (fun x => x.pinned) = some pin ∧ u.grn.find 9 = none := by decide +kernel

theorem signedFor_of (h : ∀ k m g, Config.ecdsaOk k m g = true) (s : State) (u : Nat) (m g : List Byte) : s.signedFor u m g = !(s.keysFor u).isEmpty := by
  unfold State.signedFor
  cases s.keysFor u <;> simp [h]

/-- A seed set of one pattern, and one of no bytes. -/
def aSeed : SeedSet := ⟨leBytes 4 0x54455353 ++ leBytes 2 1 ++ leBytes 10 0 ++ leBytes 4 1 ++ List.replicate (patternOff 1 + 96 - 20) 0, 0, 0, [], []⟩
def seeding (x : SeedSet) : State := { awake [reg Pg.trade Reg.TRADE_SEED_STAT 0x20000000] with seed := some x }

theorem witness_GranaryAndSeeds_seed : ((seeding aSeed).atTime 1).seed = some aSeed ∧ ((seeding aSeed).atTime 1).fldP Pg.trade Reg.TRADE_SEED_STAT 31 29 = 1
    ∧ aSeed.layoutOk = true ∧ ({ aSeed with bytes := [] } : SeedSet).layoutOk = false := by decide +kernel

theorem witness_GranaryAndSeeds_signed (h : ∀ k m g, Config.ecdsaOk k m g = true) : ((seeding aSeed).atTime 1).seedSigned aSeed = true := by
  unfold State.seedSigned
  rw [signedFor_of h]
  rfl

/-- Attestation is ready, port 0's link is up, and a command runs. -/
def secured (c : Option SecCmd) (reqs : List ReportReq) : State :=
  let s := awake [reg Pg.sec Reg.SEC_STAT 0x80000000, reg (Pg.pcie 0) Reg.PCIE_LINK_STAT 0x200000]
  { s with sec := { s.sec with cmd := c, requests := reqs, running := some true } }

/-- A command record with a first word and an operation, and the rest zeros; the nonce is zeros. -/
def secCmd (op magic w1 : Nat) : SecCmd := ⟨op, 768, leBytes 4 magic ++ leBytes 4 w1 ++ List.replicate 248 0, List.replicate 32 0⟩

theorem witness_SecurityAndAttestation_commands : accepts ((secured none []).atTime 1) 0 (Pg.sec.base + Reg.SEC_CMD) = true
    ∧ ∀ op ∈ [1, 2, 3, 4, 5], let u := (secured (some (secCmd op 0 0)) []).atTime 1
      accepts u 0 (Pg.sec.base + Reg.SEC_CMD) = true ∧ u.sec.cmd = some (secCmd op 0 0) ∧ u.domainOn 202 = true ∧ u.sec.running = some true := by decide +kernel

/-- Records of another kind are refused whatever the signature. -/
theorem witness_SecurityAndAttestation_refused : ((secured none []).atTime 1).keyGood (secCmd 3 0 0) = false ∧ ((secured none []).atTime 1).tokenGood (secCmd 4 0 0) = false := by
  decide +kernel

/-- A key is installed in operator slot 7. -/
theorem witness_SecurityAndAttestation_key (h : ∀ k m g, Config.ecdsaOk k m g = true) : ((secured none []).atTime 1).keyGood (secCmd 3 0x5359454B 0x000F0701) = true := by
  unfold State.keyGood
  simp only [signedFor_of h, h]
  decide +kernel

theorem witness_SecurityAndAttestation_token (h : ∀ k m g, Config.ecdsaOk k m g = true) (hs : Config.serial = 0) :
    ((secured none []).atTime 1).tokenGood (secCmd 4 0x47554244 0xF) = true := by
  unfold State.tokenGood
  simp only [signedFor_of h, hs]
  decide +kernel

/-- A bundle of two images of one byte each. -/
def imageOf (stage : Nat) : List Byte := leBytes 4 0x57464753 ++ leBytes 1 stage ++ List.replicate 11 0 ++ leBytes 1 1 ++ List.replicate 239 0
def bundle : List Byte := imageOf 1 ++ List.replicate 256 0 ++ imageOf 2 ++ [0]

theorem witness_SecurityAndAttestation_bundle (h : ∀ k m g, Config.ecdsaOk k m g = true) (hh : ∀ m, Config.sha384 m = 0) :
    let u := (holding (secured (some (secCmd 1 0 0)) []) 0 bundle).atTime 1
    u.sec.cmd = some (secCmd 1 0 0) ∧ u.grnIdle = true ∧ inRecovery u = false ∧ u.denial Pg.sec 0 2 (u.num64 Pg.sec Reg.SEC_ARG_LO) 769 false = none
      ∧ u.readBundle (u.bytesAt (u.num64 Pg.sec Reg.SEC_ARG_LO) 769) = .ok ⟨⟨0, 0, 0⟩, ⟨0, 0, 0⟩⟩ := by
  refine ⟨by decide +kernel, by decide +kernel, by decide +kernel, by decide +kernel, ?_⟩
  unfold State.readBundle State.readImage
  simp only [signedFor_of h, hh]
  decide +kernel

theorem witness_SecurityAndAttestation_entropy : (∀ n ∈ [14, 15], ({ awake [] with sec := { (awake []).sec with fails := n } } : State).sec.fails = n)
    ∧ (let u := (awake []).atTime 1; u.sec.seeding = [] ∧ u.sec.nonceDue = false ∧ u.sec.hoNonceDue = [] ∧ u.boot.phase ≠ .powered) := by decide +kernel

theorem witness_SecurityAndAttestation_reports : (let u := (secured none []).atTime 1; (∀ src ∈ [(0 : Fin 3), 2], u.askable src = true) ∧ u.identity = true)
    ∧ (let b := (secured none []).begin; b.askable 0 = true ∧ b.identity = true ∧ (65536#32).toNat ≤ 65536 ∧ b.sec.requests = [])
    ∧ (let u := (secured none [⟨0, [1], 0, some [7]⟩]).atTime 1; u.sec.requests = [⟨0, [1], 0, some [7]⟩] ∧ u.entropyFailed = false)
    ∧ (let s := secured none [⟨0, [1], 0, none⟩]; ({ s with pwr := { s.pwr with coast := some 0 } } : State).begin.pwr.coast.isSome = true) := by decide +kernel

/-- The target has address 5. -/
def addressed : State := let s := awake []; { s with tap := { s.tap with i3c := some 5 } }

theorem witness_ManagementAndTestPort : (awake []).begin.boot.phase.commandable = true ∧ (awake []).begin.tap.i3c = none ∧ addressed.begin.tap.i3c = some 5
    ∧ (let u := addressed.atTime 1; u.boot.phase.commandable = true ∧ u.tap.i3c = some 5 ∧ u.sec.requests = []) := by decide +kernel

/-- REGACC writes INT_EN, writes where no page is, and reads the first register. -/
theorem witness_ManagementAndTestPort_regacc : let at_ := (awake []).atTime 1
    let u := at_.setTap { at_.tap with ir := 0x40 }
    (match (u.busWrite .tap Reg.INT_EN 0xFFFFFFFF .free).resp with | .done => true | _ => false) = true
      ∧ (match (u.busWrite .tap 0x3FFFFF8 0 .free).resp with | .error _ => true | _ => false) = true
      ∧ (match (u.busRead .tap 0).resp with | .word _ => true | _ => false) = true := by decide +kernel

/-- A handover record for port 1, signed with an operator's key; the port's nonce is zeros. -/
theorem witness_EventsAndHandover_good (h : ∀ k m g, Config.ecdsaOk k m g = true) :
    let p := Pg.pcie 1
    let s := awake [reg p Reg.PCIE_HO_STAT 0x40000000, reg p Reg.PCIE_HO_REC 0x48564F48, reg p (Reg.PCIE_HO_REC + 4) 1]
    let u := ({ s with sec := { s.sec with keys := [some ⟨15, []⟩, none, none, none] } } : State).atTime 1
    u.hoState 1 = 1 ∧ u.handoverGood 1 = true := by
  refine ⟨by decide +kernel, ?_⟩
  unfold State.handoverGood
  simp only [signedFor_of h]
  decide +kernel

/-! ## Invariants -/

theorem witness_StepKeepsSound : State.reset.Sound ∧ (awake []).Sound := ⟨sound_of (by decide +kernel), sound_of (by decide +kernel)⟩


/-! ## Single effects -/

/-- R201: rounding toward zero never overflows: 65,536 becomes the largest FP16 value, 65,504 (R182). -/
theorem test_toward_zero : (convert .fp16 .rtz false (.fin false 1 16) 0).1 = 0x7BFF := by decide +kernel

/-- R251, R268: an Awn whose generators fail their known answers sets FAILED and INT_STAT bit 2, and is seeded. -/
theorem test_known_answers : let p := Pg.awn 3 15
    let s := (up []).seedEngine p true
    s.fldP p Reg.AWN_STAT 31 31 = 1 ∧ s.rdP p Reg.INT_STAT = 5 ∧ s.num p Reg.AWN_SEED_CNT = 1 := by decide +kernel

/-- R179: a retirement sets bit 2 of the retired Tiller's INT_STAT and bit 3 of the spare's. -/
theorem test_retirement : let s := (up [reg (Pg.tlr 1 7) Reg.TLR_MAP 0x20070007]).retireBoundary
    s.rdP (Pg.tlr 1 7) Reg.INT_STAT = 4 ∧ s.rdP (Pg.tlr 1 80) Reg.INT_STAT = 8 ∧ s.rdP (Pg.tlr 1 81) Reg.INT_STAT = 0 := by decide +kernel

/-- R131, R240: an element in the low half of a byte leaves the high half as it is. -/
theorem test_half_byte : let s := ((up []).store 0x020000000000 [0xA5#8]).apply (.half 0x020000000000 0x3C#8)
    s.byteAt 0x020000000000 = 0xAC#8 := by decide +kernel

/-- R274, R288: a write of 8 bytes of an ECC word takes two slots, one of 32 bytes takes one. -/
theorem test_part_write : let p := Pg.stack 0
    ((up []).servedWrite 8 8 2).num p (Reg.MEMC_CLASSc_CNT + 8) = 2 ∧ ((up []).servedWrite 32 32 2).num p (Reg.MEMC_CLASSc_CNT + 8) = 1 := by decide +kernel

/-- R115, R347: an abort leaves the bytes of a result in flight open, but not those of a Culm's small record. -/
theorem test_abort_records :
    (((up []).later 9 (.bytes 0x100 [1#8, 2#8])).later 9 (.put ⟨Pg.culm 0 0, 0⟩ true false 0x200 [3#8])).pendingRanges = [(0x100, 2)] := by decide +kernel

/-! ## Further witnesses -/

/-- Three freezes of the present stretch: one that ends, an open one, and one that ends after the stretch has reached its bound. -/
def stretched (l : List Freeze) : State :=
  let s := running [reg Pg.hub Reg.HUB_STRETCH_MAX 1000]
  { s with eng := { s.eng with frame := { s.eng.frame with frozen := l, stretchMax := 1000 } } }

def openFreeze : Freeze := ⟨.peerLate, 2, 5, none, .timed, some 0x40⟩
def timedFreeze (stop : Nat) : Freeze := ⟨.replay, 0, 5, some stop, .timed, none⟩

theorem witness_StretchAndFetch_exceeded : ∀ l ∈ [[openFreeze], [timedFreeze 9, openFreeze], [timedFreeze 5000]], let s := stretched l
    let f := s.eng.frame
    s.issuing = true ∧ s.frozen = true ∧ (f.freezeEnd.all fun y => decide (f.abortAt < y)) = true ∧ s.wall < f.abortAt ∧ 7 ≤ f.abortAt := by decide +kernel

/-- Of a freeze that has ended and an open one, the open one is pending (R117, R118). -/
theorem test_pending_freeze : (stretched [timedFreeze 9, openFreeze]).eng.frame.pendingFreeze 1261 = openFreeze := by decide +kernel

theorem witness_BootRuns_copy : (inPhase .powered).Sound := sound_of (by decide +kernel)

theorem witness_WarmReset_memory : let u := (up []).atTime 1
    sound u = true ∧ u.boot.phase.commandable = true ∧ u.pendingRanges = [] ∧ u.traffic = [] ∧ u.grn.run = none ∧ u.pwr.trans = []
      ∧ (∃ a < 1, ∀ d < 4, a < spadBase d ∨ spadBase d + spadBytes ≤ a)
      ∧ (let off := Pg.hub.base + Reg.HUB_TICK_DELAY
        warmKeep off = 0 ∧ off ≠ Pg.clk.base + Reg.CLK_STAT ∧ off ≠ Pg.sec.base + Reg.SEC_STAT ∧ off < Pg.clk.base + Reg.CLK_PLLn_STAT
          ∧ ∀ k < 12, off ≠ (Pg.stack k).base + Reg.MEMC_STAT) := by decide +kernel

/-- Stack 0 and the link of die 3 at the ends of the lane rules: the first corrected bits of a lane, and those that reach a threshold of 5. -/
theorem witness_StacksAndLinks_bits : ∀ q ∈ [(4, false), (5, true)], let u := (awake [reg (Pg.d2d 3) Reg.D2D_CFG 0x500]).atTime 1
    let v := (u.bump (Pg.d2d 3) Reg.D2D_CE_CNT q.1).noteBits 3 1 1631 q.1
    u.laneFailed 3 1 1631 = false ∧ decide (v.fldP (Pg.d2d 3) Reg.D2D_CFG 15 8 ≤ v.laneBits 3 1 1631) = q.2 := by decide +kernel

/-- Of a flit of slot 0, no lane wrong, lane 0 wrong, and lanes 0 and 48 wrong. -/
theorem witness_StacksAndLinks_flits : ∀ q ∈ [([], 0), ([0], 1), ([0, 48], 2)],
    (((awake []).atTime 1).wrongLanes 3 1 0 q.1).length = q.2 := by decide +kernel

theorem witness_GranaryAndSeeds_refused : (∀ n ∈ [2, 3], let s := granary (some (1, 5)) false 3
      let u := ({ s with grn := { s.grn with dies := List.replicate n { FlashDie.fresh with failed := true } ++ List.replicate (8 - n) FlashDie.fresh } } : State).atTime 1
      u.grn.command = some (1, 5) ∧ u.grn.run = none ∧ u.grn.failures = n)
    ∧ (let u := ({ granary (some (1, 5)) false 3 with regs := [] } : State).atTime 1
      u.grn.command = some (1, 5) ∧ u.grn.failures < 3 ∧ u.domainOn 202 = false)
    ∧ ((granary none false 3).atTime 1).grn.starting = false := by decide +kernel

theorem witness_SlotDescriptors_read : let s := imgState
    let d := slotDesc 0 9
    let u := s.atFacing [] 1
    let r := u.readSlotImage d (d.field 0x20 8)
    starts u 0 15 2 Desc.slotBad d = true ∧ d.field 0x18 1 = 0 ∧ u.slot? 9 = none ∧ r.2 = none ∧ r.1.admission (r.1.header 9 (d.field 0x20 8)) = none
      ∧ ((s.atFacing [⟨0, false, .ue false⟩] 1).readSlotImage d (d.field 0x20 8)).2.isSome = true := by decide +kernel

theorem witness_LongDescriptors_list : let u := (grnState ckptDesc).atFacing [] 1
    let r := u.takeRead Pg.grn (grnInfo 0xFF 0) 3 (ckptDesc.field 0x18 8) (16 * ckptDesc.field 0x20 4)
    let v := r.1.setGrn { r.1.grn with nextGen := r.1.grn.nextGen + 1 }
    starts u 0 15 5 Desc.checkpointBad ckptDesc = true ∧ r.2 = none ∧ regionsBad (r.1.regionList 0x1000 1) = false ∧ v.firstDenial (r.1.regionList 0x1000 1) false = none := by
  decide +kernel

theorem witness_ControlsAndClears_ringHeader : let u := (awake []).atTime 1
    let p := Pg.culm 0 0
    let w := u.answered.setP p Reg.CULM_RING_CTRL 0 0 1
    w.denial p (w.culmInfo 0) 2 (u.ringHeader 0 + 0x10) 24 true = none := by decide +kernel

/-- Three flash dies have failed: a RESTORE ends with GRN_DEGRADED (R26). -/
theorem witness_TransfersMoveAndEnd_degraded : let s := grnMoving true
    let u := ({ s with grn := { s.grn with dies := List.replicate 8 { FlashDie.fresh with failed := true } } } : State).atTime 1
    u.grn.run = some (grnRunOf true) ∧ u.transfer? 3 = some (grnXfer true) ∧ u.jobOf .restore = some (jobOfWork .restore) ∧ u.stalled (grnXfer true) = false
      ∧ 3 ≤ u.grn.failures := by decide +kernel

/-! ## Effects that the rules of numbers, tests and lanes give -/

/-- R224: the generator's first words from seed 1, by its own shifts. -/
theorem test_xorshift : xorshift 1 = 270369 ∧ xorshift 270369 = 67634689 := by decide +kernel

end Sys2Proof.Tests
end

section
/-!
SUPPORT. Bit fields of register words: reading a field after the same or another field was set.
-/
namespace Sys2Proof.Machine

/-! ## Fields of words -/

/-- A field of a number, bit by bit. -/
theorem testBit_bits (n hi lo i : Nat) : (bits n hi lo).testBit i = (decide (i < hi + 1 - lo) && n.testBit (lo + i)) := by
  rw [bits, Nat.testBit_mod_two_pow, Nat.testBit_div_two_pow, Nat.add_comm i lo]

/-- A number with a field replaced, bit by bit. -/
theorem testBit_setBits (n hi lo v i : Nat) :
    (setBits n hi lo v).testBit i = if lo ≤ i ∧ i < lo + (hi + 1 - lo) then v.testBit (i - lo) else n.testBit i := by
  generalize hw : hi + 1 - lo = w
  have hn : n = 2 ^ lo * (2 ^ w * (n / 2 ^ lo / 2 ^ w) + n / 2 ^ lo % 2 ^ w) + n % 2 ^ lo := by
    rw [Nat.div_add_mod, Nat.div_add_mod]
  have hs : setBits n hi lo v = 2 ^ lo * (2 ^ w * (n / 2 ^ lo / 2 ^ w) + v % 2 ^ w) + n % 2 ^ lo := by
    simp only [setBits, hw]
    generalize n / 2 ^ lo / 2 ^ w = a at *
    generalize n / 2 ^ lo % 2 ^ w = b at *
    generalize v % 2 ^ w = x
    generalize n % 2 ^ lo = c at *
    rw [hn, Nat.mul_add, Nat.mul_add, Nat.mul_comm b, Nat.mul_comm x]
    omega
  rw [hs, Nat.testBit_two_pow_mul_add _ (Nat.mod_lt _ (Nat.two_pow_pos lo))]
  by_cases h1 : i < lo
  · rw [if_pos h1, if_neg (by omega), Nat.testBit_mod_two_pow]
    simp [h1]
  · rw [if_neg h1, Nat.testBit_two_pow_mul_add _ (Nat.mod_lt _ (Nat.two_pow_pos w)), Nat.testBit_mod_two_pow, Nat.testBit_div_two_pow,
      Nat.testBit_div_two_pow]
    by_cases h2 : i - lo < w
    · rw [if_pos h2, if_pos (by omega)]
      simp [h2]
    · rw [if_neg h2, if_neg (by omega)]
      congr 1
      omega

theorem testBit_fld (w : Word) (hi lo i : Nat) : (fld w hi lo).testBit i = (decide (i < hi + 1 - lo) && w.toNat.testBit (lo + i)) :=
  testBit_bits ..

theorem testBit_setFld (w : Word) (hi lo v i : Nat) :
    (setFld w hi lo v).toNat.testBit i = (decide (i < 32) && if lo ≤ i ∧ i < lo + (hi + 1 - lo) then v.testBit (i - lo) else w.toNat.testBit i) := by
  rw [setFld, BitVec.toNat_ofNat, Nat.testBit_mod_two_pow, testBit_setBits]

/-- A field reads as the low bits of what it was set to. -/
theorem fld_setFld_same (w : Word) {hi lo : Nat} (v : Nat) (h : hi < 32) : fld (setFld w hi lo v) hi lo = v % 2 ^ (hi + 1 - lo) := by
  refine Nat.eq_of_testBit_eq fun i => ?_
  rw [testBit_fld, testBit_setFld, Nat.testBit_mod_two_pow]
  by_cases hi' : i < hi + 1 - lo
  · simp [hi', show lo + i < 32 by omega]
  · simp [hi']

/-- A field outside the one that was set reads as before. -/
theorem fld_setFld_other (w : Word) {hi lo hi' lo' : Nat} (v : Nat) (h : hi' < lo ∨ hi < lo') : fld (setFld w hi lo v) hi' lo' = fld w hi' lo' := by
  refine Nat.eq_of_testBit_eq fun i => ?_
  rw [testBit_fld, testBit_fld, testBit_setFld]
  by_cases hi' : i < hi' + 1 - lo'
  · rw [if_neg (by omega)]
    by_cases h32 : lo' + i < 32
    · simp [h32]
    · have : w.toNat < 2 ^ (lo' + i) := lt_of_lt_of_le w.isLt (Nat.pow_le_pow_right (by decide) (by omega))
      simp [h32, Nat.testBit_lt_two_pow this]
  · simp [hi']

/-- A field within one that was set to 0 reads 0. -/
theorem fld_setFld_zero (w : Word) {hi lo hi' lo' : Nat} (h1 : lo ≤ lo') (h2 : hi' ≤ hi) : fld (setFld w hi lo 0) hi' lo' = 0 := by
  refine Nat.eq_of_testBit_eq fun i => ?_
  rw [testBit_fld, testBit_setFld]
  by_cases hi' : i < hi' + 1 - lo'
  · rw [if_pos (by omega)]
    simp
  · simp [hi']

theorem toNat_satAdd (w : Word) (n : Nat) : (satAdd w n).toNat = min (w.toNat + n) 0xFFFFFFFF := by
  rw [satAdd, BitVec.toNat_ofNat, Nat.mod_eq_of_lt (by omega)]

end Sys2Proof.Machine
end

section
/-!
SUPPORT. Reading registers back after the shared operations on pages, and what an interrupt and an error can change.
-/
namespace Sys2Proof.Machine

variable {s : State} {p : Page}

theorem fld_bit_lt (w : Word) (i : Nat) : fld w i i < 2 := by
  rw [fld, bits, Nat.add_sub_cancel_left]
  exact Nat.mod_lt _ (by decide)

/-! ## Reading registers back -/

theorem State.wrP_regs_wf (h : Regs.wf s = true) (o : Nat) (w : Word) : Regs.wf (s.wrP p o w) = true := State.wr_regs_wf h _ _

theorem State.setP_regs_wf (h : Regs.wf s = true) (o hi lo v : Nat) : Regs.wf (s.setP p o hi lo v) = true := State.wr_regs_wf h _ _

theorem State.bump_regs_wf (h : Regs.wf s = true) (o n : Nat) : Regs.wf (s.bump p o n) = true := State.wr_regs_wf h _ _

theorem State.rdP_wrP_same (h : Regs.wf s = true) (o : Nat) (w : Word) : (s.wrP p o w).rdP p o = w := State.rd_wr_same h _ w

theorem State.rdP_wrP_other (h : Regs.wf s = true) {o x : Nat} (w : Word) (hx : x ≠ o) : (s.wrP p o w).rdP p x = s.rdP p x :=
  State.rd_wr_other h w (by omega)

theorem State.rdP_wrP (h : Regs.wf s = true) (o x : Nat) (w : Word) : (s.wrP p o w).rdP p x = if x = o then w else s.rdP p x := by
  split
  · subst x
    exact State.rdP_wrP_same h o w
  · exact State.rdP_wrP_other h w ‹_›

theorem State.rd_wrP_other (h : Regs.wf s = true) {o x : Nat} (w : Word) (hx : x ≠ p.base + o) : (s.wrP p o w).rd x = s.rd x := State.rd_wr_other h w hx

theorem State.rdP_setP_other (h : Regs.wf s = true) {o x hi lo : Nat} (v : Nat) (hx : x ≠ o) : (s.setP p o hi lo v).rdP p x = s.rdP p x :=
  State.rdP_wrP_other h _ hx

theorem State.rdP_bump_other (h : Regs.wf s = true) {o x : Nat} (n : Nat) (hx : x ≠ o) : (s.bump p o n).rdP p x = s.rdP p x :=
  State.rdP_wrP_other h _ hx

/-- A counter that an amount is added to stops at its greatest value. -/
theorem State.num_bump_same (h : Regs.wf s = true) (o n : Nat) : (s.bump p o n).num p o = min (s.num p o + n) 0xFFFFFFFF := by
  rw [State.num, State.bump, State.rdP_wrP_same h, toNat_satAdd, State.num]

theorem State.fldP_setP_same (h : Regs.wf s = true) (o : Nat) {hi lo : Nat} (v : Nat) (hh : hi < 32) :
    (s.setP p o hi lo v).fldP p o hi lo = v % 2 ^ (hi + 1 - lo) := by
  rw [State.fldP, State.setP, State.rdP_wrP_same h, fld_setFld_same _ _ hh]

theorem State.fldP_setP_field (h : Regs.wf s = true) (o : Nat) {hi lo hi' lo' : Nat} (v : Nat) (hh : hi' < lo ∨ hi < lo') :
    (s.setP p o hi lo v).fldP p o hi' lo' = s.fldP p o hi' lo' := by
  rw [State.fldP, State.setP, State.rdP_wrP_same h, fld_setFld_other _ _ hh, State.fldP]

theorem State.fldP_setP_zero (h : Regs.wf s = true) (o : Nat) {hi lo hi' lo' : Nat} (h1 : lo ≤ lo') (h2 : hi' ≤ hi) :
    (s.setP p o hi lo 0).fldP p o hi' lo' = 0 := by
  rw [State.fldP, State.setP, State.rdP_wrP_same h, fld_setFld_zero _ h1 h2]

/-! ## What an interrupt and an error can change -/

/-- t is b but for registers, the record of captures, the host side and what has been sent. -/
def Reports (b t : State) : Prop := ∃ r l h o, t = { b with regs := r, captured := l, host := h, out := o }

section
variable {b : State}

theorem Reports.refl (b : State) : Reports b b := ⟨b.regs, b.captured, b.host, b.out, rfl⟩

theorem Reports.upd {r l h o} (hs : Reports b s) : Reports b { s with regs := r, captured := l, host := h, out := o } := by
  obtain ⟨_, _, _, _, rfl⟩ := hs
  exact ⟨r, l, h, o, rfl⟩

theorem Reports.ite {c : Prop} [Decidable c] {x y : State} (hx : Reports b x) (hy : Reports b y) : Reports b (if c then x else y) := by split <;> assumption

theorem Reports.foldl {α : Type} {f : State → α → State} {l : List α} (h : Reports b s) (hf : ∀ t x, Reports b t → Reports b (f t x)) :
    Reports b (l.foldl f s) :=
  List.foldlRecOn l f h fun t ht x _ => hf t x ht

theorem Reports.mem_eq (h : Reports b s) : s.mem = b.mem := by obtain ⟨_, _, _, _, rfl⟩ := h; rfl
theorem Reports.fog_eq (h : Reports b s) : s.fog = b.fog := by obtain ⟨_, _, _, _, rfl⟩ := h; rfl

theorem State.wr_reports (h : Reports b s) (off : Nat) (w : Word) : Reports b (s.wr off w) := h.upd
theorem State.setP_reports (h : Reports b s) (o hi lo v : Nat) : Reports b (s.setP p o hi lo v) := h.upd

theorem State.msix_reports (h : Reports b s) (port vec : Nat) : Reports b (s.msix port vec) := by
  simp only [State.msix]
  split
  · exact h
  · split <;> exact h.upd

theorem State.pageMessage_reports (h : Reports b s) (p : Page) : Reports b (s.pageMessage p) := by
  simp only [State.pageMessage]
  split
  · exact State.msix_reports (State.msix_reports h _ _) _ _
  · exact State.msix_reports h _ _

theorem State.setInt_reports (h : Reports b s) (p : Page) (n : Nat) : Reports b (s.setInt p n) := by
  simp only [State.setInt, State.setInts]
  split
  · exact h.upd
  · exact State.pageMessage_reports h.upd p

theorem State.capture_reports (h : Reports b s) (p : Page) (code : Nat) (addr : Option Nat) (info : Nat) : Reports b (s.capture p code addr info) :=
  State.wr_reports (State.wr_reports (State.wr_reports (State.wr_reports h _ _) _ _) _ _) _ _

theorem State.raise_reports (h : Reports b s) (p : Page) (c : Cause) (addr : Option Nat) (info : Nat) : Reports b (s.raise p c addr info) := by
  have hfatal (w : State) (hw : Reports b w) : Reports b (if fatalCode p.kind (errCode c p.kind) then w.setP p Reg.ERR_STAT 2 2 1 else w) :=
    Reports.ite (State.setP_reports hw _ _ _ _) hw
  have hcount : Reports b (s.bump p Reg.ERR_CNT 1) := State.wr_reports h _ _
  have hovf := State.setP_reports (p := p) hcount Reg.ERR_STAT 1 1 1
  refine hfatal _ (Reports.ite ?_ (Reports.ite (State.capture_reports hovf _ _ _ _) hovf))
  exact State.setInt_reports (State.setP_reports (State.capture_reports hcount _ _ _ _) _ _ _ _).upd p 0

end

theorem State.pageMessage_regs (s : State) (p : Page) : (s.pageMessage p).regs = s.regs := by
  simp only [State.pageMessage]
  split <;> simp only [State.msix_regs]

/-- An interrupt writes INT_STAT, and INT_EN with the value it has. -/
theorem State.setInt_regs (s : State) (p : Page) (n : Nat) : (s.setInt p n).regs =
    ((s.wrP p Reg.INT_STAT (s.rdP p Reg.INT_STAT ||| BitVec.ofNat 32 (2 ^ n))).wrP p Reg.INT_EN (s.rdP p Reg.INT_EN)).regs := by
  simp only [State.setInt, State.setInts]
  split
  · rfl
  · exact State.pageMessage_regs _ _

theorem State.setInt_regs_wf (h : Regs.wf s = true) (n : Nat) : Regs.wf (s.setInt p n) = true := by
  rw [Regs.wf, State.setInt_regs]
  exact State.wrP_regs_wf (State.wrP_regs_wf h _ _) _ _

/-- An interrupt leaves every register but INT_STAT and INT_EN of its page. -/
theorem State.rd_setInt_other (h : Regs.wf s = true) (n : Nat) {x : Nat} (h1 : x ≠ p.base + Reg.INT_STAT) (h2 : x ≠ p.base + Reg.INT_EN) :
    (s.setInt p n).rd x = s.rd x := by
  rw [State.rd, State.setInt_regs]
  exact (State.rd_wr_other (State.wrP_regs_wf h _ _) _ h2).trans (State.rd_wr_other h _ h1)

/-! ## How raising an error goes -/

/-- The end of raising an error: FATAL sets for the errors of R26. -/
def State.flagFatal (s : State) (p : Page) (code : Nat) : State := if fatalCode p.kind code then s.setP p Reg.ERR_STAT 2 2 1 else s

theorem State.rd_flagFatal_other (h : Regs.wf s = true) (code : Nat) {x : Nat} (hx : x ≠ p.base + Reg.ERR_STAT) : (s.flagFatal p code).rd x = s.rd x := by
  unfold State.flagFatal
  split
  · exact State.rd_wr_other h _ hx
  · rfl

theorem State.rdP_flagFatal_other (h : Regs.wf s = true) (code : Nat) {x : Nat} (hx : x ≠ Reg.ERR_STAT) : (s.flagFatal p code).rdP p x = s.rdP p x :=
  State.rd_flagFatal_other h code (by omega)

theorem State.fldP_flagFatal (h : Regs.wf s = true) (code : Nat) {hi lo : Nat} (hh : hi < 2) :
    (s.flagFatal p code).fldP p Reg.ERR_STAT hi lo = s.fldP p Reg.ERR_STAT hi lo := by
  unfold State.flagFatal
  split
  · exact State.fldP_setP_field h _ _ (.inl hh)
  · rfl

/-- The cycle in which a page captured an error, noted for R24. -/
def State.noteCapture (s : State) (p : Page) : State := { s with captured := (p.base, s.wall) :: s.captured.filter fun c => c.1 != p.base }

/-- The state in which an error that finds VALID 0 has been captured. -/
def State.captureNew (s : State) (p : Page) (code : Nat) (addr : Option Nat) (info : Nat) : State :=
  (((s.capture p code addr info).setP p Reg.ERR_STAT 0 0 1).noteCapture p).setInt p 0

/-- Raising an error while VALID is 0 captures it (R23). -/
theorem State.raise_of_clear (h : Regs.wf s = true) (c : Cause) (addr : Option Nat) (info : Nat) (h0 : s.fldP p Reg.ERR_STAT 0 0 = 0) :
    s.raise p c addr info = ((s.bump p Reg.ERR_CNT 1).captureNew p (errCode c p.kind) addr info).flagFatal p (errCode c p.kind) := by
  have h0' : (s.bump p Reg.ERR_CNT 1).fldP p Reg.ERR_STAT 0 0 = 0 := by
    rw [State.fldP, State.rdP_bump_other h _ (by decide)]
    exact h0
  simp only [State.raise, h0', if_true]
  rfl

/-- Raising an error while VALID is 1 from an earlier cycle sets OVF (R23). -/
theorem State.raise_of_valid (h : Regs.wf s = true) (c : Cause) (addr : Option Nat) (info : Nat) (h1 : s.fldP p Reg.ERR_STAT 0 0 = 1)
    (hc : s.captured.contains (p.base, s.wall) = false) :
    s.raise p c addr info = ((s.bump p Reg.ERR_CNT 1).setP p Reg.ERR_STAT 1 1 1).flagFatal p (errCode c p.kind) := by
  have h1' : (s.bump p Reg.ERR_CNT 1).fldP p Reg.ERR_STAT 0 0 = 1 := by
    rw [State.fldP, State.rdP_bump_other h _ (by decide)]
    exact h1
  have hc' : ((s.bump p Reg.ERR_CNT 1).setP p Reg.ERR_STAT 1 1 1).captured.contains
      (p.base, ((s.bump p Reg.ERR_CNT 1).setP p Reg.ERR_STAT 1 1 1).wall) = false := hc
  simp only [State.raise, h1', hc', State.flagFatal, one_ne_zero, if_false, Bool.false_eq_true, false_and]

end Sys2Proof.Machine
end

section
/-!
SUPPORT. Errors captured by a page (R23 to R25): what the capture registers, ERR_STAT and ERR_CNT hold after an error.
-/
namespace Sys2Proof.Machine

variable {s : State} {p : Page} {code info : Nat} {addr : Option Nat}

/-- The four registers of a captured error, as the page holds them (R23). -/
structure State.Captured (s : State) (p : Page) (code : Nat) (addr : Option Nat) (info : Nat) : Prop where
  code : s.rdP p Reg.ERR_CODE = BitVec.ofNat 32 code
  addrLo : s.rdP p Reg.ERR_ADDR_LO = BitVec.ofNat 32 (addr.getD 0)
  addrHi : s.rdP p Reg.ERR_ADDR_HI = BitVec.ofNat 32 (addr.elim 0 fun a => 2 ^ 31 + a / 2 ^ 32 % 2 ^ 16)
  info : s.rdP p Reg.ERR_INFO = BitVec.ofNat 32 info

/-- What leaves the four registers as they are leaves the error captured. -/
theorem State.Captured.of_rdP_eq {t : State} (hc : s.Captured p code addr info) (h : ∀ x, Reg.ERR_CODE ≤ x → x ≤ Reg.ERR_INFO → t.rdP p x = s.rdP p x) :
    t.Captured p code addr info :=
  ⟨(h _ (by decide) (by decide)).trans hc.code, (h _ (by decide) (by decide)).trans hc.addrLo, (h _ (by decide) (by decide)).trans hc.addrHi,
    (h _ (by decide) (by decide)).trans hc.info⟩

theorem State.capture_regs_wf (h : Regs.wf s = true) : Regs.wf (s.capture p code addr info) = true :=
  State.wrP_regs_wf (State.wrP_regs_wf (State.wrP_regs_wf (State.wrP_regs_wf h _ _) _ _) _ _) _ _

theorem State.capture_eq (s : State) (p : Page) (code : Nat) (addr : Option Nat) (info : Nat) : s.capture p code addr info =
    (((s.wrP p Reg.ERR_CODE (BitVec.ofNat 32 code)).wrP p Reg.ERR_ADDR_LO (BitVec.ofNat 32 (addr.getD 0))).wrP p Reg.ERR_ADDR_HI
      (BitVec.ofNat 32 (addr.elim 0 fun a => 2 ^ 31 + a / 2 ^ 32 % 2 ^ 16))).wrP p Reg.ERR_INFO (BitVec.ofNat 32 info) := by
  cases addr <;> rfl

theorem State.rdP_capture (h : Regs.wf s = true) (x : Nat) : (s.capture p code addr info).rdP p x =
    if x = Reg.ERR_INFO then BitVec.ofNat 32 info
    else if x = Reg.ERR_ADDR_HI then BitVec.ofNat 32 (addr.elim 0 fun a => 2 ^ 31 + a / 2 ^ 32 % 2 ^ 16)
    else if x = Reg.ERR_ADDR_LO then BitVec.ofNat 32 (addr.getD 0)
    else if x = Reg.ERR_CODE then BitVec.ofNat 32 code
    else s.rdP p x := by
  have h1 := State.wrP_regs_wf (p := p) h Reg.ERR_CODE (BitVec.ofNat 32 code)
  have h2 := State.wrP_regs_wf (p := p) h1 Reg.ERR_ADDR_LO (BitVec.ofNat 32 (addr.getD 0))
  have h3 := State.wrP_regs_wf (p := p) h2 Reg.ERR_ADDR_HI (BitVec.ofNat 32 (addr.elim 0 fun a => 2 ^ 31 + a / 2 ^ 32 % 2 ^ 16))
  rw [State.capture_eq, State.rdP_wrP h3, State.rdP_wrP h2, State.rdP_wrP h1, State.rdP_wrP h]

theorem State.capture_captured (h : Regs.wf s = true) : (s.capture p code addr info).Captured p code addr info :=
  ⟨State.rdP_capture h _, State.rdP_capture h _, State.rdP_capture h _, State.rdP_capture h _⟩

/-- Capturing an error writes the four registers alone. -/
theorem State.rd_capture_other (h : Regs.wf s = true) {x : Nat} (hx : x < p.base + Reg.ERR_CODE ∨ p.base + Reg.ERR_INFO < x) :
    (s.capture p code addr info).rd x = s.rd x := by
  simp only [Reg.ERR_CODE, Reg.ERR_INFO] at hx
  have h1 := State.wrP_regs_wf (p := p) h Reg.ERR_CODE (BitVec.ofNat 32 code)
  have h2 := State.wrP_regs_wf (p := p) h1 Reg.ERR_ADDR_LO (BitVec.ofNat 32 (addr.getD 0))
  have h3 := State.wrP_regs_wf (p := p) h2 Reg.ERR_ADDR_HI (BitVec.ofNat 32 (addr.elim 0 fun a => 2 ^ 31 + a / 2 ^ 32 % 2 ^ 16))
  rw [State.capture_eq, State.rd_wrP_other h3, State.rd_wrP_other h2, State.rd_wrP_other h1, State.rd_wrP_other h] <;>
    simp only [Reg.ERR_CODE, Reg.ERR_ADDR_LO, Reg.ERR_ADDR_HI, Reg.ERR_INFO] <;> omega

theorem State.rdP_capture_other (h : Regs.wf s = true) {x : Nat} (hx : x < Reg.ERR_CODE ∨ Reg.ERR_INFO < x) :
    (s.capture p code addr info).rdP p x = s.rdP p x :=
  State.rd_capture_other h (by omega)

/-! ## A new capture -/

theorem State.captureNew_regs_wf (h : Regs.wf s = true) : Regs.wf (s.captureNew p code addr info) = true :=
  State.setInt_regs_wf (s := ((s.capture p code addr info).setP p Reg.ERR_STAT 0 0 1).noteCapture p) (State.setP_regs_wf (State.capture_regs_wf h) _ _ _ _) 0

/-- A new capture leaves the registers of its page but INT_EN and INT_STAT as capturing and setting VALID leave them. -/
theorem State.rd_captureNew (h : Regs.wf s = true) {x : Nat} (h1 : x ≠ p.base + Reg.INT_STAT) (h2 : x ≠ p.base + Reg.INT_EN) :
    (s.captureNew p code addr info).rd x = ((s.capture p code addr info).setP p Reg.ERR_STAT 0 0 1).rd x :=
  State.rd_setInt_other (s := ((s.capture p code addr info).setP p Reg.ERR_STAT 0 0 1).noteCapture p) (State.setP_regs_wf (State.capture_regs_wf h) _ _ _ _) 0 h1 h2

theorem State.captureNew_captured (h : Regs.wf s = true) : (s.captureNew p code addr info).Captured p code addr info := by
  refine (State.capture_captured h).of_rdP_eq fun x h1 h2 => ?_
  rw [Reg.ERR_CODE] at h1
  rw [Reg.ERR_INFO] at h2
  exact (State.rd_captureNew h (by simp only [Reg.INT_STAT]; omega) (by simp only [Reg.INT_EN]; omega)).trans
    (State.rdP_setP_other (State.capture_regs_wf h) _ (by simp only [Reg.ERR_STAT]; omega))

/-- A new capture leaves the registers outside ERR_STAT to ERR_INFO, INT_EN and INT_STAT of its page. -/
theorem State.rd_captureNew_other (h : Regs.wf s = true) {x : Nat} (h1 : x < p.base + Reg.ERR_STAT ∨ p.base + Reg.ERR_INFO < x)
    (h2 : x ≠ p.base + Reg.INT_STAT) (h3 : x ≠ p.base + Reg.INT_EN) : (s.captureNew p code addr info).rd x = s.rd x := by
  simp only [Reg.ERR_STAT, Reg.ERR_INFO] at h1
  refine (State.rd_captureNew h h2 h3).trans ((State.rd_wr_other (State.capture_regs_wf h) _ ?_).trans (State.rd_capture_other h ?_))
  · simp only [Reg.ERR_STAT]; omega
  · simp only [Reg.ERR_CODE, Reg.ERR_INFO]; omega

theorem State.fldP_captureNew_stat (h : Regs.wf s = true) (hi lo : Nat) : (s.captureNew p code addr info).fldP p Reg.ERR_STAT hi lo =
    ((s.capture p code addr info).setP p Reg.ERR_STAT 0 0 1).fldP p Reg.ERR_STAT hi lo :=
  congrArg (fld · hi lo) (State.rd_captureNew h (by simp [Reg.ERR_STAT, Reg.INT_STAT]) (by simp [Reg.ERR_STAT, Reg.INT_EN]))

theorem State.valid_captureNew (h : Regs.wf s = true) : (s.captureNew p code addr info).fldP p Reg.ERR_STAT 0 0 = 1 :=
  (State.fldP_captureNew_stat h 0 0).trans (State.fldP_setP_same (State.capture_regs_wf h) _ 1 (by decide))

theorem State.ovf_captureNew (h : Regs.wf s = true) : (s.captureNew p code addr info).fldP p Reg.ERR_STAT 1 1 = s.fldP p Reg.ERR_STAT 1 1 :=
  (State.fldP_captureNew_stat h 1 1).trans ((State.fldP_setP_field (State.capture_regs_wf h) _ 1 (.inr (by decide))).trans
    (congrArg (fld · 1 1) (State.rdP_capture_other h (.inl (by decide)))))

/-! ## Raising an error -/

section
variable {c : Cause}

/-- An error raised while VALID is 0 is captured. -/
theorem State.raise_captured (h : Regs.wf s = true) (h0 : s.fldP p Reg.ERR_STAT 0 0 = 0) :
    (s.raise p c addr info).Captured p (errCode c p.kind) addr info := by
  have hb := State.bump_regs_wf (p := p) h Reg.ERR_CNT 1
  rw [State.raise_of_clear h c addr info h0]
  refine (State.captureNew_captured hb).of_rdP_eq fun x h1 _ => State.rdP_flagFatal_other (State.captureNew_regs_wf hb) _ ?_
  simp only [Reg.ERR_CODE, Reg.ERR_STAT] at *
  omega

/-- An error raised while VALID is 0 sets VALID and leaves OVF. -/
theorem State.stat_raise_of_clear (h : Regs.wf s = true) (h0 : s.fldP p Reg.ERR_STAT 0 0 = 0) :
    (s.raise p c addr info).fldP p Reg.ERR_STAT 0 0 = 1 ∧ (s.raise p c addr info).fldP p Reg.ERR_STAT 1 1 = s.fldP p Reg.ERR_STAT 1 1 := by
  have hb := State.bump_regs_wf (p := p) h Reg.ERR_CNT 1
  have hn := State.captureNew_regs_wf (p := p) (code := errCode c p.kind) (addr := addr) (info := info) hb
  rw [State.raise_of_clear h c addr info h0, State.fldP_flagFatal hn _ (by decide), State.fldP_flagFatal hn _ (by decide)]
  exact ⟨State.valid_captureNew hb, (State.ovf_captureNew hb).trans (congrArg (fld · 1 1) (State.rdP_bump_other h 1 (by decide)))⟩

/-- An error raised while VALID is 1 from an earlier cycle leaves the page's registers but ERR_STAT and ERR_CNT. -/
theorem State.rdP_raise_of_valid (h : Regs.wf s = true) (h1 : s.fldP p Reg.ERR_STAT 0 0 = 1) (hc : s.captured.contains (p.base, s.wall) = false) {x : Nat}
    (hs : x ≠ Reg.ERR_STAT) (hn : x ≠ Reg.ERR_CNT) : (s.raise p c addr info).rdP p x = s.rdP p x := by
  have hb := State.bump_regs_wf (p := p) h Reg.ERR_CNT 1
  rw [State.raise_of_valid h c addr info h1 hc]
  exact (State.rdP_flagFatal_other (State.setP_regs_wf hb _ _ _ _) _ hs).trans ((State.rdP_setP_other hb _ hs).trans (State.rdP_bump_other h _ hn))

/-- An error raised while VALID is 1 from an earlier cycle leaves VALID and sets OVF. -/
theorem State.stat_raise_of_valid (h : Regs.wf s = true) (h1 : s.fldP p Reg.ERR_STAT 0 0 = 1) (hc : s.captured.contains (p.base, s.wall) = false) :
    (s.raise p c addr info).fldP p Reg.ERR_STAT 0 0 = 1 ∧ (s.raise p c addr info).fldP p Reg.ERR_STAT 1 1 = 1 := by
  have hb := State.bump_regs_wf (p := p) h Reg.ERR_CNT 1
  have hv := State.setP_regs_wf (p := p) hb Reg.ERR_STAT 1 1 1
  rw [State.raise_of_valid h c addr info h1 hc, State.fldP_flagFatal hv _ (by decide), State.fldP_flagFatal hv _ (by decide)]
  refine ⟨(State.fldP_setP_field hb _ _ (.inl (by decide))).trans ?_, State.fldP_setP_same hb _ 1 (by decide)⟩
  exact (congrArg (fld · 0 0) (State.rdP_bump_other h 1 (by decide))).trans h1

/-- VALID is 0 or 1. -/
theorem State.valid_cases (s : State) (p : Page) : s.fldP p Reg.ERR_STAT 0 0 = 0 ∨ s.fldP p Reg.ERR_STAT 0 0 = 1 := by
  have := fld_bit_lt (s.rdP p Reg.ERR_STAT) 0
  unfold State.fldP
  omega

/-- ERR_CNT counts every error, captured or not. -/
theorem State.num_raise_cnt (h : Regs.wf s = true) (hc : s.captured.contains (p.base, s.wall) = false) :
    (s.raise p c addr info).num p Reg.ERR_CNT = min (s.num p Reg.ERR_CNT + 1) 0xFFFFFFFF := by
  have hb := State.bump_regs_wf (p := p) h Reg.ERR_CNT 1
  refine Eq.trans (congrArg BitVec.toNat ?_) (State.num_bump_same h Reg.ERR_CNT 1)
  rcases s.valid_cases p with h0 | h1
  · rw [State.raise_of_clear h c addr info h0]
    refine (State.rdP_flagFatal_other (State.captureNew_regs_wf hb) _ (by decide)).trans (State.rd_captureNew_other hb (.inr ?_) ?_ ?_) <;>
      simp [Reg.ERR_CNT, Reg.ERR_INFO, Reg.INT_STAT, Reg.INT_EN]
  · rw [State.raise_of_valid h c addr info h1 hc]
    exact (State.rdP_flagFatal_other (State.setP_regs_wf hb _ _ _ _) _ (by decide)).trans (State.rdP_setP_other hb _ (by decide))

/-- Raising an error leaves the registers outside the page's header. -/
theorem State.rd_raise_other (h : Regs.wf s = true) (hc : s.captured.contains (p.base, s.wall) = false) {x : Nat} (hx : x < p.base ∨ p.base + 0x40 ≤ x) :
    (s.raise p c addr info).rd x = s.rd x := by
  have hb := State.bump_regs_wf (p := p) h Reg.ERR_CNT 1
  have hne (o : Nat) (ho : o < 0x40) : x ≠ p.base + o := by omega
  have hcnt : (s.bump p Reg.ERR_CNT 1).rd x = s.rd x := State.rd_wr_other h _ (hne _ (by decide))
  rcases s.valid_cases p with h0 | h1
  · rw [State.raise_of_clear h c addr info h0, State.rd_flagFatal_other (State.captureNew_regs_wf hb) _ (hne _ (by decide)),
      State.rd_captureNew_other hb _ (hne _ (by decide)) (hne _ (by decide)), hcnt]
    simp only [Reg.ERR_STAT, Reg.ERR_INFO]
    omega
  · rw [State.raise_of_valid h c addr info h1 hc, State.rd_flagFatal_other (State.setP_regs_wf hb _ _ _ _) _ (hne _ (by decide))]
    exact (State.rd_wr_other hb _ (hne _ (by decide))).trans hcnt

end

end Sys2Proof.Machine
end

section
/-!
SUPPORT. Accesses of register space: sizes, reads of counters, and writes of registers that have no rule of their own.
-/
namespace Sys2Proof.Machine

variable {s : State} {p : Page} {via : Via} {off n : Nat}

/-! ## Accesses of a page's registers -/

/-- An access that ends without an error needs no report (R389). -/
theorem State.reported_of_done (h : s.resp = .done) (n : Nat) : s.reported n = s := by
  rw [State.reported, h]
  rfl

/-- A write of a header register reaches the rule of the header, but for HUB's BLK_CTRL. -/
theorem State.writeWord_header {o : Nat} {v : Word} {f : DrasFind} (hp : pageOf off = some (p, o)) (ho : o < 0x40) (hb : o ≠ Reg.BLK_CTRL) :
    s.writeWord via off v f = s.headerWrite p o v := by
  simp [State.writeWord, hp, ho, hb]

/-- A write of a block-specific register reaches its page's rule. -/
theorem State.writeWord_page {o : Nat} {v : Word} {f : DrasFind} (hp : pageOf off = some (p, o)) (ho : 0x40 ≤ o) :
    s.writeWord via off v f = s.pageWrite via p o v f := by
  simp [State.writeWord, hp, Nat.not_lt.2 ho]

/-- A write of 1 to ERR_STAT.VALID clears VALID and OVF (R25). -/
theorem State.headerWrite_rearm (s : State) (p : Page) : s.headerWrite p Reg.ERR_STAT 1 = s.setP p Reg.ERR_STAT 1 0 0 := rfl

/-! ## Sizes -/

theorem sizeBad_of (h : (n ≠ 4 ∧ n ≠ 8) ∨ off % n ≠ 0) : sizeBad off n = true := by
  simp only [sizeBad, Bool.not_eq_true', Bool.and_eq_false_iff, Bool.or_eq_false_iff, beq_eq_false_iff_ne]
  exact h

theorem sizeBad_eq_false (h4 : n = 4 ∨ n = 8) (h : off % n = 0) : sizeBad off n = false := by
  rcases h4 with rfl | rfl <;> simp [sizeBad, h]

/-- What denies an access at an offset that is no multiple of 4 (R14). -/
theorem State.regDenial_unaligned (s : State) (via : Via) (h : off % 4 ≠ 0) : s.regDenial via off = some ⟨via.page, .ACCESS_SIZE, none, 0⟩ := by
  rw [State.regDenial, if_pos h]

/-- A read of 4 bytes is a read of the word, for which a bad alignment is a denial like the others. -/
theorem State.busReadN_four (s : State) (via : Via) (off : Nat) : s.busReadN via off 4 = s.busRead via off := by
  cases hc : s.boot.phase.commandable
  · simp only [State.busReadN, State.busRead, hc, Bool.not_false, if_true]
  · by_cases h : off % 4 = 0
    · simp only [State.busReadN, hc, sizeBad_eq_false (.inl rfl) h, Bool.not_true, Bool.false_eq_true, if_false, if_true]
    · simp only [State.busReadN, State.busRead, hc, sizeBad_of (.inr h), State.regDenial_unaligned s via h, Bool.not_true, Bool.false_eq_true, if_false, if_true]

/-- A write of 4 bytes is a write of the word. -/
theorem State.busWriteN_four (s : State) (via : Via) (off : Nat) (v : BitVec 64) : s.busWriteN via off v 4 = s.busWrite via off (v.setWidth 32) .free := by
  cases hc : s.boot.phase.commandable
  · simp only [State.busWriteN, State.busWrite, hc, Bool.not_false, if_true]
  · cases hs : s.standbyBlocks via off with
    | some n => simp only [State.busWriteN, State.busWrite, hc, hs, Bool.not_true, Bool.false_eq_true, if_false]
    | none =>
      by_cases h : off % 4 = 0
      · simp only [State.busWriteN, hc, hs, sizeBad_eq_false (.inl rfl) h, Bool.not_true, Bool.false_eq_true, if_false, if_true]
      · simp only [State.busWriteN, State.busWrite, hc, hs, sizeBad_of (.inr h), State.regDenial_unaligned s via h, Bool.not_true, Bool.false_eq_true, if_false,
          if_true]

/-- A read of 8 bytes reads both words, the second in the state that the first leaves. -/
theorem State.busReadN_eight {a : State} {lo hi : Word} (hc : s.boot.phase.commandable = true) (h8 : off % 8 = 0) (h1 : s.busRead via off = a)
    (hlo : a.resp = .word lo) (hhi : (a.busRead via (off + 4)).resp = .word hi) :
    s.busReadN via off 8 = { a.busRead via (off + 4) with resp := .bytes (leBytes 4 lo.toNat ++ leBytes 4 hi.toNat) } := by
  simp only [State.busReadN, hc, sizeBad_eq_false (.inr rfl) h8, h1, hlo, hhi, Bool.not_true, Bool.false_eq_true, if_false, show (8 : Nat) ≠ 4 by decide]

theorem State.busReadN_badSize (hc : s.boot.phase.commandable = true) (h : sizeBad off n = true) :
    s.busReadN via off n = s.denyVia via ⟨via.page, .ACCESS_SIZE, none, 0⟩ := by
  simp [State.busReadN, hc, h]

theorem State.busWriteN_badSize {v : BitVec 64} (hc : s.boot.phase.commandable = true) (hs : s.standbyBlocks via off = none) (h : sizeBad off n = true) :
    s.busWriteN via off v n = s.denyVia via ⟨via.page, .ACCESS_SIZE, none, 0⟩ := by
  simp [State.busWriteN, hc, hs, h]

theorem State.standbyBlocks_owner (s : State) (off : Nat) : s.standbyBlocks (.port s.owner) off = none := by
  simp [State.standbyBlocks]

/-- A write of any size by the standby port outside R391's fields is rejected. -/
theorem State.busWriteN_standby {port : Nat} {v : BitVec 64} (hc : s.boot.phase.commandable = true) (ho : port ≠ s.owner) (hm : standbyMay port off = false) :
    s.busWriteN (.port port) off v n = s.standbyReject port := by
  simp [State.busWriteN, State.standbyBlocks, hc, ho, hm]

/-! ## Reads -/

/-- An answer given. -/
def State.answer (s : State) (r : Response) : State := { s with resp := r }

/-- The other half of a counter latched (R15). -/
def State.latchHi (s : State) (o : Nat) (w : Word) : State := { s with latch := (o, w) :: s.latch.filter fun q => q.1 != o }

theorem State.latched_latchHi (s : State) (o : Nat) (w : Word) : (s.latchHi o w).latched o = some w := by
  simp [State.latched, State.latchHi]

/-- Neither the latch nor the answer bears on what denies an access. -/
theorem State.regDenial_latchHi (s : State) (o : Nat) (w : Word) (r : Response) (via : Via) (off : Nat) :
    ((s.latchHi o w).answer r).regDenial via off = s.regDenial via off := rfl

/-- A read that something denies. -/
theorem State.busRead_denied {d : Denial} (hc : s.boot.phase.commandable = true) (h : s.regDenial via off = some d) : s.busRead via off = s.denyVia via d := by
  simp [State.busRead, hc, h]

/-- A read of a counter's _LO latches its _HI (R15). -/
theorem State.readWord_lo {x : Nat} (hp : pageOf off = some (p, x)) (hl : counterLo p.kind x = true) :
    s.readWord via off = (s.regValue p x, s.latchHi (off + 4) (s.regValue p (x + 4))) := by
  simp only [State.readWord, hp, hl, if_true]
  rfl

/-- A read of a counter's _HI answers what the read of _LO latched (R15). -/
theorem State.readWord_hi {x : Nat} (hp : pageOf off = some (p, x)) (hl : counterLo p.kind x = false) (h4 : 4 ≤ x) (hh : counterLo p.kind (x - 4) = true) :
    s.readWord via off = ((s.latched off).getD (s.regValue p x), s) := by
  simp [State.readWord, hp, hl, h4, hh]

/-- A register that is no half of a counter answers its value. -/
theorem State.readWord_plain {x : Nat} (hp : pageOf off = some (p, x)) (hl : counterLo p.kind x = false) (hh : x < 4 ∨ counterLo p.kind (x - 4) = false) :
    s.readWord via off = (s.regValue p x, s) := by
  have hn : ¬(4 ≤ x ∧ counterLo p.kind (x - 4) = true) := by
    rintro ⟨h4, h⟩
    rcases hh with hh | hh
    · omega
    · simp [h] at hh
  simp only [State.readWord, hp, hl, Bool.false_eq_true, if_false, hn]

theorem State.busRead_lo {port x : Nat} (hc : s.boot.phase.commandable = true) (hd : s.regDenial (.port port) off = none) (hp : pageOf off = some (p, x))
    (hl : counterLo p.kind x = true) :
    s.busRead (.port port) off = (s.latchHi (off + 4) (s.regValue p (x + 4))).answer (.word (s.regValue p x)) := by
  rw [State.busRead_accepted hc hd, State.readWord_lo hp hl]
  rfl

theorem State.busRead_hi {port x : Nat} (hc : s.boot.phase.commandable = true) (hd : s.regDenial (.port port) off = none) (hp : pageOf off = some (p, x))
    (hl : counterLo p.kind x = false) (h4 : 4 ≤ x) (hh : counterLo p.kind (x - 4) = true) :
    s.busRead (.port port) off = s.answer (.word ((s.latched off).getD (s.regValue p x))) := by
  rw [State.busRead_accepted hc hd, State.readWord_hi hp hl h4 hh]
  rfl

theorem State.busRead_plain {port x : Nat} (hc : s.boot.phase.commandable = true) (hd : s.regDenial (.port port) off = none) (hp : pageOf off = some (p, x))
    (hl : counterLo p.kind x = false) (hh : x < 4 ∨ counterLo p.kind (x - 4) = false) :
    s.busRead (.port port) off = s.answer (.word (s.regValue p x)) := by
  rw [State.busRead_accepted hc hd, State.readWord_plain hp hl hh]
  rfl

/-- A read of 8 bytes at a counter's _LO answers both halves of the same instant (R15). -/
theorem State.busReadN_counter {port x : Nat} (hc : s.boot.phase.commandable = true) (hd : s.regDenial (.port port) off = none)
    (hp : pageOf off = some (p, x)) (hl : counterLo p.kind x = true) (h8 : off % 8 = 0) (hp' : pageOf (off + 4) = some (p, x + 4))
    (hl' : counterLo p.kind (x + 4) = false) (hd' : s.regDenial (.port port) (off + 4) = none) :
    s.busReadN (.port port) off 8 = (s.latchHi (off + 4) (s.regValue p (x + 4))).answer
      (.bytes (leBytes 4 (s.regValue p x).toNat ++ leBytes 4 (s.regValue p (x + 4)).toNat)) := by
  let a := (s.latchHi (off + 4) (s.regValue p (x + 4))).answer (.word (s.regValue p x))
  have hhi : a.busRead (.port port) (off + 4) = a.answer (.word (s.regValue p (x + 4))) := by
    have hla : a.latched (off + 4) = some (s.regValue p (x + 4)) := s.latched_latchHi _ _
    rw [State.busRead_hi (s := a) hc ((s.regDenial_latchHi ..).trans hd') hp' hl' (by omega) (by simpa using hl), hla, Option.getD_some]
  rw [State.busReadN_eight hc h8 (State.busRead_lo hc hd hp hl) rfl (congrArg State.resp hhi), hhi]
  rfl

/-! ## Writes -/

theorem State.busWriteN_denied {port : Nat} {v : BitVec 64} {d : Denial} (hc : s.boot.phase.commandable = true) (ho : port = s.owner)
    (hd : s.regDenial (.port port) off = some d) : s.busWriteN (.port port) off v 4 = (s.deny d.page d.cause d.addr d.info).reported port := by
  rw [State.busWriteN_four, State.busWrite_denied hc ho hd]

/-- The page kinds of which every block-specific register is written by its access codes alone. -/
theorem State.pageWrite_plain {o : Nat} {v : Word} {f : DrasFind} (hk : p.kind ∈ [PageKind.pwr, .idle, .awn, .rch, .spd, .memc]) :
    s.pageWrite via p o v f = s.plainWrite p o v := by
  simp only [List.mem_cons, List.not_mem_nil, or_false] at hk
  rcases hk with hk | hk | hk | hk | hk | hk <;> simp only [State.pageWrite, hk]

/-- LOCK has one row, in the header of every page, with no bit that LOCK guards. -/
theorem rowOf_lock (k : PageKind) : rowOf k Reg.LOCK = some ⟨Reg.LOCK, 0, 1, 0, 1, 0, 0, 0, 1, 0, 0, 0⟩ := by
  cases k <;> decide

theorem State.unlocked_lock (s : State) (p : Page) : s.Unlocked p Reg.LOCK := by
  intro r hr
  rw [rowOf_lock, Option.some.injEq] at hr
  subst hr
  exact .inl rfl

/-- A write of LOCK goes by its access codes. -/
theorem State.headerWrite_lock (s : State) (p : Page) (v : Word) : s.headerWrite p Reg.LOCK v = s.coded p Reg.LOCK v :=
  (show s.headerWrite p Reg.LOCK v = s.plainWrite p Reg.LOCK v from rfl).trans (State.plainWrite_coded (rowOf_lock p.kind) (s.unlocked_lock p))

theorem State.not_unlocked {o : Nat} {r : RegRow} (hr : rowOf p.kind o = some r) (h : ¬s.Unlocked p o) : r.rl ≠ 0 ∧ s.fldP p Reg.LOCK 0 0 = 1 := by
  constructor
  · exact fun h0 => h fun r' hr' => .inl (by rw [hr, Option.some.injEq] at hr'; exact hr' ▸ h0)
  · by_contra h1
    exact h fun r' _ => .inr h1

end Sys2Proof.Machine
end

section
/-!
SUPPORT. Warm reset (R4, R377): its stages, and what each leaves of memory, the registers and the rest of the state.
-/
namespace Sys2Proof.Machine

/-! ## Sparse lists with entries left out -/

/-- A key that no entry has reads as the default. -/
theorem Sparse.get_of_forall_ne {α : Type} {d : Nat → α} {k : Nat} {l : List (Nat × α)} (h : ∀ q ∈ l, q.1 ≠ k) : Sparse.get d l k = d k := by
  induction l with
  | nil => rfl
  | cons q r ih =>
    rw [Sparse.get, ih fun x hx => h x (List.mem_cons_of_mem _ hx), if_neg (h q List.mem_cons_self).symm, ite_self]

/-- A key whose entries stay reads as before when other entries are left out, also over another default with the same value there. -/
theorem Sparse.get_filter {α : Type} [DecidableEq α] {d e : Nat → α} {k : Nat} {p : Nat × α → Bool} (hp : ∀ v, p (k, v) = true) (hd : e k = d k) {lo : Nat} {l : List (Nat × α)}
    (hl : Sparse.wfFrom d lo l = true) : Sparse.get e (l.filter p) k = Sparse.get d l k := by
  induction l generalizing lo with
  | nil => exact hd
  | cons q r ih =>
    obtain ⟨-, -, hr⟩ := Sparse.wfFrom_cons.1 hl
    rw [List.filter_cons]
    split
    · simp only [Sparse.get, ih hr, hd]
    · have hk : k ≠ q.1 := by
        rintro rfl
        exact ‹¬p q = true› (hp q.2)
      rw [ih hr, Sparse.get, if_neg hk]
      split
      · exact Sparse.get_below (by omega) hr
      · rfl

/-! ## Memory outside what is lost -/

variable {s : State} {a : Nat}

theorem State.memAt_cover_other (h : Memory.wf s = true) {f : Fog} (hf : f.covers a = false) : (s.cover f).memAt a = s.memAt a := by
  have hd : Memory.unlisted (f :: s.fog) a = Memory.unlisted s.fog a := by rw [Memory.unlisted_cons, hf]; rfl
  exact Sparse.get_filter (p := fun c => !f.covers c.1) (fun _ => by simp [hf]) hd h

theorem State.memAt_lose_other (h : Memory.wf s = true) {lo len : Nat} (undefined : Bool) (ha : a < lo ∨ lo + len ≤ a) :
    (s.lose lo len undefined).memAt a = s.memAt a := by
  have hf (tag : Option Nat) : Fog.covers ⟨lo, len, tag, none⟩ a = false := by
    simp only [Fog.covers, Option.all_none, Bool.and_true, Bool.and_eq_false_iff, decide_eq_false_iff_not]
    omega
  unfold State.lose
  split
  · exact State.memAt_cover_other (s := { s with free := s.free + 1 }) h (hf _)
  · exact State.memAt_cover_other h (hf _)

theorem State.lose_wf (h : Memory.wf s = true) (lo len : Nat) (undefined : Bool) : Memory.wf (s.lose lo len undefined) = true := by
  unfold State.lose
  split
  · exact State.cover_wf (s := { s with free := s.free + 1 }) h _
  · exact State.cover_wf h _

/-- The loss of the scratchpads leaves memory outside them. -/
theorem State.memAt_loseSpads (h : Memory.wf s = true) (ha : ∀ d, d < 4 → a < spadBase d ∨ spadBase d + spadBytes ≤ a) :
    ((List.range 4).foldl (fun (s : State) d => s.lose (spadBase d) spadBytes true) s).memAt a = s.memAt a := by
  refine (List.foldlRecOn (motive := fun t => Memory.wf t = true ∧ t.memAt a = s.memAt a) (List.range 4) _ ⟨h, rfl⟩ fun t ht d hd => ?_).2
  obtain ⟨hwf, hmem⟩ := ht
  exact ⟨State.lose_wf hwf _ _ _, (State.memAt_lose_other hwf _ (ha d (List.mem_range.1 hd))).trans hmem⟩

/-! ## What a warm reset does first: it ends what is in flight -/

variable {b : State}

/-- t comes of b by what ends with a reset: what every command keeps is kept, and the collectives and the stacks' own state stay. -/
structure Loses (b t : State) : Prop where
  keeps : Keeps b t
  coll : t.coll = b.coll
  stk : t.stk = b.stk

theorem Loses.refl (b : State) : Loses b b := ⟨Keeps.refl b, rfl, rfl⟩

theorem Loses.foldl {α : Type} {f : State → α → State} {l : List α} (h : Loses b s) (hf : ∀ t x, Loses b t → Loses b (f t x)) : Loses b (l.foldl f s) :=
  List.foldlRecOn l f h fun t ht x _ => hf t x ht

theorem Loses.ite {c : Prop} [Decidable c] {x y : State} (hx : Loses b x) (hy : Loses b y) : Loses b (if c then x else y) := by split <;> assumption

theorem Loses.of_reports {t : State} (h : Loses b s) (hk : Keeps b t) (hr : Reports s t) : Loses b t := by
  obtain ⟨_, _, _, _, rfl⟩ := hr
  exact ⟨hk, h.coll, h.stk⟩

theorem State.lose_loses (h : Loses b s) (lo len : Nat) (undefined : Bool) : Loses b (s.lose lo len undefined) := by
  refine ⟨State.lose_keeps h.keeps, ?_, ?_⟩ <;> unfold State.lose <;> split
  · exact h.coll
  · exact h.coll
  · exact h.stk
  · exact h.stk

theorem State.fogRange_loses (h : Loses b s) (lo n : Nat) : Loses b (s.fogRange lo n) :=
  Loses.ite h (Loses.ite (Loses.foldl h fun _ _ ht => State.lose_loses ht _ _ _) (State.lose_loses h _ _ _))

theorem State.loseDomain_loses (h : Loses b s) (n : Nat) : Loses b (s.loseDomain n) := by
  refine Loses.ite ?_ (Loses.ite h (Loses.ite (State.lose_loses (State.lose_loses h _ _ _) _ _ _) (Loses.ite (State.lose_loses h _ _ _) h)))
  obtain ⟨hk, hc, hs⟩ := State.lose_loses h (spadBase (n / 21) + 4 * (n % 21) * 0x200000) (4 * 0x200000) true
  exact ⟨hk.upd, hc, hs⟩

theorem State.passOwnership_reports (h : Reports b s) (n : Nat) : Reports b (s.passOwnership n) :=
  Reports.foldl h fun _ _ ht => Reports.ite (State.setP_reports (State.wr_reports ht _ _) _ _ _ _) (State.wr_reports ht _ _)

theorem State.discardFetched_reports (h : Reports b s) (n : Nat) : Reports b (s.discardFetched n) :=
  Reports.ite (State.setP_reports h.upd _ _ _ _) h.upd

theorem State.pcieDown_reports (h : Reports b s) (n : Nat) : Reports b (s.pcieDown n) :=
  have hd : Reports b (((s.wrP (Pg.pcie n) Reg.PCIE_LINK_STAT 0).setPci n PciPort.fresh).discardFetched n) :=
    State.discardFetched_reports (State.wr_reports h _ _).upd n
  Reports.ite (State.setInt_reports hd _ _) hd

/-- A pending handover passes (R396). -/
def State.passPending (s : State) : State :=
  match (List.range 2).find? fun n => s.fldP (Pg.pcie n) Reg.PCIE_OWN 1 1 == 1 with
  | some n => s.passOwnership n
  | none => s

/-- The destinations of what is in flight are left unspecified (R284, R554), and the domains on their way to off lose what they hold. -/
def State.loseInFlight (s : State) : State :=
  let s := s.pendingRanges.foldl (fun (s : State) r => s.fogRange r.1 r.2) s
  let s := s.traffic.foldl (fun (s : State) x => match x.issuer with
    | .checkpoint | .restore => s
    | _ => s.fogRange x.dst x.len) s
  let s := match s.grn.run with
    | some r => if r.restore then r.places.foldl (fun (s : State) (p : Nat × Nat) => s.fogRange p.1 p.2) s else s
    | none => s
  (s.pwr.trans.filter fun (x : Transit) => x.target == 0).foldl (fun (s : State) (x : Transit) => s.loseDomain x.dom) s

/-- The links go down, and the scratchpads are left undefined. -/
def State.dropLinksAndSpads (s : State) : State :=
  (List.range 4).foldl (fun (s : State) d => s.lose (spadBase d) spadBytes true) ((List.range 2).foldl State.pcieDown s.flushMaps)

/-- The state that a warm reset leaves of one in which everything has ended (R4). -/
def State.restarted (s : State) : State :=
  { s with
      regs := warmRegs s.regs
      latch := [], eng := { Engines.fresh with statSeq := s.eng.statSeq, fleet := { Fleet.fresh with spk := s.eng.fleet.spk } }
      host := { HostSide.fresh with perst := s.host.perst }
      slots := [], running := none, traffic := [], records := []
      stk := s.stk.map fun (x : Stack) =>
        { Stack.fresh with rows := x.rows, banks := x.banks, conns := x.conns, sampled := x.sampled, held := x.held, halved := x.halved }
      links := List.replicate 4 Link.fresh, fab := Fabric.fresh, coll := s.coll.remembered
      grn := s.grn.kept
      boot := { s.boot with phase := .powered, warm := true }
      pwr := { Power.fresh with coast := s.pwr.coast, pins := s.pwr.pins }
      sec := { s.sec with running := none, seeding := [], nonceDue := false, hoNonceDue := [], staging := [], cmd := none, requests := [] }
      seed := none, dras := List.replicate 4 none }

/-- The stages of a warm reset. -/
theorem State.warmReset_eq (s : State) : s.warmReset = s.passPending.loseInFlight.dropLinksAndSpads.restarted.keepHeld := rfl

theorem State.passPending_reports (s : State) : Reports s s.passPending := by
  unfold State.passPending
  split
  · exact State.passOwnership_reports (Reports.refl s) _
  · exact Reports.refl s

theorem State.passPending_loses (s : State) : Loses s s.passPending := by
  refine (Loses.refl s).of_reports ?_ s.passPending_reports
  unfold State.passPending
  split
  · exact State.passOwnership_keeps (Keeps.refl s)
  · exact Keeps.refl s

theorem State.loseInFlight_loses (h : Loses b s) : Loses b s.loseInFlight := by
  have hpend : Loses b (s.pendingRanges.foldl (fun (s : State) r => s.fogRange r.1 r.2) s) := h.foldl fun _ _ ht => State.fogRange_loses ht _ _
  have htraffic (t : State) (ht : Loses b t) : Loses b (t.traffic.foldl (fun (s : State) x => match x.issuer with
      | .checkpoint | .restore => s
      | _ => s.fogRange x.dst x.len) t) := ht.foldl fun u x hu => by
    split
    · exact hu
    · exact hu
    · exact State.fogRange_loses hu _ _
  refine Loses.foldl ?_ fun _ _ ht => State.loseDomain_loses ht _
  split
  · exact Loses.ite ((htraffic _ hpend).foldl fun _ _ ht => State.fogRange_loses ht _ _) (htraffic _ hpend)
  · exact htraffic _ hpend

theorem State.dropLinksAndSpads_loses (h : Loses b s) : Loses b s.dropLinksAndSpads := by
  have hm : Loses b s.flushMaps := ⟨State.flushMaps_keeps h.keeps, h.coll, h.stk⟩
  exact Loses.foldl (hm.foldl fun t n ht => ht.of_reports (State.pcieDown_keeps ht.keeps) (State.pcieDown_reports (Reports.refl t) n))
    fun _ _ ht => State.lose_loses ht _ _ _

/-- Nothing is lost when nothing is in flight. -/
theorem State.loseInFlight_idle (h1 : s.pendingRanges = []) (h2 : s.traffic = []) (h3 : s.grn.run = none) (h4 : s.pwr.trans = []) : s.loseInFlight = s := by
  simp only [State.loseInFlight, h1, h2, h3, h4, List.foldl_nil, List.filter_nil]

/-- Outside the scratchpads the drop of links and scratchpads leaves memory. -/
theorem State.memAt_dropLinksAndSpads (h : Memory.wf s = true) (ha : ∀ d, d < 4 → a < spadBase d ∨ spadBase d + spadBytes ≤ a) :
    s.dropLinksAndSpads.memAt a = s.memAt a := by
  have hdown : Reports s.flushMaps ((List.range 2).foldl State.pcieDown s.flushMaps) :=
    (Reports.refl _).foldl fun _ n ht => State.pcieDown_reports ht n
  have hwf : Memory.wf ((List.range 2).foldl State.pcieDown s.flushMaps) = true := by
    rw [Memory.wf, hdown.mem_eq, hdown.fog_eq]
    exact h
  rw [State.dropLinksAndSpads, State.memAt_loseSpads hwf ha, State.memAt, hdown.mem_eq, hdown.fog_eq]
  rfl

/-! ## What is left of the registers -/

/-- Holding the stacks at band 4x writes registers alone. -/
theorem State.keepHeld_only (s : State) : ∃ r, s.keepHeld = { s with regs := r } := by
  refine List.foldlRecOn (motive := fun t : State => ∃ r, t = { s with regs := r }) (List.range 12) _ ⟨s.regs, rfl⟩ fun t ht k _ => ?_
  obtain ⟨r, rfl⟩ := ht
  split
  · exact ⟨_, rfl⟩
  · exact ⟨r, rfl⟩

/-- Holding the stacks at band 4x writes MEMC_STAT of stacks alone. -/
theorem State.rd_keepHeld_other (h : Regs.wf s = true) {x : Nat} (hx : ∀ k, k < 12 → x ≠ (Pg.stack k).base + Reg.MEMC_STAT) : s.keepHeld.rd x = s.rd x := by
  refine (List.foldlRecOn (motive := fun t => Regs.wf t = true ∧ t.rd x = s.rd x) (List.range 12) _ ⟨h, rfl⟩ fun t ht k hk => ?_).2
  obtain ⟨hwf, hrd⟩ := ht
  split
  · exact ⟨State.setP_regs_wf hwf _ _ _ _, (State.rd_wrP_other hwf _ (hx k (List.mem_range.1 hk))).trans hrd⟩
  · exact ⟨hwf, hrd⟩

/-- A register word of which no bit is kept is its reset value. -/
theorem keep_none (x d : Word) : (x &&& 0) ||| (d &&& ~~~0) = d :=
  calc (x &&& 0) ||| (d &&& ~~~0) = 0 ||| d := congrArg₂ (· ||| ·) BitVec.and_zero BitVec.and_allOnes
    _ = d := BitVec.zero_or

/-- A register of which a warm reset keeps no bit reads its reset value after it (R4). -/
theorem get_warmRegs {l : List (Nat × Word)} {off : Nat} (hk : warmKeep off = 0) (hclk : off ≠ Pg.clk.base + Reg.CLK_STAT)
    (hsec : off ≠ Pg.sec.base + Reg.SEC_STAT) (hpll : off < Pg.clk.base + Reg.CLK_PLLn_STAT ∨ Pg.clk.base + Reg.CLK_PLLn_STAT + 108 ≤ off) :
    Sparse.get regReset (warmRegs l) off = regReset off := by
  refine Sparse.get_of_forall_ne fun q hq ho => ?_
  obtain ⟨x, -, hx⟩ := List.mem_filterMap.1 hq
  simp only [Option.ite_none_left_eq_some, Option.some.injEq] at hx
  obtain ⟨hv, rfl⟩ := hx
  simp only at ho
  have hpll' : ¬(Pg.clk.base + Reg.CLK_PLLn_STAT ≤ x.1 ∧ x.1 < Pg.clk.base + Reg.CLK_PLLn_STAT + 108) := by omega
  rw [ho] at hv hpll'
  simp only [hclk, hsec, hpll', hk, if_false, keep_none, not_true_eq_false] at hv

/-! ## The command -/

theorem exec_warmReset_commanded {t : Nat} {port : Fin 2} {tap : Bool} {f : BootFinds} (hc : (s.atTime t).boot.phase.commandable = true)
    (hp : tap = true ∨ port.val = (s.atTime t).owner) :
    exec (.warmReset t port tap f) s = .next { (s.atTime t).warmReset.bootRun false f with resp := .done } := by
  have hport : (!tap && port.val != (s.atTime t).owner) = false := by rcases hp with hp | hp <;> simp [hp]
  unfold State.atTime at *
  simp only [exec, execWarmReset, hc, hport, Bool.not_true, Bool.false_eq_true, if_false]

/-- The standby port is rejected (R391). -/
theorem exec_warmReset_standby {t : Nat} {port : Fin 2} {f : BootFinds} (hc : (s.atTime t).boot.phase.commandable = true)
    (hp : port.val ≠ (s.atTime t).owner) : exec (.warmReset t port false f) s = .next ((s.atTime t).standbyReject port) := by
  have hport : (!false && port.val != (s.atTime t).owner) = true := by simp [hp]
  unfold State.atTime at *
  simp only [exec, execWarmReset, hc, hport, Bool.not_true, Bool.false_eq_true, if_false, if_true]

end Sys2Proof.Machine
end

section
/-!
SUPPORT. Every command answers a next state and keeps the machine sound.
-/
namespace Sys2Proof.Machine

/-- Every command answers a next state, and keeps of any state what the state it acts on has kept. -/
theorem exec_answers {b s : State} (h : Keeps b s) : ∀ i : Instr, Answers b (exec i s)
  | .powerUp .. => execPowerUp_answers h
  | .modResetAssert .. => execModResetAssert_answers h
  | .modResetRelease .. => execModResetRelease_answers h
  | .settleDelayExpiry .. => execSettleDelayExpiry_answers h
  | .railSequence .. => execRailSequence_answers h
  | .boot .. => execBoot_answers h
  | .warmReset .. => execWarmReset_answers h
  | .vinLow .. => execVinLow_answers h
  | .refLost .. => execRefLost_answers h
  | .referenceRelock .. => execReferenceRelock_answers h
  | .railFault .. => execRailFault_answers h
  | .perstAssert .. => execPerstAssert_answers h
  | .pcieLinkDown .. => execPcieLinkDown_answers h
  | .frameBoundary .. => execFrameBoundary_answers h
  | .localIdleInsert .. => execLocalIdleInsert_answers h
  | .tickLost .. => execTickLost_answers h
  | .stretchExceeded .. => execStretchExceeded_answers h
  | .fetchComplete .. => execFetchComplete_answers h
  | .noOperationWord .. => execNoOperationWord_answers h
  | .pass .. => execPass_answers h
  | .passInit .. => execPassInit_answers h
  | .passMax .. => execPassMax_answers h
  | .passMin .. => execPassMin_answers h
  | .passMaxInit .. => execPassMaxInit_answers h
  | .passMinInit .. => execPassMinInit_answers h
  | .passAdopt .. => execPassAdopt_answers h
  | .loadB .. => execLoadB_answers h
  | .passCommit .. => execPassCommit_answers h
  | .chain .. => execChain_answers h
  | .movi .. => execMovi_answers h
  | .add .. => execAdd_answers h
  | .addi .. => execAddi_answers h
  | .sub .. => execSub_answers h
  | .mul .. => execMul_answers h
  | .and .. => execAnd_answers h
  | .or .. => execOr_answers h
  | .xor .. => execXor_answers h
  | .shli .. => execShli_answers h
  | .shri .. => execShri_answers h
  | .fadd .. => execFadd_answers h
  | .fsub .. => execFsub_answers h
  | .fmul .. => execFmul_answers h
  | .fdiv .. => execFdiv_answers h
  | .fmax .. => execFmax_answers h
  | .fmin .. => execFmin_answers h
  | .i2f .. => execI2f_answers h
  | .f2i .. => execF2i_answers h
  | .ld32 .. => execLd32_answers h
  | .ld64 .. => execLd64_answers h
  | .st32 .. => execSt32_answers h
  | .st64 .. => execSt64_answers h
  | .ldscale .. => execLdscale_answers h
  | .copy .. => execCopy_answers h
  | .stread .. => execStread_answers h
  | .stwrite .. => execStwrite_answers h
  | .xfer .. => execXfer_answers h
  | .xferComplete .. => execXferComplete_answers h
  | .opt .. => execOpt_answers h
  | .amax .. => execAmax_answers h
  | .count .. => execCount_answers h
  | .culmAdd .. => execCulmAdd_answers h
  | .quant .. => execQuant_answers h
  | .dequant .. => execDequant_answers h
  | .recordDelivery .. => execRecordDelivery_answers h
  | .send .. => execSend_answers h
  | .recv .. => execRecv_answers h
  | .cstart .. => execCstart_answers h
  | .cwait .. => execCwait_answers h
  | .eventWait .. => execEventWait_answers h
  | .eventSignal .. => execEventSignal_answers h
  | .stackTempSample .. => execStackTempSample_answers h
  | .watchAgeHalving .. => execWatchAgeHalving_answers h
  | .unscheduledBurst .. => execUnscheduledBurst_answers h
  | .remapCopyDone .. => execRemapCopyDone_answers h
  | .drasCtrlWrite .. => execDrasCtrlWrite_answers h
  | .readRow .. => execReadRow_answers h
  | .writeRow .. => execWriteRow_answers h
  | .mapRow .. => execMapRow_answers h
  | .mapBank .. => execMapBank_answers h
  | .mapConn .. => execMapConn_answers h
  | .connTest .. => execConnTest_answers h
  | .rowTest .. => execRowTest_answers h
  | .drasRestore .. => execDrasRestore_answers h
  | .laneFail .. => execLaneFail_answers h
  | .d2dRetrainComplete .. => execD2dRetrainComplete_answers h
  | .d2dUe .. => execD2dUe_answers h
  | .fenceReject .. => execFenceReject_answers h
  | .hostWindowAccess .. => execHostWindowAccess_answers h
  | .sqTailWrite .. => execSqTailWrite_answers h
  | .descriptorFetch .. => execDescriptorFetch_answers h
  | .ringEnable .. => execRingEnable_answers h
  | .cqHeadWrite .. => execCqHeadWrite_answers h
  | .completionWrite .. => execCompletionWrite_answers h
  | .nop .. => execNop_answers h
  | .frameRun .. => execFrameRun_answers h
  | .load .. => execLoad_answers h
  | .switch .. => execSwitch_answers h
  | .unload .. => execUnload_answers h
  | .dma .. => execDma_answers h
  | .dmaComplete .. => execDmaComplete_answers h
  | .collective .. => execCollective_answers h
  | .checkpoint .. => execCheckpoint_answers h
  | .checkpointComplete .. => execCheckpointComplete_answers h
  | .restore .. => execRestore_answers h
  | .restoreComplete .. => execRestoreComplete_answers h
  | .barrier .. => execBarrier_answers h
  | .eventCounterWrite .. => execEventCounterWrite_answers h
  | .eventCounterAdd .. => execEventCounterAdd_answers h
  | .handoverGo .. => execHandoverGo_answers h
  | .handoverVerifyDone .. => execHandoverVerifyDone_answers h
  | .tick .. => execTick_answers h
  | .idleReq .. => execIdleReq_answers h
  | .blockReceive .. => execBlockReceive_answers h
  | .wlFail .. => execWlFail_answers h
  | .laserLow .. => execLaserLow_answers h
  | .portTraining .. => execPortTraining_answers h
  | .link .. => execLink_answers h
  | .linkCellTimer .. => execLinkCellTimer_answers h
  | .cellForward .. => execCellForward_answers h
  | .cellAgeDrop .. => execCellAgeDrop_answers h
  | .creditStall .. => execCreditStall_answers h
  | .data .. => execData_answers h
  | .ackTimer .. => execAckTimer_answers h
  | .ack .. => execAck_answers h
  | .resendTimeout .. => execResendTimeout_answers h
  | .echoGo .. => execEchoGo_answers h
  | .echoReq .. => execEchoReq_answers h
  | .echoRsp .. => execEchoRsp_answers h
  | .echoTimeout .. => execEchoTimeout_answers h
  | .mgmtGo .. => execMgmtGo_answers h
  | .mgmt .. => execMgmt_answers h
  | .mgmtPop .. => execMgmtPop_answers h
  | .cfpr .. => execCfpr_answers h
  | .fingerprintAccept .. => execFingerprintAccept_answers h
  | .cup .. => execCup_answers h
  | .cdn .. => execCdn_answers h
  | .cack .. => execCack_answers h
  | .cackTimer .. => execCackTimer_answers h
  | .legResendTimeout .. => execLegResendTimeout_answers h
  | .collTimeout .. => execCollTimeout_answers h
  | .cabt .. => execCabt_answers h
  | .cabtResend .. => execCabtResend_answers h
  | .segmentWritten .. => execSegmentWritten_answers h
  | .fenceDrain .. => execFenceDrain_answers h
  | .stubbleAnalogSample .. => execStubbleAnalogSample_answers h
  | .stubbleDigitalSample .. => execStubbleDigitalSample_answers h
  | .inputStuck .. => execInputStuck_answers h
  | .holdoffExpiry .. => execHoldoffExpiry_answers h
  | .conditionStatusRead .. => execConditionStatusRead_answers h
  | .pwrReq .. => execPwrReq_answers h
  | .powerEntryComplete .. => execPowerEntryComplete_answers h
  | .powerExitComplete .. => execPowerExitComplete_answers h
  | .ctlrBeat .. => execCtlrBeat_answers h
  | .retire .. => execRetire_answers h
  | .retrain .. => execRetrain_answers h
  | .linkWakeSend .. => execLinkWakeSend_answers h
  | .testReq .. => execTestReq_answers h
  | .counterClear .. => execCounterClear_answers h
  | .statRingEnable .. => execStatRingEnable_answers h
  | .errRearm .. => execErrRearm_answers h
  | .lock .. => execLock_answers h
  | .frameLenWrite .. => execFrameLenWrite_answers h
  | .tickDelayWrite .. => execTickDelayWrite_answers h
  | .nodeIdWrite .. => execNodeIdWrite_answers h
  | .creditAllocationWrite .. => execCreditAllocationWrite_answers h
  | .routeTableWrite .. => execRouteTableWrite_answers h
  | .collTableWrite .. => execCollTableWrite_answers h
  | .tradeModeWrite .. => execTradeModeWrite_answers h
  | .stopClear .. => execStopClear_answers h
  | .refLostClear .. => execRefLostClear_answers h
  | .registerWrite .. => execRegisterWrite_answers h
  | .counterLoRead .. => execCounterLoRead_answers h
  | .seedLoad .. => execSeedLoad_answers h
  | .seedVerifyDone .. => execSeedVerifyDone_answers h
  | .seedCancel .. => execSeedCancel_answers h
  | .pin .. => execPin_answers h
  | .unpin .. => execUnpin_answers h
  | .delete .. => execDelete_answers h
  | .scrub .. => execScrub_answers h
  | .scrubLate .. => execScrubLate_answers h
  | .blockBad .. => execBlockBad_answers h
  | .wearMove .. => execWearMove_answers h
  | .fwUpdate .. => execFwUpdate_answers h
  | .commit .. => execCommit_answers h
  | .key .. => execKey_answers h
  | .debugUnlock .. => execDebugUnlock_answers h
  | .debugCancel .. => execDebugCancel_answers h
  | .entropyTestFail .. => execEntropyTestFail_answers h
  | .getReport .. => execGetReport_answers h
  | .getCerts .. => execGetCerts_answers h
  | .read32 .. => execRead32_answers h
  | .i3cEntdaa .. => execI3cEntdaa_answers h
  | .i3cSetdasa .. => execI3cSetdasa_answers h
  | .mctpControl .. => execMctpControl_answers h
  | .trst => execTrst_answers h
  | .extest => execExtest_answers h
  | .samplePreload => execSamplePreload_answers h
  | .idcode => execIdcode_answers h
  | .clamp => execClamp_answers h
  | .highz => execHighz_answers h
  | .extestPulse => execExtestPulse_answers h
  | .extestTrain => execExtestTrain_answers h
  | .regacc .. => execRegacc_answers h
  | .hubdbg => execHubdbg_answers h
  | .bypass => execBypass_answers h
  | .perstDeassert .. => execPerstDeassert_answers h
  | .pcieLinkUp .. => execPcieLinkUp_answers h
  | .pcieLinkPowerState .. => execPcieLinkPowerState_answers h
  | .vinRemoval .. => execVinRemoval_answers h
  | .laserReturn .. => execLaserReturn_answers h
  | .blockTransmit .. => execBlockTransmit_answers h
  | .dividerHoldInterval .. => execDividerHoldInterval_answers h
  | .entropyTestPass .. => execEntropyTestPass_answers h
  | .engineSidebandWrite .. => execEngineSidebandWrite_answers h
  | .doeDiscovery .. => execDoeDiscovery_answers h
  | .reportReady .. => execReportReady_answers h
  | .snapshotTimeout .. => execSnapshotTimeout_answers h
  | .secCommandEnd .. => execSecCommandEnd_answers h
  | .grnCommandEnd .. => execGrnCommandEnd_answers h
  | .drasCommandEnd .. => execDrasCommandEnd_answers h

/-- What a command keeps of the state whose queue is the rest, a step keeps of the state from whose queue the command was taken. -/
theorem Keeps.of_taken {s t : State} {rest : List Instr} (h : Keeps { s with pending := rest } t) (hs : s.Sound) :
    t.Sound ∧ t.pending = rest ∧ t.steppingB = s.steppingB :=
  ⟨h.sound hs, h.pending, h.stepping⟩

end Sys2Proof.Machine
end

section
/-!
SUPPORT. The obligations of the registers' and resets' common rules (00_scope), settled.
-/
namespace Sys2Proof.Machine

/-- Settles O60: a step runs the front command, and each command keeps what `Keeps` says; an empty queue changes nothing. -/
theorem stepKeepsSound : Obligations.StepKeepsSound := by
  intro s hs
  cases hq : s.pending with
  | nil => exact ⟨s, by simp only [step, hq], hs, hq, rfl⟩
  | cons c rest =>
    obtain ⟨t, he, hk⟩ := exec_answers (Keeps.refl { s with pending := rest }) c
    exact ⟨t, by simp only [step, hq, he], hk.of_taken hs⟩

/-- Settles O49: an error that finds VALID 0 is captured (`raise_captured`), one that finds it 1 from an earlier cycle sets OVF. -/
theorem errorsCaptured : Obligations.ErrorsCaptured := by
  intro s p c addr info hs hc
  obtain ⟨hr, -⟩ := hs
  have hrep := State.raise_reports (Reports.refl s) p c addr info
  refine ⟨State.num_raise_cnt hr hc, fun h0 => ?_, fun h1 => ?_, fun x hx => State.rd_raise_other hr hc hx, hrep.mem_eq, hrep.fog_eq⟩
  · obtain ⟨hcode, hlo, hhi, hinfo⟩ := State.raise_captured (c := c) (addr := addr) (info := info) hr h0
    obtain ⟨hvalid, hovf⟩ := State.stat_raise_of_clear (c := c) (addr := addr) (info := info) hr h0
    exact ⟨hcode, hlo, hhi, hinfo, hvalid, hovf⟩
  · have hkeep {x : Nat} (h2 : x ≠ Reg.ERR_STAT) (h3 : x ≠ Reg.ERR_CNT) := State.rdP_raise_of_valid (c := c) (addr := addr) (info := info) hr h1 hc h2 h3
    obtain ⟨hvalid, hovf⟩ := State.stat_raise_of_valid (c := c) (addr := addr) (info := info) hr h1 hc
    exact ⟨hkeep (by decide) (by decide), hkeep (by decide) (by decide), hkeep (by decide) (by decide), hkeep (by decide) (by decide), hvalid, hovf⟩

/-- Settles O36: a warm reset ends what is in flight (`Loses`) and leaves the state that `restarted` gives, with the held stacks' MEMC_STAT. -/
theorem warmReset : Obligations.WarmReset := by
  intro s t port tap f u w hc
  let v := u.passPending.loseInFlight.dropLinksAndSpads
  have hv : Loses u v := State.dropLinksAndSpads_loses (State.loseInFlight_loses u.passPending_loses)
  have hw : w = v.restarted.keepHeld := u.warmReset_eq
  obtain ⟨r, hr⟩ := v.restarted.keepHeld_only
  have hfield {β : Type} (g : State → β) : g w = g { v.restarted with regs := r } := congrArg g (hw.trans hr)
  refine ⟨fun hp => ?_, fun ht hp => ?_, hfield (·.slots), hfield (·.running), hfield (·.traffic), hfield (·.records), hfield (·.latch), hfield (·.fab),
    (hfield (·.coll)).trans (congrArg Coll.remembered hv.coll), hfield (·.links), hfield (·.eng.due), hfield (·.eng.passes), hfield (·.eng.chains),
    hfield (·.eng.frame), hfield (·.host.run), hfield (·.host.jobs), hfield (·.sec.cmd), hfield (·.seed), hfield (·.dras), hfield (·.boot.phase),
    hfield (·.boot.warm), ?_, fun hs off hk hclk hsec hpll hstk => ?_, fun hs h1 h2 h3 h4 a ha => ?_⟩
  · exact exec_warmReset_commanded hc hp
  · subst ht
    exact exec_warmReset_standby hc hp
  · exact (hfield (·.stk.length)).trans ((List.length_map _).trans (congrArg List.length hv.stk))
  · obtain ⟨hr, -⟩ := hv.keeps.sound hs
    calc w.rd off = v.restarted.keepHeld.rd off := congrArg (·.rd off) hw
      _ = v.restarted.rd off := State.rd_keepHeld_other (warmRegs_wf hr) hstk
      _ = regReset off := get_warmRegs hk hclk hsec hpll
  · have hidle : u.passPending.loseInFlight = u.passPending := by
      obtain ⟨_, _, _, _, he⟩ := u.passPending_reports
      rw [he]
      exact State.loseInFlight_idle h1 h2 h3 h4
    have hm : Memory.wf u.passPending = true := (u.passPending_loses.keeps.sound hs).2
    calc w.memAt a = u.passPending.loseInFlight.dropLinksAndSpads.memAt a := hfield (·.memAt a)
      _ = u.passPending.dropLinksAndSpads.memAt a := by rw [hidle]
      _ = u.passPending.memAt a := State.memAt_dropLinksAndSpads hm ha
      _ = u.memAt a := by rw [State.memAt, u.passPending_reports.mem_eq, u.passPending_reports.fog_eq]; rfl

/-- Settles O50: the write reaches ERR_STAT's own rule, which leaves VALID 0, so that the next error is captured. -/
theorem captureRearms : Obligations.CaptureRearms := by
  intro s t port off p u hs hc hport hd hp v
  obtain ⟨hr, -⟩ := hs
  have ha : Regs.wf u.answered = true := hr
  refine ⟨?_, State.fldP_setP_zero ha _ le_rfl le_rfl, fun o ho => State.rd_wrP_other ha _ ho, rfl, fun c addr info => ?_⟩
  · have hw : u.busWrite (.port port) off.toNat 1 .free = v := by
      rw [State.busWrite_allowed hc hport hd, State.writeWord_header hp (by decide) (by decide), State.headerWrite_rearm]
      exact State.reported_of_done rfl _
    exact congrArg Host.Outcome.next hw
  · exact (State.raise_captured (State.setP_regs_wf ha _ _ _ _) (State.fldP_setP_zero ha _ le_rfl (by decide))).code

/-- Settles O51: an access is denied or refused before its register is looked at, a read answers by `readWord`, and an accepted write goes by the register's
access codes where its page has no rule for it. -/
theorem registerAccess : Obligations.RegisterAccess := by
  intro s t port off v u o w
  have hread {n : Nat} {x : State} (h : u.busReadN (.port port) o n = x) : exec (.counterLoRead t port off n) s = .next x := congrArg _ h
  have hwrite {n : Nat} {x : State} (h : u.busWriteN (.port port) o v n = x) : exec (.registerWrite t port off v n) s = .next x := congrArg _ h
  have howner {n : Nat} (ho : port.val = u.owner) : u.standbyBlocks (.port port) n = none := by rw [ho]; exact u.standbyBlocks_owner n
  refine ⟨fun hc => ⟨fun d hd => ?denied, fun n ho hm => ?standby, fun n hn => ?size⟩,
    fun p x hc hd hp => ⟨fun hl => ?readLo, fun hl h4 hh => ?readHi, fun hl hh => ?readPlain⟩,
    fun p x r ha hp hr => ⟨fun hx hk => ?plain, fun hx => ?lock⟩⟩
  case denied =>
    exact ⟨hread ((State.busReadN_four ..).trans (State.busRead_denied hc hd)), fun ho => hwrite (State.busWriteN_denied hc ho hd)⟩
  case standby => exact hwrite (State.busWriteN_standby hc ho hm)
  case size =>
    have hb := sizeBad_of hn
    exact ⟨hread (State.busReadN_badSize hc hb), fun ho => hwrite (State.busWriteN_badSize hc (howner ho) hb)⟩
  case readLo =>
    exact ⟨hread ((State.busReadN_four ..).trans (State.busRead_lo hc hd hp hl)),
      fun h8 hp' hl' hd' => hread (State.busReadN_counter hc hd hp hl h8 hp' hl' hd')⟩
  case readHi => exact hread ((State.busReadN_four ..).trans (State.busRead_hi hc hd hp hl h4 hh))
  case readPlain => exact hread ((State.busReadN_four ..).trans (State.busRead_plain hc hd hp hl hh))
  case plain =>
    have hw : u.busWriteN (.port port) o v 4 = (u.answered.plainWrite p x w).reported port := by
      rw [State.busWriteN_four, State.busWrite_accepted ha, State.writeWord_page hp hx, State.pageWrite_plain hk]
    refine ⟨fun hu => hwrite (hw.trans ?_), fun hu => hwrite (hw.trans ?_)⟩
    · rw [State.plainWrite_coded hr hu.answered]
      exact State.reported_of_done rfl _
    · obtain ⟨hrl, hlock⟩ := State.not_unlocked hr hu
      rw [State.plainWrite_locked (s := u.answered) hr hrl hlock]
  case lock =>
    subst hx
    have hlock : u.busWrite (.port port) o 1 .free = u.answered.coded p Reg.LOCK 1 := by
      rw [State.busWrite_accepted ha, State.writeWord_header hp (by decide) (by decide), State.headerWrite_lock]
      exact State.reported_of_done rfl _
    exact congrArg Host.Outcome.next hlock

/-- Settles O59: no register and no byte is listed after reset. -/
theorem resetSound : Obligations.ResetSound := ⟨⟨rfl, rfl⟩, rfl⟩

end Sys2Proof.Machine
end

section
/-!
SUPPORT. What leaves the kind of the frame and the wall clock as they are: errors, cells, completions, aborted collectives, and the abort of a frame.
-/
namespace Sys2Proof.Machine

/-- t is in a frame of the same kind as b, in the same wall cycle. -/
structure SameFrame (b t : State) : Prop where
  kind : t.eng.frame.kind = b.eng.frame.kind
  wall : t.wall = b.wall

variable {b s t : State}

theorem SameFrame.refl (s : State) : SameFrame s s := ⟨rfl, rfl⟩

theorem SameFrame.trans (h : SameFrame b s) (h' : SameFrame s t) : SameFrame b t := ⟨h'.kind.trans h.kind, h'.wall.trans h.wall⟩

theorem SameFrame.ite {c : Prop} [Decidable c] {x y : State} (hx : SameFrame b x) (hy : SameFrame b y) : SameFrame b (if c then x else y) := by
  split <;> assumption

theorem SameFrame.foldl {α : Type} {f : State → α → State} {l : List α} (h : SameFrame b s) (hf : ∀ t x, SameFrame b t → SameFrame b (f t x)) :
    SameFrame b (l.foldl f s) :=
  List.foldlRecOn l f h fun t ht x _ => hf t x ht

theorem Reports.sameFrame (h : Reports b s) : SameFrame b s := by
  obtain ⟨_, _, _, _, rfl⟩ := h
  exact ⟨rfl, rfl⟩

/-! ## Registers, errors and completions -/

theorem State.setP_sameFrame (h : SameFrame b s) (p : Page) (o hi lo v : Nat) : SameFrame b (s.setP p o hi lo v) := ⟨h.kind, h.wall⟩

theorem State.bump_sameFrame (h : SameFrame b s) (p : Page) (o n : Nat) : SameFrame b (s.bump p o n) := ⟨h.kind, h.wall⟩

theorem State.wrP_sameFrame (h : SameFrame b s) (p : Page) (o : Nat) (w : Word) : SameFrame b (s.wrP p o w) := ⟨h.kind, h.wall⟩

theorem State.setHost_sameFrame (h : SameFrame b s) (x : HostSide) : SameFrame b (s.setHost x) := ⟨h.kind, h.wall⟩

theorem State.setColl_sameFrame (h : SameFrame b s) (x : Coll) : SameFrame b (s.setColl x) := ⟨h.kind, h.wall⟩

theorem State.setInt_sameFrame (h : SameFrame b s) (p : Page) (n : Nat) : SameFrame b (s.setInt p n) :=
  h.trans (State.setInt_reports (Reports.refl s) p n).sameFrame

theorem State.raise_sameFrame (h : SameFrame b s) (p : Page) (c : Cause) (addr : Option Nat) (info : Nat) : SameFrame b (s.raise p c addr info) :=
  h.trans (State.raise_reports (Reports.refl s) p c addr info).sameFrame

theorem State.clearRun_sameFrame (h : SameFrame b s) (d : Nat) : SameFrame b (s.clearRun d) := SameFrame.ite h ⟨h.kind, h.wall⟩

theorem State.fogRange_sameFrame (h : SameFrame b s) (a n : Nat) : SameFrame b (s.fogRange a n) :=
  have hlose {t : State} (ht : SameFrame b t) (lo len : Nat) : SameFrame b (t.lose lo len true) := ⟨ht.kind, ht.wall⟩
  SameFrame.ite h (SameFrame.ite (h.foldl fun _ _ ht => hlose ht _ _) (hlose h _ _))

theorem State.hold_sameFrame (h : SameFrame b s) (d : Desc) (status info : Nat) (dup signalled : Bool) :
    SameFrame b (s.hold d status info dup signalled) := ⟨h.kind, h.wall⟩

theorem State.finish_sameFrame (h : SameFrame b s) (d : Desc) (status info : Nat) : SameFrame b (s.finish d status info) := by
  have hsig (c : Bool) (e n : Nat) : SameFrame b (if c then s.signal e n else s) := SameFrame.ite ⟨h.kind, h.wall⟩ h
  have hheld := State.hold_sameFrame (hsig (d.signals && status == 0) (d.field 6 2) (d.field 0xC 4)) d status info false (d.signals && status == 0)
  exact SameFrame.ite hheld (SameFrame.foldl ⟨hheld.kind, hheld.wall⟩ fun _ x ht => State.hold_sameFrame ht x _ _ _ _)

theorem State.endRun_sameFrame (h : SameFrame b s) : SameFrame b s.endRun :=
  SameFrame.foldl (State.setP_sameFrame (State.setHost_sameFrame h _) _ _ _ _ _) fun _ d ht => State.clearRun_sameFrame ht d

theorem State.completeRun_sameFrame (h : SameFrame b s) (code : Nat) : SameFrame b (s.completeRun code) := by
  unfold State.completeRun
  split
  · exact SameFrame.ite (State.finish_sameFrame (State.endRun_sameFrame h) _ _ _) h
  · exact h

/-! ## Cells -/

theorem State.gatherCells_sameFrame (h : SameFrame b s) (st f n a : Nat) : SameFrame b (s.gatherCells st f n a) := ⟨h.kind, h.wall⟩

theorem State.departCell_sameFrame (h : SameFrame b s) (st n : Nat) : SameFrame b (s.departCell st n) := by
  unfold State.departCell State.sendCellAt
  dsimp only
  split
  · exact h
  · exact ⟨h.kind, h.wall⟩

theorem State.flushSends_sameFrame (h : SameFrame b s) (due : List Due) : SameFrame b (s.flushSends due) := by
  refine SameFrame.foldl (SameFrame.foldl h fun t d ht => ?gather) fun t d ht => ?depart
  case gather => split <;> [exact State.gatherCells_sameFrame ht _ _ _ _; exact ht]
  case depart => split <;> [exact State.departCell_sameFrame ht _ _; exact ht]

/-! ## Collectives that abort with a frame -/

theorem State.legCell_sameFrame (h : SameFrame b s) (i : Inst) (l : Leg) (typ seq : Nat) (payload : List Byte) :
    SameFrame b (s.legCell i l typ seq payload) := by
  cases l <;> exact ⟨h.kind, h.wall⟩

theorem State.sendAbort_sameFrame (h : SameFrame b s) (i : Inst) (l : Leg) (payload : List Byte) : SameFrame b (s.sendAbort i l payload) := by
  have hc := State.legCell_sameFrame h i l 7 (collSeq false i.inst 0 0) payload
  unfold State.sendAbort
  dsimp only
  split
  · exact ⟨hc.kind, hc.wall⟩
  · exact hc

theorem State.logAbort_sameFrame (h : SameFrame b s) (i : Inst) (code detector : Nat) (suspect : Option Nat) (fp : List Byte) :
    SameFrame b (s.logAbort i code detector suspect fp) := by
  refine State.setInt_sameFrame (SameFrame.foldl ?_ fun _ _ ht => State.wrP_sameFrame ht _ _ _) _ _
  exact State.wrP_sameFrame (State.wrP_sameFrame (State.wrP_sameFrame (State.wrP_sameFrame h _ _ _) _ _ _) _ _ _) _ _ _

theorem State.finishColl_sameFrame (h : SameFrame b s) (i : Inst) (m : Member) (status : Nat) : SameFrame b (s.finishColl i m status) := by
  unfold State.finishColl
  split
  · exact SameFrame.ite (State.finish_sameFrame (State.setHost_sameFrame h _) _ _ _) h
  · exact h

theorem State.tellAbort_sameFrame (h : SameFrame b s) (i : Inst) (code detector : Nat) (suspect : Option Nat) (fp : List Byte) (but : Option Leg)
    (seg : Option Nat) : SameFrame b (s.tellAbort i code detector suspect fp but seg) := by
  unfold State.tellAbort
  extract_lets counted payload told
  have hlegs : SameFrame b told :=
    SameFrame.foldl (State.bump_sameFrame h _ _ _) fun _ l ht => SameFrame.ite ht (State.sendAbort_sameFrame ht i l.leg payload)
  split
  · refine SameFrame.ite hlegs ?_
    have hlog := State.logAbort_sameFrame hlegs i code detector suspect fp
    have hraised (c : Cause) (a : Option Nat) (n : Nat) := State.raise_sameFrame hlog Pg.coll c a n
    exact State.finishColl_sameFrame (SameFrame.ite (hraised _ _ _) (State.fogRange_sameFrame (hraised _ _ _) _ _)) _ _ _
  · exact hlegs

theorem State.retireInst_sameFrame (h : SameFrame b s) (i : Inst) : SameFrame b (s.retireInst i) := by
  unfold State.retireInst State.nextInst
  split
  · exact SameFrame.ite ⟨h.kind, h.wall⟩ ⟨h.kind, h.wall⟩
  · exact ⟨h.kind, h.wall⟩

theorem State.abortScheduled_sameFrame (h : SameFrame b s) (c : Cause) : SameFrame b (s.abortScheduled c) := by
  unfold State.abortScheduled
  extract_lets code own waiting
  have hw : SameFrame b waiting := h.foldl fun t i ht => State.tellAbort_sameFrame (State.setColl_sameFrame ht _) i _ _ _ _ _ _
  exact hw.foldl fun t i ht => State.retireInst_sameFrame (State.tellAbort_sameFrame ht i _ _ _ _ _ _) _

/-! ## Freezes and aborts of a frame -/

theorem State.countIdle_sameFrame (h : SameFrame b s) (die cause n : Nat) : SameFrame b (s.countIdle die cause n) := SameFrame.ite h ⟨h.kind, h.wall⟩

theorem State.countFreezes_sameFrame (h : SameFrame b s) (l : List Freeze) (cur stop : Nat) : SameFrame b (s.countFreezes l cur stop) := by
  induction l generalizing s cur with
  | nil => exact h
  | cons f l ih => exact ih (SameFrame.ite (State.countIdle_sameFrame h _ _ _) h) _

/-- Freezes that end at a cycle already reached. -/
theorem State.endFreezes_sameFrame (h : SameFrame b s) {wall : Nat} (hw : wall ≤ s.wall) : SameFrame b (s.endFreezes wall) := by
  refine SameFrame.ite h ?_
  have hd : SameFrame s ((List.range 4).foldl (fun (t : State) n => t.bump (Pg.d2d n) Reg.D2D_FREEZE_CNT (s.eng.frame.linkFrozen n wall)) s) :=
    (SameFrame.refl s).foldl fun _ _ ht => State.bump_sameFrame ht _ _ _
  have hc := State.countFreezes_sameFrame hd s.eng.frame.frozen s.eng.frame.freezeStart wall
  exact ⟨hc.kind.trans h.kind, (Nat.max_eq_left (hw.trans_eq hc.wall.symm)).trans (hc.wall.trans h.wall)⟩

theorem State.freeze_sameFrame (h : SameFrame b s) (reason : FreezeReason) (die : Nat) (stop : Option Nat) (w : Waiter) (a : Option Nat) :
    SameFrame b (s.freeze reason die stop w a) := ⟨h.kind, h.wall⟩

/-- An abort (R115) leaves the frame that it aborts in place. -/
theorem State.abortFrame_sameFrame (h : SameFrame b s) (code : Nat) : SameFrame b (s.abortFrame code) := by
  unfold State.abortFrame
  refine SameFrame.ite ?_ h
  extract_lets late ranges due ended mask _ _ stopped fogged flagged _ recovering flushed done
  have hended : SameFrame b ended := State.endFreezes_sameFrame h (le_refl s.wall)
  have hfogged : SameFrame b fogged := SameFrame.foldl (s := stopped) ⟨hended.kind, hended.wall⟩ fun _ r ht => State.fogRange_sameFrame ht _ _
  have hflagged : SameFrame b flagged := State.setP_sameFrame hfogged _ _ _ _ _
  have hrecovering : SameFrame b recovering := SameFrame.ite ⟨hflagged.kind, hflagged.wall⟩ hflagged
  have hdone : SameFrame b done := State.completeRun_sameFrame (State.flushSends_sameFrame hrecovering due) code
  exact SameFrame.ite hdone (State.abortScheduled_sameFrame hdone _)

end Sys2Proof.Machine
end

section
/-!
SUPPORT. Frame boundaries (R113) by their stages: the frame that begins has a kind, and the commands that are boundaries.
-/
namespace Sys2Proof.Machine

variable {s b : State} {carry : List CarryEvent} {tests : List TestEvent}

/-! ## The frame that begins -/

theorem State.newFrame_kind (s : State) (kind : FrameKind) (len idleCode : Nat) (testing : Bool) :
    (s.newFrame kind len idleCode testing).eng.frame.kind = kind := rfl

/-- An image frame is one also where it is frozen or aborts at cycle 0 (R83, R406). -/
theorem State.beginImage_kind (s : State) (r : Run) (len : Nat) : (s.beginImage r len).eng.frame.kind = .image := by
  unfold State.beginImage
  extract_lets old n
  split
  · rfl
  · next x hx =>
    extract_lets fetched placed _ running marked late counted
    have hplaced : SameFrame n placed := ⟨rfl, rfl⟩
    have hmarked : SameFrame n marked := (State.setHost_sameFrame hplaced _).foldl fun _ d ht =>
      State.setP_sameFrame (State.setP_sameFrame ht _ _ _ _ _) _ _ _ _ _
    split
    · exact (State.abortFrame_sameFrame hmarked _).kind
    · have hcounted : SameFrame n counted := hmarked.foldl fun _ d ht => State.setInt_sameFrame (State.bump_sameFrame ht _ _ _) _ _
      clear_value counted late
      cases late
      · exact hcounted.kind
      · exact (State.freeze_sameFrame hcounted _ _ _ _ _).kind

theorem State.resetStreams_sameFrame (h : SameFrame b s) : SameFrame b s.resetStreams := ⟨h.kind, h.wall⟩

theorem State.beginSwitch_kind (s : State) (x : Switching) (len : Nat) : (s.beginSwitch x len).eng.frame.kind = .switch := by
  have hn : SameFrame (s.newFrame .switch len 0 false) ((s.newFrame .switch len 0 false).bump Pg.idle Reg.IDLE_SWITCH_CNT 1) :=
    State.bump_sameFrame (SameFrame.refl _) _ _ _
  have ha := SameFrame.ite (c := ((s.newFrame .switch len 0 false).bump Pg.idle Reg.IDLE_SWITCH_CNT 1).running.isSome)
    (State.abortScheduled_sameFrame (State.resetStreams_sameFrame hn) .SLOT_SWITCH) hn
  exact ha.kind

/-- Steps 2 to 4 of R113 begin an idle, a test, a switch, an image or an empty frame. -/
theorem State.chooseFrame_kind (s : State) (len k : Nat) : (s.chooseFrame len k).1.eng.frame.kind ≠ .none := by
  have hne {k k' : FrameKind} (h : k = k') (hk : k' ≠ .none) : k ≠ .none := h ▸ hk
  unfold State.chooseFrame
  split
  next c d _ =>
  dsimp only
  split
  case isTrue => exact hne (State.newFrame_kind _ .idle _ _ _) (by decide)
  case isFalse =>
    split
    case isTrue => exact hne (State.newFrame_kind _ .test _ _ _) (by decide)
    case isFalse =>
      split
      · exact hne (State.beginSwitch_kind _ _ _) (by decide)
      · split
        · exact hne (State.beginImage_kind _ _ _) (by decide)
        · exact hne (State.newFrame_kind _ .empty _ _ _) (by decide)

theorem State.sendTick_sameFrame (h : SameFrame b s) (len k : Nat) : SameFrame b (s.sendTick len k) :=
  SameFrame.ite (SameFrame.ite ⟨h.kind, h.wall⟩ ⟨h.kind, h.wall⟩) h

/-! ## The boundary -/

/-- The number of the frame that a boundary begins: the fleet's on a follower, else the module's own. -/
def State.nextNumber (e : State) : Nat :=
  if isFollower (e.fldP Pg.hub Reg.HUB_TICK_CFG 1 0) then e.eng.fleet.num + 1 else (e.set64 Pg.hub Reg.HUB_FRAME_NUM_LO (e.frameNum + 1)).frameNum

/-- The state in which a boundary chooses the frame: HUB_FRAME_NUM, the fleet's role and number, and the band stand as the new frame has them. -/
def State.counted (e : State) : State :=
  let role := e.fldP Pg.hub Reg.HUB_TICK_CFG 1 0
  let n := e.set64 Pg.hub Reg.HUB_FRAME_NUM_LO (e.frameNum + 1)
  let v := n.setFleet { e.eng.fleet with role := role, num := e.nextNumber, misses := if isFollower role then e.eng.fleet.misses else 0 }
  v.setP Pg.hub Reg.HUB_FRAME_STAT 1 0 v.effectiveBand

/-- What a boundary does once its frame is chosen: the master's tick, IMG_BAND, the flip of the issuing buffers, and the snapshots. -/
def State.afterChoice (c : State) (len k : Nat) : State :=
  let x := c.sendTick len k
  let x := x.setFleet { x.eng.fleet with ready := x.eng.fleet.ready + 1 }
  let x := x.setP Pg.hub Reg.HUB_FRAME_STAT 3 2 x.imageBand
  let x := (List.range 4).foldl (fun (y : State) d =>
    let y := y.setP (Pg.rch d) Reg.RCH_STAT 2 2 (1 - y.fldP (Pg.rch d) Reg.RCH_STAT 2 2)
    if y.eng.frame.kind = .image then y else y.clearRun d) x
  x.snapshots

/-- A boundary by its stages. The frame's choice is given as a pair, so that no check of this equation evaluates it. -/
theorem State.boundary_of_choice {e c : State} {loc : Bool} (he : (s.endFrame carry tests).boundaryWork = e)
    (hc : e.counted.chooseFrame e.counted.frameLen e.nextNumber = (c, loc)) :
    s.boundary carry tests = (c.afterChoice e.counted.frameLen e.nextNumber, loc) := by
  refine (State.boundary.eq_1 s carry tests).trans ?_
  split
  next c' loc' hc' =>
  subst he
  obtain ⟨rfl, rfl⟩ := Prod.mk.inj (hc'.symm.trans hc)
  rfl

theorem State.snapshots_sameFrame (h : SameFrame b s) : SameFrame b s.snapshots := ⟨h.kind, h.wall⟩

theorem State.afterChoice_sameFrame (h : SameFrame b s) (len k : Nat) : SameFrame b (s.afterChoice len k) := by
  have hx := State.sendTick_sameFrame h len k
  unfold State.afterChoice
  extract_lets x _ y z w
  have hw : SameFrame b w := SameFrame.foldl (s := z) ⟨hx.kind, hx.wall⟩ fun _ d ht =>
    have hflip := State.setP_sameFrame ht (Pg.rch d) _ _ _ _
    SameFrame.ite hflip (State.clearRun_sameFrame hflip d)
  exact State.snapshots_sameFrame hw

/-! ## The commands that are boundaries -/

/-- FRAME_BOUNDARY (R113). -/
theorem exec_frameBoundary_reached (h : s.begin.reachBoundary = some b) :
    exec (.frameBoundary carry tests) s = .next (b.boundary carry tests).1 := by
  change execFrameBoundary carry tests s = _
  simp only [execFrameBoundary, h]

/-- LOCAL_IDLE_INSERT, where the boundary inserts a local idle frame (R109). -/
theorem exec_localIdleInsert_reached (h : s.begin.reachBoundary = some b) (hl : (b.boundary carry tests).2 = true) :
    exec (.localIdleInsert carry tests) s = .next (b.boundary carry tests).1 := by
  change execLocalIdleInsert carry tests s = _
  simp only [execLocalIdleInsert, h, hl, if_true]

/-- TICK_LOST, where the boundary ends the 16th frame in a row without a tick (R105). -/
theorem exec_tickLost_reached (h : s.begin.reachBoundary = some b) (hf : isFollower b.eng.fleet.role = true)
    (ht : b.eng.frame.ticked = false) (hk : b.eng.frame.kind ≠ .none) (hm : b.eng.fleet.misses = 15) :
    exec (.tickLost carry tests) s = .next (b.boundary carry tests).1 := by
  change execTickLost carry tests s = _
  simp only [execTickLost, h]
  rw [if_pos ⟨hf, by rw [ht]; rfl, hk, hm⟩]

end Sys2Proof.Machine
end

section
/-!
SUPPORT. Stretch, word fetch (R83, R115), ticks and idle requests (R102 to R111).
-/
namespace Sys2Proof.Machine

variable {s b : State}

/-! ## Stretch -/

theorem State.passTo_of_le {n t : Nat} (h : t ≤ s.wall) : s.passTo n t = s := by
  cases n with
  | zero => rfl
  | succ n => rw [State.passTo, if_pos h]

/-- Wall time passes from a freeze to the cycle in which the stretch would exceed STRETCH_MAX: the frame aborts there (R115). -/
theorem State.passTime_stretchAbort (hi : s.issuing = true) (hf : s.frozen = true)
    (he : (s.eng.frame.freezeEnd.all fun y => decide (s.eng.frame.abortAt < y)) = true) (hw : s.wall < s.eng.frame.abortAt) :
    s.passTime s.eng.frame.abortAt = s.stretchAbort s.eng.frame.abortAt := by
  have hs : (s.stretchAbort s.eng.frame.abortAt).wall = s.eng.frame.abortAt := by
    let w : State := { s with wall := max s.wall s.eng.frame.abortAt }
    have hr := State.raise_sameFrame (SameFrame.refl w)
    exact (State.abortFrame_sameFrame (hr _ _ _ _) _).wall.trans (Nat.max_eq_right hw.le)
  have hpast (n : Nat) : (s.stretchAbort s.eng.frame.abortAt).passTo n s.eng.frame.abortAt = s.stretchAbort s.eng.frame.abortAt :=
    State.passTo_of_le hs.ge
  rw [State.passTime, State.passTo, if_neg (Nat.not_le.2 hw), hi, hf]
  cases hfe : s.eng.frame.freezeEnd with
  | none => simp [hpast, hfe]
  | some y =>
    have hy : s.eng.frame.abortAt < y := by simpa [hfe] using he
    simp [hpast, hfe, hy]

/-! ## Fetch -/

section
variable {d i : Nat} {x : Slot} {z : State} {e : Nat × Nat}

theorem State.fetchNow_done (hx : s.slot? s.eng.frame.slot = some x) (hz : s.countFetch x s.eng.frame.index d = (z, none)) :
    s.fetchNow d = (z.setFrame { z.eng.frame with fetched := z.eng.frame.fetched.set d true }).wake := by
  simp only [State.fetchNow, hx, hz]

theorem State.fetchNow_failed (hx : s.slot? s.eng.frame.slot = some x) (hz : s.countFetch x s.eng.frame.index d = (z, some e)) :
    s.fetchNow d = z.abortFrame e.1 := by
  simp only [State.fetchNow, hx, hz]

section
variable (hx : s.nextImage = some (x, i)) (hw : s.hasWords x i d = true) (hn : s.eng.frame.nextFetched.getD d false = false)
  (he : s.eng.frame.fetchError = none)
include hx hw hn he

theorem State.fetchNext_done (hz : s.countFetch x i d = (z, none)) :
    s.fetchNext d = z.setFrame { z.eng.frame with nextFetched := z.eng.frame.nextFetched.set d true } := by
  simp only [State.fetchNext, hx, hw, hn, he, hz]
  rfl

theorem State.fetchNext_failed (hz : s.countFetch x i d = (z, some e)) : s.fetchNext d = z.setFrame { z.eng.frame with fetchError := some e } := by
  simp only [State.fetchNext, hx, hw, hn, he, hz]
  rfl

end

end

/-- A fetch ends for the present frame where that waits for it, else for the next one (R83). -/
theorem exec_fetchComplete {u : State} {t : Nat} {d : Fin 4} {errs : List AccessErr} (hu : s.atFacing errs t = u) :
    exec (.fetchComplete t d errs) s =
      .next (if u.issuing = true ∧ bit u.runMask d = true ∧ u.eng.frame.fetched.getD d true = false then u.fetchNow d else u.fetchNext d) := by
  subst hu
  exact congrArg Host.Outcome.next (if_congr (by rw [Bool.not_eq_true']; rfl) rfl rfl)

/-! ## Ticks and idle requests -/

theorem State.onCell_good {typ : Nat} {a : Arrived} {v : State} (h : s.takeHere typ = some (a, v)) (hg : a.cell.good = true) (f : State → Arrived → State) :
    s.onCell typ f = f v a := by
  simp only [State.onCell, h, hg, if_true]

theorem State.takeTick_other {a : Arrived} (hf : isFollower s.eng.fleet.role = false) : s.takeTick a = s := by
  simp [State.takeTick, hf]

theorem State.takeTick_stranger {a : Arrived} (hf : isFollower s.eng.fleet.role = true) (ha : a.cell.src ≠ s.fldP Pg.hub Reg.HUB_TICK_CFG 31 16) :
    s.takeTick a = s.bump Pg.rte Reg.RTE_BAD_TYPE_CNT 1 := by
  simp [State.takeTick, hf, ha]

end Sys2Proof.Machine
end

section
/-!
SUPPORT. Accepted writes of registers whose rule takes a value or refuses the write, and of the words of the route and collective tables.
-/
namespace Sys2Proof.Machine

variable {s : State} {p : Page} {q o : Nat} {v v' : Word}

/-! ## Registers whose rule takes a write or refuses it -/

/-- The outcomes of an accepted write of a register whose rule takes a value, or refuses the write, by a condition. -/
theorem State.busWrite_guarded {c : Prop} [Decidable c] (ha : s.Accepts q (p.base + o)) (hl : s.Unlocked p o) (hp : pageOf (p.base + o) = some (p, o))
    (ho : 0x40 ≤ o) (hr : (rowOf p.kind o).isSome = true)
    (hrule : s.answered.pageWrite (.port q) p o v .free = if c then s.answered.plainWrite p o v' else s.answered.writeRefused p) :
    (c → s.busWrite (.port q) (p.base + o) v .free = s.answered.coded p o v')
    ∧ (¬c → s.busWrite (.port q) (p.base + o) v .free = (s.answered.deny p .WRITE_REFUSED none (s.answered.refusedInfo p)).reported q) := by
  obtain ⟨r, hr⟩ := Option.isSome_iff_exists.1 hr
  have hw : s.busWrite (.port q) (p.base + o) v .free = (s.answered.pageWrite (.port q) p o v .free).reported q := by
    rw [State.busWrite_accepted ha, State.writeWord_page hp ho]
  rw [hw, hrule]
  refine ⟨fun hc => ?_, fun hc => ?_⟩
  · rw [if_pos hc, State.plainWrite_coded hr hl.answered]
    exact State.reported_of_done rfl _
  · rw [if_neg hc]
    rfl

/-! ## Words with writable bits -/

/-- A field that a mask spares wholly. -/
theorem fld_and_of_ones {w m : Word} {hi lo : Nat} (h : ∀ i < hi + 1 - lo, m.toNat.testBit (lo + i) = true) : fld (w &&& m) hi lo = fld w hi lo := by
  refine Nat.eq_of_testBit_eq fun i => ?_
  rw [testBit_fld, testBit_fld, BitVec.toNat_and, Nat.testBit_and]
  by_cases hi' : i < hi + 1 - lo
  · rw [h i hi', Bool.and_true]
  · simp [hi']

/-- A route entry as it is stored, by the ports of the word written (R439). -/
theorem routeStored_eq (v : Word) : routeStored v = if 23 < fld v 4 0 ∨ 23 < fld v 12 8 then setFld (v &&& 0xC0001F1F) 31 31 0 else v &&& 0xC0001F1F := by
  have h1 : fld (v &&& 0xC0001F1F) 4 0 = fld v 4 0 := fld_and_of_ones (by decide)
  have h2 : fld (v &&& 0xC0001F1F) 12 8 = fld v 12 8 := fld_and_of_ones (by decide)
  simp only [routeStored, h1, h2]

/-! ## Table windows -/

/-- No page lies in the route and multicast tables, and none in the collective table. -/
theorem pageOf_tables {off : Nat} (h : 0x530000 ≤ off ∧ off < 0x574000 ∨ 0x610000 ≤ off ∧ off < 0x650000) : pageOf off = none := by
  simp (disch := omega) only [pageOf, if_pos, if_neg]

theorem sheafWindows_disjoint : ∀ w ∈ sheafWindows, ∀ x ∈ sheafWindows, w = x ∨ w.1 + w.2.1 ≤ x.1 ∨ x.1 + x.2.1 ≤ w.1 := by decide

/-- An offset in a window of the Sheaf belongs to that window. -/
theorem windowOf_of_mem {w : Nat × Nat × Window} {n : Nat} (hw : w ∈ sheafWindows) (hn : n < w.2.1) : windowOf (w.1 + n) = some (w.2.2, n) := by
  have htop : ∀ w ∈ sheafWindows, w.1 + w.2.1 ≤ 0x1000000 := by decide
  have hsome : (sheafWindows.find? fun x => decide (x.1 ≤ w.1 + n) && decide (w.1 + n < x.1 + x.2.1)).isSome = true :=
    List.find?_isSome.2 ⟨w, hw, by simp [hn]⟩
  obtain ⟨x, hx⟩ := Option.isSome_iff_exists.1 hsome
  have hin := List.find?_some hx
  rw [Bool.and_eq_true, decide_eq_true_eq, decide_eq_true_eq] at hin
  have hxw : w = x := by
    rcases sheafWindows_disjoint w hw x (List.mem_of_find?_eq_some hx) with h | h | h <;> [exact h; omega; omega]
  subst hxw
  rw [windowOf, if_pos (by have := htop w hw; omega), hx, Option.map_some, Nat.add_sub_cancel_left]

theorem windowOf_route {dst : Nat} (h : dst < 2 ^ 16) : windowOf (0x530000 + 4 * dst) = some (.route, 4 * dst) :=
  windowOf_of_mem (w := (0x530000, 0x40000, .route)) (by decide) (by simp only; omega)

theorem windowOf_collTable {e k : Nat} (he : e < 4096) (hk : k < 16) : windowOf (0x610000 + 64 * e + 4 * k) = some (.collTable, 64 * e + 4 * k) := by
  rw [Nat.add_assoc]
  exact windowOf_of_mem (w := (0x610000, 0x40000, .collTable)) (by decide) (by simp only; omega)

theorem State.writeWord_window {w : Window} {off x : Nat} {via : Via} {f : DrasFind} (hp : pageOf off = none) (hw : windowOf off = some (w, x)) :
    s.writeWord via off v f = s.windowWrite w off x v := by
  simp only [State.writeWord, hp, hw]

/-- An accepted write of a table window's word. -/
theorem State.busWrite_window {w : Window} {off x : Nat} (ha : s.Accepts q off) (hp : pageOf off = none) (hw : windowOf off = some (w, x)) :
    s.busWrite (.port q) off v .free = (s.answered.windowWrite w off x v).reported q := by
  rw [State.busWrite_accepted ha, State.writeWord_window hp hw]

/-- A word of the collective table is kept while a collective on its entry is active (R478). -/
theorem State.collTableWrite_eq (s : State) {e k : Nat} (hk : k < 16) (v : Word) : s.collTableWrite (0x610000 + 64 * e + 4 * k) (64 * e + 4 * k) v =
    if (s.coll.insts.any fun x => x.entry == e) = true then s.deny Pg.coll .WRITE_REFUSED none (fld (s.rd (0x610000 + 64 * e)) 15 0 * 65536)
    else s.wr (0x610000 + 64 * e + 4 * k) (v &&& collTableMask k) := by
  have he : (64 * e + 4 * k) / 64 = e := by omega
  have hk' : (64 * e + 4 * k) % 64 = 4 * k := by omega
  have ho : 0x610000 + 64 * e + 4 * k - 4 * k = 0x610000 + 64 * e := Nat.add_sub_cancel _ _
  have hw : 4 * k / 4 = k := Nat.mul_div_cancel_left k (by decide)
  simp only [State.collTableWrite, he, hk', ho, hw]

/-! ## The rules of the registers -/

theorem pageOf_fab {f o : Nat} (hf : f < 24) (ho : o < 0x1000) : pageOf ((Pg.fab f).base + o) = some (Pg.fab f, o) := by
  have hb : (Pg.fab f).base + o = 0x500000 + f * 0x1000 + o := rfl
  have hd : (0x500000 + f * 0x1000 + o) / 0x1000 = 0x500 + f := by omega
  have hm : (0x500000 + f * 0x1000 + o) % 0x1000 = o := by omega
  rw [hb, pageOf]
  simp (disch := omega) only [hd, hm, if_pos, if_neg, Nat.add_sub_cancel_left]

theorem foldl_add_add (x y : Nat → Nat) (l : List Nat) (m : Nat) : l.foldl (fun m k => m + x k + y k) m = m + (l.map fun k => x k + y k).sum := by
  induction l generalizing m with
  | nil => rfl
  | cons k l ih => rw [List.foldl_cons, ih, List.map_cons, List.sum_cons, Nat.add_assoc, Nat.add_assoc, Nat.add_assoc]

theorem rowOf_credits : ∀ c : Fin 4, (rowOf PageKind.fab (Reg.FAB_CREDv + 4 * c)).isSome = true := by decide

/-- The allocations of a port's classes once word c is v (R443). -/
theorem State.fabWrite_credits (s : State) (f : Nat) {c : Nat} (hc : c < 4) (v : Word) :
    s.fabWrite f (Reg.FAB_CREDv + 4 * c) v =
      if ((List.range 4).map fun k => fld (if k = c then v else s.rdP (Pg.fab f) (Reg.FAB_CREDv + 4 * k)) 28 16
          + fld (if k = c then v else s.rdP (Pg.fab f) (Reg.FAB_CREDv + 4 * k)) 12 0).sum ≤ 8192
        then s.plainWrite (Pg.fab f) (Reg.FAB_CREDv + 4 * c) v else s.writeRefused (Pg.fab f) := by
  have h1 : Reg.FAB_CREDv + 4 * c ≠ Reg.FAB_CFG := by simp only [Reg.FAB_CREDv, Reg.FAB_CFG]; omega
  have h2 : Reg.FAB_CREDv ≤ Reg.FAB_CREDv + 4 * c ∧ Reg.FAB_CREDv + 4 * c < Reg.FAB_CREDv + 16 := by omega
  have hk (k : Nat) : Reg.FAB_CREDv + 4 * k = Reg.FAB_CREDv + 4 * c ↔ k = c := by omega
  simp only [State.fabWrite, h1, h2, hk, if_false, if_true, and_self, foldl_add_add, Nat.zero_add]

/-- The mode register keeps PROT and FP16 while a slot is resident (R588). -/
theorem State.tradeWrite_mode {v : Word} (hp : fld v 1 0 ≠ 3) : s.tradeWrite Reg.TRADE_MODE v =
    if s.slots = [] ∨ fld v 1 0 = s.fldP Pg.trade Reg.TRADE_MODE 1 0 ∧ fld v 4 4 = s.fldP Pg.trade Reg.TRADE_MODE 4 4
      then s.plainWrite Pg.trade Reg.TRADE_MODE (if fld v 3 2 = 3 then setFld v 3 2 (s.fldP Pg.trade Reg.TRADE_MODE 3 2) else v)
      else s.writeRefused Pg.trade := by
  rw [← ite_not]
  have hc : s.slots.isEmpty = false
      ∧ (fld v 1 0 ≠ s.fldP Pg.trade Reg.TRADE_MODE 1 0 ∧ fld v 1 0 ≠ 3 ∨ fld v 4 4 ≠ s.fldP Pg.trade Reg.TRADE_MODE 4 4) ↔
      ¬(s.slots = [] ∨ fld v 1 0 = s.fldP Pg.trade Reg.TRADE_MODE 1 0 ∧ fld v 4 4 = s.fldP Pg.trade Reg.TRADE_MODE 4 4) := by
    rw [List.isEmpty_eq_false_iff]
    tauto
  simp only [State.tradeWrite, hc, hp, if_true, if_false]

/-- A hop limit of 0 is stored as 1 (R442). -/
theorem storedAs_hops (v : Word) : storedAs v 5 0 1 63 1 = if fld v 5 0 = 0 then setFld v 5 0 1 else v := by
  have h : fld v 5 0 < 64 := Nat.mod_lt _ (by decide)
  exact if_congr (by omega) rfl rfl

end Sys2Proof.Machine
end

section
/-!
SUPPORT. The obligations of the frame and the schedule contract (02_frame_and_schedule_contract), settled.
-/
namespace Sys2Proof.Machine

/-- Settles O30: `chooseFrame` begins a frame of one of the five kinds (`chooseFrame_kind`), and what follows the choice keeps its kind. -/
theorem aFrameBegins : Obligations.AFrameBegins := by
  intro b carry tests hk
  let e := (b.endFrame carry tests).boundaryWork
  obtain ⟨⟨c, loc⟩, hc⟩ : ∃ p, e.counted.chooseFrame e.counted.frameLen e.nextNumber = p := ⟨_, rfl⟩
  have hne := State.chooseFrame_kind e.counted e.counted.frameLen e.nextNumber
  rw [hc] at hne
  rw [State.boundary_of_choice (e := e) rfl hc, (State.afterChoice_sameFrame (SameFrame.refl c) _ _).kind] at hk
  exact hne hk

/-- Settles O29: the boundary is its stages (`boundary_of_choice`), and the three commands are the boundary where it is theirs. The present number, length and
choice are made opaque before the stages after the choice are compared, which else are evaluated. -/
theorem frameBoundaries : Obligations.FrameBoundaries := by
  intro s b carry tests h e role n k numbered v
  obtain ⟨p, hp⟩ : ∃ p, e.counted.chooseFrame e.counted.frameLen e.nextNumber = p := ⟨_, rfl⟩
  have hb := State.boundary_of_choice (s := b) (carry := carry) (tests := tests) (e := e) rfl (hp.trans Prod.mk.eta.symm)
  have hv : e.counted = v := rfl
  have hk : e.nextNumber = k := rfl
  rw [hv, hk] at hb hp
  clear_value v k
  rw [hp]
  intro _ _ _ _ _ x
  have hx : p.1.afterChoice v.frameLen k = x := rfl
  rw [hx] at hb
  have hfst : x = (b.boundary carry tests).1 := by rw [hb]
  rw [hfst]
  exact ⟨exec_frameBoundary_reached h, fun hloc => exec_localIdleInsert_reached h (by rw [hb]; exact hloc), exec_tickLost_reached h⟩

/-- Settles O31: time passes from the freeze to the abort in one step (`passTime_stretchAbort`), and a fetch ends for the present frame or the next one. -/
theorem stretchAndFetch : Obligations.StretchAndFetch := by
  intro s
  refine ⟨fun t => rfl, ?exceeded, ?fetch⟩
  case exceeded =>
    intro t f e x hi hf hend hw ht
    have htime : max t (if s.issuing = true ∧ s.frozen = true then s.eng.frame.abortAt else 0) = e := by
      rw [if_pos ⟨hi, hf⟩]
      exact Nat.max_eq_right ht
    have hwall : max s.wall e = e := Nat.max_eq_right hw.le
    have habort : s.begin.passTime e = s.begin.stretchAbort e := State.passTime_stretchAbort (s := s.begin) hi hf hend hw
    refine (congrArg (fun n => Host.Outcome.next (s.begin.passTime n)) htime).trans (congrArg Host.Outcome.next (habort.trans ?_))
    simp only [State.stretchAbort, State.begin_wall, hwall]
    rfl
  case fetch =>
    intro t d errs u f waits
    have hexec := exec_fetchComplete (s := s) (t := t) (d := d) (errs := errs) (u := u) rfl
    refine ⟨fun x z hwaits hx => ?now, fun x i z hwaits hx hwords hfree herr => ?next⟩
    case now =>
      rw [hexec, if_pos hwaits]
      exact ⟨fun hz => congrArg _ (State.fetchNow_done hx hz), fun e hz => congrArg _ (State.fetchNow_failed hx hz)⟩
    case next =>
      rw [hexec, if_neg hwaits]
      exact ⟨fun hz => congrArg _ (State.fetchNext_done hx hwords hfree herr hz), fun e hz => congrArg _ (State.fetchNext_failed hx hwords hfree herr hz)⟩

/-- Settles O32: the cell that is taken is a good one, so each command is what that cell does (`onCell_good`). -/
theorem ticksAndIdleRequests : Obligations.TicksAndIdleRequests := by
  intro s t a v u
  refine ⟨fun hu hg => ?tick, fun hu hg => ?ask⟩
  case tick =>
    have hexec : exec (.tick t) s = .next (v.takeTick a) := congrArg Host.Outcome.next (State.onCell_good (s := u) hu hg State.takeTick)
    refine ⟨fun hf => ?_, fun hf ha => ?_, fun hf ha => ?_⟩
    · rw [hexec, State.takeTick_other hf]
    · rw [hexec, State.takeTick_stranger hf ha]
    · rw [hexec]
      intro k e coming trims m big err trimmed ticked locked f g
      refine ⟨fun hb => congrArg Host.Outcome.next ?_, fun hb => congrArg Host.Outcome.next ?_⟩
      · simp only [State.takeTick, hf, ha, hb, ne_eq, not_true_eq_false, Bool.false_eq_true, if_false, Bool.not_true]
        rfl
      · simp only [State.takeTick, hf, ha, hb, ne_eq, not_true_eq_false, Bool.false_eq_true, if_false, if_true, Bool.not_true]
        rfl
  case ask =>
    let ask : State → Arrived → State := fun s _ =>
      if isMaster s.eng.fleet.role then s.setFab { s.fab with idleAsked := true } else s.bump Pg.rte Reg.RTE_BAD_TYPE_CNT 1
    have hexec : exec (.idleReq t) s = .next (ask v a) := congrArg Host.Outcome.next (State.onCell_good (s := u) hu hg ask)
    rw [hexec]
    exact ⟨fun hm => congrArg Host.Outcome.next (if_pos hm), fun hm => congrArg Host.Outcome.next (if_neg (by rw [hm]; decide))⟩

/-- Settles O52: each register's rule takes a value or refuses the write by a condition (`busWrite_guarded`), and a table window stores the word. -/
theorem frameAndFabricSettings : Obligations.FrameAndFabricSettings := by
  intro s t port v u a ok refused
  refine ⟨fun ⟨hacc, hl⟩ => ?frameLen, fun ⟨hacc, hl⟩ => ?tickDelay, fun ⟨hacc, hl⟩ => ?nodeId, fun f c ⟨hacc, hl⟩ => ?credits, fun dst hacc => ?route,
    fun e k hacc => ?coll, fun ⟨hacc, hl⟩ => ?mode⟩
  case frameLen =>
    obtain ⟨htaken, hkept⟩ := State.busWrite_guarded (v := v) (c := u.slots.isEmpty = true ∧ 14 ≤ fld v 4 0 ∧ fld v 4 0 ≤ 20) hacc hl
      (by decide) (by decide) (by decide) rfl
    refine ⟨fun hs h14 h20 => congrArg Host.Outcome.next (htaken ⟨List.isEmpty_iff.2 hs, h14, h20⟩), fun h => congrArg Host.Outcome.next (hkept ?_)⟩
    rintro ⟨hs, h14, h20⟩
    rw [List.isEmpty_iff] at hs
    rcases h with h | h | h <;> [exact h hs; omega; omega]
  case tickDelay =>
    obtain ⟨htaken, hkept⟩ := State.busWrite_guarded (v := v) (c := fld v 23 0 < u.frameLen / 2) hacc hl (by decide) (by decide) (by decide) rfl
    exact ⟨fun h => congrArg Host.Outcome.next (htaken h), fun h => congrArg Host.Outcome.next (hkept (Nat.not_lt.2 h))⟩
  case nodeId =>
    obtain ⟨htaken, hkept⟩ := State.busWrite_guarded (v := v) (c := u.slots.isEmpty = true ∨ fld v 31 15 = u.fldP Pg.rte Reg.RTE_CFG 31 15) hacc hl
      (by decide) (by decide) (by decide) rfl
    refine ⟨fun h => congrArg Host.Outcome.next ((htaken (h.imp_left List.isEmpty_iff.2)).trans ?_), fun hs hv => congrArg Host.Outcome.next (hkept ?_)⟩
    · exact congrArg (a.coded Pg.rte Reg.RTE_CFG) (storedAs_hops v)
    · rintro (h | h)
      · exact hs (List.isEmpty_iff.1 h)
      · exact hv h
  case credits =>
    have hpage : pageOf ((Pg.fab f).base + (Reg.FAB_CREDv + 4 * c)) = some (Pg.fab f, Reg.FAB_CREDv + 4 * c) :=
      pageOf_fab f.isLt (by simp only [Reg.FAB_CREDv]; omega)
    obtain ⟨htaken, hkept⟩ := State.busWrite_guarded hacc hl hpage (Nat.le_add_right_of_le (by decide)) (rowOf_credits c)
      (State.fabWrite_credits a f c.isLt v)
    exact ⟨fun h => congrArg Host.Outcome.next (htaken h), fun h => congrArg Host.Outcome.next (hkept (Nat.not_le.2 h))⟩
  case route =>
    have hw := State.busWrite_window (v := v) hacc (pageOf_tables (by omega)) (windowOf_route dst.isLt)
    refine congrArg Host.Outcome.next (hw.trans ?_)
    exact (State.reported_of_done rfl _).trans (congrArg (a.wr _) (routeStored_eq v))
  case coll =>
    have hw := State.busWrite_window (v := v) hacc (pageOf_tables (by omega)) (windowOf_collTable e.isLt k.isLt)
    have hrule : a.windowWrite .collTable (0x610000 + 64 * e + 4 * k) (64 * e + 4 * k) v = _ := State.collTableWrite_eq a (e := e) k.isLt v
    have hany : (a.coll.insts.any fun x => x.entry == e) = true ↔ ∃ x ∈ u.coll.insts, x.entry = e := by
      rw [List.any_eq_true]
      exact exists_congr fun x => and_congr_right' beq_iff_eq
    refine ⟨fun h => congrArg Host.Outcome.next (hw.trans ?_), fun h => congrArg Host.Outcome.next (hw.trans ?_)⟩
    · rw [hrule, if_neg fun hx => (hany.1 hx).elim fun y hy => h y hy.1 hy.2]
      exact State.reported_of_done rfl _
    · rw [hrule, if_pos (hany.2 h)]
      rfl
  case mode =>
    refine ⟨fun hkeep hp hb => congrArg Host.Outcome.next ?_, fun hs hp hne => congrArg Host.Outcome.next ?_⟩
    · obtain ⟨htaken, -⟩ := State.busWrite_guarded hacc hl (by decide) (by decide) (by decide) (State.tradeWrite_mode (s := a) hp)
      rw [if_neg hb] at htaken
      exact htaken hkeep
    · obtain ⟨-, hkept⟩ := State.busWrite_guarded hacc hl (by decide) (by decide) (by decide) (State.tradeWrite_mode (s := a) hp)
      refine hkept ?_
      rintro (h | ⟨h1, h4⟩)
      · exact hs h
      · exact hne.elim (absurd h1) (absurd h4)

end Sys2Proof.Machine
end

section
/-!
SUPPORT. The issue of a word that is free to issue, and what leaves the engines as they are: registers, errors, interrupts, and bytes stored in memory.
-/
namespace Sys2Proof.Machine

variable {s b : State} {p : Page}

/-! ## What leaves the engines as they are -/

theorem State.foldl_eng {α : Type} {f : State → α → State} (hf : ∀ t x, (f t x).eng = t.eng) (l : List α) (s : State) : (l.foldl f s).eng = s.eng :=
  List.foldlRecOn (motive := fun t => t.eng = s.eng) l f rfl fun t ht x _ => (hf t x).trans ht

@[simp] theorem State.bump_eng (s : State) (p : Page) (o n : Nat) : (s.bump p o n).eng = s.eng := rfl

@[simp] theorem State.bump64_eng (s : State) (p : Page) (o n : Nat) : (s.bump64 p o n).eng = s.eng := rfl

@[simp] theorem State.lastSat_eng (s : State) (g : Page) (p : Pass) (scale : Nat) : (s.lastSat g p scale).eng = s.eng := rfl

theorem Reports.eng_eq (h : Reports b s) : s.eng = b.eng := by obtain ⟨_, _, _, _, rfl⟩ := h; rfl

@[simp] theorem State.setInt_eng (s : State) (p : Page) (n : Nat) : (s.setInt p n).eng = s.eng := (State.setInt_reports (Reports.refl s) p n).eng_eq

@[simp] theorem State.raise_eng (s : State) (p : Page) (c : Cause) (addr : Option Nat) (info : Nat) : (s.raise p c addr info).eng = s.eng :=
  (State.raise_reports (Reports.refl s) p c addr info).eng_eq

@[simp] theorem State.putBytes_eng (l : List Byte) : ∀ (s : State) (a : Nat), (s.putBytes a l).eng = s.eng := by
  induction l with
  | nil => exact fun _ _ => rfl
  | cons x r ih => exact fun s a => ih _ (a + 1)

@[simp] theorem State.highWater_eng (s : State) (a n : Nat) : (s.highWater a n).eng = s.eng := by
  unfold State.highWater
  dsimp only
  split
  · split
    · split
      · split
        · exact State.setInt_eng _ _ _
        · rfl
      · rfl
    · rfl
  · rfl

@[simp] theorem State.write_eng (s : State) (a : Nat) (l : List Byte) : (s.write a l).eng = s.eng := by
  unfold State.write
  dsimp only
  split
  · exact State.putBytes_eng l s a
  · split
    · exact (State.foldl_eng (fun t g => State.highWater_eng t _ _) _ _).trans (State.putBytes_eng l s a)
    · exact (State.highWater_eng _ _ _).trans (State.putBytes_eng l s a)

@[simp] theorem State.markRemap_eng (s : State) (a : Nat) : (s.markRemap a).eng = s.eng := by
  unfold State.markRemap
  dsimp only
  split
  · split
    · split <;> rfl
    · rfl
  · rfl

/-- Scheduled data stored in memory: the engines are as they were. -/
@[simp] theorem State.store_eng (s : State) (a : Nat) (l : List Byte) : (s.store a l).eng = s.eng := by
  unfold State.store
  dsimp only
  split
  · exact (State.foldl_eng (fun t g => State.markRemap_eng t _) _ _).trans (State.write_eng s a l)
  · exact State.write_eng s a l

/-! ## The issue of a word -/

/-- A word that is free to issue takes effect, and what operations in flight read in its cycle follows, where the effect leaves the frame as it is. -/
theorem State.issue_of_mayIssue {w : SWord} {kind op info : Nat} {blame : State → Blame} {check : State → WordCtx → RawWord → List Finding}
    {effect : State → State} (h : (s.atWord w).MayIssue w kind op check) (hf : (effect (s.atWord w)).eng.frame = (s.atWord w).eng.frame) :
    s.issue w kind op info blame check effect = (effect (s.atWord w)).reads := by
  obtain ⟨hcan, hdie, hfind⟩ := h
  have hissuing : (effect (s.atWord w)).issuing = true := by
    simp only [State.canIssue, Bool.and_eq_true] at hcan
    rw [State.issuing, hf]
    exact hcan.1.1
  have hfree : ((s.atWord w).canIssue w.stamp.toNat && (s.atWord w).runsOn w.die) = true := by rw [hcan, hdie]; rfl
  calc s.issue w kind op info blame check effect
      = if (effect (s.atWord w)).issuing then (effect (s.atWord w)).reads else effect (s.atWord w) := by
        refine (if_pos hfree).trans ?_
        dsimp only
        rw [← State.atWord, hfind]
    _ = (effect (s.atWord w)).reads := if_pos hissuing

end Sys2Proof.Machine
end

section
/-!
SUPPORT. The commit of a pass (R159 to R164) by its stages, the start of a replay, and the counter's run to the commit of a pass that is alone in flight.
-/
namespace Sys2Proof.Machine

variable {s : State} {p : Pass}

/-! ## A pass that commits -/

/-- A pass out of flight, with its rows in memory. -/
def State.landed (s : State) (p : Pass) : State :=
  ({ s with eng := { s.eng with passes := s.eng.passes.filter fun q => !(q.die == p.die && q.logical == p.logical && q.stamp == p.stamp) } } : State).store
    (p.rowAddr 0) p.out

/-- The pages that count a landed pass. -/
def State.landedPages (s : State) (p : Pass) : List Page := (s.landed p).tillerPages p.die p.phys p.logical

/-- A landed pass counted by the pages of its Tillers. -/
def State.landedCounted (s : State) (p : Pass) : State :=
  (s.landedPages p).foldl (fun t g => t.bump64 g Reg.TLR_PASS_CNT_LO 1) (s.landed p)

/-- The tile descriptor as a pass leaves it (R144): a sum pass over an accumulator tile of INT32 sets SCALE and counts its replay. -/
def State.described (s : State) (p : Pass) : State :=
  let w := passArgs p.args
  if isSumPass p.op ∧ w.acc = 2 then
    let reps := if p.op = 2 then 0 else s.tdesc p.die p.logical w.gran / 256
    s.setTdesc p.die p.logical w.gran (p.scale + 256 * if p.replay then min (reps + 1) 255 else reps)
  else s

/-- A saturation at the scale limit in row r, counted and raised (R164). -/
def State.satLimited (s : State) (p : Pass) (pages : List Page) (r : Nat) : State :=
  (pages.foldl (fun t g => t.lastSat g p 30) (s.bump (Pg.tlr p.die p.phys) Reg.TLR_SATLIM_CNT 1)).raise (Pg.tlr p.die p.phys) .SAT_LIMIT
    (some (p.rowAddr r)) (tlrInfo (passArgs p.args).gran r p.logical)

theorem State.commitPass_of_clean (h : p.satRow = none) : s.commitPass p = (s.landedCounted p).described p := by
  unfold State.commitPass
  rw [h]
  rfl

theorem State.commitPass_of_saturated {r : Nat} (h : p.satRow = some r) :
    s.commitPass p = ((s.landedCounted p).described p).satLimited p (s.landedPages p) r := by
  unfold State.commitPass
  rw [h]
  rfl

theorem State.landedCounted_eng (s : State) (p : Pass) : (s.landedCounted p).eng = (s.landed p).eng :=
  State.foldl_eng (fun t g => State.bump64_eng t g _ 1) _ _

theorem State.landedCounted_mem (s : State) (p : Pass) : (s.landedCounted p).mem = (s.landed p).mem :=
  List.foldlRecOn (motive := fun t : State => t.mem = (s.landed p).mem) _ _ rfl fun _ ht _ _ => ht

theorem State.described_regs (s : State) (p : Pass) : (s.described p).regs = s.regs := by unfold State.described; dsimp only; split <;> rfl
theorem State.described_mem (s : State) (p : Pass) : (s.described p).mem = s.mem := by unfold State.described; dsimp only; split <;> rfl

/-- Of the engines the descriptors alone change with a described pass. -/
theorem State.described_eng (s : State) (p : Pass) : ∃ t, (s.described p).eng = { s.eng with tdesc := t } := by
  unfold State.described
  dsimp only
  split
  · exact ⟨_, rfl⟩
  · exact ⟨s.eng.tdesc, rfl⟩

theorem State.described_passes (s : State) (p : Pass) : (s.described p).eng.passes = s.eng.passes := by
  obtain ⟨t, ht⟩ := s.described_eng p
  rw [ht]

theorem State.satLimited_eng (s : State) (p : Pass) (pages : List Page) (r : Nat) : (s.satLimited p pages r).eng = s.eng :=
  (State.raise_eng _ _ _ _ _).trans (State.foldl_eng (fun t g => State.lastSat_eng t g p 30) _ _)

/-- Of the engines a commit changes the passes in flight and the descriptors. -/
theorem State.commitPass_eng (s : State) (p : Pass) : ∃ t, (s.commitPass p).eng =
    { s.eng with passes := s.eng.passes.filter fun q => !(q.die == p.die && q.logical == p.logical && q.stamp == p.stamp), tdesc := t } := by
  obtain ⟨t, ht⟩ := (s.landedCounted p).described_eng p
  rw [State.landedCounted_eng, State.landed, State.store_eng] at ht
  refine ⟨t, Eq.trans ?_ ht⟩
  cases h : p.satRow with
  | none => rw [State.commitPass_of_clean h]
  | some r => rw [State.commitPass_of_saturated h, State.satLimited_eng]

/-- A sum pass over an accumulator tile of INT32 leaves its scale in the granule's SCALE. -/
theorem State.tdesc_described (hop : isSumPass p.op = true) (hacc : (passArgs p.args).acc = 2) (hwf : Sparse.wf (fun _ => 0) s.eng.tdesc = true)
    (hscale : p.scale < 32) : (s.described p).tdesc p.die p.logical (passArgs p.args).gran % 32 = p.scale := by
  unfold State.described
  dsimp only
  rw [if_pos ⟨hop, hacc⟩, State.tdesc, State.setTdesc, Sparse.get_put_same _ hwf]
  omega

/-! ## A replay that starts -/

theorem insertFreeze_ne_nil (x : Freeze) (l : List Freeze) : insertFreeze x l ≠ [] := by
  cases l with
  | nil => exact List.cons_ne_nil _ _
  | cons y r =>
    rw [insertFreeze]
    split <;> exact List.cons_ne_nil _ _

theorem State.startReplay_frozen (s : State) (p : Pass) : (s.startReplay p).eng.frame.frozen ≠ [] := insertFreeze_ne_nil _ _

/-- Pass q as the replay of pass p leaves it: squashed where it issued on p's Tiller before p's commit, and marked where it is p itself. -/
def State.replayOf (s : State) (p q : Pass) : Pass :=
  if q.die == p.die && q.phys == p.phys && decide (p.stamp ≤ q.stamp) && decide (q.stamp < p.commitAt) then
    let r := q.reset (s.wall + 8 + (q.stamp - p.stamp))
    if r.stamp = p.stamp then { r with replay := true, scale := p.scale + 2 } else r
  else q

theorem State.startReplay_passes (s : State) (p : Pass) : (s.startReplay p).eng.passes = s.eng.passes.map (s.replayOf p) := by
  unfold State.startReplay
  dsimp only [State.setFrame]
  rw [State.foldl_eng]
  · rfl
  · exact fun t g => (State.setInt_eng _ g 1).trans (State.lastSat_eng _ g p _)

/-- The saturating pass itself: it re-issues 8 cycles on, as a replay, with a scale greater by 2. -/
theorem State.replayOf_self (s : State) (p : Pass) : s.replayOf p p = { p.reset (s.wall + 8) with replay := true, scale := p.scale + 2 } := by
  have hin : p.stamp < p.commitAt := by unfold Pass.commitAt; omega
  simp [State.replayOf, hin, Pass.reset]

/-! ## The counter runs to the commit of a lone pass -/

/-- Pass p is alone in flight with its rows read, in a frame that issues and that nothing holds, and nothing else is to happen. -/
structure State.Awaits (s : State) (p : Pass) : Prop where
  issuing : s.issuing = true
  frozen : s.eng.frame.frozen = []
  passes : s.eng.passes = [p]
  read : p.step = (passArgs p.args).m + 128
  bbufs : s.eng.bbufs = []
  chains : s.eng.chains = []
  moves : s.eng.moves = []
  culms : s.eng.culms = []
  due : s.eng.due = []
  links : ∀ x ∈ s.links, x.resume = none

/-- PASS_COMMIT advances the counter to the commit cycle of the oldest pass (R159). -/
theorem exec_passCommit {d : Fin 4} {l : Fin 80} (h : s.begin.oldestPass d l = some p) : exec (.passCommit d l) s = .next (s.begin.advance p.commitAt) := by
  unfold exec execPassCommit
  dsimp only
  rw [h]

theorem State.Awaits.frozen_eq (h : s.Awaits p) : s.frozen = false := by simp [State.frozen, h.frozen]

theorem State.Awaits.begin (h : s.Awaits p) : s.begin.Awaits p :=
  ⟨h.issuing, h.frozen, h.passes, h.read, h.bbufs, h.chains, h.moves, h.culms, h.due, h.links⟩

theorem State.Awaits.countTo (h : s.Awaits p) (c : Nat) : (s.countTo c).Awaits p :=
  ⟨h.issuing, h.frozen, h.passes, h.read, h.bbufs, h.chains, h.moves, h.culms, h.due, h.links⟩

theorem State.Awaits.nextEvent (h : s.Awaits p) (hc : s.eng.frame.count < p.commitAt) : s.nextEvent = some p.commitAt := by
  have hlinks : s.links.filterMap (fun l => if l.resume.isSome then l.nextBooked s.eng.frame.count else none) = [] :=
    List.filterMap_eq_nil_iff.2 fun l hl => by rw [h.links l hl]; rfl
  simp [State.nextEvent, h.passes, h.bbufs, h.chains, h.moves, h.culms, h.due, h.read, hlinks, nextAbove, Nat.not_le.2 hc]

/-- No link holds the counter where none has fallen. -/
theorem State.degraded_of_whole (h : ∀ x ∈ s.links, x.resume = none) : s.degraded = s := by
  have hlink (n : Nat) : (s.link n).resume = none := by
    rw [State.link, List.getD_eq_getElem?_getD]
    cases hn : s.links[n]? with
    | none => rfl
    | some l => exact h l (List.mem_of_getElem? hn)
  unfold State.degraded
  extract_lets c
  refine List.foldlRecOn (motive := fun t => t = s) (List.range 4) _ rfl fun t ht n _ => ?_
  rw [ht]
  simp [hlink]

theorem State.settlePart_of_nothing_due (h : s.eng.due = []) (reads : Bool) : s.settlePart reads = s := by
  have hs : { s with eng := { s.eng with due := [] } } = s := by rw [← h]
  simp only [State.settlePart, h, List.filter_nil, List.foldl_nil, List.map_nil]
  exact hs

/-- With nothing in flight a cycle reads nothing. -/
theorem State.reads_of_nothing_in_flight (hp : s.eng.passes = []) (hb : s.eng.bbufs = []) (hc : s.eng.chains = []) (hm : s.eng.moves = [])
    (hu : s.eng.culms = []) : s.reads = s := by
  have hpasses : s.readPasses = s := by unfold State.readPasses; dsimp only; rw [hp, List.map_nil, ← hp]
  have hloads : s.readLoads = s := by unfold State.readLoads; rw [hb, List.map_nil, ← hb]
  have hchains : s.readChains = s := by unfold State.readChains; rw [hc, List.foldl_nil, ← hc]
  have hmoves : s.readMoves = s := by unfold State.readMoves; rw [hm, List.foldl_nil, ← hm]
  have hculms : s.readCulms = s := by unfold State.readCulms; dsimp only; rw [hu, List.filter_nil, List.filter_nil, List.foldl_nil, ← hu]
  rw [State.reads, hpasses, hloads, hchains, hmoves, hculms]

/-- The engines after the commit of a lone pass: it is out of flight. -/
theorem State.Awaits.commitPass_eng (h : s.Awaits p) : ∃ t, (s.commitPass p).eng = { s.eng with passes := [], tdesc := t } := by
  obtain ⟨t, ht⟩ := s.commitPass_eng p
  rw [h.passes] at ht
  exact ⟨t, by simpa using ht⟩

/-- At its commit cycle a lone pass that does not begin a replay commits, and nothing is left to do. -/
theorem State.Awaits.cycleWork (h : s.Awaits p) (hc : s.eng.frame.count = p.commitAt) (hr : p.mustReplay = false) : s.cycleWork = s.commitPass p := by
  have hcommits : s.commits = s.commitPass p := by simp [State.commits, h.passes, hc, hr]
  obtain ⟨t, ht⟩ := h.commitPass_eng
  have hfrozen : (s.commitPass p).frozen = false := by simp [State.frozen, ht, h.frozen]
  have hissuing : (s.commitPass p).issuing = true := by rw [State.issuing, ht]; exact h.issuing
  have hsettled : (s.commitPass p).settleReads = s.commitPass p := by
    rw [State.settleReads, if_pos hissuing]
    exact State.settlePart_of_nothing_due (by rw [ht]; exact h.due) true
  have hreads : (s.commitPass p).reads = s.commitPass p := State.reads_of_nothing_in_flight (by rw [ht]) (by rw [ht]; exact h.bbufs)
    (by rw [ht]; exact h.chains) (by rw [ht]; exact h.moves) (by rw [ht]; exact h.culms)
  simp [State.cycleWork, State.degraded_of_whole h.links, State.settlePart_of_nothing_due h.due, h.issuing, hcommits, hfrozen, hsettled, hreads]

theorem State.runTo_of_reached {n target : Nat} (h : target ≤ s.eng.frame.count) : s.runTo n target = s := by
  cases n with
  | zero => rfl
  | succ n => exact if_pos (.inr (.inr h))

theorem State.reach_of_reached (n : Nat) (hf : s.frozen = false) : s.reach false n s.eng.frame.count = s := by
  cases n with
  | zero => rfl
  | succ n => simp [State.reach, hf]

/-- The counter advances to the commit cycle of a lone pass that does not begin a replay: the pass commits there. -/
theorem State.Awaits.advance (h : s.Awaits p) (hc : s.eng.frame.count < p.commitAt) (hr : p.mustReplay = false) :
    s.advance p.commitAt = (s.countTo p.commitAt).commitPass p := by
  have hv := h.countTo p.commitAt
  obtain ⟨t, ht⟩ := hv.commitPass_eng
  have hcount : ((s.countTo p.commitAt).commitPass p).eng.frame.count = p.commitAt := by rw [ht]; rfl
  have hfrozen : ((s.countTo p.commitAt).commitPass p).frozen = false := by simp [State.frozen, ht, hv.frozen]
  have hrun : s.runTo (p.commitAt - s.eng.frame.count + 1) p.commitAt = (s.countTo p.commitAt).commitPass p := by
    rw [State.runTo, if_neg (by simp [h.frozen_eq, h.issuing, hc]), h.nextEvent hc]
    dsimp only
    rw [if_pos le_rfl, hv.cycleWork rfl hr, State.runTo_of_reached hcount.ge]
  have hreach := State.reach_of_reached (2 * (p.commitAt - s.eng.frame.count) + 1) hfrozen
  rw [hcount] at hreach
  rw [State.advance, State.reach, if_neg (by simp [h.issuing]; omega), if_neg (by simp [h.frozen_eq]), if_neg (by omega), hrun, hreach]

/-! A state that meets the hypotheses: an image frame at stamp 0 with one pass of 16 rows, all read. -/

def lonePass : Pass :=
  { die := 0, logical := 0, phys := 0, op := 1, stamp := 0, args := 0, word := 0, scale := 0, btile := [], bscale := [], step := 144, arows := [], out := [],
    satRow := none, replay := false, redo := none, dis := none }

def loneState : State :=
  { State.reset with eng := { Engines.fresh with frame := { Frame.fresh with kind := .image }, passes := [lonePass] } }

theorem loneState_awaits : loneState.Awaits lonePass := ⟨rfl, rfl, rfl, by decide, rfl, rfl, rfl, rfl, rfl, by decide⟩

/-- Its pass commits at cycle 160. -/
theorem loneState_advance : loneState.advance 160 = (loneState.countTo 160).commitPass lonePass :=
  loneState_awaits.advance (by decide) (by decide)

end Sys2Proof.Machine
end

section
/-!
SUPPORT. Tiller words where they are free to issue (R150 to R155): what a pass word, a squashed pass and a LOAD_B word do.
-/
namespace Sys2Proof.Machine

variable {s : State} {w : SWord} {op : Nat} {dis : Option (Fin 256)}

/-- The pass that a pass word brings into flight with a scale, by the state at its issue. -/
def State.passAt (s : State) (w : SWord) (op : Nat) (dis : Option (Fin 256)) (scale : Nat) : Pass :=
  let p := passArgs w.args
  let d := w.die.val
  let l := w.unit.toNat
  let b := s.bbuf d l p.bsel
  { die := d, logical := l, phys := (s.physOf d l).getD l, op := op, stamp := w.stamp.toNat, args := w.args, word := s.wordAddr d w.idx.toNat,
    scale := scale, btile := if isSumPass op then b.data else [], bscale := if isSumPass op then b.scales else [], step := 0, arows := [], out := [],
    satRow := none, replay := false, redo := none, dis := dis.map fun r => r.val }

/-- A pass in flight after the others. -/
def State.fly (s : State) (p : Pass) : State := { s with eng := { s.eng with passes := s.eng.passes ++ [p] } }

/-- The disagreement of a Guarded pair in row r of a pass, set to fall due at the row's cycle (R571, R572). -/
def State.disagree (s : State) (p : Pass) (r : Nat) : State :=
  s.later (p.stamp + r + 144) (.abort (Pg.tlr p.die p.phys) (errCode .GUARD_MISMATCH .tlr) (some (p.rowAddr r)) (tlrInfo (passArgs p.args).gran r p.logical)
    (some (guardWord 1 p.die p.phys ((s.physOf p.die (p.logical + 40)).getD (p.logical + 40)))))

/-- A pass word squashed by a scale out of range: counted by its Tillers, and SCALE_RANGE raised (R165). -/
def State.squash (s : State) (w : SWord) : State :=
  let p := passArgs w.args
  let d := w.die.val
  let l := w.unit.toNat
  let phys := (s.physOf d l).getD l
  ((s.tillerPages d phys l).foldl (fun (t : State) g => t.bump g Reg.TLR_SQUASH_CNT 1) s).raise (Pg.tlr d phys) .SCALE_RANGE
    (some (spadBase d + accOff l p)) (tlrInfo p.gran 0 l)

theorem State.squash_eng (s : State) (w : SWord) : (s.squash w).eng = s.eng :=
  (State.raise_eng _ _ _ _ _).trans (State.foldl_eng (fun t g => State.bump_eng t g _ 1) _ _)

theorem State.startPass_of_none (h : s.passScale w.die.val w.unit.toNat op (passArgs w.args) = none) : s.startPass w op dis = s.squash w := by
  unfold State.startPass
  dsimp only
  rw [h]
  rfl

section
variable {scale : Nat}

/-- With a scale the pass enters flight. -/
theorem State.startPass_agreeing (h : s.passScale w.die.val w.unit.toNat op (passArgs w.args) = some scale) :
    s.startPass w op none = s.fly (s.passAt w op none scale) := by
  unfold State.startPass
  dsimp only
  rw [h]
  rfl

/-- With a scale the pass enters flight, and in Guarded mode a disagreement in one of its rows falls due. -/
theorem State.startPass_disagreeing (r : Fin 256) (h : s.passScale w.die.val w.unit.toNat op (passArgs w.args) = some scale) :
    s.startPass w op (some r) = if s.prot = 1 ∧ r.val < (passArgs w.args).m
      then (s.fly (s.passAt w op (some r) scale)).disagree (s.passAt w op (some r) scale) r.val
      else s.fly (s.passAt w op (some r) scale) := by
  unfold State.startPass
  dsimp only
  rw [h]
  rfl

end

/-- A pass word leaves the frame as it is. -/
theorem State.startPass_frame (s : State) (w : SWord) (op : Nat) (dis : Option (Fin 256)) : (s.startPass w op dis).eng.frame = s.eng.frame := by
  cases h : s.passScale w.die.val w.unit.toNat op (passArgs w.args) with
  | none => rw [State.startPass_of_none h, State.squash_eng]
  | some scale =>
    cases dis with
    | none => rw [State.startPass_agreeing h]; rfl
    | some r =>
      rw [State.startPass_disagreeing r h]
      split <;> rfl

theorem State.passWord_of_mayIssue (h : (s.atWord w).MayIssue w 1 op State.passCheck) : s.passWord w op dis = ((s.atWord w).startPass w op dis).reads :=
  State.issue_of_mayIssue h ((s.atWord w).startPass_frame w op dis)

/-- The seven pass words are the pass of their OP (R151). -/
theorem exec_passWords (s : State) (w : SWord) (dis : Option (Fin 256)) : ∀ q ∈ [(1, Instr.pass w dis), (2, Instr.passInit w dis), (3, Instr.passMax w dis),
      (4, Instr.passMin w dis), (5, Instr.passMaxInit w dis), (6, Instr.passMinInit w dis), (7, Instr.passAdopt w dis)],
    exec q.2 s = .next (s.passWord w q.1 dis) := by
  simp only [List.forall_mem_cons]
  exact ⟨rfl, rfl, rfl, rfl, rfl, rfl, rfl, fun _ h => absurd h List.not_mem_nil⟩

theorem exec_loadB_of_mayIssue (h : (s.atWord w).MayIssue w 1 8 State.loadBCheck) : exec (.loadB w) s = .next ((s.atWord w).loadB w).reads :=
  congrArg Host.Outcome.next (State.issue_of_mayIssue h rfl)

/-- A B-tile load whose next read of the tile falls in the present cycle (R154). -/
theorem State.readLoad_tile {b : BBuf} (hc : b.stamp + b.step = s.eng.frame.count) (h : b.step < 32) :
    s.readLoad b = { b with data := b.data ++ s.bytesAt (b.off + 512 * b.step) 512, step := b.step + 1 } := by
  rw [State.readLoad, if_neg (not_not.2 hc), if_pos h]

/-- A B-tile load whose next read of the scale block falls in the present cycle (R154). -/
theorem State.readLoad_scales {b : BBuf} {a : Nat} (hc : b.stamp + b.step = s.eng.frame.count) (ha : b.soff = some a) (h : 32 ≤ b.step) (h' : b.step < 34) :
    s.readLoad b = { b with scales := b.scales ++ s.bytesAt (a + 512 * (b.step - 32)) 512, step := b.step + 1 } := by
  rw [State.readLoad, if_neg (not_not.2 hc), if_neg (Nat.not_lt.2 h), ha]
  exact if_pos h'

end Sys2Proof.Machine
end

section
/-!
SUPPORT. The obligations of the Tiller matrix engine (03_tiller_matrix_engine), settled.
-/
namespace Sys2Proof.Machine

/-- Settles O11: a lone pass commits where the counter comes to its commit cycle (`Awaits.advance`); a replay keeps the pass with a greater scale
(`startReplay_passes`, `replayOf_self`); a clean commit is its stages (`commitPass_of_clean`). -/
theorem passCommits : Obligations.PassCommits := by
  refine ⟨fun s d l p hp => ?oldest, fun s p r hp _ _ _ => ?replays, fun s p _ hsat => ?clean⟩
  case oldest =>
    have hadvance := exec_passCommit hp
    refine ⟨rfl, hadvance, fun hi hf hc hps hst hb hch hm hu hd hl => ?_⟩
    have hw : s.Awaits p := ⟨hi, hf, hps, hst, hb, hch, hm, hu, hd, hl⟩
    have hcommit (hr : p.mustReplay = false) : exec (.passCommit d l) s = .next ((s.begin.countTo p.commitAt).commitPass p) :=
      hadvance.trans (congrArg Host.Outcome.next (hw.begin.advance hc hr))
    refine ⟨fun hsat => hcommit (by simp [Pass.mustReplay, hsat]), fun r hsat h => hcommit ?_⟩
    rcases h with h | h
    · simp [Pass.mustReplay, h]
    · simp [Pass.mustReplay, Nat.not_lt.2 h]
  case replays =>
    refine ⟨s.startReplay_frozen p, s.replayOf p p, ?_, ?_⟩
    · rw [State.startReplay_passes]
      exact List.mem_map_of_mem hp
    · rw [State.replayOf_self]
      exact ⟨rfl, rfl, rfl, rfl⟩
  case clean =>
    intro w v x
    have hx : x = (s.landedCounted p).described p := State.commitPass_of_clean hsat
    refine ⟨?_, ?_, ?_, fun hop hacc hwf hscale => ?_⟩
    · rw [hx, State.described_regs]
      rfl
    · rw [hx, State.described_mem]
      exact s.landedCounted_mem p
    · rw [hx, State.described_passes, State.landedCounted_eng]
      rfl
    · rw [hx]
      refine State.tdesc_described hop hacc ?_ hscale
      rw [State.landedCounted_eng, State.landed, State.store_eng]
      exact hwf

/-- Settles O9: a pass word that is free to issue is `startPass` at its issue, which squashes it without a scale (`startPass_of_none`) and brings it into
flight with one (`startPass_agreeing`, `startPass_disagreeing`). -/
theorem passWords : Obligations.PassWords := by
  intro s w dis q hq u p l d phys pg hmay
  have hexec : exec q.2 s = .next (u.startPass w q.1 dis).reads :=
    (exec_passWords s w dis q hq).trans (congrArg Host.Outcome.next (State.passWord_of_mayIssue hmay))
  refine ⟨fun scale hscale => ?flies, fun hnone => ?squashed⟩
  case flies =>
    rw [hexec]
    cases dis with
    | none => rw [State.startPass_agreeing hscale]; rfl
    | some r =>
      rw [State.startPass_disagreeing r hscale]
      exact congrArg Host.Outcome.next (apply_ite State.reads _ _ _)
  case squashed =>
    rw [hexec, State.startPass_of_none hnone]
    rfl

/-- Settles O10: a LOAD_B that is free to issue replaces its buffer (`exec_loadB_of_mayIssue`), which then reads tile and scales in turn (`readLoad_tile`,
`readLoad_scales`). -/
theorem loadBWord : Obligations.LoadBWord :=
  fun _ => ⟨fun _ h => exec_loadB_of_mayIssue h, fun _ hc => ⟨State.readLoad_tile hc, fun _ => State.readLoad_scales hc⟩⟩

end Sys2Proof.Machine
end

section
/-!
SUPPORT. Scalar registers (R259): what a 64-bit register pair and a scalar register read after a write.
-/
namespace Sys2Proof.Machine

variable {s : State} {p q : Page}

/-! ## 64-bit register pairs -/

theorem State.set64_regs_wf (h : Regs.wf s = true) (o v : Nat) : Regs.wf (s.set64 p o v) = true := State.wrP_regs_wf (State.wrP_regs_wf h _ _) _ _

theorem State.num64_lt (s : State) (p : Page) (o : Nat) : s.num64 p o < 2 ^ 64 := by
  have hlo := (s.rdP p o).isLt
  have hhi := (s.rdP p (o + 4)).isLt
  simp only [State.num64, State.num]
  omega

/-- A pair reads as the low 64 bits of what it was set to. -/
theorem State.num64_set64_same (h : Regs.wf s = true) (o v : Nat) : (s.set64 p o v).num64 p o = v % 2 ^ 64 := by
  have hlo : (s.set64 p o v).rdP p o = BitVec.ofNat 32 v :=
    (State.rdP_wrP_other (State.wrP_regs_wf h _ _) _ (by omega)).trans (State.rdP_wrP_same h _ _)
  have hhi : (s.set64 p o v).rdP p (o + 4) = BitVec.ofNat 32 (v / 2 ^ 32) := State.rdP_wrP_same (State.wrP_regs_wf h _ _) _ _
  rw [State.num64, State.num, State.num, hlo, hhi, BitVec.toNat_ofNat, BitVec.toNat_ofNat]
  omega

/-- A word that is in neither half of a pair reads as before the pair was set. -/
theorem State.rd_set64_other (h : Regs.wf s = true) {o x : Nat} (v : Nat) (hlo : x ≠ p.base + o) (hhi : x ≠ p.base + (o + 4)) :
    (s.set64 p o v).rd x = s.rd x :=
  (State.rd_wrP_other (State.wrP_regs_wf h _ _) _ hhi).trans (State.rd_wrP_other h _ hlo)

/-- A pair that shares no word with the one that was set reads as before. -/
theorem State.num64_set64_other (h : Regs.wf s = true) {o x : Nat} (v : Nat) (hx : q.base + x + 4 < p.base + o ∨ p.base + o + 4 < q.base + x) :
    (s.set64 p o v).num64 q x = s.num64 q x := by
  have hlo : (s.set64 p o v).rdP q x = s.rdP q x := State.rd_set64_other h v (by omega) (by omega)
  have hhi : (s.set64 p o v).rdP q (x + 4) = s.rdP q (x + 4) := State.rd_set64_other h v (by omega) (by omega)
  rw [State.num64, State.num, State.num, hlo, hhi, State.num64, State.num, State.num]

/-! ## Scalar registers -/

/-- A scalar register that is no device value is its pair of the die's RCH page. -/
theorem State.sreg_of_plain {n : Nat} (h0 : n ≠ 0) (hn : n < 248) (d : Nat) : s.sreg d n = s.num64 (Pg.rch d) (Reg.RCH_SRn_LO + 8 * n) := by
  rw [State.sreg, if_neg h0, if_neg (by omega), if_neg (by omega), if_neg (by omega), if_neg (by omega), if_neg (by omega)]

theorem State.sreg_of_reserved {n : Nat} (h : 252 ≤ n) (d : Nat) : s.sreg d n = 0 := by
  rw [State.sreg, if_neg (by omega), if_neg (by omega), if_neg (by omega), if_neg (by omega), if_neg (by omega), if_pos h]

theorem State.setSreg_of_readOnly {n : Nat} (h : n = 0 ∨ 248 ≤ n) (d v : Nat) : s.setSreg d n v = s := if_pos h

theorem State.setSreg_of_plain {n : Nat} (h0 : n ≠ 0) (hn : n < 248) (d v : Nat) : s.setSreg d n v = s.set64 (Pg.rch d) (Reg.RCH_SRn_LO + 8 * n) v :=
  if_neg (by omega)

theorem Pg.rch_base (d : Nat) : (Pg.rch d).base = 0x1000000 + d * 0x800000 := rfl

/-- What a scalar register's reading rests on. -/
theorem State.sreg_congr {t : State} {d n : Nat} (he : t.eng = s.eng) (hr : t.running = s.running) (hf : t.frameNum = s.frameNum)
    (hp : n ≠ 0 → n < 248 → t.num64 (Pg.rch d) (Reg.RCH_SRn_LO + 8 * n) = s.num64 (Pg.rch d) (Reg.RCH_SRn_LO + 8 * n)) : t.sreg d n = s.sreg d n := by
  simp only [State.sreg, he, hr, hf]
  split_ifs
  any_goals rfl
  exact hp ‹_› (by omega)

/-- A pair of an RCH page that is set leaves every scalar register that it shares no word with. -/
theorem State.sreg_set64_other (h : Regs.wf s = true) {d e o m : Nat} (v : Nat)
    (hm : m ≠ 0 → m < 248 → (Pg.rch e).base + (Reg.RCH_SRn_LO + 8 * m) + 4 < (Pg.rch d).base + o
      ∨ (Pg.rch d).base + o + 4 < (Pg.rch e).base + (Reg.RCH_SRn_LO + 8 * m)) :
    (s.set64 (Pg.rch d) o v).sreg e m = s.sreg e m := by
  have hhub : Pg.hub.base + Reg.HUB_FRAME_NUM_LO + 4 = 0x114 := rfl
  have hframe : (s.set64 (Pg.rch d) o v).frameNum = s.frameNum := State.num64_set64_other h v (.inl (by rw [hhub, Pg.rch_base]; omega))
  exact State.sreg_congr rfl rfl hframe fun h0 hn => State.num64_set64_other h v (hm h0 hn)

theorem State.sreg_setSreg_same (h : Regs.wf s = true) {n : Nat} (h0 : n ≠ 0) (hn : n < 248) (d v : Nat) : (s.setSreg d n v).sreg d n = v % 2 ^ 64 := by
  rw [State.setSreg_of_plain h0 hn, State.sreg_of_plain h0 hn, State.num64_set64_same h]

/-- A write of a scalar register leaves every other one, of every die. -/
theorem State.sreg_setSreg_other (h : Regs.wf s = true) {d e n m : Nat} (v : Nat) (hne : (e, m) ≠ (d, n)) : (s.setSreg d n v).sreg e m = s.sreg e m := by
  by_cases hro : n = 0 ∨ 248 ≤ n
  · rw [State.setSreg_of_readOnly hro]
  · rw [State.setSreg_of_plain (by omega) (by omega)]
    refine State.sreg_set64_other h v fun _ _ => ?_
    have hne' : e ≠ d ∨ m ≠ n := by rwa [Ne, Prod.mk.injEq, not_and_or] at hne
    simp only [Pg.rch_base, Reg.RCH_SRn_LO]
    omega

theorem State.setSreg_mem (s : State) (d n v : Nat) : (s.setSreg d n v).mem = s.mem := by
  unfold State.setSreg
  split <;> rfl

end Sys2Proof.Machine
end

section
/-!
SUPPORT. Rachis words where they are free to issue (R263 to R265): what a scalar operation, a load, a store and LDSCALE set to fall due.
-/
namespace Sys2Proof.Machine

variable {s : State} {w : SWord} {op : Nat}

/-! ## An operation counted -/

/-- The count of an operation leaves the scalar registers as they are. -/
theorem State.sreg_countOp (h : Regs.wf s = true) (w : SWord) (d n : Nat) : (s.countOp w).sreg d n = s.sreg d n := by
  refine State.sreg_set64_other h _ fun _ _ => ?_
  simp only [Pg.rch_base, Reg.RCH_SRn_LO, Reg.RCH_OP_CNT_LO]
  omega

theorem State.rachisAddr_countOp (h : Regs.wf s = true) (w : SWord) (d : Nat) (r : RachisArgs) :
    (s.countOp w).rachisAddr d r = (r.imm + s.sreg d r.sa) % 2 ^ 48 := by
  rw [State.rachisAddr, State.sreg_countOp h]

/-! ## Rachis words -/

/-- A Rachis word whose result falls due at issue + 4: the operation counted, and the result set to fall due. -/
def State.rachisDue (s : State) (w : SWord) (e : Effect) : State := ((s.countOp w).later (w.stamp.toNat + 4) e).reads

/-- A Rachis word that is free to issue counts its operation, and its result by the counted state falls due. -/
theorem State.rachis_of_mayIssue {f : State → Effect} {e : Effect} (h : (s.atWord w).MayIssue w 5 op State.rachisCheck)
    (he : f ((s.atWord w).countOp w) = e) : s.rachis w op (fun t => t.later (w.stamp.toNat + 4) (f t)) = (s.atWord w).rachisDue w e :=
  (State.issue_of_mayIssue h rfl).trans (he ▸ rfl)

/-- A scalar operation's result is that of its operands at issue. -/
theorem State.scalarOp_of_mayIssue (hwf : Regs.wf (s.atWord w) = true) (f : Nat → Nat → Nat → Nat)
    (h : (s.atWord w).MayIssue w 5 op State.rachisCheck) :
    let r := rachisArgs w.args
    s.scalarOp w op f = (s.atWord w).rachisDue w
      (.sreg w.die r.dst (f ((s.atWord w).sreg w.die r.sa) ((s.atWord w).sreg w.die r.sb) r.imm % 2 ^ 64)) :=
  State.rachis_of_mayIssue h (by simp only [State.sreg_countOp hwf])

/-- A load takes its bytes as they stand at issue. -/
theorem State.loadOp_of_mayIssue (hwf : Regs.wf (s.atWord w) = true) (h : (s.atWord w).MayIssue w 5 op State.rachisCheck) :
    let r := rachisArgs w.args
    s.loadOp w op = (s.atWord w).rachisDue w
      (.sreg w.die r.dst ((s.atWord w).natAt ((r.imm + (s.atWord w).sreg w.die r.sa) % 2 ^ 48) (accessSize op))) :=
  State.rachis_of_mayIssue h (by simp only [State.rachisAddr_countOp hwf]; rfl)

/-- A store takes its register as it stands at issue. -/
theorem State.storeOp_of_mayIssue (hwf : Regs.wf (s.atWord w) = true) (h : (s.atWord w).MayIssue w 5 op State.rachisCheck) :
    let r := rachisArgs w.args
    s.storeOp w op = (s.atWord w).rachisDue w
      (.bytes ((r.imm + (s.atWord w).sreg w.die r.sa) % 2 ^ 48) (leBytes (accessSize op) ((s.atWord w).sreg w.die r.sb))) :=
  State.rachis_of_mayIssue h (by simp only [State.rachisAddr_countOp hwf, State.sreg_countOp hwf])

/-! ## What a passed check says -/

theorem firstFinding_eq_none {l : List Finding} (h : firstFinding l = none) : l = [] := by
  cases l with
  | nil => rfl
  | cons f r =>
    simp only [firstFinding] at h
    split at h
    · split at h <;> cases h
    · cases h

theorem badWord_eq_nil {b : Bool} (h : badWord b = []) : b = false := by
  cases b with
  | false => rfl
  | true => cases h

/-- A word that is free to issue passes its own check. -/
theorem State.MayIssue.check_nil {kind : Nat} {check : State → WordCtx → RawWord → List Finding} (h : s.MayIssue w kind op check) :
    check s (s.issueCtx w.die) ⟨w.stamp.toNat, kind, w.unit.toNat, op, w.args⟩ = [] :=
  (List.append_eq_nil_iff.1 (firstFinding_eq_none h.2.2)).2

/-- The IMM of an LDSCALE that is free to issue has 15 bits (R263). -/
theorem State.MayIssue.ldscale_imm_lt (h : s.MayIssue w 5 0x17 State.rachisCheck) : (rachisArgs w.args).imm < 2 ^ 15 := by
  have hcheck := h.check_nil
  simp only [State.rachisCheck, List.append_eq_nil_iff] at hcheck
  obtain ⟨⟨⟨-, hrange⟩, -⟩, -⟩ := hcheck
  have hbad := badWord_eq_nil hrange
  simp only [beq_self_eq_true, Bool.true_and, Bool.or_eq_false_iff, decide_eq_false_iff_not] at hbad
  omega

/-- LDSCALE takes SCALE as it stands at issue, of the granule that IMM[14:0] names. -/
theorem exec_ldscale_of_mayIssue (h : (s.atWord w).MayIssue w 5 0x17 State.rachisCheck) :
    let r := rachisArgs w.args
    exec (.ldscale w) s = .next ((s.atWord w).rachisDue w
      (.sreg w.die r.dst ((s.atWord w).tdesc w.die (bits r.imm 14 8) (bits r.imm 7 0) % 32))) := by
  intro r
  have hlt : r.imm < 2 ^ 15 := h.ldscale_imm_lt
  have hlogical : bits r.imm 14 8 = r.imm / 256 := Nat.mod_eq_of_lt (by omega)
  have hgranule : bits r.imm 7 0 = r.imm % 256 := congrArg (· % 256) (Nat.div_one r.imm)
  rw [hlogical, hgranule]
  exact congrArg Host.Outcome.next (State.rachis_of_mayIssue h rfl)

/-! ## The integer results -/

/-- Every scalar register has 64 bits while the number of the running slot has (SR251). -/
theorem State.sreg_lt {d n : Nat} (hd : d < 4) (hslot : s.running.getD 0 < 2 ^ 64) : s.sreg d n < 2 ^ 64 := by
  unfold State.sreg
  split_ifs
  any_goals omega
  · exact s.num64_lt _ _
  · exact s.num64_lt _ _

/-- The ten integer words write what R263 says, on 64 bits, while the number of the running slot has 64 bits. -/
theorem exec_integerWords_of_slot (hwf : Regs.wf (s.atWord w) = true) (hslot : (s.atWord w).running.getD 0 < 2 ^ 64) :
    let r := rachisArgs w.args
    let a := BitVec.ofNat 64 ((s.atWord w).sreg w.die r.sa)
    let b := BitVec.ofNat 64 ((s.atWord w).sreg w.die r.sb)
    let i := BitVec.ofNat 64 r.imm
    ∀ q ∈ [(0x01, Instr.movi w, i), (0x02, .add w, a + b), (0x03, .addi w, a + i), (0x04, .sub w, a - b), (0x05, .mul w, a * b), (0x06, .and w, a &&& b),
        (0x07, .or w, a ||| b), (0x08, .xor w, a ^^^ b), (0x09, .shli w, a <<< (r.imm % 64)), (0x0A, .shri w, a >>> (r.imm % 64))],
      (s.atWord w).MayIssue w 5 q.1 State.rachisCheck → exec q.2.1 s = .next ((s.atWord w).rachisDue w (.sreg w.die r.dst q.2.2.toNat)) := by
  intro r
  have hword {n : Nat} {f : Nat → Nat → Nat → Nat} {v : BitVec 64}
      (hv : f ((s.atWord w).sreg w.die r.sa) ((s.atWord w).sreg w.die r.sb) r.imm % 2 ^ 64 = v.toNat) (h : (s.atWord w).MayIssue w 5 n State.rachisCheck) :
      Host.Outcome.next (s.scalarOp w n f) = (.next ((s.atWord w).rachisDue w (.sreg w.die r.dst v.toNat)) : Host.Outcome State Fault Refusal) :=
    congrArg Host.Outcome.next ((State.scalarOp_of_mayIssue hwf f h).trans (by rw [hv]))
  have ha : (s.atWord w).sreg w.die r.sa < 2 ^ 64 := State.sreg_lt w.die.isLt hslot
  have hb : (s.atWord w).sreg w.die r.sb < 2 ^ 64 := State.sreg_lt w.die.isLt hslot
  generalize (s.atWord w).sreg w.die r.sa = x at *
  generalize (s.atWord w).sreg w.die r.sb = y at *
  simp only [List.forall_mem_cons]
  refine ⟨hword ?movi, hword ?add, hword ?addi, hword ?sub, hword ?mul, hword ?and, hword ?or, hword ?xor, hword ?shli, hword ?shri,
    fun _ h => absurd h List.not_mem_nil⟩
  case movi => exact (BitVec.toNat_ofNat _ _).symm
  case add => simp
  case addi => simp
  case sub =>
    rw [BitVec.toNat_sub, BitVec.toNat_ofNat, BitVec.toNat_ofNat]
    omega
  case mul => simp [Nat.mul_mod]
  case and => exact Nat.and_mod_two_pow ..
  case or => exact Nat.or_mod_two_pow ..
  case xor => exact Nat.xor_mod_two_pow ..
  case shli => simp [Nat.shiftLeft_eq, Nat.mul_mod]
  case shri =>
    rw [BitVec.toNat_ushiftRight, BitVec.toNat_ofNat, Nat.mod_eq_of_lt ha, Nat.shiftRight_eq_div_pow]
    exact Nat.mod_eq_of_lt ((Nat.div_le_self ..).trans_lt ha)

/-! ## A slot whose number has more than 64 bits -/

/-- With nothing in flight, the result that falls due can be told from what is due. -/
theorem State.rachisDue_inj {e e' : Effect} (hp : s.eng.passes = []) (hb : s.eng.bbufs = []) (hc : s.eng.chains = []) (hm : s.eng.moves = [])
    (hu : s.eng.culms = []) (h : s.rachisDue w e = s.rachisDue w e') : e = e' := by
  have hreads (x : Effect) : s.rachisDue w x = (s.countOp w).later (w.stamp.toNat + 4) x := State.reads_of_nothing_in_flight hp hb hc hm hu
  rw [hreads, hreads] at h
  have hdue : s.eng.due ++ [Due.mk (w.stamp.toNat + 4) e] = s.eng.due ++ [Due.mk (w.stamp.toNat + 4) e'] := congrArg (fun t => t.eng.due) h
  simpa using hdue

/-- A slot of number 2^64 that holds an image for every die. -/
def wideSlot : Slot :=
  { num := 2 ^ 64, base := 0, len := 1048576, dieMask := 15, epoch := 0, band := 0, prot := 0, halfWidth := 0, fp16 := false, frameCount := 2, seqBound := 8,
    frameTable := 0, carryTable := 0, carryCount := 0, scalarTable := 0, scalarCount := 0, refuses := 0, runs := 0 }

/-- An image frame of that slot at stamp 0. -/
def wideSlotState : State :=
  { State.reset with slots := [wideSlot], running := some wideSlot.num,
                     eng := { Engines.fresh with frame := { Frame.fresh with kind := .image, slot := wideSlot.num } } }

/-- SHRI of SR251 by 1 into SR1, at stamp 0 of die 0. -/
def shriSlotWord : SWord := ⟨0, 0, 0, 0, BitVec.ofNat 88 (1 * 2 ^ 80 + 251 * 2 ^ 72 + 1)⟩

theorem wideSlotState_atWord : wideSlotState.atWord shriSlotWord = wideSlotState.begin := State.reach_of_reached (s := wideSlotState.begin) 2 rfl

theorem wideSlotState_wf : Regs.wf (wideSlotState.atWord shriSlotWord) = true := by
  rw [wideSlotState_atWord]
  decide +kernel

theorem wideSlotState_mayIssue : (wideSlotState.atWord shriSlotWord).MayIssue shriSlotWord 5 0x0A State.rachisCheck := by
  rw [wideSlotState_atWord]
  exact ⟨by decide +kernel, by decide +kernel, by decide +kernel⟩

/-- The model shifts the slot's whole number. -/
theorem exec_shri_wideSlotState :
    exec (.shri shriSlotWord) wideSlotState = .next ((wideSlotState.atWord shriSlotWord).rachisDue shriSlotWord (.sreg 0 1 (2 ^ 63))) := by
  have hdue := State.scalarOp_of_mayIssue wideSlotState_wf (fun a _ i => a / 2 ^ (i % 64)) wideSlotState_mayIssue
  refine congrArg Host.Outcome.next (hdue.trans (congrArg _ ?_))
  rw [wideSlotState_atWord]
  decide +kernel

end Sys2Proof.Machine
end

section
/-!
SUPPORT. Awn chains where they are free to issue (R230, R242, R257, R262, R571): a chain that enters flight, one without outputs, and one whose pair disagrees.
-/
namespace Sys2Proof.Machine

variable {s : State} {w : SWord} {words : List (BitVec 8 × BitVec 88)}

/-- An ESC exponent that leaves a chain without outputs (R242). -/
def escOut (e : Int) : Bool := decide (e < -64) || decide (63 < e)

/-- The chain that enters flight, by the state at its issue (R262). -/
def State.chainAt (s : State) (w : SWord) (words : List (BitVec 8 × BitVec 88)) (dis : Option (Nat × Nat)) : Chain :=
  let p := chainPlan words
  let d := w.die.val
  { die := d, unit := w.unit.toNat, stamp := w.stamp.toNat, words := words, scalars := p.stages.map fun st => s.sreg d st.sreg, exps := s.chainExps d p,
    thresh := p.outs.map fun o => if o.ten then s.bytesAt (spadBase d + o.toff) 16 else [], step := 0, walls := [], inputs := [], stream := [], dis := dis }

/-- The mismatch of a replay's header, set to fall due at issue + 8 (R257). -/
def State.headerMismatch (s : State) (w : SWord) (p : ChainPlan) : State :=
  let d := w.die.val
  let pg := Pg.awn d w.unit.toNat
  let t := w.stamp.toNat + 8
  ((s.later t (.count32 (pg.base + Reg.AWN_STREAM_ERR_CNT) 1)).later t (.int pg 1)).later t
    (.abort pg (errCode .STREAM_MISMATCH .awn) (some (spadBase d + p.head.soff)) (awnInfo 0 0xF 8) none)

/-- A chain in flight after the others, the header that it replays checked. -/
def State.flyChain (s : State) (w : SWord) (words : List (BitVec 8 × BitVec 88)) (dis : Option (Nat × Nat)) : State :=
  let p := chainPlan words
  let t : State := { s with eng := { s.eng with chains := s.eng.chains ++ [s.chainAt w words dis] } }
  if p.head.rnd = 3 ∧ !headerOk p (s.bytesAt (spadBase w.die.val + p.head.soff) 64) then t.headerMismatch w p else t

/-- The disagreement of a Guarded pair in chunk k of output o, set to fall due at the chunk's cycle (R571). -/
def State.chainDisagree (s : State) (w : SWord) (p : ChainPlan) (k o : Nat) (out : ChainOut) : State :=
  let d := w.die.val
  let u := w.unit.toNat
  s.later (w.stamp.toNat + k + p.delay) (.abort (Pg.awn d u) (errCode .GUARD_MISMATCH .awn) (some (chunkAddr d out k))
    (awnInfo (1 + p.head.nin + o) 0xF (k + p.delay)) (some (guardWord 2 d u (u + 8))))

/-- A chain without outputs: SCALE_RANGE raised, and its count and its end set to fall due when its results would have been visible (R242). -/
def State.squashChain (s : State) (w : SWord) (words : List (BitVec 8 × BitVec 88)) : State :=
  let p := chainPlan words
  let d := w.die.val
  let u := w.unit.toNat
  let v := s.raise (Pg.awn d u) .SCALE_RANGE none (awnInfo (1 + (s.chainExps d p).findIdx escOut) 0xF 0)
  let t := w.stamp.toNat + p.cycles + p.delay
  (v.laterEach t (v.awnPages d u) fun a => .count64 (a.base + Reg.AWN_CHAIN_CNT_LO) 1).later t (.ends (Pg.awn d u) p.head.rnd)

theorem State.startChain_of_escOut {dis : Option (Nat × Nat)} (h : (s.chainExps w.die.val (chainPlan words)).any escOut = true) :
    s.startChain w words dis = s.squashChain w words := if_pos h

section
variable (h : (s.chainExps w.die.val (chainPlan words)).any escOut = false)
include h

theorem State.startChain_agreeing : s.startChain w words none = s.flyChain w words none := if_neg (ne_true_of_eq_false h)

/-- A disagreement in an output that the chain does not have is none. -/
theorem State.startChain_noOutput {k o : Nat} (ho : (chainPlan words).outs[o]? = none) :
    s.startChain w words (some (k, o)) = s.flyChain w words (some (k, o)) := by
  refine (if_neg (ne_true_of_eq_false h)).trans ?_
  dsimp only
  rw [ho]
  rfl

/-- A disagreement in a chunk of an output falls due in Guarded mode. -/
theorem State.startChain_disagreeing {k o : Nat} {out : ChainOut} (ho : (chainPlan words).outs[o]? = some out) :
    s.startChain w words (some (k, o)) = if (s.flyChain w words (some (k, o))).prot = 1 ∧ k < (chainPlan words).cycles
      then (s.flyChain w words (some (k, o))).chainDisagree w (chainPlan words) k o out else s.flyChain w words (some (k, o)) := by
  refine (if_neg (ne_true_of_eq_false h)).trans ?_
  dsimp only
  rw [ho]
  rfl

end

/-! ## What a chain leaves as it was at issue -/

@[simp] theorem State.laterEach_frame (s : State) (t : Nat) (l : List Page) (f : Page → Effect) : (s.laterEach t l f).eng.frame = s.eng.frame :=
  List.foldlRecOn (motive := fun x : State => x.eng.frame = s.eng.frame) l _ rfl fun _ hx _ _ => hx

theorem State.squashChain_frame (s : State) (w : SWord) (words : List (BitVec 8 × BitVec 88)) : (s.squashChain w words).eng.frame = s.eng.frame := by
  simp only [State.squashChain, State.later_frame, State.laterEach_frame, State.raise_eng]

theorem State.flyChain_frame (s : State) (w : SWord) (words : List (BitVec 8 × BitVec 88)) (dis : Option (Nat × Nat)) :
    (s.flyChain w words dis).eng.frame = s.eng.frame := by
  simp only [State.flyChain]
  split <;> rfl

theorem State.flyChain_prot (s : State) (w : SWord) (words : List (BitVec 8 × BitVec 88)) (dis : Option (Nat × Nat)) :
    (s.flyChain w words dis).prot = s.prot := by
  simp only [State.flyChain]
  split <;> rfl

/-- A chain whose pair agrees, or has no shadow, only enters flight. -/
theorem State.startChain_unguarded {dis : Option (Nat × Nat)} (h : (s.chainExps w.die.val (chainPlan words)).any escOut = false)
    (hd : dis = none ∨ s.prot ≠ 1) : s.startChain w words dis = s.flyChain w words dis := by
  cases dis with
  | none => exact State.startChain_agreeing h
  | some x =>
    obtain ⟨k, o⟩ := x
    cases ho : (chainPlan words).outs[o]? with
    | none => exact State.startChain_noOutput h ho
    | some out =>
      rw [State.startChain_disagreeing h ho, State.flyChain_prot, if_neg fun hg => hd.elim (fun hn => nomatch hn) (· hg.1)]

/-- A chain leaves the frame as it is. -/
theorem State.startChain_frame (s : State) (w : SWord) (words : List (BitVec 8 × BitVec 88)) (dis : Option (Nat × Nat)) :
    (s.startChain w words dis).eng.frame = s.eng.frame := by
  cases h : (s.chainExps w.die.val (chainPlan words)).any escOut with
  | true => rw [State.startChain_of_escOut h, State.squashChain_frame]
  | false =>
    by_cases hd : dis = none ∨ s.prot ≠ 1
    · rw [State.startChain_unguarded h hd, State.flyChain_frame]
    · obtain ⟨⟨k, o⟩, rfl⟩ := Option.ne_none_iff_exists'.1 fun hn => hd (.inl hn)
      cases ho : (chainPlan words).outs[o]? with
      | none => rw [State.startChain_noOutput h ho, State.flyChain_frame]
      | some out =>
        rw [State.startChain_disagreeing h ho, apply_ite (fun t : State => t.eng.frame)]
        simp only [State.chainDisagree, State.later_frame, State.flyChain_frame, ite_self]

theorem exec_chain_of_mayIssue {more : List ChainWord} {dis : Option (Nat × Nat)}
    (h : (s.atWord w).MayIssue w 2 1 fun v c _ => v.chainCheck c (chainWords w more)) :
    exec (.chain w more dis) s = .next ((s.atWord w).startChain w (chainWords w more) dis).reads :=
  congrArg Host.Outcome.next (State.issue_of_mayIssue (effect := fun t => t.startChain w (chainWords w more) dis) h (State.startChain_frame ..))

end Sys2Proof.Machine
end

section
/-!
SUPPORT. The obligations of the Awn vector engines and the Rachis (05_awn_and_rachis), settled.
-/
namespace Sys2Proof.Machine

/-- Settles O6: a scalar register reads what its own write left (`sreg_setSreg_same`, `setSreg_of_readOnly`), and no other write changes it
(`sreg_setSreg_other`). -/
theorem scalarRegisters : Obligations.ScalarRegisters := fun s d _ _ _ v h _ _ _ _ =>
  ⟨rfl, fun hn => State.sreg_of_reserved hn d, rfl, fun hn => State.setSreg_of_readOnly hn d v, fun h0 hn => State.sreg_setSreg_same h h0 hn d v,
    fun hne => State.sreg_setSreg_other h v hne, s.setSreg_mem d _ v⟩

/-- Refutes O3: nothing in the statement bounds the number of the running slot, which SR251 reads. With slot 2^64, which no descriptor's one-byte field names,
SHRI of SR251 by 1 gives 2^63 (`exec_shri_wideSlotState`), where the statement takes SR251 modulo 2^64 first and gives 0. Where the slot's number has 64 bits,
the ten words do as the statement says (`exec_integerWords_of_slot`). -/
theorem not_integerWords : ¬ Obligations.IntegerWords := by
  intro h
  obtain ⟨-, -, -, -, -, -, -, -, -, hshri⟩ := h wideSlotState shriSlotWord wideSlotState_wf
  have hsame := Host.Outcome.next.inj (exec_shri_wideSlotState.symm.trans (hshri wideSlotState_mayIssue))
  rw [wideSlotState_atWord] at hsame
  have heffect := State.rachisDue_inj rfl rfl rfl rfl rfl hsame
  revert heffect
  decide +kernel

/-- Settles O4: each of the eight words is its function of the operands at issue (`scalarOp_of_mayIssue`). -/
theorem floatWords : Obligations.FloatWords := by
  intro s w u r a b result hwf
  have hword {op : Nat} (f : Nat → Nat → Nat → Nat) (h : u.MayIssue w 5 op State.rachisCheck) :
      Host.Outcome.next (s.scalarOp w op f) = result (f (u.sreg w.die r.sa) (u.sreg w.die r.sb) r.imm) :=
    congrArg Host.Outcome.next (State.scalarOp_of_mayIssue hwf f h)
  exact ⟨hword _, hword _, hword _, hword _, hword _, hword _, hword _, hword _⟩

/-- Settles O5: loads and stores by their operands at issue (`loadOp_of_mayIssue`, `storeOp_of_mayIssue`), and LDSCALE by the check that bounds its IMM
(`exec_ldscale_of_mayIssue`). -/
theorem scalarMemoryWords : Obligations.ScalarMemoryWords := by
  intro s w u r addr b result hwf
  have hload {op : Nat} (h : u.MayIssue w 5 op State.rachisCheck) :
      Host.Outcome.next (s.loadOp w op) = result (.sreg w.die r.dst (u.natAt addr (accessSize op))) :=
    congrArg Host.Outcome.next (State.loadOp_of_mayIssue hwf h)
  have hstore {op : Nat} (h : u.MayIssue w 5 op State.rachisCheck) :
      Host.Outcome.next (s.storeOp w op) = result (.bytes addr (leBytes (accessSize op) b)) :=
    congrArg Host.Outcome.next (State.storeOp_of_mayIssue hwf h)
  exact ⟨hload, hload, hstore, hstore, exec_ldscale_of_mayIssue⟩

/-- Settles O12: a chain that is free to issue is `startChain` at its issue, which leaves it without outputs (`startChain_of_escOut`), brings it into flight
(`startChain_unguarded`), and lets a Guarded pair's disagreement fall due (`startChain_disagreeing`). -/
theorem chainGroup : Obligations.ChainGroup := by
  intro s w more dis u words p d pg t exps out hmay
  have hexec : exec (.chain w more dis) s = .next (u.startChain w words dis).reads := exec_chain_of_mayIssue hmay
  refine ⟨fun hout => ?squashed, fun hin => ?flies⟩
  case squashed =>
    rw [hexec, State.startChain_of_escOut hout]
    rfl
  case flies =>
    intro c v v'
    have hfly : u.flyChain w words dis = v' := rfl
    refine ⟨fun hd => ?_, fun k o q hd hq hp hk => ?_, fun _ hp => ?_⟩
    · rw [hexec, State.startChain_unguarded hin (.inl hd), hfly]
    · subst hd
      rw [hexec, State.startChain_disagreeing hin hq, State.flyChain_prot, if_pos ⟨hp, hk⟩, hfly]
      rfl
    · rw [hexec, State.startChain_unguarded hin (.inr hp), hfly]

end Sys2Proof.Machine
end

section
/-!
SUPPORT. Mover words where they are free to issue (R281 to R284): what they note, and what they leave of the frame.
-/
namespace Sys2Proof.Machine

variable {s : State}

theorem State.foldl_frame {α : Type} {f : State → α → State} (hf : ∀ t x, (f t x).eng.frame = t.eng.frame) (l : List α) (s : State) :
    (l.foldl f s).eng.frame = s.eng.frame :=
  List.foldlRecOn (motive := fun t => t.eng.frame = s.eng.frame) l f rfl fun t ht x _ => (hf t x).trans ht

/-- Two folds agree where their steps agree on the states that the second reaches. -/
theorem foldl_congr_of_invariant {α β : Type} {P : β → Prop} {f g : β → α → β} (hfg : ∀ t x, P t → f t x = g t x) (hg : ∀ t x, P t → P (g t x)) (l : List α) :
    ∀ {b : β}, P b → l.foldl f b = l.foldl g b := by
  induction l with
  | nil => exact fun _ => rfl
  | cons x r ih =>
    intro b hb
    rw [List.foldl_cons, List.foldl_cons, hfg b x hb]
    exact ih (hg b x hb)

/-- The flits of a word are noted with the links alone. -/
theorem State.bookFlits_eng (s : State) (w : SWord) (u : Uses) : (s.bookFlits w u).eng = s.eng := by
  refine State.foldl_eng (fun t p => ?_) _ _
  dsimp only
  split <;> rfl

theorem State.burstEvents_frame (s : State) (t : StArgs) (write : Bool) (ecc : List BurstEvent) : (s.burstEvents t write ecc).eng.frame = s.eng.frame := by
  refine State.foldl_frame (fun v e => ?_) _ _
  split <;> rfl

theorem State.writePieces_frame (s : State) (me : Writer) (t : StArgs) (n : Nat) : (s.writePieces me t n).eng.frame = s.eng.frame := by
  refine State.foldl_frame (fun v q => ?_) _ _
  rfl

/-- A word's flits and the errors of its bursts are noted in its frame. -/
theorem State.noted_frame (s : State) (w : SWord) (u : Uses) (t : StArgs) (write : Bool) (ecc : List BurstEvent) :
    ((s.bookFlits w u).burstEvents t write ecc).eng.frame = s.eng.frame := by
  rw [State.burstEvents_frame, State.bookFlits_eng]

/-- The writer that a mover word names for its frame (R97, the text after R286). -/
def State.moverWriter (s : State) (w : SWord) : Writer := ⟨Pg.rch w.die, moverInfo w + s.eng.frame.index % 2 ^ 24⟩

theorem State.moverWriter_congr {t : State} (w : SWord) (h : t.eng.frame = s.eng.frame) : t.moverWriter w = s.moverWriter w := by
  rw [State.moverWriter, State.moverWriter, h]

/-- The reads of an STREAD, each in its slot (R281). -/
def State.readBursts (s : State) (me : Writer) (t : StArgs) : State :=
  (List.range t.nb).foldl (fun v n =>
    v.later (40 * t.slot n) (.copy (t.burst n) (spadBase t.sdie + t.spoff + 2048 * n) 2048 (t.visible n) me false)) s

/-- The pieces of an STWRITE's bursts, but of those that are lost (R282, R302). -/
def State.writeBursts (s : State) (me : Writer) (t : StArgs) (ecc : List BurstEvent) : State :=
  (List.range t.nb).foldl (fun v n => if burstLost ecc n then v else v.writePieces me t n) s

theorem State.readBursts_frame (s : State) (me : Writer) (t : StArgs) : (s.readBursts me t).eng.frame = s.eng.frame :=
  State.foldl_frame (fun v n => State.later_frame v (40 * t.slot n) _) _ _

theorem State.writeBursts_frame (s : State) (me : Writer) (t : StArgs) (ecc : List BurstEvent) : (s.writeBursts me t ecc).eng.frame = s.eng.frame := by
  refine State.foldl_frame (fun v n => ?_) _ _
  split
  · rfl
  · exact State.writePieces_frame v me t n

/-- The move of a COPY enters flight (R283). -/
def State.addMove (s : State) (w : SWord) : State :=
  let c := copyArgs w.args
  { s with eng := { s.eng with moves := s.eng.moves ++
    [{ die := w.die, stamp := w.stamp.toNat, src := spadBase c.sdie + c.soff, dst := spadBase c.ddie + c.doff, len := 512 * c.len,
       visible := w.stamp.toNat + (if c.sdie = c.ddie then 25 else 201), step := 0, data := [] }] } }

/-- The parameter block of an XFER (R284). -/
def State.xferBlock (s : State) (w : SWord) : List Byte := s.bytesAt (spadBase w.die + bits w.args.toNat 87 64 * 32) 32

/-- The transfer of an XFER enters the unscheduled traffic (R284). -/
def State.addXfer (s : State) (w : SWord) : State :=
  let b := s.xferBlock w
  { s with traffic := s.traffic ++
    [{ id := s.freshTransfer, issuer := .xfer w.die w.unit.toNat, cls := leAt b 0x1A 1, src := leAt b 0 8, dst := leAt b 8 8, len := leAt b 0x10 8,
       moved := 0, held := [], since := s.wall, err := 0, errAddr := none, signal := some (leAt b 0x18 2, 1) }] }

/-- A fold that names the writer afresh for every burst names the one that the word began with. -/
theorem State.writeBursts_eq (s : State) (w : SWord) (t : StArgs) (ecc : List BurstEvent) :
    (List.range t.nb).foldl (fun v n => if burstLost ecc n then v else v.writePieces (v.moverWriter w) t n) s = s.writeBursts (s.moverWriter w) t ecc := by
  refine foldl_congr_of_invariant (P := fun v => v.eng.frame = s.eng.frame) (fun v n hv => ?_) (fun v n hv => ?_) _ rfl
  · rw [State.moverWriter_congr w hv]
  · split
    · exact hv
    · exact (State.writePieces_frame v _ t n).trans hv

variable {w : SWord} {op : Nat} {effect : State → State}

theorem State.moverWord_of_mayIssue {v : State} (h : (s.atWord w).MayIssue w 4 op State.moverCheck) (he : effect (s.atWord w) = v)
    (hf : v.eng.frame = (s.atWord w).eng.frame) : s.moverWord w op effect = v.reads := by
  subst he
  exact State.issue_of_mayIssue h hf

theorem exec_stread_of_mayIssue {ecc : List BurstEvent} (h : (s.atWord w).MayIssue w 4 2 State.moverCheck) :
    exec (.stread w ecc) s = .next ((((s.atWord w).bookFlits w (streadUses (rawOf w 4 2) w.die)).burstEvents (stArgs w.args) false ecc).readBursts
      ((s.atWord w).moverWriter w) (stArgs w.args)).reads := by
  have hframe := (s.atWord w).noted_frame w (streadUses (rawOf w 4 2) w.die) (stArgs w.args) false ecc
  rw [← State.moverWriter_congr w hframe]
  exact congrArg Host.Outcome.next (State.moverWord_of_mayIssue h rfl ((State.readBursts_frame _ _ _).trans hframe))

theorem exec_stwrite_of_mayIssue {ecc : List BurstEvent} (h : (s.atWord w).MayIssue w 4 3 State.moverCheck) :
    exec (.stwrite w ecc) s = .next ((((s.atWord w).bookFlits w (stwriteUses (rawOf w 4 3) w.die)).burstEvents (stArgs w.args) true ecc).writeBursts
      ((s.atWord w).moverWriter w) (stArgs w.args) ecc).reads := by
  have hframe := (s.atWord w).noted_frame w (stwriteUses (rawOf w 4 3) w.die) (stArgs w.args) true ecc
  rw [← State.moverWriter_congr w hframe]
  exact congrArg Host.Outcome.next (State.moverWord_of_mayIssue h (State.writeBursts_eq _ w _ ecc) ((State.writeBursts_frame _ _ _ _).trans hframe))

theorem exec_copy_of_mayIssue (h : (s.atWord w).MayIssue w 4 1 State.moverCheck) :
    exec (.copy w) s = .next (((s.atWord w).bookFlits w (copyUses (rawOf w 4 1) w.die)).addMove w).reads := by
  have hframe : (((s.atWord w).bookFlits w (copyUses (rawOf w 4 1) w.die)).addMove w).eng.frame = (s.atWord w).eng.frame := by
    rw [State.addMove, State.bookFlits_eng]
  exact congrArg Host.Outcome.next (State.moverWord_of_mayIssue h rfl hframe)

/-- An XFER whose parameter block is good leaves its transfer behind the others. -/
theorem exec_xfer_of_mayIssue (h : (s.atWord w).MayIssue w 4 5 State.moverCheck) (hb : xferBad ((s.atWord w).xferBlock w) = false) :
    exec (.xfer w) s = .next ((s.atWord w).addXfer w).reads := by
  have hgood : ¬ xferBad ((s.atWord w).xferBlock w) = true := ne_true_of_eq_false hb
  exact congrArg Host.Outcome.next (State.moverWord_of_mayIssue h (if_neg hgood) rfl)

/-- Settles O8: a mover word that is free to issue is its effect at issue (`moverWord_of_mayIssue`). Noting flits and setting effects to fall due leave the frame
as it is, so the writer that the bursts name is the one at issue (`moverWriter_congr`), and a good parameter block leaves XFER only its transfer. -/
theorem moverWords : Obligations.MoverWords := fun _ _ _ =>
  ⟨exec_copy_of_mayIssue, exec_stread_of_mayIssue, exec_stwrite_of_mayIssue, exec_xfer_of_mayIssue⟩

end Sys2Proof.Machine
end

section
/-!
SUPPORT. Commands of the DRAS pages (R311, R312, R322): what a write of DRAS_CMD decodes to, what each command does, and what a read row fails on.
-/
namespace Sys2Proof.Machine

variable {s : State} {die site : Nat} {raw : Bool} {f : DrasFind}

/-! ## The command register -/

theorem pageOf_dras {d o : Nat} (hd : d < 4) (ho : o < 0x1000) : pageOf ((Pg.dras d).base + o) = some (Pg.dras d, o) := by
  have hb : (Pg.dras d).base + o = 0x1000000 + d * 0x800000 + 0xD0000 + o := rfl
  have hm : (0x1000000 + d * 0x800000 + 0xD0000 + o) % 0x1000 = o := by omega
  have hdie : (0x1000000 + d * 0x800000 + 0xD0000 + o - 0x1000000) / 0x800000 = d := by omega
  have hpg : (0x1000000 + d * 0x800000 + 0xD0000 + o - 0x1000000) % 0x800000 / 0x1000 = 0xD0 := by omega
  rw [hb, pageOf]
  simp (disch := omega) only [hm, hdie, hpg, if_pos, if_neg]
  exact if_pos trivial

/-- A write of DRAS_CMD looks at the site with DONE clear (R322). -/
def State.drasCleared (s : State) (die : Nat) : State := s.setP (Pg.dras die) Reg.DRAS_STAT 30 30 0

/-- R311: a command may not start, for one that runs or a site that is not under test. -/
def State.drasHeld (s : State) (die site : Nat) : Prop := (s.dras.getD die none).isSome = true ∨ bit (s.num (Pg.dras die) Reg.DRAS_CTRL) site = false

/-- A command starts: BUSY, with what it will end with (R322). -/
def State.drasStarts (s : State) (die op site : Nat) (fail : Bool) (result : Nat) : State :=
  let p := Pg.dras die
  let v := ((s.setP p Reg.DRAS_STAT 31 31 1).setP p Reg.DRAS_STAT 29 29 0).setP p Reg.DRAS_STAT 17 16 site
  { v with dras := v.dras.set die (some ⟨op, site, fail, result⟩) }

/-- The word of DRAS_CMD that names a command. -/
def drasWord (op site : Nat) (raw : Bool) : Nat := op * 2 ^ 28 + site * 2 ^ 26 + b2n raw * 2 ^ 25

theorem drasWord_fields {op : Nat} (ho : op < 16) (hs : site < 4) :
    bits (drasWord op site raw) 31 28 = op ∧ bits (drasWord op site raw) 27 26 = site ∧ bit (drasWord op site raw) 25 = raw := by
  have hr : b2n raw ≤ 1 := by cases raw <;> decide
  have h25 : drasWord op site raw / 2 ^ 25 % 2 = b2n raw := by simp only [drasWord]; omega
  refine ⟨?_, ?_, ?_⟩
  · simp only [bits, drasWord]; omega
  · simp only [bits, drasWord]; omega
  · rw [bit, Nat.testBit_eq_decide_div_mod_eq, h25]
    cases raw <;> rfl

theorem drasWord_lt {op : Nat} (ho : op < 16) (hs : site < 4) : drasWord op site raw < 2 ^ 32 := by
  have hr : b2n raw ≤ 1 := by cases raw <;> decide
  simp only [drasWord]; omega

/-- A write of DRAS_CMD starts its command or is held (R311, R322). -/
theorem State.drasCommand_eq (s : State) (die v : Nat) (f : DrasFind) : s.drasCommand die v f =
    if ((s.drasCleared die).dras.getD die none).isSome ∨ !bit ((s.drasCleared die).num (Pg.dras die) Reg.DRAS_CTRL) (bits v 27 26) then
      ((s.drasCleared die).setP (Pg.dras die) Reg.DRAS_STAT 29 29 1).drasBlock die
    else
      let r := (s.drasCleared die).drasAction die (bits v 31 28) (bits v 27 26) (bit v 25) f
      r.1.drasStarts die (bits v 31 28) (bits v 27 26) r.2.1 r.2.2 := rfl

theorem State.drasCommand_held {op : Nat} (ho : op < 16) (hs : site < 4) (h : (s.drasCleared die).drasHeld die site) :
    s.drasCommand die (drasWord op site raw) f = ((s.drasCleared die).setP (Pg.dras die) Reg.DRAS_STAT 29 29 1).drasBlock die := by
  obtain ⟨-, hsite, -⟩ := drasWord_fields (raw := raw) ho hs
  rw [State.drasCommand_eq, hsite]
  exact if_pos (by rwa [Bool.not_eq_true'])

theorem State.drasCommand_started {op : Nat} (ho : op < 16) (hs : site < 4) (h : ¬(s.drasCleared die).drasHeld die site) {r : State × Bool × Nat}
    (hr : (s.drasCleared die).drasAction die op site raw f = r) : s.drasCommand die (drasWord op site raw) f = r.1.drasStarts die op site r.2.1 r.2.2 := by
  obtain ⟨hop, hsite, hraw⟩ := drasWord_fields (raw := raw) ho hs
  rw [State.drasCommand_eq, hop, hsite, hraw, hr]
  exact if_neg (by rwa [Bool.not_eq_true'])

theorem State.pageWrite_drasCmd (s : State) (via : Via) (die : Nat) (v : Word) (f : DrasFind) :
    s.pageWrite via (Pg.dras die) Reg.DRAS_CMD v f = s.drasCommand die v.toNat f := rfl

/-- An accepted write of DRAS_CMD is its command. -/
theorem State.drasWrite32_accepted {t port op : Nat} (ha : (s.atTime t).Accepts port ((Pg.dras die).base + Reg.DRAS_CMD)) (hd : die < 4) (ho : op < 16)
    (hs : site < 4) : s.drasWrite32 t port die op site raw f = ((s.atTime t).answered.drasCommand die (drasWord op site raw) f).reported port := by
  have hword : (BitVec.ofNat 32 (drasWord op site raw)).toNat = drasWord op site raw := by
    rw [BitVec.toNat_ofNat, Nat.mod_eq_of_lt (drasWord_lt ho hs)]
  rw [State.drasWrite32, ← State.atTime, ← drasWord, State.busWrite_accepted ha, State.writeWord_page (pageOf_dras hd (by decide)) (by decide),
    State.pageWrite_drasCmd, hword]

/-! ## What a command does -/

section
variable (s die site raw f)

theorem State.drasAction_connTest (l : List (Fin 280)) : s.drasAction die 6 site raw (.conns (l.map fun c => c.val)) =
    (s.connResult die site (s.drasTarget die site).ch (l.map fun c => c.val), !l.isEmpty, (l.map fun c => c.val).eraseDups.length) := by
  have hall : ((l.map fun c => c.val).filter fun k => decide (k < 280)) = l.map fun c => c.val :=
    List.filter_eq_self.2 fun k hk => by
      obtain ⟨c, -, rfl⟩ := List.mem_map.1 hk
      exact decide_eq_true c.isLt
  simp only [State.drasAction, State.failing, hall, List.isEmpty_map, if_true]

theorem State.drasAction_restore : s.drasAction die 8 site raw f = (s.applyStackRepairs (s.drasTarget die site).stack, false, 0) := rfl

theorem State.drasAction_mapBank : s.drasAction die 4 site raw f =
    let x := s.drasTarget die site
    let k := s.stackOf x.stack
    if x.bank < 16 then (s.setStack x.stack { k with banks := (x.ch, x.bank) :: k.banks.filter fun b => !(b.1 == x.ch) }, false, 0)
    else (s, true, 0) := rfl

theorem State.drasAction_mapConn : s.drasAction die 5 site raw f =
    let x := s.drasTarget die site
    let k := s.stackOf x.stack
    let arg := s.num (Pg.dras die) Reg.DRAS_ARG
    if bits arg 8 0 < 272 ∧ 272 ≤ bits arg 24 16 ∧ bits arg 24 16 < 280 then
      let conns := (x.ch, bits arg 8 0, bits arg 24 16) :: k.conns.filter fun c => !(c.1 == x.ch && (c.2.1 == bits arg 8 0 || c.2.2 == bits arg 24 16))
      (s.setStack x.stack { k with conns := conns }, false, 0)
    else (s, true, 0) := rfl

/-- A target out of range: the commands that reach a row do nothing, and fail. -/
theorem State.drasAction_outside {op : Nat} (h : (s.drasTarget die site).ok = false) (hop : op ∈ [1, 2, 3, 7]) :
    s.drasAction die op site raw f = (s, true, 0) := by
  simp only [List.mem_cons, List.not_mem_nil, or_false] at hop
  rcases hop with rfl | rfl | rfl | rfl <;> simp [State.drasAction, h]

variable {s die site}

/-- A target in range reaches the command's own branch. -/
theorem State.drasAction_readRow (h : (s.drasTarget die site).ok = true) : s.drasAction die 1 site raw f =
    ((s.drasRead die (s.drasTarget die site) raw f.flips).1, (s.drasRead die (s.drasTarget die site) raw f.flips).2, 0) := by
  simp [State.drasAction, h]

theorem State.drasAction_writeRow (h : (s.drasTarget die site).ok = true) :
    s.drasAction die 2 site raw f = (s.drasWrite die (s.drasTarget die site), false, 0) := by
  simp [State.drasAction, h]

theorem State.drasAction_mapRow (h : (s.drasTarget die site).ok = true) : s.drasAction die 3 site raw f =
    let x := s.drasTarget die site
    let k := s.stackOf x.stack
    let spare := bits (s.num (Pg.dras die) Reg.DRAS_ARG) 12 0
    if 6144 ≤ spare ∧ spare < 6176 ∧ x.row < 6144 then
      (s.setStack x.stack { k with rows := (⟨x.ch, x.bank, x.row⟩, spare) :: k.rows.filter fun q => !(q.1 == ⟨x.ch, x.bank, x.row⟩) }, false, 0)
    else (s, true, 0) := by
  simp [State.drasAction, h]

theorem State.drasAction_rowTest (n : BitVec 16) (h : (s.drasTarget die site).ok = true) : s.drasAction die 7 site raw (.bits n.toNat) =
    let x := s.drasTarget die site
    (s.lose (physKey x.stack x.ch x.bank x.row 0) 8192 true, decide (n.toNat ≠ 0), n.toNat) := by
  have hmin : min n.toNat 0xFFFF = n.toNat := Nat.min_eq_left (Nat.le_of_lt_succ n.isLt)
  simp [State.drasAction, h, State.failBits, hmin]

end

/-! ## A row read (R299 to R301) -/

/-- The row buffer filled by a read that draws its free value. -/
def State.fillRowBuffer (s : State) (die : Nat) (bytes : Nat → Byte) : State :=
  State.setWindow { s with free := s.free + 1 } (rowBufferOff die) ((List.range 8192).map bytes)

/-- The byte of a row as it stands, wrong bits and all. -/
def State.rawByte (s : State) (x : DrasTarget) (l : List Nat) (b : Nat) : Byte :=
  s.memAt (physKey x.stack x.ch x.bank x.row b) ^^^ BitVec.ofNat 8 ((l.filter fun i => i / 8 == b).map fun i => 2 ^ (i % 8)).sum

theorem foldl_add_eq_sum (g : Nat → Nat) (l : List Nat) (m : Nat) : l.foldl (fun n i => n + g i) m = m + (l.map g).sum := by
  induction l generalizing m with
  | nil => rfl
  | cons i l ih => rw [List.foldl_cons, ih, List.map_cons, List.sum_cons, Nat.add_assoc]

theorem State.drasRead_raw (s : State) (die : Nat) (x : DrasTarget) (l : List Nat) :
    s.drasRead die x true l = (s.fillRowBuffer die (s.rawByte x l), false) := by
  have hsum (b : Nat) : (l.filter fun i => i / 8 == b).foldl (fun n i => n + 2 ^ (i % 8)) 0 = ((l.filter fun i => i / 8 == b).map fun i => 2 ^ (i % 8)).sum := by
    rw [foldl_add_eq_sum, Nat.zero_add]
  simp only [State.drasRead, hsum]
  rfl

theorem State.rawByte_nil (s : State) (x : DrasTarget) (b : Nat) : s.rawByte x [] b = s.memAt (physKey x.stack x.ch x.bank x.row b) := BitVec.xor_zero

theorem rowFinds_nil (k : Nat) : rowFinds [] k = none := by
  simp [rowFinds, flipsIn]

/-- A row without wrong bits reads right, with RAW and without. -/
theorem State.drasRead_right (s : State) (die : Nat) (x : DrasTarget) (raw : Bool) :
    s.drasRead die x raw [] = (s.fillRowBuffer die fun b => s.memAt (physKey x.stack x.ch x.bank x.row b), false) := by
  cases raw with
  | true => rw [State.drasRead_raw, funext (s.rawByte_nil x)]
  | false =>
    have hmet : ((List.range 4).filterMap fun j => (rowFinds [] j).map fun e => (j, e)) = [] := by simp [rowFinds_nil]
    simp only [State.drasRead, hmet]
    rfl

/-- The code cannot correct a burst of which a word holds two wrong bits or more. -/
theorem rowFinds_eq_ue {l : List Nat} {k : Nat} : rowFinds l k = some (.ue false) ↔ ∃ i < 64, 2 ≤ flipsIn l (64 * k + i) := by
  have hany : (((List.range 64).map fun i => flipsIn l (64 * k + i)).any fun n => decide (2 ≤ n)) = true ↔ ∃ i < 64, 2 ≤ flipsIn l (64 * k + i) := by
    simp
  rw [← hany]
  unfold rowFinds
  dsimp only
  split
  case isTrue h => simp [h]
  case isFalse h => split <;> simp [h]

/-- No wrong bit lies past the last word of its row. -/
theorem flipsIn_eq_zero {l : List Nat} (hl : ∀ b ∈ l, b < 65536) {w : Nat} (hw : 256 ≤ w) : flipsIn l w = 0 := by
  refine List.countP_eq_zero.2 fun b hb => ?_
  have := hl b hb
  rw [beq_iff_eq]
  omega

/-- A read without RAW fails where a word of the code holds two wrong bits or more. -/
theorem State.drasRead_fails {l : List Nat} (hl : ∀ b ∈ l, b < 65536) (s : State) (die : Nat) (x : DrasTarget) :
    (s.drasRead die x false l).2 = true ↔ ∃ w, 2 ≤ flipsIn l w := by
  have hmet : (s.drasRead die x false l).2 = ((List.range 4).filterMap fun j => (rowFinds l j).map fun e => (j, e)).any fun q => q.2 == .ue false := rfl
  have hburst : (s.drasRead die x false l).2 = true ↔ ∃ j < 4, rowFinds l j = some (.ue false) := by
    simp only [hmet, List.any_eq_true, List.mem_filterMap, List.mem_range, Option.map_eq_some_iff, beq_iff_eq]
    constructor
    · rintro ⟨q, ⟨j, hj, e, he, rfl⟩, rfl⟩
      exact ⟨j, hj, he⟩
    · rintro ⟨j, hj, he⟩
      exact ⟨_, ⟨j, hj, _, he, rfl⟩, rfl⟩
  rw [hburst]
  constructor
  · rintro ⟨j, -, hj⟩
    obtain ⟨i, -, hi⟩ := rowFinds_eq_ue.1 hj
    exact ⟨_, hi⟩
  · rintro ⟨w, hw⟩
    have hlt : w < 256 := by
      by_contra h
      rw [flipsIn_eq_zero hl (Nat.not_lt.1 h)] at hw
      omega
    refine ⟨w / 64, by omega, rowFinds_eq_ue.2 ⟨w % 64, Nat.mod_lt _ (by decide), ?_⟩⟩
    rwa [Nat.div_add_mod]

/-- The wrong bits that a command names are bits of its row. -/
theorem DrasFind.flips_wrong (l : List (Fin 65536)) : DrasFind.flips (.wrong (l.map fun b => b.val)) = (l.map fun b => b.val).eraseDups := by
  have hall : ((l.map fun b => b.val).filter fun b => decide (b < 65536)) = l.map fun b => b.val :=
    List.filter_eq_self.2 fun k hk => by
      obtain ⟨c, -, rfl⟩ := List.mem_map.1 hk
      exact decide_eq_true c.isLt
  rw [DrasFind.flips, hall]

/-! ## The commands -/

/-- Each of the eight commands is a write of DRAS_CMD. -/
theorem exec_drasCommands (s : State) (t : Nat) (port : Fin 2) (die site : Fin 4) (raw : Bool) (wrong : List (Fin 65536)) (conns : List (Fin 280)) (fails : BitVec 16) :
    ∀ i ∈ [Instr.readRow t port die site raw wrong, .writeRow t port die site, .mapRow t port die site, .mapBank t port die site, .mapConn t port die site,
        .connTest t port die site conns, .rowTest t port die site fails, .drasRestore t port die site],
      ∃ op < 16, ∃ raw f, exec i s = .next (s.drasWrite32 t port die op site raw f) := by
  simp only [List.forall_mem_cons]
  exact ⟨⟨1, by decide, raw, _, rfl⟩, ⟨2, by decide, false, _, rfl⟩, ⟨3, by decide, false, _, rfl⟩, ⟨4, by decide, false, _, rfl⟩,
    ⟨5, by decide, false, _, rfl⟩, ⟨6, by decide, false, _, rfl⟩, ⟨7, by decide, false, _, rfl⟩, ⟨8, by decide, false, _, rfl⟩,
    fun _ h => absurd h List.not_mem_nil⟩

/-- DRAS_CTRL has bits that LOCK guards (R311). -/
theorem rowOf_drasCtrl : ∃ r, rowOf PageKind.dras Reg.DRAS_CTRL = some r ∧ r.rl ≠ 0 := ⟨_, rfl, by decide⟩

/-- A write of DRAS_CTRL is refused while a resident image reaches a stack that it would take (R311). -/
theorem State.pageWrite_drasCtrl (s : State) (via : Via) (die : Nat) (v : Word) (f : DrasFind) :
    s.pageWrite via (Pg.dras die) Reg.DRAS_CTRL v f =
      if s.fldP (Pg.dras die) Reg.LOCK 0 0 = 0 ∧ s.testReached die v.toNat = true then s.deny (Pg.dras die) .DRAS_TEST_BLOCK none 0
      else s.plainWrite (Pg.dras die) Reg.DRAS_CTRL v := by
  have hne : Reg.DRAS_CTRL ≠ Reg.DRAS_CMD := by decide
  have hrule : s.pageWrite via (Pg.dras die) Reg.DRAS_CTRL v f = s.drasWriteReg die Reg.DRAS_CTRL v f := rfl
  rw [hrule, State.drasWriteReg]
  rw [if_neg hne]
  exact if_congr (and_iff_right rfl) rfl rfl

/-- The rule of DRAS_CTRL in its three cases (R31, R311). -/
theorem State.pageWrite_drasCtrl_cases (s : State) (via : Via) (die : Nat) (v : Word) (f : DrasFind) :
    (s.fldP (Pg.dras die) Reg.LOCK 0 0 = 0 → s.testReached die v.toNat = false →
      s.pageWrite via (Pg.dras die) Reg.DRAS_CTRL v f = s.coded (Pg.dras die) Reg.DRAS_CTRL v)
    ∧ (s.fldP (Pg.dras die) Reg.LOCK 0 0 = 0 → s.testReached die v.toNat = true →
      s.pageWrite via (Pg.dras die) Reg.DRAS_CTRL v f = s.deny (Pg.dras die) .DRAS_TEST_BLOCK none 0)
    ∧ (s.fldP (Pg.dras die) Reg.LOCK 0 0 = 1 → s.pageWrite via (Pg.dras die) Reg.DRAS_CTRL v f = s.deny (Pg.dras die) .LOCKED none 0) := by
  obtain ⟨r, hr, hrl⟩ := rowOf_drasCtrl
  rw [State.pageWrite_drasCtrl]
  refine ⟨fun h0 hreach => ?_, fun h0 hreach => if_pos ⟨h0, hreach⟩, fun h1 => ?_⟩
  · rw [if_neg (by simp [hreach])]
    exact State.plainWrite_coded hr fun _ _ => .inr (by rw [h0]; decide)
  · rw [if_neg (by simp [h1])]
    exact State.plainWrite_locked hr hrl h1

theorem exec_drasCommandEnd_idle {t : Nat} {die : Fin 4} (h : (s.atTime t).dras.getD die none = none) :
    exec (.drasCommandEnd t die) s = .next (s.atTime t) := by
  show execDrasCommandEnd t die s = _
  unfold execDrasCommandEnd
  rw [← State.atTime]
  simp only [h]

/-- The end of a die's command: DONE, FAIL and RESULT (R312, R322). -/
theorem exec_drasCommandEnd_running {t : Nat} {die : Fin 4} {r : DrasRun} (h : (s.atTime t).dras.getD die none = some r) :
    exec (.drasCommandEnd t die) s =
      let p := Pg.dras die
      let v : State := { s.atTime t with dras := (s.atTime t).dras.set die none }
      .next ((((v.setP p Reg.DRAS_STAT 31 31 0).setP p Reg.DRAS_STAT 30 30 1).setP p Reg.DRAS_STAT 29 29 (b2n r.fail)).setP p Reg.DRAS_STAT 15 0 r.result) := by
  show execDrasCommandEnd t die s = _
  unfold execDrasCommandEnd
  rw [← State.atTime]
  simp only [h]

/-- Settles O54: a write of DRAS_CTRL in the three cases of its rule (`pageWrite_drasCtrl_cases`); a command is a write of DRAS_CMD (`exec_drasCommands`), held
(`drasCommand_held`) or started with what its action does and finds (`drasCommand_started` and the lemmas `drasAction_…`); its end reads what it started with. -/
theorem repairAccess : Obligations.RepairAccess := by
  intro s t port die site u p a x k arg starts
  refine ⟨fun v hacc => ?ctrl, fun hacc => ⟨fun hheld raw wrong conns fails i hi => ?held, fun hfree htest => ?started⟩,
    exec_drasCommandEnd_idle, fun r => exec_drasCommandEnd_running⟩
  case ctrl =>
    obtain ⟨htaken, hreached, hlocked⟩ := u.answered.pageWrite_drasCtrl_cases (.port port) die v .free
    have hwrite : exec (.drasCtrlWrite t port die v) s = .next ((u.answered.pageWrite (.port port) p Reg.DRAS_CTRL v .free).reported port) := by
      rw [← State.writeWord_page (pageOf_dras die.isLt (by decide)) (by decide), ← State.busWrite_accepted hacc]
      rfl
    refine ⟨fun h0 hr => ?_, fun h0 hr => ?_, fun h1 => ?_⟩
    · rw [hwrite, htaken h0 hr, State.reported_of_done rfl]
    · rw [hwrite, hreached h0 hr]
    · rw [hwrite, hlocked h1]
  case held =>
    obtain ⟨op, hop, raw, f, hexec⟩ := exec_drasCommands s t port die site raw wrong conns fails i hi
    rw [hexec, State.drasWrite32_accepted hacc die.isLt hop site.isLt, State.drasCommand_held hop site.isLt hheld]
    rfl
  case started =>
    have hnot : ¬a.drasHeld die site := by
      rintro (h | h)
      · exact absurd (hfree.symm.trans h) (by decide)
      · exact absurd (htest.symm.trans h) (by decide)
    have hstart {op : Nat} {raw : Bool} {f : DrasFind} {w : State} {fail : Bool} {result : Nat} (ho : op < 16)
        (hr : a.drasAction die op site raw f = (w, fail, result)) : Host.Outcome.next (s.drasWrite32 t port die op site raw f) = starts w op fail result := by
      rw [State.drasWrite32_accepted hacc die.isLt ho site.isLt, State.drasCommand_started ho site.isLt hnot hr]
      rfl
    have hout {op : Nat} {raw : Bool} {f : DrasFind} (hop : op ∈ [1, 2, 3, 7]) (hlt : op < 16) (hok : x.ok = false) :
        Host.Outcome.next (s.drasWrite32 t port die op site raw f) = starts a op true 0 := hstart hlt (State.drasAction_outside _ _ _ _ _ hok hop)
    have hcases : x.ok = true ∨ x.ok = false := Bool.eq_false_or_eq_true _
    refine ⟨fun raw wrong => ?readRow, ?writeRow, ?mapRow, ?mapBank, ?mapConn, fun conns => ?connTest, fun fails => ?rowTest, ?restore⟩
    case readRow =>
      intro l held buffered
      have hflips := DrasFind.flips_wrong wrong
      have hl : ∀ b ∈ l, b < 65536 := fun b hb => by
        obtain ⟨c, -, rfl⟩ := List.mem_map.1 (List.mem_eraseDups.1 hb)
        exact c.isLt
      have hread {w : State} {fail : Bool} (hok : x.ok = true) (h : a.drasRead die x raw l = (w, fail)) :
          exec (.readRow t port die site raw wrong) s = starts w 1 fail 0 := by
        refine hstart (by decide) ((State.drasAction_readRow _ _ hok).trans ?_)
        rw [hflips, h]
      refine ⟨fun hok => hout (by decide) (by decide) hok, fun hok hw => ?_, fun hok hraw => ?_, fun hok hraw => ?_⟩
      · refine hread hok ?_
        subst hw
        exact a.drasRead_right die x raw
      · subst hraw
        exact hread hok (a.drasRead_raw die x l)
      · subst hraw
        exact ⟨hread hok rfl, State.drasRead_fails hl a die x⟩
    case writeRow =>
      rcases hcases with hok | hok
      · rw [if_pos hok]
        exact hstart (by decide) (State.drasAction_writeRow _ _ hok)
      · rw [if_neg (ne_true_of_eq_false hok)]
        exact hout (by decide) (by decide) hok
    case mapRow =>
      rcases hcases with hok | hok
      · have hact := State.drasAction_mapRow false .free hok
        by_cases hc : 6144 ≤ bits arg 12 0 ∧ bits arg 12 0 < 6176 ∧ x.row < 6144
        · rw [if_pos ⟨hok, hc⟩]
          exact hstart (by decide) (hact.trans (if_pos hc))
        · rw [if_neg fun h => hc h.2]
          exact hstart (by decide) (hact.trans (if_neg hc))
      · rw [if_neg fun h => ne_true_of_eq_false hok h.1]
        exact hout (by decide) (by decide) hok
    case mapBank =>
      have hact := a.drasAction_mapBank die site false .free
      split
      case isTrue hc => exact hstart (by decide) (hact.trans (if_pos hc))
      case isFalse hc => exact hstart (by decide) (hact.trans (if_neg hc))
    case mapConn =>
      have hact := a.drasAction_mapConn die site false .free
      split
      case isTrue hc => exact hstart (by decide) (hact.trans (if_pos hc))
      case isFalse hc => exact hstart (by decide) (hact.trans (if_neg hc))
    case connTest => exact hstart (by decide) (State.drasAction_connTest a die site false conns)
    case rowTest =>
      rcases hcases with hok | hok
      · rw [if_pos hok]
        exact hstart (by decide) (State.drasAction_rowTest _ _ hok)
      · rw [if_neg (ne_true_of_eq_false hok)]
        exact hout (by decide) (by decide) hok
    case restore => exact hstart (by decide) (a.drasAction_restore die site false .free)

end Sys2Proof.Machine
end

section
/-!
SUPPORT. What a state answers: the operations that leave the answer as it is, one lemma each, and that an error which an access of register space answers has the code
of a cause, which is not 0 (R33). An unscheduled transfer takes the code of its failure from there (O46).
-/
namespace Sys2Proof.Machine

@[simp] theorem State.foldl_resp {α : Type} {f : State → α → State} (hf : ∀ t x, (f t x).resp = t.resp) (l : List α) (s : State) : (l.foldl f s).resp = s.resp :=
  List.foldlRecOn (motive := fun t => t.resp = s.resp) l f rfl fun t ht x _ => (hf t x).trans ht

/-- A fold that carries something beside the state. -/
@[simp] theorem State.foldl_resp1 {α β : Type} {f : State × β → α → State × β} (hf : ∀ q x, (f q x).1.resp = q.1.resp) (l : List α) (q : State × β) :
    (l.foldl f q).1.resp = q.1.resp :=
  List.foldlRecOn (motive := fun t => t.1.resp = q.1.resp) l f rfl fun t ht x _ => (hf t x).trans ht

@[simp] theorem State.resp_ite {c : Prop} [Decidable c] (x y : State) : (if c then x else y).resp = if c then x.resp else y.resp := apply_ite ..

@[simp] theorem State.resp_ite1 {β : Type} {c : Prop} [Decidable c] (x y : State × β) : (if c then x else y).1.resp = if c then x.1.resp else y.1.resp := by
  split <;> rfl

variable (s : State)

@[simp] theorem State.foldl_later_resp {α : Type} (c : Nat) (e : State → α → Effect) (l : List α) : (l.foldl (fun v x => v.later c (e v x)) s).resp = s.resp :=
  State.foldl_resp (fun v x => State.later_resp v c (e v x)) l s

@[simp] theorem State.wrP_resp (p : Page) (o : Nat) (w : Word) : (s.wrP p o w).resp = s.resp := (rfl)
@[simp] theorem State.bump_resp (p : Page) (o n : Nat) : (s.bump p o n).resp = s.resp := (rfl)
@[simp] theorem State.setP_resp (p : Page) (o hi lo v : Nat) : (s.setP p o hi lo v).resp = s.resp := (rfl)
@[simp] theorem State.capture_resp (p : Page) (code : Nat) (addr : Option Nat) (info : Nat) : (s.capture p code addr info).resp = s.resp := (rfl)
@[simp] theorem State.pageMessage_resp (p : Page) : (s.pageMessage p).resp = s.resp := by simp [State.pageMessage]
@[simp] theorem State.setInts_resp (p : Page) (stat en : Word) : (s.setInts p stat en).resp = s.resp := by simp [State.setInts]
@[simp] theorem State.setInt_resp (p : Page) (b : Nat) : (s.setInt p b).resp = s.resp := by simp [State.setInt]
@[simp] theorem State.raise_resp (p : Page) (c : Cause) (addr : Option Nat) (info : Nat) : (s.raise p c addr info).resp = s.resp := by simp [State.raise]
@[simp] theorem State.set64_resp (p : Page) (o v : Nat) : (s.set64 p o v).resp = s.resp := (rfl)
@[simp] theorem State.bump64_resp (p : Page) (o n : Nat) : (s.bump64 p o n).resp = s.resp := (rfl)
@[simp] theorem State.countIdle_resp (die cause n : Nat) : (s.countIdle die cause n).resp = s.resp := by simp [State.countIdle]
@[simp] theorem State.countFreezes_resp (l : List Freeze) (cur stop : Nat) : (s.countFreezes l cur stop).resp = s.resp := by
  induction l generalizing s cur with
  | nil => rfl
  | cons f r ih => simp [State.countFreezes, ih]

@[simp] theorem State.endFreezes_resp (wall : Nat) : (s.endFreezes wall).resp = s.resp := by simp [State.endFreezes]
@[simp] theorem State.lose_resp (lo len : Nat) (undefined : Bool) : (s.lose lo len undefined).resp = s.resp := by simp [State.lose]
@[simp] theorem State.fogRange_resp (a n : Nat) : (s.fogRange a n).resp = s.resp := by simp [State.fogRange]
@[simp] theorem State.gatherCells_resp (stream first n addr : Nat) : (s.gatherCells stream first n addr).resp = s.resp := (rfl)
@[simp] theorem State.create_resp (at_ : Nat) (direct : Option Nat) (c : Cell) : (s.create at_ direct c).resp = s.resp := (rfl)
@[simp] theorem State.sendCellAt_resp (stream n at_ : Nat) (again : Bool) : (s.sendCellAt stream n at_ again).resp = s.resp := by
  simp only [State.sendCellAt]
  split <;> simp
@[simp] theorem State.departCell_resp (stream n : Nat) : (s.departCell stream n).resp = s.resp := by simp [State.departCell]
@[simp] theorem State.flushSends_resp (due : List Due) : (s.flushSends due).resp = s.resp := by
  unfold State.flushSends
  refine (State.foldl_resp (fun t d => ?_) due _).trans (State.foldl_resp (fun t d => ?_) due s) <;> split <;> simp

@[simp] theorem State.signal_resp (c n : Nat) : (s.signal c n).resp = s.resp := (rfl)
@[simp] theorem State.hold_resp (d : Desc) (status info : Nat) (dup signalled : Bool) : (s.hold d status info dup signalled).resp = s.resp := (rfl)
@[simp] theorem State.holdDup_resp (d : Desc) (o : Nat × Nat) : (s.holdDup d o).resp = s.resp := (rfl)
@[simp] theorem State.finish_resp (d : Desc) (status info : Nat) : (s.finish d status info).resp = s.resp := by simp [State.finish]
@[simp] theorem State.draw_resp : (s.draw).2.resp = s.resp := (rfl)
@[simp] theorem State.clearRun_resp (d : Nat) : (s.clearRun d).resp = s.resp := by simp [State.clearRun]
@[simp] theorem State.endRun_resp : (s.endRun).resp = s.resp := by simp [State.endRun]
@[simp] theorem State.completeRun_resp (code : Nat) : (s.completeRun code).resp = s.resp := by
  simp only [State.completeRun]
  split <;> simp
@[simp] theorem State.legCell_resp (i : Inst) (l : Leg) (typ seq : Nat) (payload : List Byte) : (s.legCell i l typ seq payload).resp = s.resp := by
  simp only [State.legCell]
  split <;> simp
@[simp] theorem State.sendAbort_resp (i : Inst) (l : Leg) (payload : List Byte) : (s.sendAbort i l payload).resp = s.resp := by
  simp only [State.sendAbort]
  split <;> simp
@[simp] theorem State.logAbort_resp (i : Inst) (code detector : Nat) (suspect : Option Nat) (fp : List Byte) : (s.logAbort i code detector suspect fp).resp = s.resp := by
  simp [State.logAbort]
@[simp] theorem State.finishColl_resp (i : Inst) (m : Member) (status : Nat) : (s.finishColl i m status).resp = s.resp := by
  simp only [State.finishColl]
  split <;> simp
@[simp] theorem State.tellAbort_resp (i : Inst) (code detector : Nat) (suspect : Option Nat) (fp : List Byte) (but : Option Leg) (seg : Option Nat) :
    (s.tellAbort i code detector suspect fp but seg).resp = s.resp := by
  simp only [State.tellAbort]
  split <;> simp
@[simp] theorem State.nextInst_resp (entry : Nat) : (s.nextInst entry).resp = s.resp := by
  simp only [State.nextInst]
  split <;> simp
@[simp] theorem State.retireInst_resp (i : Inst) : (s.retireInst i).resp = s.resp := by simp [State.retireInst]
@[simp] theorem State.abortInst_resp (i : Inst) (code detector : Nat) (suspect : Option Nat) (fp : List Byte) (but : Option Leg) (seg : Option Nat) :
    (s.abortInst i code detector suspect fp but seg).resp = s.resp := by
  simp [State.abortInst]
@[simp] theorem State.abortScheduled_resp (c : Cause) : (s.abortScheduled c).resp = s.resp := by simp [State.abortScheduled]
@[simp] theorem State.abortCollectives_resp : (s.abortCollectives).resp = s.resp := by simp [State.abortCollectives]
@[simp] theorem State.abortFrame_resp (code : Nat) : (s.abortFrame code).resp = s.resp := by simp [State.abortFrame]
@[simp] theorem State.stretchAbort_resp (wall : Nat) : (s.stretchAbort wall).resp = s.resp := by simp [State.stretchAbort]
@[simp] theorem State.putBytes_resp (a : Nat) (l : List Byte) : (s.putBytes a l).resp = s.resp := by
  induction l generalizing s a with
  | nil => rfl
  | cons b r ih => simp [State.putBytes, ih]

@[simp] theorem State.highWater_resp (a n : Nat) : (s.highWater a n).resp = s.resp := by simp [State.highWater]
@[simp] theorem State.write_resp (a : Nat) (l : List Byte) : (s.write a l).resp = s.resp := by simp [State.write]
@[simp] theorem State.syncRemap_resp (n : Nat) : (s.syncRemap n).resp = s.resp := (rfl)
@[simp] theorem State.markRemap_resp (a : Nat) : (s.markRemap a).resp = s.resp := by
  unfold State.markRemap
  dsimp only
  (repeat' split) <;> simp
@[simp] theorem State.store_resp (a : Nat) (l : List Byte) : (s.store a l).resp = s.resp := by simp [State.store]
@[simp] theorem State.setSreg_resp (die n v : Nat) : (s.setSreg die n v).resp = s.resp := by simp [State.setSreg]
@[simp] theorem State.bump64At_resp (off n : Nat) : (s.bump64At off n).resp = s.resp := (rfl)
@[simp] theorem State.bumpAt_resp (off n : Nat) : (s.bumpAt off n).resp = s.resp := (rfl)
@[simp] theorem State.captureDenial_resp (d : Denial) : (s.captureDenial d).resp = s.resp := by simp [State.captureDenial]
@[simp] theorem State.frameDenied_resp (d : Denial) : (s.frameDenied d).resp = s.resp := by simp [State.frameDenied]
@[simp] theorem State.noteBits_resp (n dir lane k : Nat) : (s.noteBits n dir lane k).resp = s.resp := (rfl)
@[simp] theorem State.flitMeets_resp (n dir slot : Nat) (lanes : List Nat) (addr : Option Nat) : (s.flitMeets n dir slot lanes addr).resp = s.resp := by
  simp only [State.flitMeets]
  split <;> simp
@[simp] theorem State.rewriteMap_resp : (s.rewriteMap).resp = s.resp := by simp [State.rewriteMap]
@[simp] theorem State.addRepair_resp (e : List Byte) : (s.addRepair e).1.resp = s.resp := by simp [State.addRepair]
@[simp] theorem State.noteRepair_resp (e : List Byte) : (s.noteRepair e).resp = s.resp := by simp [State.noteRepair]
@[simp] theorem State.spareExhausted_resp (n : Nat) (r : RowId) : (s.spareExhausted n r).resp = s.resp := by simp [State.spareExhausted]
@[simp] theorem State.mapRow_resp (n : Nat) (r : RowId) (reason : Nat) : (s.mapRow n r reason).resp = s.resp := by
  unfold State.mapRow
  split <;> simp
@[simp] theorem State.startRemapFrom_resp (n k : Nat) : (s.startRemapFrom n k).resp = s.resp := by
  induction k generalizing s with
  | zero => simp [State.startRemapFrom]
  | succ k ih =>
    unfold State.startRemapFrom
    dsimp only
    split
    · split <;> simp [ih]
    · simp

@[simp] theorem State.startRemap_resp (n : Nat) : (s.startRemap n).resp = s.resp := by simp [State.startRemap]
@[simp] theorem State.rowDue_resp (n : Nat) (r : RowId) : (s.rowDue n r).resp = s.resp := by simp [State.rowDue]
@[simp] theorem State.watch_resp (n : Nat) (r : RowId) : (s.watch n r).resp = s.resp := by
  simp only [State.watch]
  split <;> simp
@[simp] theorem State.linkErr_resp (n ch conn : Nat) : (s.linkErr n ch conn).resp = s.resp := by
  unfold State.linkErr
  dsimp only
  split <;> split <;> simp
@[simp] theorem State.rowErr_resp (n : Nat) (r : RowId) (burst cls : Nat) (sched write : Bool) (e : BurstErr) : (s.rowErr n r burst cls sched write e).resp = s.resp := by
  simp only [State.rowErr]
  split <;> simp
@[simp] theorem State.burstErr_resp (a cls : Nat) (sched write : Bool) (e : BurstErr) : (s.burstErr a cls sched write e).resp = s.resp := by
  simp only [State.burstErr]
  split <;> simp
@[simp] theorem State.offerRecord_resp (die : Nat) (data : List Byte) : (s.offerRecord die data).resp = s.resp := (rfl)
@[simp] theorem State.stopJob_resp (code : Nat) : (s.stopJob code).resp = s.resp := by
  unfold State.stopJob
  dsimp only
  (repeat' split) <;> simp
@[simp] theorem State.raiseCode_resp (p : Page) (code : Nat) (addr : Option Nat) (info : Nat) : (s.raiseCode p code addr info).resp = s.resp := by
  simp [State.raiseCode]
@[simp] theorem State.putGranule_resp (w : Writer) (a : Nat) (l : List Byte) : (s.putGranule w a l).resp = s.resp := by simp [State.putGranule]
@[simp] theorem State.putFrom_resp (w : Writer) (a : Nat) (l : List Byte) : (s.putFrom w a l).resp = s.resp := by simp [State.putFrom]
@[simp] theorem State.collectBytes_resp (entry cseq addr n : Nat) : (s.collectBytes entry cseq addr n).resp = s.resp := (rfl)
@[simp] theorem State.enterMember_resp (entry cseq n : Nat) : (s.enterMember entry cseq n).resp = s.resp := (rfl)
@[simp] theorem State.fpCell_resp (i : Inst) (l : Leg) : (s.fpCell i l).resp = s.resp := by simp [State.fpCell]
@[simp] theorem State.sendFp_resp (i : Inst) (l : Leg) : (s.sendFp i l).1.resp = s.resp := by simp [State.sendFp]
@[simp] theorem State.checkFps_resp (i : Inst) : (s.checkFps i).1.resp = s.resp := by
  unfold State.checkFps
  dsimp only
  (repeat' split) <;> simp
@[simp] theorem State.putInst_resp (i : Inst) : (s.putInst i).resp = s.resp := (rfl)
@[simp] theorem State.meet_resp (a n cls : Nat) (write : Bool) : (s.meet a n cls write).1.resp = s.resp := by
  unfold State.meet
  refine State.foldl_resp1 (fun q b => ?_) _ _
  split
  · rfl
  · split <;> simp

@[simp] theorem State.flits_resp (die dir n : Nat) : (s.flits die dir n).resp = s.resp := by simp [State.flits]
@[simp] theorem State.servedBurst_resp (a n cls : Nat) (write aged : Bool) : (s.servedBurst a n cls write aged).resp = s.resp := by simp [State.servedBurst]
@[simp] theorem State.served_resp (a n cls : Nat) (write : Bool) : (s.served a n cls write).resp = s.resp := by simp [State.served]
@[simp] theorem State.readFrom_resp (me : Page) (info a n cls : Nat) : (s.readFrom me info a n cls).1.resp = s.resp := by
  simp only [State.readFrom]
  split <;> simp
@[simp] theorem State.contribute_resp (i : Inst) (n : Nat) : (s.contribute i n).1.resp = s.resp := by
  unfold State.contribute
  split
  · rfl
  · dsimp only
    split
    · split
      case h_1 t code heq =>
        show t.resp = s.resp
        split at heq
        · rw [← State.readFrom_resp s, heq]
        · cases heq
      case h_2 t heq =>
        show t.resp = s.resp
        split at heq
        · rw [← State.readFrom_resp s, heq]
        · cases heq
          rfl
    · rfl

@[simp] theorem State.segOut_resp (i : Inst) (l : Leg) (n : Nat) (cells : List Piece) : (s.segOut i l n cells).resp = s.resp := by simp [State.segOut]
@[simp] theorem State.sendSeg_resp (i : Inst) (l : Leg) (n : Nat) (cells : List Piece) : (s.sendSeg i l n cells).1.resp = s.resp := by simp [State.sendSeg]
@[simp] theorem State.stepRing_resp (i : Inst) (n : Nat) : (s.stepRing i n).1.resp = s.resp := by simp [State.stepRing]
@[simp] theorem State.stepTree_resp (i : Inst) (n : Nat) : (s.stepTree i n).1.resp = s.resp := by
  unfold State.stepTree
  dsimp only
  split <;> split <;> simp
@[simp] theorem State.pump_resp (i : Inst) (k : Nat) : (s.pump i k).1.resp = s.resp := by
  induction k generalizing s i with
  | zero => rfl
  | succ k ih =>
    unfold State.pump
    have hstep (l : List Nat) : (l.foldl (fun (x : State × Inst) n =>
        if (s.collEntry i.entry).ring then x.1.stepRing x.2 n else x.1.stepTree x.2 n) (s, i)).1.resp = s.resp :=
      State.foldl_resp1 (fun q n => by split <;> simp) l (s, i)
    by_cases ha : (!i.accepted) = true
    · rw [if_pos ha]
    · rw [if_neg ha, State.resp_ite1, ih, ite_self]
      exact hstep _

@[simp] theorem State.cack_resp (i : Inst) (l : Leg) : (s.cack i l).1.resp = s.resp := by
  unfold State.cack
  dsimp only
  split
  · exact State.legCell_resp ..
  · rfl

@[simp] theorem State.relCacks_resp (i : Inst) : (s.relCacks i).1.resp = s.resp := by simp [State.relCacks]
@[simp] theorem State.settleInst_resp (i : Inst) : (s.settleInst i).1.resp = s.resp := by
  simp only [State.settleInst]
  split <;> simp
@[simp] theorem State.touchInst_resp (i : Inst) : (s.touchInst i).1.resp = s.resp := by
  simp only [State.touchInst]
  split <;> simp
@[simp] theorem State.touchFresh_resp : (s.touchFresh).1.resp = s.resp := by simp [State.touchFresh]
@[simp] theorem State.touchEntry_resp (entry : Nat) : (s.touchEntry entry).1.resp = s.resp := by
  simp only [State.touchEntry]
  split <;> simp
@[simp] theorem State.apply_resp (e : Effect) : (s.apply e).resp = s.resp := by
  cases e with
  | copy | put =>
    unfold State.apply
    dsimp only
    split <;> simp
  | burst =>
    unfold State.apply
    dsimp only
    split <;> simp
  | abort p code a i g =>
    unfold State.apply
    dsimp only
    split
    · cases g <;> simp
    · rfl
  | enter e q n =>
    unfold State.apply
    dsimp only
    have ht := (s.enterMember e q n).touchEntry_resp e
    split
    case h_1 heq => rw [State.abortFrame_resp, ← s.enterMember_resp e q n, ← ht, heq]
    case h_2 heq => rw [← s.enterMember_resp e q n, ← ht, heq]
  | _ => simp [State.apply]

@[simp] theorem State.settlePart_resp (reads : Bool) : (s.settlePart reads).resp = s.resp := by simp [State.settlePart]
@[simp] theorem State.degraded_resp : (s.degraded).resp = s.resp := by
  unfold State.degraded
  refine State.foldl_resp (fun t n => ?_) _ _
  dsimp only
  split
  · split <;> rfl
  · rfl

@[simp] theorem State.lastSat_resp (pg : Page) (p : Pass) (scale : Nat) : (s.lastSat pg p scale).resp = s.resp := (rfl)
@[simp] theorem State.commitPass_resp (p : Pass) : (s.commitPass p).resp = s.resp := by
  have hcounted : (s.landedCounted p).resp = s.resp := by simp [State.landedCounted, State.landed]
  have hdescribed (v : State) : (v.described p).resp = v.resp := by
    unfold State.described
    dsimp only
    split <;> rfl
  cases h : p.satRow with
  | none => rw [State.commitPass_of_clean h, hdescribed, hcounted]
  | some r =>
    rw [State.commitPass_of_saturated h, State.satLimited, State.raise_resp, State.foldl_resp fun _ _ => State.lastSat_resp .., State.bump_resp,
      hdescribed, hcounted]

@[simp] theorem State.startReplay_resp (p : Pass) : (s.startReplay p).resp = s.resp := by simp [State.startReplay]
@[simp] theorem State.commits_resp : (s.commits).resp = s.resp := by simp [State.commits]
@[simp] theorem State.settleReads_resp : (s.settleReads).resp = s.resp := by simp [State.settleReads]
@[simp] theorem State.runCulm_resp (c : CulmOp) : (s.runCulm c).resp = s.resp := by
  unfold State.runCulm
  dsimp only
  split
  · exact State.frameDenied_resp ..
  · split
    · refine (State.foldl_resp (fun _ _ => State.raise_resp ..) _ _).trans ?_
      simp
    · split
      · simp
      · simp

@[simp] theorem State.readCulms_resp : (s.readCulms).resp = s.resp := by simp [State.readCulms]
@[simp] theorem State.readMove_resp (m : Move) : (s.readMove m).resp = s.resp := by simp [State.readMove]
@[simp] theorem State.readMoves_resp : (s.readMoves).resp = s.resp := by simp [State.readMoves]
@[simp] theorem State.laterBytes_resp (cycle a : Nat) (l : List Byte) (half : Bool) : (s.laterBytes cycle a l half).resp = s.resp := by simp [State.laterBytes]
@[simp] theorem State.laterEach_resp (cycle : Nat) (l : List Page) (f : Page → Effect) : (s.laterEach cycle l f).resp = s.resp :=
  State.foldl_resp (fun _ _ => State.later_resp ..) _ _
@[simp] theorem State.finishChain_resp (c : Chain) : (s.finishChain c).resp = s.resp := by simp [State.finishChain]
@[simp] theorem State.readChain_resp (c : Chain) : (s.readChain c).resp = s.resp := by simp [State.readChain]
@[simp] theorem State.readChains_resp : (s.readChains).resp = s.resp := by simp [State.readChains]
@[simp] theorem State.readLoads_resp : (s.readLoads).resp = s.resp := (rfl)
@[simp] theorem State.readPasses_resp : (s.readPasses).resp = s.resp := (rfl)
@[simp] theorem State.reads_resp : (s.reads).resp = s.resp := by simp [State.reads]
@[simp] theorem State.cycleWork_resp : (s.cycleWork).resp = s.resp := by
  unfold State.cycleWork
  dsimp only
  split
  · split <;> simp
  · simp

@[simp] theorem State.endReplays_resp : (s.endReplays).resp = s.resp := (rfl)
@[simp] theorem State.replayReads_resp (wall : Nat) : (s.replayReads wall).resp = s.resp := (rfl)
@[simp] theorem State.thaw_resp (wall : Nat) : (s.thaw wall).resp = s.resp := by
  rw [State.thaw, State.cycleWork_resp, State.endReplays_resp, State.endFreezes_resp, State.replayReads_resp]

@[simp] theorem State.waitTo_resp (wall : Nat) : (s.waitTo wall).resp = s.resp := (rfl)
@[simp] theorem State.runTo_resp (n target : Nat) : (s.runTo n target).resp = s.resp := by
  induction n generalizing s with
  | zero => rfl
  | succ n ih =>
    unfold State.runTo
    split
    · rfl
    · split <;> simp [ih]

@[simp] theorem State.passTo_resp (n t : Nat) : (s.passTo n t).resp = s.resp := by
  induction n generalizing s with
  | zero => rfl
  | succ n ih =>
    unfold State.passTo
    split
    · rfl
    · split
      · rfl
      · split
        · dsimp only
          split
          · split
            · simp [ih]
            · split <;> simp [ih]
          · split <;> simp [ih]
        · simp [ih]

@[simp] theorem State.passTime_resp (t : Nat) : (s.passTime t).resp = s.resp := by simp [State.passTime]
@[simp] theorem State.setDom_resp (n hi lo v : Nat) : (s.setDom n hi lo v).resp = s.resp := (rfl)
@[simp] theorem State.requestPower_resp (n v : Nat) : (s.requestPower n v).resp = s.resp := by
  unfold State.requestPower
  dsimp only
  (repeat' split) <;> simp
@[simp] theorem State.sendWakes_resp (mask : Nat) : (s.sendWakes mask).resp = s.resp := by simp [State.sendWakes]
@[simp] theorem State.stbSync_resp : (s.stbSync).resp = s.resp := (rfl)
@[simp] theorem State.recount_resp (o : Nat) : (s.recount o).resp = s.resp := by simp [State.recount]
@[simp] theorem State.releaseCell_resp (a : Arrived) : (s.releaseCell a).resp = s.resp := by simp [State.releaseCell]
@[simp] theorem State.portFell_resp (p : Nat) : (s.portFell p).resp = s.resp := by simp [State.portFell]
@[simp] theorem State.portSync_resp (p : Nat) : (s.portSync p).resp = s.resp := by simp [State.portSync]
@[simp] theorem State.portTrain_resp (p : Nat) : (s.portTrain p).resp = s.resp := by simp [State.portTrain]
@[simp] theorem State.echoGo_resp (v : Nat) : (s.echoGo v).resp = s.resp := by simp [State.echoGo]
@[simp] theorem State.mgmtGo_resp (v : Nat) : (s.mgmtGo v).resp = s.resp := by simp [State.mgmtGo]
@[simp] theorem State.mgmtPop_resp (v : Nat) : (s.mgmtPop v).resp = s.resp := by simp [State.mgmtPop]
@[simp] theorem State.takeRead_resp (me : Page) (info cls a n : Nat) : (s.takeRead me info cls a n).1.resp = s.resp := by
  simp only [State.takeRead]
  split <;> simp
@[simp] theorem State.seedState_resp (n : Nat) : (s.seedState n).resp = s.resp := (rfl)
@[simp] theorem State.ringErr_resp (d k a : Nat) (write : Bool) (ecc : List BurstEvent) : (s.ringErr d k a write ecc).1.resp = s.resp := by
  simp only [State.ringErr]
  split <;> simp
@[simp] theorem State.ringAccess_resp (d k a n : Nat) (write : Bool) (ecc : List BurstEvent) : (s.ringAccess d k a n write ecc).1.resp = s.resp := by
  simp only [State.ringAccess]
  split <;> simp
@[simp] theorem State.servedPart_resp (a n cls : Nat) : (s.servedPart a n cls).resp = s.resp := by simp [State.servedPart]
@[simp] theorem State.servedWrite_resp (a n cls : Nat) : (s.servedWrite a n cls).resp = s.resp := by simp [State.servedWrite]
@[simp] theorem State.placeBytes_resp (a : Nat) (l : List Byte) : (s.placeBytes a l).resp = s.resp := by
  simp only [State.placeBytes]
  split <;> simp
@[simp] theorem State.countHeader_resp (a : Nat) : (s.countHeader a).resp = s.resp := by simp [State.countHeader]
@[simp] theorem State.lostRecord_resp (d : Nat) (x : Denial) (ecc : List BurstEvent) : (s.lostRecord d x ecc).resp = s.resp := by
  unfold State.lostRecord
  dsimp only
  split
  case h_1 t heq =>
    have ht := congrArg (fun q : State × Option Denial => q.1.resp) heq
    simpa [eq_comm] using ht
  case h_2 t _ heq =>
    have ht := congrArg (fun q : State × Option Denial => q.1.resp) heq
    simpa [eq_comm] using ht

@[simp] theorem State.drasBlock_resp (die : Nat) : (s.drasBlock die).resp = s.resp := by simp [State.drasBlock]
@[simp] theorem State.failing_resp (f : DrasFind) : (s.failing f).2.resp = s.resp := by
  simp only [State.failing]
  split <;> simp
@[simp] theorem State.connResult_resp (die site ch : Nat) (bad : List Nat) : (s.connResult die site ch bad).resp = s.resp :=
  State.foldl_resp (fun _ _ => State.wr_resp ..) _ _
@[simp] theorem State.applyStackRepairs_resp (k : Nat) : (s.applyStackRepairs k).resp = s.resp := (rfl)
@[simp] theorem State.setWindow_resp (off : Nat) (l : List Byte) : (s.setWindow off l).resp = s.resp := State.foldl_resp (fun _ _ => State.wr_resp ..) _ _
@[simp] theorem State.drasRead_resp (die : Nat) (x : DrasTarget) (raw : Bool) (l : List Nat) : (s.drasRead die x raw l).1.resp = s.resp := by
  simp [State.drasRead]
@[simp] theorem State.drasWrite_resp (die : Nat) (x : DrasTarget) : (s.drasWrite die x).resp = s.resp := State.foldl_resp (fun _ _ => State.setCell_resp ..) _ _
@[simp] theorem State.failBits_resp (f : DrasFind) : (s.failBits f).2.resp = s.resp := by
  simp only [State.failBits]
  split <;> simp
@[simp] theorem State.drasAction_resp (die op site : Nat) (raw : Bool) (f : DrasFind) : (s.drasAction die op site raw f).1.resp = s.resp := by
  simp [State.drasAction]
@[simp] theorem State.drasCommand_resp (die v : Nat) (f : DrasFind) : (s.drasCommand die v f).resp = s.resp := by simp [State.drasCommand]
@[simp] theorem State.waiterDone_resp (a : Waiter) : (s.waiterDone a).resp = s.resp := by
  simp only [State.waiterDone]
  split <;> simp
@[simp] theorem State.wake_resp : (s.wake).resp = s.resp := by
  unfold State.wake
  dsimp only
  (repeat' split) <;> simp
@[simp] theorem State.burstMeets_resp (a cls : Nat) (write : Bool) (e : Option BurstErr) : (s.burstMeets a cls write e).1.resp = s.resp := by
  simp only [State.burstMeets]
  split <;> simp
@[simp] theorem State.noteServed_resp (x : Transfer) (a : Access) : (s.noteServed x a).resp = s.resp := by simp [State.noteServed]

/-! ## Answers of register accesses -/

/-- An error that a state answers has the code of some cause (R33). -/
structure State.CodedAnswer (s : State) : Prop where
  ne_zero : s.resp ≠ .error 0

theorem errCode_ne_zero (c : Cause) (k : PageKind) : errCode c k ≠ 0 := by
  have hk : 0 < k.code := by cases k <;> decide
  rw [errCode]
  omega

variable {s}

theorem State.CodedAnswer.of_resp_eq {t : State} (h : s.CodedAnswer) (he : t.resp = s.resp) : t.CodedAnswer := ⟨he ▸ h.ne_zero⟩

theorem State.CodedAnswer.ite {c : Prop} [Decidable c] {x y : State} (hx : x.CodedAnswer) (hy : y.CodedAnswer) : (if c then x else y).CodedAnswer := by
  split <;> assumption

theorem State.deny_codedAnswer (s : State) (p : Page) (c : Cause) (addr : Option Nat) (info : Nat) : (s.deny p c addr info).CodedAnswer :=
  ⟨fun h => errCode_ne_zero c p.kind (Response.error.inj h)⟩

section
variable (h : s.CodedAnswer)
include h

theorem State.plainWrite_codedAnswer (p : Page) (o : Nat) (v : Word) : (s.plainWrite p o v).CodedAnswer := by
  unfold State.plainWrite
  split
  · exact h
  · exact .ite (State.deny_codedAnswer ..) (h.of_resp_eq (by simp))

theorem State.headerWrite_codedAnswer (p : Page) (o : Nat) (v : Word) : (s.headerWrite p o v).CodedAnswer := by
  unfold State.headerWrite
  refine .ite (h.of_resp_eq (by simp)) (.ite (h.of_resp_eq (by simp)) (.ite (h.of_resp_eq (by simp)) (.ite ?_
    (.ite (h.of_resp_eq (by simp)) (State.plainWrite_codedAnswer h ..)))))
  split <;> exact h.of_resp_eq (by simp)

/-- A write through the device addresses of register space, which may not reset the module (R377). -/
theorem State.hubWrite_codedAnswer (me : Page) (o : Nat) (v : Word) : (s.hubWrite (.inside me) o v).CodedAnswer := by
  have hplain (v : Word) := State.plainWrite_codedAnswer h Pg.hub o v
  have hrefused : (s.writeRefused Pg.hub).CodedAnswer := State.deny_codedAnswer ..
  exact .ite (.ite h hrefused) (.ite (.ite (hplain v) hrefused) (.ite (hplain _) (.ite (hplain _) (.ite (.ite (hplain v) hrefused) (hplain v)))))

theorem State.stbWrite_codedAnswer (o : Nat) (v : Word) : (s.stbWrite o v).CodedAnswer := by
  have hplain := State.plainWrite_codedAnswer h Pg.stb o v
  exact .ite (h.of_resp_eq (by simp)) (.ite (hplain.of_resp_eq (by simp)) hplain)

theorem State.ringCfg_codedAnswer (port ring : Nat) (cq : Bool) (v : Word) : (s.ringCfg port ring cq v).CodedAnswer :=
  .ite (State.deny_codedAnswer ..) (h.of_resp_eq (by simp))

theorem State.pcieWrite_codedAnswer (via : Via) (n o : Nat) (v : Word) : (s.pcieWrite via n o v).CodedAnswer := by
  have hplain := State.plainWrite_codedAnswer h (Pg.pcie n) o v
  have hbase (ring x : Nat) (cq : Bool) : (s.ringBase n ring cq x v).CodedAnswer := .ite (State.deny_codedAnswer ..) (h.of_resp_eq (by simp))
  have htail (ring : Nat) : (s.ringTail n ring v).CodedAnswer := h.of_resp_eq (by simp [State.ringTail])
  exact .ite (h.of_resp_eq (by simp [State.handoverGo])) (.ite (.ite (State.ringCfg_codedAnswer h ..) (.ite (State.ringCfg_codedAnswer h ..)
    (.ite (hbase ..) (.ite (hbase ..) (.ite (htail _) hplain))))) hplain)

theorem State.fabWrite_codedAnswer (n o : Nat) (v : Word) : (s.fabWrite n o v).CodedAnswer := by
  have hplain := State.plainWrite_codedAnswer h (Pg.fab n) o v
  have hrefused : (s.writeRefused (Pg.fab n)).CodedAnswer := State.deny_codedAnswer ..
  exact .ite (hplain.of_resp_eq (by simp)) (.ite (.ite hplain hrefused) hplain)

theorem State.rteWrite_codedAnswer (o : Nat) (v : Word) : (s.rteWrite o v).CodedAnswer := by
  have hplain (v : Word) := State.plainWrite_codedAnswer h Pg.rte o v
  have hrefused : (s.writeRefused Pg.rte).CodedAnswer := State.deny_codedAnswer ..
  exact .ite (.ite (hplain _) hrefused) (.ite (hplain _) (.ite (hplain _) (.ite (hplain _) (.ite (h.of_resp_eq (by simp))
    (.ite (h.of_resp_eq (by simp)) (.ite (h.of_resp_eq (by simp)) (hplain v)))))))

theorem State.seedCommand_codedAnswer (op len : Nat) : (s.seedCommand op len).CodedAnswer :=
  .ite (h.of_resp_eq (by simp)) (.ite (h.of_resp_eq (by simp)) h)

theorem State.tradeWrite_codedAnswer (o : Nat) (v : Word) : (s.tradeWrite o v).CodedAnswer := by
  have hplain (v : Word) := State.plainWrite_codedAnswer h Pg.trade o v
  have hrefused : (s.writeRefused Pg.trade).CodedAnswer := State.deny_codedAnswer ..
  exact .ite (.ite hrefused (hplain _)) (.ite (hplain _) (.ite (hplain _) (.ite (State.seedCommand_codedAnswer h ..) (hplain v))))

theorem State.ringControl_codedAnswer (d : Nat) (v : Word) : (s.ringControl d v).CodedAnswer := by
  unfold State.ringControl
  refine .ite (h.of_resp_eq (by simp)) (.ite (State.deny_codedAnswer ..) ?_)
  dsimp only
  split <;> exact h.of_resp_eq (by simp)

theorem State.drasWriteReg_codedAnswer (d o : Nat) (v : Word) (f : DrasFind) : (s.drasWriteReg d o v f).CodedAnswer :=
  .ite (h.of_resp_eq (by simp)) (.ite (State.deny_codedAnswer ..) (State.plainWrite_codedAnswer h ..))

theorem State.culmWrite_codedAnswer (p : Page) (o : Nat) (v : Word) (f : DrasFind) (me : Page) (hk : p.kind = .culm) :
    (s.pageWrite (.inside me) p o v f).CodedAnswer := by
  have hplain := State.plainWrite_codedAnswer h p o v
  have hhdr (d o : Nat) (v : Word) : (s.ringHdrWrite d o v).CodedAnswer := .ite (State.deny_codedAnswer ..) (h.of_resp_eq (by simp))
  unfold State.pageWrite
  rw [hk]
  exact .ite h (.ite (State.ringControl_codedAnswer h ..) (.ite (hhdr ..) hplain))

theorem State.pageWrite_codedAnswer (me : Page) (p : Page) (o : Nat) (v : Word) (f : DrasFind) : (s.pageWrite (.inside me) p o v f).CodedAnswer := by
  have hplain (v : Word) := State.plainWrite_codedAnswer h p o v
  cases hk : p.kind
  case culm => exact State.culmWrite_codedAnswer h p o v f me hk
  all_goals unfold State.pageWrite; rw [hk]
  case hub => exact State.hubWrite_codedAnswer h ..
  case sec => exact .ite (h.of_resp_eq (by simp [State.secCommand])) (hplain v)
  case stb => exact State.stbWrite_codedAnswer h ..
  case clk => exact .ite h ((hplain v).of_resp_eq (by simp))
  case pcie => exact State.pcieWrite_codedAnswer h ..
  case fab => exact State.fabWrite_codedAnswer h ..
  case rte => exact State.rteWrite_codedAnswer h ..
  case grn => exact .ite (h.of_resp_eq (by simp [State.grnCommand])) (hplain v)
  case trade => exact State.tradeWrite_codedAnswer h ..
  case tlr => exact .ite h (hplain v)
  case dras => exact State.drasWriteReg_codedAnswer h ..
  all_goals exact hplain _

theorem State.stbWindowWrite_codedAnswer (off : Nat) (v : Word) : (s.stbWindowWrite off v).CodedAnswer :=
  .ite (State.deny_codedAnswer ..) (h.of_resp_eq (by simp))

theorem State.windowWrite_codedAnswer (w : Window) (off o : Nat) (v : Word) : (s.windowWrite w off o v).CodedAnswer := by
  cases w
  case collTable => exact .ite (State.deny_codedAnswer ..) (h.of_resp_eq (by simp))
  case stbConds | stbRules | stbGroups => exact State.stbWindowWrite_codedAnswer h ..
  all_goals exact h.of_resp_eq (by simp [State.windowWrite, State.domainWrite])

theorem State.writeWord_codedAnswer (me : Page) (off : Nat) (v : Word) (f : DrasFind) : (s.writeWord (.inside me) off v f).CodedAnswer := by
  unfold State.writeWord
  split
  · exact .ite (State.headerWrite_codedAnswer h ..) (State.pageWrite_codedAnswer h ..)
  · split
    · exact State.windowWrite_codedAnswer h ..
    · exact h

/-- A write through the device addresses of register space. -/
theorem State.busWrite_codedAnswer (me : Page) (off : Nat) (v : Word) (f : DrasFind) : (s.busWrite (.inside me) off v f).CodedAnswer := by
  refine .ite h ?_
  dsimp only [State.standbyBlocks]
  split
  · exact State.deny_codedAnswer ..
  · exact State.writeWord_codedAnswer ⟨by simp⟩ ..

/-- A read through the device addresses of register space. -/
theorem State.busRead_codedAnswer (me : Page) (off : Nat) : (s.busRead (.inside me) off).CodedAnswer := by
  refine .ite h ?_
  split
  · exact State.deny_codedAnswer ..
  · exact ⟨by simp⟩

end

end Sys2Proof.Machine
end

section
/-!
SUPPORT. What an access of an unscheduled transfer moves and holds, and that the failure which ends it has a code (R284, R301, R302).
-/
namespace Sys2Proof.Machine

variable {s : State}

/-! ## Accesses of a transfer -/

theorem State.aliasFail_code (h : s.CodedAnswer) {a : Nat} {f : ChunkFail} (hf : s.aliasFail a = some f) : f.code ≠ 0 := by
  unfold State.aliasFail at hf
  split at hf
  case h_1 c hc =>
    cases hf
    exact fun h0 => h.ne_zero (h0 ▸ hc)
  case h_2 => cases hf

theorem State.burstFails_code {a : Nat} {write : Bool} {e : BurstErr} {c : Nat} (h : s.burstFails a write e = some c) : c ≠ 0 := by
  unfold State.burstFails at h
  split at h
  · split at h <;> cases h
    exact errCode_ne_zero _ _
  · split at h <;> cases h
    exact errCode_ne_zero _ _
  · cases h

theorem State.burstMeets_code {a cls : Nat} {write : Bool} {e : Option BurstErr} {f : ChunkFail} (h : (s.burstMeets a cls write e).2 = some f) : f.code ≠ 0 := by
  cases e with
  | none => cases h
  | some x =>
    obtain ⟨c, hc, rfl⟩ := Option.map_eq_some_iff.1 h
    exact State.burstFails_code hc

@[simp] theorem State.fetchBytes_resp (s : State) (a n : Nat) : (s.fetchBytes a n).2.resp = s.resp := by
  unfold State.fetchBytes
  split <;> rfl

theorem State.fetchBytes_length (s : State) (a n : Nat) : (s.fetchBytes a n).1.length = n := by
  unfold State.fetchBytes
  split <;> simp [State.bytesAt]

theorem leBytes_length (n v : Nat) : (leBytes n v).length = n := by
  induction n generalizing v with
  | zero => rfl
  | succ n ih => simp [leBytes, ih]

/-- What a part of a chunk leaves of a transfer: without a failure it has moved or holds n bytes more, a failure has a code, and so has what the state answers. -/
structure Moved.Carries (m : Moved) (x : Transfer) (n : Nat) : Prop where
  sum : m.fail = none → m.moved + m.held.length = x.moved + n
  code : ∀ f, m.fail = some f → f.code ≠ 0
  coded : m.state.CodedAnswer

theorem State.chunkDenied_code {d : Denial} {f : ChunkFail} (h : (s.chunkDenied d).2 = some f) : f.code ≠ 0 := by
  cases h
  exact errCode_ne_zero _ _

theorem State.chunkDenied_coded (h : s.CodedAnswer) (d : Denial) : (s.chunkDenied d).1.CodedAnswer := h.of_resp_eq (by simp [State.chunkDenied])

theorem State.chunkDenied_carries (h : s.CodedAnswer) (d : Denial) (moved : Nat) (held : List Byte) (x : Transfer) (n : Nat) :
    (⟨(s.chunkDenied d).1, moved, held, (s.chunkDenied d).2⟩ : Moved).Carries x n :=
  ⟨fun hf => (by cases hf), fun _ hf => State.chunkDenied_code (s := s) hf, State.chunkDenied_coded h d⟩

/-- The read of a piece. -/
theorem State.readPiece_carries (h : s.CodedAnswer) (me : Page) (info cls a n : Nat) (aged : Bool) (e : Option BurstErr) (x : Transfer) :
    let r := s.readPiece me info cls a n aged e
    (⟨r.2.1, x.moved, r.1, r.2.2⟩ : Moved).Carries x n := by
  unfold State.readPiece
  split
  · split
    · exact State.chunkDenied_carries h ..
    case isFalse hn =>
      refine ⟨fun _ => ?_, fun f hf => State.aliasFail_code (State.busRead_codedAnswer h ..) hf, ⟨h.ne_zero⟩⟩
      dsimp only
      rw [Decidable.not_not.1 hn]
      split <;> rw [leBytes_length]
  · split
    · exact State.chunkDenied_carries h ..
    · have hr : ((s.servedBurst a n cls false aged).burstMeets a cls false e).1.resp = s.resp := by simp
      split
      case h_1 t f heq =>
        rw [heq] at hr
        exact ⟨fun hf => (by cases hf), fun f' hf => (by cases hf; exact State.burstMeets_code (congrArg Prod.snd heq)), h.of_resp_eq hr⟩
      case h_2 t heq =>
        rw [heq] at hr
        exact ⟨fun _ => congrArg (x.moved + ·) (State.fetchBytes_length ..), fun f hf => (by cases hf), h.of_resp_eq ((State.fetchBytes_resp ..).trans hr)⟩

theorem State.writePiece_code (h : s.CodedAnswer) (me : Page) (info cls a : Nat) (l : List Byte) (aged : Bool) (e : Option BurstErr) :
    (s.writePiece me info cls a l aged e).1.CodedAnswer ∧ ∀ f, (s.writePiece me info cls a l aged e).2 = some f → f.code ≠ 0 := by
  unfold State.writePiece
  split
  · split
    · exact ⟨State.chunkDenied_coded h _, fun _ => State.chunkDenied_code⟩
    · exact ⟨⟨h.ne_zero⟩, fun f hf => State.aliasFail_code (State.busWrite_codedAnswer h ..) hf⟩
  · split
    · exact ⟨State.chunkDenied_coded h _, fun _ => State.chunkDenied_code⟩
    · have hr : (((s.servedBurst a l.length cls true aged).servedPart a l.length cls).burstMeets a cls true e).1.resp = s.resp := by simp
      split
      case h_1 t f heq =>
        rw [heq] at hr
        exact ⟨h.of_resp_eq hr, fun f' hf => (by cases hf; exact State.burstMeets_code (congrArg Prod.snd heq))⟩
      case h_2 t heq =>
        rw [heq] at hr
        exact ⟨h.of_resp_eq ((State.placeBytes_resp ..).trans hr), fun f hf => (by cases hf)⟩

theorem State.copyRead_carries (h : s.CodedAnswer) (x : Transfer) (aged : Bool) (re : Option BurstErr) :
    (s.copyRead x aged re).Carries x (chunkLen (x.len - x.moved) (x.src + x.moved) (x.dst + x.moved)) := by
  unfold State.copyRead
  dsimp only
  split
  · exact State.chunkDenied_carries h ..
  · exact State.readPiece_carries h ..

theorem State.copyWrite_carries (h : s.CodedAnswer) (x : Transfer) (aged : Bool) (we : Option BurstErr) : (s.copyWrite x aged we).Carries x x.held.length := by
  obtain ⟨hc, hf⟩ := State.writePiece_code h (s.issuerOf x.issuer).1 (s.issuerOf x.issuer).2 x.cls (x.dst + x.moved) x.held aged we
  unfold State.copyWrite
  dsimp only
  split
  case h_1 t f heq =>
    rw [heq] at hc hf
    exact ⟨fun hn => (by cases hn), fun f' hf' => (by cases hf'; exact hf f rfl), hc⟩
  case h_2 t heq =>
    rw [heq] at hc
    exact ⟨fun _ => rfl, fun f hf => (by cases hf), hc⟩

/-- The bytes that the next access of a copy moves or holds. -/
def Transfer.nextLen (x : Transfer) : Nat :=
  if x.held = [] then chunkLen (x.len - x.moved) (x.src + x.moved) (x.dst + x.moved) else x.held.length

/-- A transfer that is no Granary command's copies from SRC to DST. -/
def Transfer.Copies (x : Transfer) : Prop := x.issuer ≠ .checkpoint ∧ x.issuer ≠ .restore

theorem State.access_of_copies {x : Transfer} (hx : x.Copies) (limit : Nat) (aged : Bool) (re we : Option BurstErr) :
    s.access x limit aged re we = if x.held = [] then s.copyRead x aged re else s.copyWrite x aged we := by
  obtain ⟨h1, h2⟩ := hx
  unfold State.access
  split
  · exact absurd ‹_› h1
  · exact absurd ‹_› h2
  · exact if_congr List.isEmpty_iff rfl rfl

theorem State.access_carries (h : s.CodedAnswer) {x : Transfer} (hx : x.Copies) (limit : Nat) (aged : Bool) (re we : Option BurstErr) :
    (s.access x limit aged re we).Carries x x.nextLen := by
  rw [State.access_of_copies hx, Transfer.nextLen]
  split
  · exact State.copyRead_carries h ..
  · exact State.copyWrite_carries h ..

/-- A transfer that no error has ended has what its access moved and holds. -/
theorem Moved.Carries.settle {m : Moved} {x : Transfer} {n : Nat} (h : m.Carries x n) (he : (m.settle x).2.err = 0) :
    m.fail = none ∧ (m.settle x).1 = m.state ∧ (m.settle x).2.issuer = x.issuer ∧ (m.settle x).2.held = m.held
      ∧ (m.settle x).2.moved + (m.settle x).2.held.length = x.moved + n := by
  unfold Moved.settle at he ⊢
  cases hf : m.fail with
  | some f =>
    rw [hf] at he
    exact absurd he (h.code f hf)
  | none => exact ⟨rfl, rfl, rfl, rfl, h.sum hf⟩

/-- The accesses of a grant: the bytes moved and held grow by the first of them, and a write that follows at once moves what was held. -/
theorem State.serve_sum (h : s.CodedAnswer) {x : Transfer} (hx : x.Copies) {aged : Bool} {re we : Option BurstErr} (he : (s.serve x aged re we).2.err = 0) :
    (s.serve x aged re we).2.moved + (s.serve x aged re we).2.held.length = x.moved + x.nextLen := by
  have hfirst := State.access_carries h hx x.len aged re we
  unfold State.serve at he ⊢
  dsimp only at he ⊢
  split at he
  case isFalse hc =>
    rw [if_neg hc]
    exact (hfirst.settle he).2.2.2.2
  case isTrue hc =>
    rw [if_pos hc]
    obtain ⟨-, hstate, hissuer, -, hsum⟩ := hfirst.settle hc.1
    generalize hq : (s.access x x.len aged re we).settle x = q at *
    have hcopies : q.2.Copies := by rwa [Transfer.Copies, hissuer]
    have hheld : q.2.held ≠ [] := by simpa using hc.2.1
    have hsecond := (State.access_carries (hstate ▸ hfirst.coded) hcopies x.len aged re we).settle he
    rw [hsecond.2.2.2.2, Transfer.nextLen, if_neg hheld, hsum]

end Sys2Proof.Machine
end

section
/-!
SUPPORT. The accesses and the ends of unscheduled transfers (R284, R288, R408, R549, R552), and the theorem that settles O46.
-/
namespace Sys2Proof.Machine

variable {s : State} {x : Transfer}

theorem State.begin_passTime (s : State) (t : Nat) : s.begin.passTime t = s.atTime t := rfl

theorem State.atTime_codedAnswer (s : State) (t : Nat) : (s.atTime t).CodedAnswer := ⟨by simp [State.atTime, State.begin]⟩

/-- The next access of a copy has the bytes by which the copy grows. -/
theorem State.nextAccess_nextLen {a : Access} (hx : x.Copies) (h : s.nextAccess x = some a) : x.nextLen = if x.held = [] then a.len else x.held.length := by
  obtain ⟨h1, h2⟩ := hx
  unfold State.nextAccess at h
  unfold Transfer.nextLen
  split at h
  · cases h
  · split at h
    · exact absurd ‹_› h1
    · exact absurd ‹_› h2
    · split at h
      case isTrue hheld =>
        cases h
        rfl
      case isFalse hheld =>
        rw [if_neg (fun h0 => hheld (List.isEmpty_iff.2 h0)), if_neg (fun h0 => hheld (List.isEmpty_iff.2 h0))]

/-- What the next access of a running transfer leaves: it is denied, waits, or is served. -/
def State.burst (s : State) (x : Transfer) (a : Access) (re we : Option BurstErr) : State :=
  if s.turnedAway x a then
    let q := s.serve x false re we
    q.1.setTransfer q.2
  else match (if s.stalled x then none else s.grants x a) with
    | none => s
    | some aged =>
      let q := (s.noteServed x a).serve x aged re we
      (q.1.setTransfer q.2).progress q.2

section Bursts

variable {t id : Nat} {re we : Option BurstErr} {a : Access}

theorem exec_unscheduledBurst_of_gone (h : (s.atTime t).transfer? id = none) : exec (.unscheduledBurst t id re we) s = .next (s.atTime t) := by
  show execUnscheduledBurst t id re we s = _
  unfold execUnscheduledBurst
  simp only [State.begin_passTime, h]

theorem exec_unscheduledBurst_of_idle (h : (s.atTime t).transfer? id = some x) (ha : (s.atTime t).nextAccess x = none) :
    exec (.unscheduledBurst t id re we) s = .next (s.atTime t) := by
  show execUnscheduledBurst t id re we s = _
  unfold execUnscheduledBurst
  simp only [State.begin_passTime, h, ha]

theorem exec_unscheduledBurst_eq_burst (h : (s.atTime t).transfer? id = some x) (ha : (s.atTime t).nextAccess x = some a) :
    exec (.unscheduledBurst t id re we) s = .next ((s.atTime t).burst x a re we) := by
  show execUnscheduledBurst t id re we s = _
  unfold execUnscheduledBurst State.burst
  simp only [State.begin_passTime, h, ha] <;> rfl

theorem State.burst_of_turnedAway (h : s.turnedAway x a = true) :
    s.burst x a re we = (s.serve x false re we).1.setTransfer (s.serve x false re we).2 := if_pos h

theorem State.burst_of_waiting (h : s.turnedAway x a = false) (hw : s.stalled x = true ∨ s.grants x a = none) : s.burst x a re we = s := by
  have hnone : (if s.stalled x then none else s.grants x a) = none := by
    rcases hw with hw | hw <;> simp [hw]
  unfold State.burst
  rw [if_neg (ne_true_of_eq_false h), hnone]

theorem State.burst_of_granted {aged : Bool} (h : s.turnedAway x a = false) (hs : s.stalled x = false) (hg : s.grants x a = some aged) :
    s.burst x a re we
      = (((s.noteServed x a).serve x aged re we).1.setTransfer ((s.noteServed x a).serve x aged re we).2).progress ((s.noteServed x a).serve x aged re we).2 := by
  unfold State.burst
  rw [if_neg (ne_true_of_eq_false h), if_neg (ne_true_of_eq_false hs), hg]

end Bursts

section Ends

variable {t id : Nat} {ecc : List BurstEvent} {j : Job} {g : GrnRun}

theorem exec_xferComplete_of_running {c n : Nat} (h : (s.atTime t).transfer? id = some x) (hc : x.signal = some (c, n)) (hs : (s.atTime t).stalled x = false) :
    let r := (s.atTime t).moveAll x x.len ecc
    let v := r.1.dropTransfer id
    exec (.xferComplete t id ecc) s = .next (if r.2.err = 0 then (v.signal c n).wake else v) := by
  show execXferComplete t id ecc s = _
  unfold execXferComplete
  simp only [State.begin_passTime, h, hc, hs, Bool.false_eq_true, if_false] <;> rfl

theorem exec_dmaComplete_of_running (h : (s.atTime t).transfer? id = some x) (hj : (s.atTime t).jobOf (.dma id) = some j) (hs : (s.atTime t).stalled x = false) :
    let r := (s.atTime t).moveAll x x.len ecc
    exec (.dmaComplete t id ecc) s = .next ((r.1.dropTransfer id).endJob j r.2.err r.2.moved) := by
  show execDmaComplete t id ecc s = _
  unfold execDmaComplete
  simp only [State.begin_passTime, h, hj, hs, Bool.false_eq_true, if_false]

theorem exec_checkpointComplete_of_running (hg : (s.atTime t).grn.run = some g) (hr : g.restore = false) (h : (s.atTime t).transfer? g.transfer = some x)
    (hj : (s.atTime t).jobOf .checkpoint = some j) (hs : (s.atTime t).stalled x = false) :
    exec (.checkpointComplete t ecc) s = .next ((s.atTime t).checkpointEnd g x j ecc) := by
  show execCheckpointComplete t ecc s = _
  unfold execCheckpointComplete
  simp only [State.begin_passTime, hg, hr, h, hj, hs, Bool.false_eq_true, if_false]

theorem State.checkpointEnd_of_good (he : (s.moveAll x x.len ecc).2.err = 0) (hf : (s.moveAll x x.len ecc).1.grn.failures < 2) :
    let r := s.moveAll x x.len ecc
    let data := (r.1.grn.run.map fun q => q.data).getD g.data
    let v := r.1.setGrn (r.1.grn.update g.gen fun y => { y with committed := true, pinned := bit (g.desc.field 0x24 1) 0, data := data })
    s.checkpointEnd g x j ecc = (v.charge (r.2.len + manifestLen g.places.length r.2.len)).endGrn r.2 j 0 g.gen := by
  unfold State.checkpointEnd
  cases hq : (s.moveAll x x.len ecc).1.grn.run <;>
    simp only [he, hq, ne_eq, not_true_eq_false, if_false, if_neg (Nat.not_le.2 hf), Option.map_some, Option.map_none, Option.getD_some, Option.getD_none]

theorem State.checkpointEnd_of_degraded (he : (s.moveAll x x.len ecc).2.err = 0) (hf : 2 ≤ (s.moveAll x x.len ecc).1.grn.failures) :
    let r := s.moveAll x x.len ecc
    let v := r.1.raise Pg.grn .GRN_DEGRADED none (grnInfo 0xFF 0)
    s.checkpointEnd g x j ecc = (v.setGrn (v.grn.drop g.gen)).endGrn r.2 j (errCode .GRN_DEGRADED .grn) 0 := by
  unfold State.checkpointEnd
  simp only [he, ne_eq, not_true_eq_false, if_false, if_pos hf]

theorem State.checkpointEnd_of_error (he : (s.moveAll x x.len ecc).2.err ≠ 0) :
    let r := s.moveAll x x.len ecc
    s.checkpointEnd g x j ecc = (r.1.setGrn (r.1.grn.drop g.gen)).endGrn r.2 j r.2.err 0 := by
  unfold State.checkpointEnd
  exact if_pos he

/-- What a RESTORE's end leaves, with the pages rebuilt on the way counted. -/
def State.restoreEnds (s : State) (g : GrnRun) (x : Transfer) (j : Job) (ecc : List BurstEvent) : State :=
  if 3 ≤ s.grn.failures then (s.raise Pg.grn .GRN_DEGRADED none (grnInfo 0xFF 0)).endGrn x j (errCode .GRN_DEGRADED .grn) x.moved
  else s.restoreEnd g x j none ecc

@[simp] theorem State.bump_grn (p : Page) (o n : Nat) : (s.bump p o n).grn = s.grn := rfl

theorem exec_restoreComplete_of_running {rebuilt : Nat} (hg : (s.atTime t).grn.run = some g) (hr : g.restore = true)
    (h : (s.atTime t).transfer? g.transfer = some x) (hj : (s.atTime t).jobOf .restore = some j) (hs : (s.atTime t).stalled x = false) :
    exec (.restoreComplete t none rebuilt ecc) s = .next (((s.atTime t).bump Pg.grn Reg.GRN_REBUILD_CNT rebuilt).restoreEnds g x j ecc) := by
  show execRestoreComplete t none rebuilt ecc s = _
  unfold execRestoreComplete State.restoreEnds
  simp only [State.begin_passTime, hg, hr, h, hj, hs, Bool.not_true, Bool.false_eq_true, if_false] <;> rfl

theorem State.restoreEnd_of_error (he : (s.moveAll x x.len ecc).2.err ≠ 0) :
    let r := s.moveAll x x.len ecc
    s.restoreEnd g x j none ecc = r.1.endGrn r.2 j r.2.err r.2.moved := by
  have hbad : g.badChunk x none = none := ite_self _
  unfold State.restoreEnd
  simp only [hbad, he, ne_eq, not_false_eq_true, if_true]

theorem State.restoreEnd_of_good (he : (s.moveAll x x.len ecc).2.err = 0) :
    let r := s.moveAll x x.len ecc
    let w : State := { r.1 with eng := { r.1.eng with fleet := { r.1.eng.fleet with recovery := true } } }
    s.restoreEnd g x j none ecc = (if g.desc.restoreMode = 0 then w.zeroLost else w).endGrn r.2 j 0 r.2.moved := by
  have hbad : g.badChunk x none = none := ite_self _
  unfold State.restoreEnd
  simp only [hbad, he, ne_eq, not_true_eq_false, if_false]

end Ends

/-- Settles O46. The failures of accesses have codes that are not 0 (`State.serve_sum`), so a transfer without an error has moved or holds what its access read or
wrote; each end is the model's own, case by case. -/
theorem transfersMoveAndEnd : Obligations.TransfersMoveAndEnd := by
  intro s t id ecc x u
  refine ⟨fun re we => ⟨exec_unscheduledBurst_of_gone, exec_unscheduledBurst_of_idle,
      fun a h ha => ⟨fun haway => ?_, fun haway hw => ?_, fun aged haway hs hg => ⟨?_, ?_⟩⟩⟩,
    fun c n h hc hs => exec_xferComplete_of_running h hc hs, fun j h hj hs => exec_dmaComplete_of_running h hj hs,
    fun g j hg hr h hj hs => ?_, fun g j rebuilt hg hr h hj hs => ?_⟩
  · exact (exec_unscheduledBurst_eq_burst h ha).trans (congrArg _ (State.burst_of_turnedAway haway))
  · exact (exec_unscheduledBurst_eq_burst h ha).trans (congrArg _ (State.burst_of_waiting haway hw))
  · exact (exec_unscheduledBurst_eq_burst h ha).trans (congrArg _ (State.burst_of_granted haway hs hg))
  · intro he hcheckpoint hrestore
    have hcopies : x.Copies := ⟨hcheckpoint, hrestore⟩
    have hcoded : (u.noteServed x a).CodedAnswer := (State.atTime_codedAnswer s t).of_resp_eq (State.noteServed_resp ..)
    rw [← State.nextAccess_nextLen hcopies ha]
    exact State.serve_sum hcoded hcopies he
  · have hend := exec_checkpointComplete_of_running (ecc := ecc) hg hr h hj hs
    exact ⟨fun he hf => hend.trans (congrArg _ (State.checkpointEnd_of_good he hf)), fun he hf => hend.trans (congrArg _ (State.checkpointEnd_of_degraded he hf)),
      fun he => hend.trans (congrArg _ (State.checkpointEnd_of_error he))⟩
  · have hend := exec_restoreComplete_of_running (ecc := ecc) (rebuilt := rebuilt) hg hr h hj hs
    have hrest (hf : u.grn.failures < 3) : ((s.atTime t).bump Pg.grn Reg.GRN_REBUILD_CNT rebuilt).restoreEnds g x j ecc
        = ((s.atTime t).bump Pg.grn Reg.GRN_REBUILD_CNT rebuilt).restoreEnd g x j none ecc := if_neg (by simpa using hf)
    refine ⟨fun hf => hend.trans (congrArg _ (if_pos (by simpa using hf))), fun hf => ⟨fun he => ?_, fun he => ?_⟩⟩
    · exact hend.trans (congrArg _ ((hrest hf).trans (State.restoreEnd_of_good he)))
    · exact hend.trans (congrArg _ ((hrest hf).trans (State.restoreEnd_of_error he)))

end Sys2Proof.Machine
end

section
/-!
SUPPORT. Operations that write registers of one range alone: what an interrupt, an error and a field of a page can change, whatever the page has captured before.
-/
namespace Sys2Proof.Machine

/-- t has b's memory, and its registers but those from lo up to hi, in canonical form. -/
structure State.Within (b t : State) (lo hi : Nat) : Prop where
  wf : Regs.wf t = true
  rd : ∀ o, o < lo ∨ hi ≤ o → t.rd o = b.rd o
  mem : t.mem = b.mem
  fog : t.fog = b.fog

section
variable {b s : State} {p : Page} {lo hi : Nat}

theorem State.Within.refl (h : Regs.wf b = true) : b.Within b lo hi := ⟨h, fun _ _ => rfl, rfl, rfl⟩

theorem State.Within.mono {lo' hi' : Nat} (h : b.Within s lo hi) (hlo : lo' ≤ lo) (hhi : hi ≤ hi') : b.Within s lo' hi' :=
  ⟨h.wf, fun o ho => h.rd o (by omega), h.mem, h.fog⟩

theorem State.Within.ite {c : Prop} [Decidable c] {x y : State} (hx : b.Within x lo hi) (hy : b.Within y lo hi) : b.Within (if c then x else y) lo hi := by
  split <;> assumption

theorem State.Within.foldl {α : Type} {f : State → α → State} {l : List α} (h : b.Within s lo hi) (hf : ∀ t x, b.Within t lo hi → b.Within (f t x) lo hi) :
    b.Within (l.foldl f s) lo hi :=
  List.foldlRecOn l f h fun t ht x _ => hf t x ht

/-- What keeps registers and memory keeps the range. -/
theorem State.Within.of_regs_eq {t : State} (h : b.Within s lo hi) (hr : t.regs = s.regs) (hm : t.mem = s.mem) (hf : t.fog = s.fog) : b.Within t lo hi :=
  ⟨(congrArg (Sparse.wf regReset) hr).trans h.wf, fun o ho => (congrArg (Sparse.get regReset · o) hr).trans (h.rd o ho), hm.trans h.mem, hf.trans h.fog⟩

theorem State.Within.wrP (h : b.Within s lo hi) {o : Nat} (w : Word) (ho : lo ≤ p.base + o ∧ p.base + o < hi) : b.Within (s.wrP p o w) lo hi :=
  ⟨State.wrP_regs_wf h.wf _ _, fun x hx => (State.rd_wrP_other h.wf _ (by omega)).trans (h.rd x hx), h.mem, h.fog⟩

theorem State.Within.setP (h : b.Within s lo hi) {o f g v : Nat} (ho : lo ≤ p.base + o ∧ p.base + o < hi) : b.Within (s.setP p o f g v) lo hi := h.wrP _ ho

theorem State.Within.setStack (h : b.Within s lo hi) (n : Nat) (t : Stack) : b.Within (s.setStack n t) lo hi := h.of_regs_eq rfl rfl rfl

/-- Registers of a page's header are within a range that holds the header. -/
theorem header_within {o : Nat} (hp : lo ≤ p.base ∧ p.base + 0x40 ≤ hi) (ho : o < 0x40) : lo ≤ p.base + o ∧ p.base + o < hi := by omega

theorem State.Within.setInt (h : b.Within s lo hi) (hp : lo ≤ p.base ∧ p.base + 0x40 ≤ hi) (n : Nat) : b.Within (s.setInt p n) lo hi := by
  have hr : Reports s (s.setInt p n) := State.setInt_reports (.refl s) p n
  have hw : b.Within ((s.wrP p Reg.INT_STAT (s.rdP p Reg.INT_STAT ||| BitVec.ofNat 32 (2 ^ n))).wrP p Reg.INT_EN (s.rdP p Reg.INT_EN)) lo hi :=
    (h.wrP _ (header_within hp (by decide))).wrP _ (header_within hp (by decide))
  exact hw.of_regs_eq (State.setInt_regs s p n) hr.mem_eq hr.fog_eq

theorem State.Within.capture (h : b.Within s lo hi) (hp : lo ≤ p.base ∧ p.base + 0x40 ≤ hi) (code : Nat) (addr : Option Nat) (info : Nat) :
    b.Within (s.capture p code addr info) lo hi :=
  (((h.wrP _ (header_within hp (by decide))).wrP _ (header_within hp (by decide))).wrP _ (header_within hp (by decide))).wrP _ (header_within hp (by decide))

theorem State.Within.raise (h : b.Within s lo hi) (hp : lo ≤ p.base ∧ p.base + 0x40 ≤ hi) (c : Cause) (addr : Option Nat) (info : Nat) :
    b.Within (s.raise p c addr info) lo hi := by
  have hstat : lo ≤ p.base + Reg.ERR_STAT ∧ p.base + Reg.ERR_STAT < hi := header_within hp (by decide)
  have hcount : b.Within (s.bump p Reg.ERR_CNT 1) lo hi := h.wrP _ (header_within hp (by decide))
  have hfatal (t : State) (ht : b.Within t lo hi) : b.Within (if fatalCode p.kind (errCode c p.kind) then t.setP p Reg.ERR_STAT 2 2 1 else t) lo hi :=
    .ite (ht.setP hstat) ht
  have hvalid : b.Within ((((s.bump p Reg.ERR_CNT 1).capture p (errCode c p.kind) addr info).setP p Reg.ERR_STAT 0 0 1).noteCapture p) lo hi :=
    ((hcount.capture hp ..).setP hstat).of_regs_eq rfl rfl rfl
  have hovf : b.Within ((s.bump p Reg.ERR_CNT 1).setP p Reg.ERR_STAT 1 1 1) lo hi := hcount.setP hstat
  exact hfatal _ (.ite (hvalid.setInt hp 0) (.ite (hovf.capture hp ..) hovf))

/-- A register of a page outside the range that was written reads as before. -/
theorem State.Within.rdP_eq (h : b.Within s lo hi) {o : Nat} (ho : p.base + o < lo ∨ hi ≤ p.base + o) : s.rdP p o = b.rdP p o := h.rd _ ho

theorem State.Within.fldP_eq (h : b.Within s lo hi) {o f g : Nat} (ho : p.base + o < lo ∨ hi ≤ p.base + o) : s.fldP p o f g = b.fldP p o f g :=
  congrArg (fld · f g) (h.rdP_eq ho)

end

theorem State.raise_stk (s : State) (p : Page) (c : Cause) (addr : Option Nat) (info : Nat) : (s.raise p c addr info).stk = s.stk := by
  obtain ⟨_, _, _, _, h⟩ := State.raise_reports (.refl s) p c addr info
  rw [h]

theorem State.setInt_stk (s : State) (p : Page) (n : Nat) : (s.setInt p n).stk = s.stk := by
  obtain ⟨_, _, _, _, h⟩ := State.setInt_reports (.refl s) p n
  rw [h]

theorem State.stackOf_setStack_same {s : State} {n : Nat} (h : n < s.stk.length) (t : Stack) : (s.setStack n t).stackOf n = t := by
  simp [State.stackOf, State.setStack, h]

end Sys2Proof.Machine
end

section
/-!
SUPPORT. A temperature sample of a stack (R290, R291, R296).
-/
namespace Sys2Proof.Machine

variable {s : State} {k : Nat}

/-- A stack's page holds its header and its registers. -/
def State.InStack (k : Nat) (b t : State) : Prop := b.Within t (Pg.stack k).base ((Pg.stack k).base + 0x1000)

/-- The header of a stack's page. -/
def State.InStackHeader (k : Nat) (b t : State) : Prop := b.Within t (Pg.stack k).base ((Pg.stack k).base + 0x40)

theorem State.InStackHeader.inStack {b t : State} (h : State.InStackHeader k b t) : State.InStack k b t := h.mono (Nat.le_refl _) (by omega)

/-- A register behind the header reads as before. -/
theorem State.InStackHeader.fldP_eq {b t : State} (h : State.InStackHeader k b t) {o f g : Nat} (ho : 0x40 ≤ o) :
    t.fldP (Pg.stack k) o f g = b.fldP (Pg.stack k) o f g :=
  Within.fldP_eq h (.inr (by omega))

/-! ## The sensors checked -/

/-- The errors of the sensors that a sample finds newly invalid. -/
def State.sensorErrors (s : State) (k : Nat) (l : List (Option Int)) : State :=
  (List.range (((l.map fun r => !validReading r).zip (s.stackOf k).sensorsFailed).filter fun q => q.1 && !q.2).length).foldl
    (fun (s : State) _ => (s.raise (Pg.stack k) .SENSOR_FAIL none sensorInfo).setInt (Pg.stack k) 5) s

/-- What a stack keeps of a check of its sensors. -/
def Stack.checked (t u : Stack) (l : List (Option Int)) : Stack :=
  { u with sensorsFailed := l.map fun r => !validReading r, held := t.held || decide (2 < l.countP fun r => !validReading r) }

theorem State.sensorCheck_eq (s : State) (k : Nat) (l : List (Option Int)) :
    s.sensorCheck k l = ((s.sensorErrors k l).setP (Pg.stack k) Reg.MEMC_STAT 24 20 (l.countP fun r => !validReading r)).setStack k
      ((s.stackOf k).checked ((s.sensorErrors k l).stackOf k) l) := by
  have hcount : (l.map fun r => !validReading r).countP id = l.countP fun r => !validReading r := List.countP_map
  unfold State.sensorCheck
  simp only [hcount]
  rfl

theorem State.sensorErrors_inHeader (h : Regs.wf s = true) (l : List (Option Int)) : State.InStackHeader k s (s.sensorErrors k l) :=
  .foldl (.refl h) fun _ _ ht => (ht.raise ⟨Nat.le_refl _, Nat.le_refl _⟩ ..).setInt ⟨Nat.le_refl _, Nat.le_refl _⟩ 5

theorem State.sensorErrors_stk (s : State) (k : Nat) (l : List (Option Int)) : (s.sensorErrors k l).stk = s.stk :=
  List.foldlRecOn (motive := fun t : State => t.stk = s.stk) _ _ rfl fun _ ht _ _ => (State.setInt_stk ..).trans ((State.raise_stk ..).trans ht)

theorem State.sensorCheck_inStack (h : Regs.wf s = true) (l : List (Option Int)) : State.InStack k s (s.sensorCheck k l) := by
  rw [State.sensorCheck_eq]
  exact ((State.sensorErrors_inHeader h l).inStack.setP ⟨by omega, by simp [Reg.MEMC_STAT]⟩).setStack ..

/-- A check of the sensors leaves the band and the forced flag. -/
theorem State.sensorCheck_stat (h : Regs.wf s = true) (l : List (Option Int)) {f g : Nat} (hg : 24 < g) :
    (s.sensorCheck k l).fldP (Pg.stack k) Reg.MEMC_STAT f g = s.fldP (Pg.stack k) Reg.MEMC_STAT f g := by
  have he := State.sensorErrors_inHeader (k := k) h l
  rw [State.sensorCheck_eq]
  exact (State.fldP_setP_field he.wf _ _ (.inr hg)).trans (he.fldP_eq (by decide))

theorem State.sensorCheck_stk_length (s : State) (k : Nat) (l : List (Option Int)) : (s.sensorCheck k l).stk.length = s.stk.length := by
  rw [State.sensorCheck_eq]
  exact List.length_set.trans (congrArg List.length (State.sensorErrors_stk ..))

theorem State.sensorCheck_held (hk : k < s.stk.length) (l : List (Option Int)) :
    ((s.sensorCheck k l).stackOf k).held = ((s.stackOf k).held || decide (2 < l.countP fun r => !validReading r)) := by
  have hlen : k < ((s.sensorErrors k l).setP (Pg.stack k) Reg.MEMC_STAT 24 20 (l.countP fun r => !validReading r)).stk.length :=
    (congrArg (k < List.length ·) (State.sensorErrors_stk s k l)).mpr hk
  rw [State.sensorCheck_eq, State.stackOf_setStack_same hlen]
  rfl

/-! ## The temperature -/

/-- The highest temperature since MEMC_TEMP was cleared, with a sample. -/
def State.topTemp (s : State) (k : Nat) (t : Int) : Int :=
  if (s.stackOf k).sampled then max (signed 16 (s.fldP (Pg.stack k) Reg.MEMC_TEMP 31 16)) t else t

theorem State.setTemp_inStack {b : State} (h : State.InStack k b s) (t : Int) : State.InStack k b (s.setTemp k t) :=
  (h.wrP _ ⟨by omega, by simp [Reg.MEMC_TEMP]⟩).setStack ..

theorem unsigned_lt (w : Nat) (i : Int) : unsigned w i < 2 ^ w := by
  have h := Int.emod_lt_of_pos i (show (0 : Int) < 2 ^ w by positivity)
  have h0 := Int.emod_nonneg i (show (2 ^ w : Int) ≠ 0 by positivity)
  unfold unsigned
  zify
  omega

/-- MEMC_TEMP holds the temperature of the last sample in its low half. -/
theorem State.setTemp_temp (h : Regs.wf s = true) (t : Int) : (s.setTemp k t).fldP (Pg.stack k) Reg.MEMC_TEMP 15 0 = unsigned 16 t := by
  have hrd : (s.setTemp k t).rdP (Pg.stack k) Reg.MEMC_TEMP = BitVec.ofNat 32 (unsigned 16 (s.topTemp k t) * 2 ^ 16 + unsigned 16 t) :=
    State.rdP_wrP_same h _ _
  have hlow := unsigned_lt 16 t
  have htop := unsigned_lt 16 (s.topTemp k t)
  rw [State.fldP, hrd, fld, bits, BitVec.toNat_ofNat]
  omega

theorem State.setTemp_stat (h : Regs.wf s = true) (t : Int) (f g : Nat) :
    (s.setTemp k t).fldP (Pg.stack k) Reg.MEMC_STAT f g = s.fldP (Pg.stack k) Reg.MEMC_STAT f g :=
  congrArg (fld · f g) (State.rdP_wrP_other h _ (by decide))

theorem State.setTemp_held (hk : k < s.stk.length) (t : Int) : ((s.setTemp k t).stackOf k).held = (s.stackOf k).held := by
  have hlen : k < (s.wrP (Pg.stack k) Reg.MEMC_TEMP (BitVec.ofNat 32 (unsigned 16 (s.topTemp k t) * 2 ^ 16 + unsigned 16 t))).stk.length := hk
  have hset := congrArg Stack.held (State.stackOf_setStack_same hlen { s.stackOf k with sampled := true })
  exact hset

/-! ## The band -/

/-- The band and the forced flag that a check leaves a stack (R291, R296). -/
def State.nextBand (s : State) (k : Nat) (t : Option Int) : Nat × Bool :=
  bandStep (s.stackOf k).held (s.fldP (Pg.stack k) Reg.MEMC_STAT 29 29 == 1) (s.fldP (Pg.stack k) Reg.MEMC_STAT 31 30) t

/-- The interrupts and the error of a check: a band that changes, and a forced band that begins. -/
def State.bandEvents (s : State) (k : Nat) (t : Option Int) : State :=
  let v := if (s.nextBand k t).1 ≠ s.fldP (Pg.stack k) Reg.MEMC_STAT 31 30 then s.setInt (Pg.stack k) 1 else s
  if (s.nextBand k t).2 && !(s.fldP (Pg.stack k) Reg.MEMC_STAT 29 29 == 1) then (v.raise (Pg.stack k) .STACK_HOT none sensorInfo).setInt (Pg.stack k) 2 else v

theorem State.setBand_eq (s : State) (k : Nat) (t : Option Int) :
    s.setBand k t = (((s.bandEvents k t).setP (Pg.stack k) Reg.MEMC_STAT 31 30 (s.nextBand k t).1).setP (Pg.stack k) Reg.MEMC_STAT 29 29
      (b2n (s.nextBand k t).2)).setP (Pg.stack k) Reg.MEMC_STAT 28 28 (b2n (s.stackOf k).held) := rfl

theorem State.bandEvents_within {b : State} {lo hi : Nat} (h : b.Within s lo hi) (hp : lo ≤ (Pg.stack k).base ∧ (Pg.stack k).base + 0x40 ≤ hi) (t : Option Int) :
    b.Within (s.bandEvents k t) lo hi := by
  have hband : b.Within (if (s.nextBand k t).1 ≠ s.fldP (Pg.stack k) Reg.MEMC_STAT 31 30 then s.setInt (Pg.stack k) 1 else s) lo hi := .ite (h.setInt hp 1) h
  exact .ite ((hband.raise hp ..).setInt hp 2) hband

theorem State.setBand_inStack {b : State} (h : State.InStack k b s) (t : Option Int) : State.InStack k b (s.setBand k t) := by
  have hstat : (Pg.stack k).base ≤ (Pg.stack k).base + Reg.MEMC_STAT ∧ (Pg.stack k).base + Reg.MEMC_STAT < (Pg.stack k).base + 0x1000 :=
    ⟨by omega, by simp [Reg.MEMC_STAT]⟩
  rw [State.setBand_eq]
  exact (((State.bandEvents_within h ⟨Nat.le_refl _, by omega⟩ t).setP hstat).setP hstat).setP hstat

theorem State.setBand_temp (h : Regs.wf s = true) (t : Option Int) :
    (s.setBand k t).fldP (Pg.stack k) Reg.MEMC_TEMP 15 0 = s.fldP (Pg.stack k) Reg.MEMC_TEMP 15 0 := by
  have he : State.InStackHeader k s (s.bandEvents k t) := State.bandEvents_within (.refl h) ⟨Nat.le_refl _, Nat.le_refl _⟩ t
  have h1 := State.setP_regs_wf (p := Pg.stack k) he.wf Reg.MEMC_STAT 31 30 (s.nextBand k t).1
  have h2 := State.setP_regs_wf (p := Pg.stack k) h1 Reg.MEMC_STAT 29 29 (b2n (s.nextBand k t).2)
  rw [State.setBand_eq, State.fldP, State.rdP_setP_other h2 _ (by decide), State.rdP_setP_other h1 _ (by decide), State.rdP_setP_other he.wf _ (by decide)]
  exact he.fldP_eq (by decide)

theorem bandAfter_lt {band : Nat} (h : band < 4) (t : Int) : bandAfter band t < 4 := by
  unfold bandAfter
  dsimp only
  split_ifs <;> omega

theorem bandStep_lt {band : Nat} (h : band < 4) (held forced : Bool) (x : Int) : (bandStep held forced band (some x)).1 < 4 := by
  unfold bandStep
  dsimp only
  split
  · decide
  · exact bandAfter_lt h x

theorem State.fldP_stat_lt (s : State) (p : Page) (o : Nat) : s.fldP p o 31 30 < 4 := by
  unfold State.fldP fld bits
  omega

/-- The band and the forced flag that MEMC_STAT holds after a sample. -/
theorem State.setBand_stat (h : Regs.wf s = true) (x : Int) :
    (s.setBand k (some x)).fldP (Pg.stack k) Reg.MEMC_STAT 31 30 = (s.nextBand k (some x)).1
      ∧ (s.setBand k (some x)).fldP (Pg.stack k) Reg.MEMC_STAT 29 29 = b2n (s.nextBand k (some x)).2 := by
  have he : State.InStackHeader k s (s.bandEvents k (some x)) := State.bandEvents_within (.refl h) ⟨Nat.le_refl _, Nat.le_refl _⟩ (some x)
  have h1 := State.setP_regs_wf (p := Pg.stack k) he.wf Reg.MEMC_STAT 31 30 (s.nextBand k (some x)).1
  have h2 := State.setP_regs_wf (p := Pg.stack k) h1 Reg.MEMC_STAT 29 29 (b2n (s.nextBand k (some x)).2)
  have hband : (s.nextBand k (some x)).1 < 4 := bandStep_lt (State.fldP_stat_lt ..) _ _ x
  rw [State.setBand_eq]
  constructor
  · rw [State.fldP_setP_field h2 _ _ (.inr (by decide)), State.fldP_setP_field h1 _ _ (.inr (by decide)), State.fldP_setP_same he.wf _ _ (by decide)]
    exact Nat.mod_eq_of_lt hband
  · rw [State.fldP_setP_field h2 _ _ (.inr (by decide)), State.fldP_setP_same h1 _ _ (by decide)]
    cases (s.nextBand k (some x)).2 <;> rfl

/-! ## The sample -/

theorem State.tempSample_of_cool {l : List (Option Int)} {x : Int} (hx : hottest l = some x) (hlt : x < 440) :
    s.tempSample k l = ((s.sensorCheck k l).setTemp k x).setBand k (some x) := by
  unfold State.tempSample
  simp only [hx, if_neg (Int.not_le.2 hlt)]

/-- A sample below 110 C: its temperature, its band and forced flag, and that it touches the stack's page alone. -/
theorem State.tempSample_effect (h : Regs.wf s = true) {l : List (Option Int)} {x : Int} (hx : hottest l = some x) (hlt : x < 440) :
    let held := (s.stackOf k).held || decide (2 < l.countP fun r => !validReading r)
    let r := bandStep held (s.fldP (Pg.stack k) Reg.MEMC_STAT 29 29 == 1) (s.fldP (Pg.stack k) Reg.MEMC_STAT 31 30) (some x)
    let v := s.tempSample k l
    v.fldP (Pg.stack k) Reg.MEMC_TEMP 15 0 = unsigned 16 x
      ∧ (k < s.stk.length → v.fldP (Pg.stack k) Reg.MEMC_STAT 31 30 = r.1 ∧ v.fldP (Pg.stack k) Reg.MEMC_STAT 29 29 = b2n r.2)
      ∧ State.InStack k s v := by
  have hcheck := State.sensorCheck_inStack (k := k) h l
  have htemp := State.setTemp_inStack hcheck x
  intro held r v
  have hv : v = ((s.sensorCheck k l).setTemp k x).setBand k (some x) := State.tempSample_of_cool hx hlt
  rw [hv]
  refine ⟨(State.setBand_temp htemp.wf _).trans (State.setTemp_temp hcheck.wf x), fun hk => ?_, State.setBand_inStack htemp _⟩
  have hk' : k < (s.sensorCheck k l).stk.length := (State.sensorCheck_stk_length s k l).symm ▸ hk
  have hr : ((s.sensorCheck k l).setTemp k x).nextBand k (some x) = r := by
    rw [State.nextBand, State.setTemp_held hk', State.sensorCheck_held hk, State.setTemp_stat hcheck.wf, State.setTemp_stat hcheck.wf,
      State.sensorCheck_stat h l (by decide), State.sensorCheck_stat h l (by decide)]
  exact hr ▸ State.setBand_stat htemp.wf x

end Sys2Proof.Machine
end

section
/-!
SUPPORT. The halving of a watch table (R303).
-/
namespace Sys2Proof.Machine

variable {s : State}

/-- The count of an entry of a watch table halved; an entry that reaches 0 becomes free. -/
def State.halveEntry (s : State) (n w : Nat) : State :=
  let c := (s.rd (watchOff n w + 4)).toNat / 2
  let v := s.wr (watchOff n w + 4) (BitVec.ofNat 32 c)
  if c = 0 then v.wr (watchOff n w) 0 else v

theorem State.halveWatch_eq (s : State) (n : Nat) : s.halveWatch n = (List.range 64).foldl (fun v w => v.halveEntry n w) s := rfl

theorem State.halveEntry_mem (s : State) (n w : Nat) : (s.halveEntry n w).mem = s.mem := by
  unfold State.halveEntry
  dsimp only
  split <;> rfl

theorem State.halveEntry_wf (h : Regs.wf s = true) (n w : Nat) : Regs.wf (s.halveEntry n w) = true := by
  unfold State.halveEntry
  dsimp only
  split
  · exact State.wr_regs_wf (State.wr_regs_wf h _ _) _ _
  · exact State.wr_regs_wf h _ _

theorem State.rd_halveEntry_other (h : Regs.wf s = true) {n w o : Nat} (ho : o ≠ watchOff n w ∧ o ≠ watchOff n w + 4) : (s.halveEntry n w).rd o = s.rd o := by
  unfold State.halveEntry
  dsimp only
  split
  · rw [State.rd_wr_other (State.wr_regs_wf h _ _) _ ho.1, State.rd_wr_other h _ ho.2]
  · rw [State.rd_wr_other h _ ho.2]

/-- The registers of an entry that has been halved, as they were before. -/
def State.Halved (b s : State) (n w : Nat) : Prop :=
  let c := (b.rd (watchOff n w + 4)).toNat / 2
  (s.rd (watchOff n w + 4)).toNat = c ∧ s.rd (watchOff n w) = if c = 0 then 0 else b.rd (watchOff n w)

theorem State.halveEntry_halved (h : Regs.wf s = true) (n w : Nat) : State.Halved s (s.halveEntry n w) n w := by
  have hlt := (s.rd (watchOff n w + 4)).isLt
  have hc : (BitVec.ofNat 32 ((s.rd (watchOff n w + 4)).toNat / 2)).toNat = (s.rd (watchOff n w + 4)).toNat / 2 := by
    rw [BitVec.toNat_ofNat]
    omega
  have hw := State.wr_regs_wf h (watchOff n w + 4) (BitVec.ofNat 32 ((s.rd (watchOff n w + 4)).toNat / 2))
  unfold State.Halved State.halveEntry
  dsimp only
  split
  case isTrue h0 =>
    rw [State.rd_wr_other hw _ (by omega), State.rd_wr_same h, hc, State.rd_wr_same hw]
    exact ⟨rfl, rfl⟩
  case isFalse h0 =>
    rw [State.rd_wr_same h, hc, State.rd_wr_other h _ (by omega)]
    exact ⟨rfl, rfl⟩

theorem State.Halved.congr {b b' s s' : State} {n w : Nat} (h : State.Halved b s n w)
    (hb : b'.rd (watchOff n w) = b.rd (watchOff n w) ∧ b'.rd (watchOff n w + 4) = b.rd (watchOff n w + 4))
    (hs : s'.rd (watchOff n w) = s.rd (watchOff n w) ∧ s'.rd (watchOff n w + 4) = s.rd (watchOff n w + 4)) : State.Halved b' s' n w := by
  unfold State.Halved
  rw [hb.1, hb.2, hs.1, hs.2]
  exact h

theorem watchOff_ne {n w w' : Nat} (h : w ≠ w') :
    (watchOff n w ≠ watchOff n w' ∧ watchOff n w ≠ watchOff n w' + 4) ∧ watchOff n w + 4 ≠ watchOff n w' ∧ watchOff n w + 4 ≠ watchOff n w' + 4 := by
  unfold watchOff
  omega

/-- The first entries of a watch table halved, one after the other: each as it was, and nothing else. -/
theorem State.halveEntries (h : Regs.wf s = true) (n m : Nat) :
    let v := (List.range m).foldl (fun v w => v.halveEntry n w) s
    Regs.wf v = true ∧ v.mem = s.mem ∧ (∀ w < m, State.Halved s v n w) ∧ ∀ o, (∀ w < m, o ≠ watchOff n w ∧ o ≠ watchOff n w + 4) → v.rd o = s.rd o := by
  induction m with
  | zero => exact ⟨h, rfl, fun _ hw => absurd hw (Nat.not_lt_zero _), fun _ _ => rfl⟩
  | succ m ih =>
    dsimp only at ih ⊢
    rw [List.range_succ, List.foldl_append, List.foldl_cons, List.foldl_nil]
    generalize (List.range m).foldl (fun v w => v.halveEntry n w) s = u at ih ⊢
    obtain ⟨hwf, hmem, hdone, hrest⟩ := ih
    refine ⟨State.halveEntry_wf hwf n m, (State.halveEntry_mem ..).trans hmem, fun w hw => ?_, fun o ho => ?_⟩
    · rcases Nat.lt_succ_iff_lt_or_eq.1 hw with hlt | rfl
      · have hne := watchOff_ne (n := n) (Nat.ne_of_lt hlt)
        exact (hdone w hlt).congr ⟨rfl, rfl⟩ ⟨State.rd_halveEntry_other hwf hne.1, State.rd_halveEntry_other hwf hne.2⟩
      · exact (State.halveEntry_halved hwf n w).congr
          ⟨(hrest _ fun x hx => (watchOff_ne (Nat.ne_of_gt hx)).1).symm, (hrest _ fun x hx => (watchOff_ne (Nat.ne_of_gt hx)).2).symm⟩ ⟨rfl, rfl⟩
    · exact (State.rd_halveEntry_other hwf (ho m (Nat.lt_succ_self m))).trans (hrest o fun w hw => ho w (Nat.lt_succ_of_lt hw))

/-- A watch table halved: every entry as it was, and nothing else. -/
theorem State.halveWatch_halved (h : Regs.wf s = true) (n : Nat) : (s.halveWatch n).mem = s.mem ∧ (∀ w < 64, State.Halved s (s.halveWatch n) n w)
    ∧ ∀ o, (∀ w < 64, o ≠ watchOff n w ∧ o ≠ watchOff n w + 4) → (s.halveWatch n).rd o = s.rd o := by
  rw [State.halveWatch_eq]
  exact (State.halveEntries h n 64).2

end Sys2Proof.Machine
end

section
/-!
SUPPORT. The copies of a row under remap (R304).
-/
namespace Sys2Proof.Machine

variable {s : State} {n : Nat} {m : Remap}

/-- The keys of a byte of a row under remap: where it stands, and in its spare row. -/
def Remap.rowKey (m : Remap) (n k : Nat) : Nat := physKey n m.row.ch m.row.bank m.row.row k
def Remap.spareKey (m : Remap) (n k : Nat) : Nat := physKey n m.row.ch m.row.bank m.spare k

/-- A remap of a stack's row to a spare row of its bank. -/
structure Remap.Fits (m : Remap) : Prop where
  ch : m.row.ch < 64
  bank : m.row.bank ≤ 16
  row : m.row.row < 6176
  ne : m.row.row ≠ m.spare
  spare : 6144 ≤ m.spare ∧ m.spare < 6176

theorem Remap.Fits.spareKey_eq (h : m.Fits) (n k : Nat) : m.spareKey n k = 2 ^ 48 + (((n * 64 + m.row.ch) * 17 + m.row.bank) * 6176 + m.spare) * 8192 + k :=
  if_neg fun hc => Nat.not_lt.2 h.spare.1 hc.2

theorem Remap.Fits.spareKey_inj (h : m.Fits) {j k : Nat} (hk : m.spareKey n j = m.spareKey n k) : j = k := by
  rw [h.spareKey_eq, h.spareKey_eq] at hk
  omega

/-- A byte of the row does not stand in the spare row. -/
theorem Remap.Fits.rowKey_ne (h : m.Fits) (hn : n < 12) {j k : Nat} (hj : j < 8192) (hk : k < 8192) : m.rowKey n j ≠ m.spareKey n k := by
  obtain ⟨hch, hbank, hrow, hne, hspare⟩ := h
  rw [Remap.Fits.spareKey_eq ⟨hch, hbank, hrow, hne, hspare⟩, Remap.rowKey, physKey]
  split
  · unfold stackBase
    omega
  · omega

/-- Bytes copied one by one. -/
theorem State.copyCells (h : Memory.wf s = true) (hm : m.Fits) (hn : n < 12) {b : Nat} (hb : b < 4) {k : Nat} (hk : k ≤ 2048) :
    let v := (List.range k).foldl (fun (v : State) i => v.setCell (m.spareKey n (b * 2048 + i)) (v.memAt (m.rowKey n (b * 2048 + i)))) s
    Memory.wf v = true ∧ v.regs = s.regs ∧ v.stk = s.stk ∧ v.wall = s.wall
      ∧ (∀ i < k, v.memAt (m.spareKey n (b * 2048 + i)) = s.memAt (m.rowKey n (b * 2048 + i)))
      ∧ ∀ a, (∀ i < k, a ≠ m.spareKey n (b * 2048 + i)) → v.memAt a = s.memAt a := by
  induction k with
  | zero => exact ⟨h, rfl, rfl, rfl, fun _ hi => absurd hi (Nat.not_lt_zero _), fun _ _ => rfl⟩
  | succ k ih =>
    specialize ih (by omega)
    dsimp only at ih ⊢
    rw [List.range_succ, List.foldl_append, List.foldl_cons, List.foldl_nil]
    generalize (List.range k).foldl (fun (v : State) i => v.setCell (m.spareKey n (b * 2048 + i)) (v.memAt (m.rowKey n (b * 2048 + i)))) s = u at ih ⊢
    obtain ⟨hwf, hregs, hstk, hwall, hdone, hrest⟩ := ih
    refine ⟨State.setCell_wf hwf _ _, hregs, hstk, hwall, fun i hi => ?_, fun a ha => ?_⟩
    · rcases Nat.lt_succ_iff_lt_or_eq.1 hi with hlt | rfl
      · exact (State.memAt_setCell_other hwf _ fun hc => absurd (hm.spareKey_inj hc) (by omega)).trans (hdone i hlt)
      · exact (State.memAt_setCell_same hwf _ _).trans (hrest _ fun j hj => hm.rowKey_ne hn (by omega) (by omega))
    · exact (State.memAt_setCell_other hwf _ (ha k (Nat.lt_succ_self k))).trans (hrest a fun i hi => ha i (Nat.lt_succ_of_lt hi))

/-- A burst copied: its bytes stand in the spare row, and nothing else changes. -/
theorem State.copyBurst_copies (h : Memory.wf s = true) (hm : m.Fits) (hn : n < 12) {b : Nat} (hb : b < 4) :
    let v := s.copyBurst n m b
    Memory.wf v = true ∧ v.regs = s.regs ∧ v.stk = s.stk ∧ v.wall = s.wall
      ∧ (∀ i < 2048, v.memAt (m.spareKey n (b * 2048 + i)) = s.memAt (m.rowKey n (b * 2048 + i)))
      ∧ ∀ a, (∀ i < 2048, a ≠ m.spareKey n (b * 2048 + i)) → v.memAt a = s.memAt a :=
  State.copyCells h hm hn hb (Nat.le_refl 2048)

theorem State.syncRemap_eq (s : State) (n : Nat) : ∃ w, s.syncRemap n = s.wrP (Pg.stack n) Reg.MEMC_REMAP_STAT w := ⟨_, rfl⟩

/-- A remap noted with its stack, and MEMC_REMAP_STAT with it. -/
def State.noteRemap (s : State) (n : Nat) (t : Stack) (m : Remap) : State := (s.setStack n { t with remap := some m }).syncRemap n

theorem State.noteRemap_eq (s : State) (n : Nat) (t : Stack) (m : Remap) :
    (s.noteRemap n t m).mem = s.mem ∧ (s.noteRemap n t m).fog = s.fog ∧ (s.noteRemap n t m).wall = s.wall
      ∧ (s.noteRemap n t m).stk = s.stk.set n { t with remap := some m } := by
  obtain ⟨w, hw⟩ := State.syncRemap_eq (s.setStack n { t with remap := some m }) n
  rw [State.noteRemap, hw]
  exact ⟨rfl, rfl, rfl, rfl⟩

theorem State.noteRemap_remap {n : Nat} (hlen : n < s.stk.length) (t : Stack) (m : Remap) : ((s.noteRemap n t m).stackOf n).remap = some m := by
  obtain ⟨-, -, -, hstk⟩ := s.noteRemap_eq n t m
  rw [State.stackOf, hstk]
  simp [hlen]

/-- One copy of a burst, without an error. -/
def State.remapCopied (s : State) (n : Nat) (m : Remap) (b : Nat) (q : List Nat) : State :=
  (((s.bump (Pg.stack n) (Reg.MEMC_CLASSc_CNT + 12) 1).bump (Pg.stack n) (Reg.MEMC_CLASSc_CNT + 12) 1).copyBurst n m b).noteRemap n (s.stackOf n)
    { m with todo := q, since := s.wall }

theorem State.remapStep_of_todo {b : Nat} {q : List Nat} (hr : (s.stackOf n).remap = some m) (ht : m.todo = b :: q) :
    s.remapStep n none none = s.remapCopied n m b q := by
  unfold State.remapStep
  simp only [hr, ht]
  rfl

/-- What a copy of burst b leaves: the remap goes on with the bursts q, and b stands in the spare row. -/
structure State.Copied (s v : State) (n : Nat) (m : Remap) (b : Nat) (q : List Nat) : Prop where
  wf : Memory.wf v = true
  wall : v.wall = s.wall
  len : n < v.stk.length
  remap : (v.stackOf n).remap = some { m with todo := q, since := s.wall }
  done : ∀ i < 2048, v.memAt (m.spareKey n (b * 2048 + i)) = s.memAt (m.rowKey n (b * 2048 + i))
  rest : ∀ a, (∀ i < 2048, a ≠ m.spareKey n (b * 2048 + i)) → v.memAt a = s.memAt a

theorem State.memAt_congr {s t : State} (hm : t.mem = s.mem) (hf : t.fog = s.fog) (a : Nat) : t.memAt a = s.memAt a := by
  rw [State.memAt, hm, hf, State.memAt]

theorem State.remapCopied_copied (h : Memory.wf s = true) (hm : m.Fits) (hn : n < 12) (hlen : n < s.stk.length) {b : Nat} (hb : b < 4) (q : List Nat) :
    s.Copied (s.remapCopied n m b q) n m b q := by
  have hu : Memory.wf ((s.bump (Pg.stack n) (Reg.MEMC_CLASSc_CNT + 12) 1).bump (Pg.stack n) (Reg.MEMC_CLASSc_CNT + 12) 1) = true := h
  obtain ⟨hwf, -, hstk, hwall, hdone, hrest⟩ := State.copyBurst_copies hu hm hn hb
  rw [State.remapCopied]
  generalize State.copyBurst _ n m b = u at hwf hstk hwall hdone hrest ⊢
  obtain ⟨hnmem, hnfog, hnwall, hnstk⟩ := u.noteRemap_eq n (s.stackOf n) { m with todo := q, since := s.wall }
  have hset : n < u.stk.length := hlen.trans_eq (congrArg List.length hstk).symm
  have hat := State.memAt_congr hnmem hnfog
  refine ⟨?_, hnwall.trans hwall, ?_, State.noteRemap_remap hset _ _, fun i hi => (hat _).trans (hdone i hi), fun a ha => (hat a).trans (hrest a ha)⟩
  · rw [Memory.wf, hnmem, hnfog]
    exact hwf
  · rw [hnstk, List.length_set]
    exact hset

theorem State.remapRest_of_todo {b : Nat} {q : List Nat} (hr : (s.stackOf n).remap = some m) (ht : m.todo = b :: q) (j k : Nat) :
    s.remapRest n [] j (k + 1) = (s.remapCopied n m b q).remapRest n [] (j + 1) k := by
  have hevent (i : Nat) : burstEvent [] i = none := rfl
  rw [State.remapRest]
  simp only [hr, ht, List.isEmpty_cons, Bool.false_eq_true, if_false, hevent, State.remapStep_of_todo hr ht]

theorem Remap.Fits.resume (h : m.Fits) (q : List Nat) (t : Nat) : ({ m with todo := q, since := t } : Remap).Fits := ⟨h.ch, h.bank, h.row, h.ne, h.spare⟩

/-- The copies that are due, without an error: each burst stands in the spare row, and nothing else changes. -/
theorem State.remapRest_copies {l : List Nat} (ht : m.todo = l) (hm : m.Fits) (hn : n < 12) (hl : ∀ c ∈ l, c < 4) (j : Nat) (h : Memory.wf s = true)
    (hlen : n < s.stk.length) (hr : (s.stackOf n).remap = some m) :
    let v := s.remapRest n [] j l.length
    (v.stackOf n).remap = some { m with todo := [], since := if l = [] then m.since else s.wall }
      ∧ (∀ c ∈ l, ∀ i < 2048, v.memAt (m.spareKey n (c * 2048 + i)) = s.memAt (m.rowKey n (c * 2048 + i)))
      ∧ ∀ a, (∀ c ∈ l, ∀ i < 2048, a ≠ m.spareKey n (c * 2048 + i)) → v.memAt a = s.memAt a := by
  induction l generalizing s m j with
  | nil =>
    have hdone : ({ m with todo := [], since := if ([] : List Nat) = [] then m.since else s.wall } : Remap) = m := by rw [if_pos rfl, ← ht]
    exact ⟨hr.trans (congrArg some hdone.symm), fun _ hc => absurd hc List.not_mem_nil, fun _ _ => rfl⟩
  | cons b q ih =>
    have hb : b < 4 := hl b List.mem_cons_self
    have hcopied := State.remapCopied_copied h hm hn hlen hb q
    obtain ⟨hremap, hdone, hrest⟩ := ih rfl (hm.resume q s.wall) (fun c hc => hl c (List.mem_cons_of_mem b hc)) (j + 1) hcopied.wf hcopied.len hcopied.remap
    dsimp only
    rw [List.length_cons, State.remapRest_of_todo hr ht]
    generalize s.remapCopied n m b q = u at hcopied hremap hdone hrest ⊢
    generalize u.remapRest n [] (j + 1) q.length = v at hremap hdone hrest ⊢
    have hrow (c : Nat) (hc : c < 4) (i : Nat) (hi : i < 2048) : u.memAt (m.rowKey n (c * 2048 + i)) = s.memAt (m.rowKey n (c * 2048 + i)) :=
      hcopied.rest _ fun k hk => hm.rowKey_ne hn (by omega) (by omega)
    refine ⟨?_, fun c hc i hi => ?_, fun a ha => ?_⟩
    · rw [if_neg (List.cons_ne_nil b q), hremap, hcopied.wall, ite_self]
    · by_cases hq : c ∈ q
      · exact (hdone c hq i hi).trans (hrow c (hl c hc) i hi)
      · obtain rfl := (List.mem_cons.1 hc).resolve_right hq
        refine (hrest _ fun d hd k hk he => hq ?_).trans (hcopied.done i hi)
        have hk' := hm.spareKey_inj he
        rwa [show c = d by omega]
    · exact (hrest a fun c hc => ha c (List.mem_cons_of_mem b hc)).trans (hcopied.rest a (ha b List.mem_cons_self))

end Sys2Proof.Machine
end

section
/-!
SUPPORT. The die-to-die links and the fence log: lane failures, wrong flits and rejections (R360 to R363, R367, R374 to R376).
-/
namespace Sys2Proof.Machine

variable {s : State}

/-! ## Lanes -/

section Lanes

variable {k dir lane cause : Nat}

/-- A lane declared failed, before what its link's width does of it. -/
def State.laneDeclared (s : State) (k dir lane : Nat) : State :=
  let q := Pg.d2d k
  let v := (s.bump q Reg.D2D_LANE_FAIL_CNT 1).wrP q Reg.D2D_LAST_LANE (BitVec.ofNat 32 (2 ^ 31 + dir * 2 ^ 30 + 2 ^ 28 + lane))
  let v := (v.noteRepair (laneEntry k dir lane 1)).setInt q 1
  (v.setLink k { v.link k with unmoved := (dir, lane) :: (v.link k).unmoved }).markLane k dir lane

/-- Failed lanes of the direction of a link that has more of them. -/
def State.mostFailed (s : State) (k : Nat) : Nat := max (s.failedLanes k 0) (s.failedLanes k 1)

/-- What a link's width does of a lane that has been declared failed. -/
def State.laneSettled (s : State) (k dir : Nat) : State :=
  if widthFor (s.failedLanes k 0) (s.failedLanes k 1) = 2 ∧ s.linkWidth k < 2 then s.linkDown k dir
  else if widthFor (s.failedLanes k 0) (s.failedLanes k 1) = 1 ∧ s.linkWidth k = 0 then s.linkFall k dir
  else if s.linkWidth k = 2 then s
  else s.setP (Pg.d2d k) Reg.BLK_STAT (29 - dir) (29 - dir) 1

theorem State.laneFail_of_known (h : s.laneFailed k dir lane = true ∨ s.linkWidth k = 3) : s.laneFail k dir lane cause = s := if_pos h

theorem State.laneFail_of_new (h : s.laneFailed k dir lane = false) (hw : s.linkWidth k ≠ 3) :
    s.laneFail k dir lane 1 = (s.laneDeclared k dir lane).laneSettled k dir :=
  if_neg fun hc => hc.elim (ne_true_of_eq_false h) hw

theorem widthFor_eq_two {a b : Nat} (h : 840 < max a b) : widthFor a b = 2 := if_pos h

theorem widthFor_eq_one {a b : Nat} (h : 48 < max a b) (h' : max a b ≤ 840) : widthFor a b = 1 := (if_neg (Nat.not_lt.2 h')).trans (if_pos h)

theorem widthFor_eq_zero {a b : Nat} (h : max a b ≤ 48) : widthFor a b = 0 := (if_neg (by omega)).trans (if_neg (Nat.not_lt.2 h))

theorem State.laneSettled_of_down (h : 840 < s.mostFailed k) (hw : s.linkWidth k < 2) : s.laneSettled k dir = s.linkDown k dir :=
  if_pos ⟨widthFor_eq_two h, hw⟩

theorem State.laneSettled_of_fall (h : 48 < s.mostFailed k) (h' : s.mostFailed k ≤ 840) (hw : s.linkWidth k = 0) : s.laneSettled k dir = s.linkFall k dir := by
  unfold State.laneSettled
  rw [widthFor_eq_one h h', if_neg (by omega), if_pos ⟨rfl, hw⟩]

theorem State.laneSettled_of_kept (h : s.mostFailed k ≤ 48) (hw : s.linkWidth k ≠ 2) :
    s.laneSettled k dir = s.setP (Pg.d2d k) Reg.BLK_STAT (29 - dir) (29 - dir) 1 := by
  unfold State.laneSettled
  rw [widthFor_eq_zero h, if_neg (by omega), if_neg (by omega), if_neg hw]

end Lanes

/-! ## Flits -/

section Flits

variable {t : Nat} {k : Fin 4} {down : Bool} {slot : Fin 48} {lanes : List (Fin 1632)} {addr : Option Nat}

/-- The lanes whose bit of a flit is wrong, when it crosses at a cycle. -/
def State.wrongAt (s : State) (t : Nat) (k : Fin 4) (down : Bool) (slot : Fin 48) (lanes : List (Fin 1632)) : List Nat :=
  (s.atTime t).wrongLanes k (b2n down) slot (lanes.map fun l => l.val)

theorem State.flitMeets_of_lost {n dir slot : Nat} {lanes : List Nat} (h : 2 ≤ (s.wrongLanes n dir slot lanes).length) (addr : Option Nat) :
    s.flitMeets n dir slot lanes addr = (s.bump (Pg.d2d n) Reg.D2D_UE_CNT 1).raise (Pg.d2d n) .D2D_UE addr (dir * 2 ^ 31 + slot * 2 ^ 25) := by
  unfold State.flitMeets
  dsimp only
  generalize s.wrongLanes n dir slot lanes = l at h ⊢
  match l with
  | [] => exact absurd h (by simp)
  | [_] => exact absurd h (by simp)
  | _ :: _ :: _ => rfl

theorem exec_d2dUe_of_kept (h : (s.wrongAt t k down slot lanes).length < 2) (id : Option Nat) :
    exec (.d2dUe t k down slot lanes addr id) s = .next ((s.atTime t).flitMeets k (b2n down) slot (lanes.map fun l => l.val) addr) :=
  congrArg Host.Outcome.next (if_neg fun hc => Nat.not_le.2 h (of_decide_eq_true hc))

theorem exec_d2dUe_of_lost (h : 2 ≤ (s.wrongAt t k down slot lanes).length) (id : Option Nat) :
    exec (.d2dUe t k down slot lanes addr id) s = .next ((((s.atTime t).bump (Pg.d2d k) Reg.D2D_UE_CNT 1).raise (Pg.d2d k) .D2D_UE addr
      (b2n down * 2 ^ 31 + slot * 2 ^ 25)).flitLost addr id) := by
  rw [← State.flitMeets_of_lost h]
  exact congrArg Host.Outcome.next (if_pos (decide_eq_true h))

end Flits

/-! ## Rejections -/

section Fence

variable {id kind : Nat} {addr : Option Nat}

/-- A die that has reached its limit marked isolated, with the interrupt. -/
def State.fenceIsolate (s : State) (id : Nat) : State := (s.setP Pg.hub Reg.HUB_FENCE_ISO (isoBit id) (isoBit id) 1).setInt Pg.hub 2

theorem State.fenceIsolate_eq (s : State) (id : Nat) :
    (s.setP Pg.hub Reg.HUB_FENCE_ISO (isoBit id) (isoBit id) 1).setInt Pg.hub 2 = s.fenceIsolate id := rfl

theorem State.fenceReject_of_other (h : fenceId id = false ∨ s.isolated id = true) : s.fenceReject id kind addr = s :=
  if_pos (h.imp (fun hf => by rw [hf]; rfl) fun hi => hi)

theorem State.fenceReject_of_below (h : fenceId id = true) (hi : s.isolated id = false) (hd : (s.fenceLog id kind addr).fenceDue id = false) :
    s.fenceReject id kind addr = s.fenceLog id kind addr := by
  unfold State.fenceReject
  simp only [h, hi, hd, Bool.not_true, Bool.false_eq_true, or_self, if_false]

theorem State.fenceReject_of_port (h : fenceId id = true) (hi : s.isolated id = false) (hd : (s.fenceLog id kind addr).fenceDue id = true) (hid : id < 24) :
    s.fenceReject id kind addr = ((s.fenceLog id kind addr).fenceIsolate id).portSync id := by
  unfold State.fenceReject
  simp only [h, hi, hd, Bool.not_true, Bool.false_eq_true, or_self, if_false, if_true, if_pos hid]
  rfl

theorem State.fenceReject_of_flash {d : FlashDie} (h : fenceId id = true) (hi : s.isolated id = false) (hd : (s.fenceLog id kind addr).fenceDue id = true)
    (hid : 24 ≤ id) (hdie : ((s.fenceLog id kind addr).fenceIsolate id).grn.dies[id - 0x20]? = some d) :
    let w := (s.fenceLog id kind addr).fenceIsolate id
    s.fenceReject id kind addr = (w.setGrn { w.grn with dies := w.grn.dies.set (id - 0x20) { d with isolated := true } }).flashFail (id - 0x20) := by
  unfold State.fenceReject
  simp only [h, hi, hd, Bool.not_true, Bool.false_eq_true, or_self, if_false, if_true, if_neg (Nat.not_lt.2 hid), State.fenceIsolate_eq, hdie]

/-- Two rejections of a cycle are logged in ascending order of their IDs. -/
theorem tryOrder_pair (x y : FenceTry) : tryOrder [x, y] = if y.id < x.id then [y, x] else [x, y] := rfl

end Fence

end Sys2Proof.Machine
end

section
/-!
SUPPORT. Records of the statistics rings (R219 to R221). An access that is served counts in registers other than the ring's own, so the ring's header stays where it
is; that holds of every register file, in canonical form or not.
-/
namespace Sys2Proof.Machine

/-! ## Reading beside a write, whatever the form of the list -/

section Sparse

variable {α : Type} [DecidableEq α] {d : Nat → α}

/-- A write leaves what is read at a higher key. -/
theorem Sparse.get_put_above {j k : Nat} (v : α) (h : k < j) (l : List (Nat × α)) : Sparse.get d (Sparse.put d l k v) j = Sparse.get d l j := by
  have hlt : ¬ j < k := by omega
  have hne : j ≠ k := by omega
  induction l with
  | nil =>
    unfold Sparse.put
    split <;> simp [Sparse.get, hlt, hne]
  | cons q r ih =>
    unfold Sparse.put
    split
    · split <;> simp [Sparse.get, hlt, hne]
    · split
      case isTrue heq =>
        have hq : ¬ j < q.1 ∧ j ≠ q.1 := by omega
        split <;> simp [Sparse.get, hlt, hne, hq]
      case isFalse => simp only [Sparse.get, ih]

/-- A write of what is no default leaves what is read at another key. -/
theorem Sparse.get_put_entry {j k : Nat} {v : α} (hv : v ≠ d k) (h : j ≠ k) (l : List (Nat × α)) : Sparse.get d (Sparse.put d l k v) j = Sparse.get d l j := by
  induction l with
  | nil => simp [Sparse.put, hv, Sparse.get, h]
  | cons q r ih =>
    unfold Sparse.put
    split
    case isTrue hlt =>
      by_cases hj : j < k
      · simp [Sparse.get, hj, show j < q.1 by omega]
      · simp [Sparse.get, hj, h]
    case isFalse hlt =>
      split
      case isTrue heq => simp [Sparse.get, ← heq, h]
      case isFalse => simp only [Sparse.get, ih]

end Sparse

variable {s : State}

theorem State.rd_wr_above {off x : Nat} (h : off < x) (w : Word) : (s.wr off w).rd x = s.rd x := Sparse.get_put_above w h s.regs

theorem State.rd_wr_entry {off x : Nat} {w : Word} (hw : w ≠ regReset off) (h : x ≠ off) : (s.wr off w).rd x = s.rd x := Sparse.get_put_entry hw h s.regs

/-! ## What a served access counts -/

theorem d2d_below {die o x : Nat} (hd : die < 4) (ho : o < 0x1000) (hx : 0x1000000 ≤ x) : (Pg.d2d die).base + o < x := by
  have hbase : (Pg.d2d die).base = 0x900000 + die * 0x1000 := rfl
  omega

/-- Flits count in the pages of the links, below the pages of the dies. -/
theorem State.rd_flits {die dir n x : Nat} (hd : die < 4) (hx : 0x1000000 ≤ x) : (s.flits die dir n).rd x = s.rd x := by
  have hcount : (s.bump64 (Pg.d2d die) Reg.D2D_UNSCHED_CNT_LO n).rd x = s.rd x :=
    (State.rd_wr_above (d2d_below hd (by decide) hx) _).trans (State.rd_wr_above (d2d_below hd (by decide) hx) _)
  unfold State.flits
  dsimp only
  split
  · exact (State.rd_wr_above (d2d_below hd (by decide) hx) _).trans hcount
  · exact hcount

theorem regReset_class2 : ∀ i < 12, regReset ((Pg.stack i).base + (Reg.MEMC_CLASSc_CNT + 8)) = 0 := by decide +kernel

/-- An access counted in a stack's page leaves a counter that is not 0. -/
theorem State.rd_countClass2 {i x : Nat} (hi : i < 12) (hx : x ≠ (Pg.stack i).base + (Reg.MEMC_CLASSc_CNT + 8)) :
    (s.bump (Pg.stack i) (Reg.MEMC_CLASSc_CNT + 8) 1).rd x = s.rd x := by
  refine State.rd_wr_entry (fun h => ?_) hx
  have h0 := congrArg BitVec.toNat (h.trans (regReset_class2 i hi))
  rw [toNat_satAdd] at h0
  simp at h0

theorem unalias_of_stack {a : Nat} (h : a < 0x00C000000000) : unalias a = a := if_neg fun hc => by
  unfold aliasBase at hc
  omega

theorem unalias_of_spad {a : Nat} (h : spadBase 0 ≤ a) : unalias a = a :=
  if_neg fun hc => by
    unfold spadBase at h
    unfold aliasBase aliasBytes at hc
    omega

/-- A stack or a scratchpad is on one of the four dies. -/
theorem dieOf_lt {a : Nat} (h : a < 0x00C000000000 ∨ (spadBase 0 ≤ a ∧ a < spadBase 4)) : dieOf a < 4 := by
  unfold dieOf
  rcases h with h | ⟨h, h'⟩
  · rw [unalias_of_stack h]
    dsimp only
    rw [if_pos h]
    omega
  · rw [unalias_of_spad h]
    unfold spadBase at h h' ⊢
    rw [if_neg (by omega)]
    omega

/-- A register of a die's page that is no counter of a class of accesses. -/
def BesideClass2 (x : Nat) : Prop := 0x1000000 ≤ x ∧ ∀ i < 12, x ≠ (Pg.stack i).base + (Reg.MEMC_CLASSc_CNT + 8)

theorem State.rd_servedBurst {x : Nat} (hx : BesideClass2 x) (a n : Nat) (write : Bool) : (s.servedBurst a n 2 write false).rd x = s.rd x := by
  unfold State.servedBurst
  dsimp only
  generalize unalias a = a
  by_cases hstack : a < 0x00C000000000
  · simp only [hstack, true_or, if_true, Bool.false_eq_true, if_false]
    exact (State.rd_flits (dieOf_lt (.inl hstack)) hx.1).trans (State.rd_countClass2 (i := a / 0x001000000000) (by omega) (hx.2 _ (by omega)))
  · simp only [hstack, false_or, if_false]
    split
    case isTrue hspad => exact State.rd_flits (dieOf_lt (.inr hspad)) hx.1
    case isFalse => rfl

theorem State.rd_served {x : Nat} (hx : BesideClass2 x) (a n : Nat) (write : Bool) : (s.served a n 2 write).rd x = s.rd x := by
  unfold State.served
  split
  · rfl
  · exact List.foldlRecOn (motive := fun t : State => t.rd x = s.rd x) _ _ rfl fun _ ht _ _ => (State.rd_servedBurst hx ..).trans ht

/-- The ring's header stays where it is while its accesses are served. -/
theorem State.ringHeader_served {d : Nat} (a n : Nat) (write : Bool) : (s.served a n 2 write).ringHeader d = s.ringHeader d := by
  have hbeside (o : Nat) (ho : 0x84 ≤ o ∧ o < 0x90) : BesideClass2 ((Pg.culm d 0).base + o) := by
    have hbase : (Pg.culm d 0).base = 0x1000000 + d * 0x800000 + 0xC0000 + 0 * 0x1000 := rfl
    refine ⟨by omega, fun i hi => ?_⟩
    have hstack : (Pg.stack i).base = 0x1000000 + i / 3 * 0x800000 + 0xB0000 + i % 3 * 0x1000 := rfl
    rw [hbase, hstack, Reg.MEMC_CLASSc_CNT]
    omega
  have hlo : (s.served a n 2 write).rdP (Pg.culm d 0) Reg.CULM_RING_HDR_LO = s.rdP (Pg.culm d 0) Reg.CULM_RING_HDR_LO :=
    State.rd_served (hbeside _ (by decide)) ..
  have hhi : (s.served a n 2 write).rdP (Pg.culm d 0) (Reg.CULM_RING_HDR_LO + 4) = s.rdP (Pg.culm d 0) (Reg.CULM_RING_HDR_LO + 4) :=
    State.rd_served (hbeside _ (by decide)) ..
  rw [State.ringHeader, State.num64, State.num, State.num, hlo, hhi]
  rfl

/-! ## Records -/

section Records

variable {d k a n : Nat} {write : Bool}

/-- Whether a die's ring may access memory. -/
def State.RingMay (s : State) (d a n : Nat) (write : Bool) : Prop := s.denial (Pg.culm d 0) (s.culmInfo 0) 2 a n write = none

/-- An access that nothing denies and that meets no error. -/
theorem State.ringAccess_clear (h : s.RingMay d a n write) : s.ringAccess d k a n write [] = (s, none) := by
  unfold State.ringAccess
  rw [State.RingMay] at h
  rw [h]
  rfl

theorem State.writeRecord_clear {data : List Byte} (h : s.RingMay d a 64 true)
    (h' : ((s.served a 64 2 true).placeBytes a data).RingMay d (s.ringHeader d + 0x10) 8 true) :
    s.writeRecord d a data [] = ((s.served a 64 2 true).placeBytes a data).countHeader (s.ringHeader d + 0x10) := by
  unfold State.writeRecord
  simp only [State.ringAccess_clear h, State.ringAccess_clear h']

theorem State.deliver_of_off (h : s.fldP (Pg.culm d 0) Reg.CULM_RING_CTRL 0 0 = 0) (data : List Byte) (ecc : List BurstEvent) :
    s.deliver d data ecc = (s.bump (Pg.culm d 0) Reg.CULM_RING_DROP_CNT 1).setInt (Pg.culm d 0) 3 := if_pos h

/-- A record that finds its ring enabled and with room. -/
theorem State.deliver_of_room {data : List Byte} (h : s.fldP (Pg.culm d 0) Reg.CULM_RING_CTRL 0 0 = 1) (hread : s.RingMay d (s.ringHeader d) 64 false) :
    let x := s.served (s.ringHeader d) 64 2 false
    let size := x.natAt (s.ringHeader d + 8) 8
    let wr := x.natAt (s.ringHeader d + 0x10) 8
    ringSizeOk size = true → (wr + 2 ^ 64 - x.natAt (s.ringHeader d + 0x18) 8) % 2 ^ 64 < size →
      s.deliver d data [] = x.writeRecord d (x.natAt (s.ringHeader d) 8 + wr % size * 64) data [] := by
  intro x size wr hsize hroom
  unfold State.deliver
  rw [if_neg (by omega)]
  simp only [State.ringAccess_clear hread]
  exact if_neg fun hc => hc.elim (by rw [hsize]; decide) (Nat.not_le.2 hroom)

theorem exec_recordDelivery_of_waiting {die : Fin 4} {r : Nat × List Byte} (hr : (s.begin.records.find? fun q => q.1 == die.val) = some r)
    (hc : s.begin.pwr.coast = none) (ecc : List BurstEvent) :
    exec (.recordDelivery die ecc) s = .next (State.deliver { s.begin with records := s.begin.records.erase r } die r.2 ecc) := by
  show execRecordDelivery die ecc s = _
  unfold execRecordDelivery
  simp only [hc, Option.isSome_none, Bool.false_eq_true, if_false, hr]

end Records

end Sys2Proof.Machine
end

section
/-!
SUPPORT. The events of the stacks and their links, instruction by instruction, and the theorem that settles O55.
-/
namespace Sys2Proof.Machine

variable {s : State} {t : Nat}

/-! ## Stacks -/

theorem exec_stackTempSample_of_off {n : Fin 12} (h : (s.atTime t).domainOn (160 + n.val) = false) (l : List (Option Int)) :
    exec (.stackTempSample t n l) s = .next (s.atTime t) :=
  congrArg Host.Outcome.next (if_neg (ne_true_of_eq_false h))

theorem exec_stackTempSample_of_on {n : Fin 12} (h : (s.atTime t).domainOn (160 + n.val) = true) (l : List (Option Int)) :
    exec (.stackTempSample t n l) s = .next ((s.atTime t).tempSample n (sampleOf l)) :=
  congrArg Host.Outcome.next (if_pos h)

/-- The frame at which the counts of a stack's watch table halve next. -/
def State.nextHalving (s : State) (n : Nat) : Nat := (s.stackOf n).halved + 2 ^ (16 + s.fldP (Pg.stack n) Reg.MEMC_CFG 7 4)

theorem exec_watchAgeHalving_of_due {n : Fin 12} (h : s.begin.nextHalving n ≤ s.begin.frameNum) :
    ∃ k, exec (.watchAgeHalving n) s = .next ((s.begin.halveWatch n).setStack n k) :=
  ⟨_, if_pos h⟩

theorem exec_watchAgeHalving_of_early {n : Fin 12} (h : s.begin.frameNum < s.begin.nextHalving n) : exec (.watchAgeHalving n) s = .next s.begin :=
  if_neg (Nat.not_le.2 h)

/-- The copies of a stack's remap that are due. -/
def State.remapCopies (s : State) (n : Nat) (ecc : List BurstEvent) : State :=
  if s.pwr.coast.isSome then s else s.remapRest n ecc 0 ((s.stackOf n).remap.elim 0 fun m => m.todo.length)

theorem exec_remapCopyDone_eq (n : Fin 12) (ecc : List BurstEvent) : exec (.remapCopyDone t n ecc) s = .next ((s.atTime t).remapCopies n ecc) := by
  show execRemapCopyDone t n ecc s = _
  unfold execRemapCopyDone State.remapCopies
  simp only [State.begin_passTime]
  cases ((s.atTime t).stackOf n).remap <;> rfl

theorem State.remapCopies_of_rest {n : Nat} (h : (s.stackOf n).remap = none ∨ s.pwr.coast.isSome = true) (ecc : List BurstEvent) : s.remapCopies n ecc = s := by
  unfold State.remapCopies
  by_cases hc : s.pwr.coast.isSome = true
  · rw [if_pos hc]
  · rw [if_neg hc, h.resolve_right hc]
    rfl

theorem State.remapCopies_of_due {n : Nat} {m : Remap} (hc : s.pwr.coast = none) (hr : (s.stackOf n).remap = some m) (ecc : List BurstEvent) :
    s.remapCopies n ecc = s.remapRest n ecc 0 m.todo.length := by
  unfold State.remapCopies
  rw [hc, hr]
  rfl

/-! ## Links -/

section Links

variable {k : Fin 4} {down : Bool}

theorem exec_laneFail_of_bits {lane : Fin 1632} (h : (s.atTime t).laneFailed k (b2n down) lane = false) (bits : Nat) :
    exec (.laneFail t k down lane (some bits)) s = .next ((s.atTime t).laneCorrected k (b2n down) lane bits) :=
  congrArg Host.Outcome.next (if_neg (ne_true_of_eq_false h))

theorem exec_laneFail_of_new {lane : Fin 1632} (h : (s.atTime t).laneFailed k (b2n down) lane = false) (hw : (s.atTime t).linkWidth k ≠ 3) :
    exec (.laneFail t k down lane none) s = .next (((s.atTime t).laneDeclared k (b2n down) lane).laneSettled k (b2n down)) :=
  congrArg Host.Outcome.next (State.laneFail_of_new h hw)

theorem exec_d2dRetrainComplete_of_falling {e : Nat} (h : (s.link k).resume = some e) : exec (.d2dRetrainComplete k) s = .next (s.begin.passTime e) := by
  show execD2dRetrainComplete k s = _
  unfold execD2dRetrainComplete
  rw [h]

theorem State.flitMeets_of_right {n dir slot : Nat} {lanes : List Nat} (h : s.wrongLanes n dir slot lanes = []) (addr : Option Nat) :
    s.flitMeets n dir slot lanes addr = s := by
  unfold State.flitMeets
  rw [h]

theorem State.flitMeets_of_one {n dir slot l : Nat} {lanes : List Nat} (h : s.wrongLanes n dir slot lanes = [l]) (addr : Option Nat) :
    s.flitMeets n dir slot lanes addr = (s.bump (Pg.d2d n) Reg.D2D_CE_CNT 1).noteBits n dir l 1 := by
  unfold State.flitMeets
  rw [h]

theorem exec_d2dUe_of_right {slot : Fin 48} {lanes : List (Fin 1632)} (h : s.wrongAt t k down slot lanes = []) (addr id : Option Nat) :
    exec (.d2dUe t k down slot lanes addr id) s = .next (s.atTime t) :=
  (exec_d2dUe_of_kept (by rw [h]; decide) id).trans (congrArg _ (State.flitMeets_of_right h addr))

theorem exec_d2dUe_of_one {slot : Fin 48} {lanes : List (Fin 1632)} {l : Nat} (h : s.wrongAt t k down slot lanes = [l]) (addr id : Option Nat) :
    exec (.d2dUe t k down slot lanes addr id) s = .next (((s.atTime t).bump (Pg.d2d k) Reg.D2D_CE_CNT 1).noteBits k (b2n down) l 1) :=
  (exec_d2dUe_of_kept (by rw [h, List.length_singleton]; decide) id).trans (congrArg _ (State.flitMeets_of_one h addr))

end Links

theorem exec_fenceReject_pair (x y : FenceTry) : let u := s.atTime t
    exec (.fenceReject t [x, y]) s = .next (if y.id < x.id then (u.fenceReject y.id y.kind y.addr).fenceReject x.id x.kind x.addr
      else (u.fenceReject x.id x.kind x.addr).fenceReject y.id y.kind y.addr) := by
  show execFenceReject t [x, y] s = _
  unfold execFenceReject
  rw [tryOrder_pair]
  split <;> rfl

/-- Settles O55, event by event. A sample touches the stack's page alone (`State.tempSample_effect`); the watch table's entries are apart, so each is halved as it was
(`State.halveEntries`); the row under remap and its spare row have no byte in common (`State.remapRest_copies`); the accesses of a ring leave its header where it
is, whatever the form of the register file (`State.ringHeader_served`). -/
theorem stacksAndLinks : Obligations.StacksAndLinks := by
  intro s t n u p b
  refine ⟨fun hoff l => exec_stackTempSample_of_off hoff l, ?sample, fun hs hdue => ?halving,
    fun hearly => exec_watchAgeHalving_of_early hearly,
    fun hrest ecc => (exec_remapCopyDone_eq n ecc).trans (congrArg _ (State.remapCopies_of_rest hrest ecc)), ?remap, fun k down lane => ?lanes,
    fun k e hfall => exec_d2dRetrainComplete_of_falling hfall,
    fun k down slot lanes addr => ⟨fun h id => exec_d2dUe_of_right h addr id, fun l h id => exec_d2dUe_of_one h addr id,
      fun h => ⟨exec_d2dUe_of_lost h none, fun id => exec_d2dUe_of_lost h (some id)⟩⟩,
    fun id kind addr => ⟨fun h => congrArg _ (State.fenceReject_of_other h), fun hid hi => ?fence⟩, fun x y => exec_fenceReject_pair x y,
    fun die r hr hc => ?records⟩
  case sample =>
    intro l x hu hon hx hlt held r
    obtain ⟨htemp, hstat, hpage⟩ := State.tempSample_effect (k := n.val) hu.1 hx hlt
    exact ⟨_, exec_stackTempSample_of_on hon l, htemp, hstat, hpage.rd, hpage.mem, hpage.fog⟩
  case halving =>
    obtain ⟨k, hexec⟩ := exec_watchAgeHalving_of_due hdue
    obtain ⟨hmem, hdone, hrest⟩ := State.halveWatch_halved (s := b) hs.1 n.val
    generalize State.halveWatch _ n.val = v at hexec hmem hdone hrest
    exact ⟨_, hexec, hdone, hrest, hmem⟩
  case remap =>
    intro m hu hlen hr _ htodo hc hch hbank hrow hne hlo hhi
    obtain ⟨hremap, hdone, -⟩ := State.remapRest_copies rfl ⟨hch, hbank, hrow, hne, hlo, hhi⟩ n.isLt htodo 0 hu.2 hlen hr
    exact ⟨_, (exec_remapCopyDone_eq n []).trans (congrArg _ (State.remapCopies_of_due hc hr [])), hremap, hdone⟩
  case lanes =>
    refine ⟨fun h => congrArg _ (State.laneFail_of_known h), fun h bits => congrArg Host.Outcome.next (if_pos h), fun bits h => exec_laneFail_of_bits h bits,
      fun h hw => ⟨fun hmost hw' => ?_, fun hmost hmost' hw' => ?_, fun hmost hw' => ?_⟩⟩
    · exact (exec_laneFail_of_new h hw).trans (congrArg _ (State.laneSettled_of_down hmost hw'))
    · exact (exec_laneFail_of_new h hw).trans (congrArg _ (State.laneSettled_of_fall hmost hmost' hw'))
    · exact (exec_laneFail_of_new h hw).trans (congrArg _ (State.laneSettled_of_kept hmost hw'))
  case fence =>
    exact ⟨fun hd => congrArg _ (State.fenceReject_of_below hid hi hd), fun hd hport => congrArg _ (State.fenceReject_of_port hid hi hd hport),
      fun d hd hflash hdie => congrArg _ (State.fenceReject_of_flash hid hi hd hflash hdie)⟩
  case records =>
    refine ⟨fun ecc hoff => ?_, fun hon hread hsize hroom hwrite hadvance => ?_⟩
    · exact (exec_recordDelivery_of_waiting hr hc ecc).trans (congrArg _ (State.deliver_of_off hoff r.2 ecc))
    · have hheader := State.ringHeader_served (s := { b with records := b.records.erase r }) (d := die)
        (State.ringHeader { b with records := b.records.erase r } die) 64 false
      refine (exec_recordDelivery_of_waiting hr hc []).trans (congrArg _ ((State.deliver_of_room hon hread hsize hroom).trans ?_))
      rw [State.writeRecord_clear hwrite (hheader.symm ▸ hadvance), hheader]
      rfl

end Sys2Proof.Machine
end

section
/-!
SUPPORT. Culm words where they are free to issue (R326 to R331, R571), and the theorem that settles O13: the errors of the bursts are set to fall due, which
changes nothing else of the state, then the operation enters flight, then the disagreement of a Guarded pair is set to fall due.
-/
namespace Sys2Proof.Machine

variable {s : State} {w : SWord} {op : Nat} {ecc : List BurstEvent}

/-! ## The parts of an operation's issue -/

/-- The parameter block and the micro-program of a Culm word, as they stand (R332, R343). -/
def State.culmRaw (s : State) (w : SWord) : List Byte := s.culmBytes (s.issueCtx w.die) w.args

/-- The fields of a Culm word's parameter block, as they stand (R332). -/
def State.culmFields (s : State) (w : SWord) : CulmBlock := culmBlock ((s.culmRaw w).take 128)

/-- The errors that an operation's bursts meet, set to fall due: of the reads as its span starts, of the writes, numbered after the reads, as it ends. -/
def State.culmErrors (s : State) (w : SWord) (op : Nat) (ecc : List BurstEvent) : State :=
  let a := culmArgs w.args
  let b := s.culmFields w
  let prog := blocksOf 8 b.mlen ((s.culmRaw w).drop 128)
  let bursts := culmBursts op b prog
  ecc.foldl (fun v e => match bursts[e.burst]? with
    | some x => v.later (40 * a.fslot) (.burst x false e.err)
    | none => match (culmWrites op b prog)[e.burst - bursts.length]? with
      | some x => v.later (a.spanEnd - 1) (.burst x true e.err)
      | none => v) s

/-- The operation that a Culm word brings into flight, by the state at its issue (R194, R326). -/
def State.culmAt (s : State) (w : SWord) (op : Nat) : CulmOp :=
  { die := w.die.val, unit := w.unit.toNat, stamp := w.stamp.toNat, op := op, args := w.args, block := s.culmRaw w,
    scale := s.tensorScale (s.culmFields w).fmtA (s.culmFields w).a, stop := (culmArgs w.args).spanEnd }

/-- A Culm operation in flight after the others. -/
def State.flyCulm (s : State) (c : CulmOp) : State := { s with eng := { s.eng with culms := s.eng.culms ++ [c] } }

/-- The operation of a Culm word in flight, with the errors of its bursts. -/
def State.culmInFlight (s : State) (w : SWord) (op : Nat) (ecc : List BurstEvent) : State := (s.culmErrors w op ecc).flyCulm (s.culmAt w op)

/-- The disagreement of a Guarded pair in element e, set to fall due within the span (R571, R572). -/
def State.culmDisagree (s : State) (w : SWord) (op : Nat) (b : CulmBlock) (e : Nat) : State :=
  let a := culmArgs w.args
  let d := w.die.val
  let u := w.unit.toNat
  s.later (min (a.spanEnd - 1) (40 * a.fslot + 40 + ceilDiv ((e + 1) * culmCpe op b 1) 1024))
    (.abort (Pg.culm d u) (errCode .GUARD_MISMATCH .culm) (some (culmElemAddr op b e)) (s.culmInfo op) (some (guardWord 3 d u u)))

/-! ## What the errors of the bursts leave as it was at issue -/

/-- Effects set to fall due one after the other are more entries of what is due. -/
theorem State.foldl_due {α : Type} {f : State → α → State} (hf : ∀ t x, ∃ l, f t x = { t with eng := { t.eng with due := l } }) (l : List α) (s : State) :
    ∃ due, l.foldl f s = { s with eng := { s.eng with due := due } } :=
  List.foldlRecOn (motive := fun t => ∃ due, t = { s with eng := { s.eng with due := due } }) l f ⟨s.eng.due, rfl⟩ fun _ ⟨_, ht⟩ x _ =>
    (hf _ x).imp fun _ h => h.trans (ht ▸ rfl)

theorem State.culmErrors_due (s : State) (w : SWord) (op : Nat) (ecc : List BurstEvent) :
    ∃ due, s.culmErrors w op ecc = { s with eng := { s.eng with due := due } } := by
  refine State.foldl_due (fun t e => ?_) ecc s
  dsimp only
  split
  · exact ⟨_, rfl⟩
  · split
    · exact ⟨_, rfl⟩
    · exact ⟨_, rfl⟩

theorem State.culmErrors_tensorScale (s : State) (w : SWord) (op : Nat) (ecc : List BurstEvent) (fmt a : Nat) :
    (s.culmErrors w op ecc).tensorScale fmt a = s.tensorScale fmt a := by
  obtain ⟨_, h⟩ := s.culmErrors_due w op ecc
  rw [h]
  rfl

theorem State.culmInFlight_frame (s : State) (w : SWord) (op : Nat) (ecc : List BurstEvent) : (s.culmInFlight w op ecc).eng.frame = s.eng.frame := by
  obtain ⟨_, h⟩ := s.culmErrors_due w op ecc
  rw [State.culmInFlight, h]
  rfl

theorem State.culmInFlight_prot (s : State) (w : SWord) (op : Nat) (ecc : List BurstEvent) : (s.culmInFlight w op ecc).prot = s.prot := by
  obtain ⟨_, h⟩ := s.culmErrors_due w op ecc
  rw [State.culmInFlight, h]
  rfl

theorem State.culmInFlight_culmInfo (s : State) (w : SWord) (op : Nat) (ecc : List BurstEvent) :
    (s.culmInFlight w op ecc).culmInfo op = s.culmInfo op := by
  rw [State.culmInfo, State.culmInFlight_frame, ← State.culmInfo]

/-! ## The issue of an operation -/

/-- An operation whose pair agrees enters flight. -/
theorem State.startCulm_agreeing : s.startCulm w op none ecc = s.culmInFlight w op ecc := by
  rw [State.culmInFlight, State.culmAt, ← s.culmErrors_tensorScale w op ecc]
  rfl

/-- An operation enters flight, and a disagreement in one of its elements falls due in Guarded mode. -/
theorem State.startCulm_disagreeing (e : Nat) : s.startCulm w op (some e) ecc = if s.prot = 1 ∧ e < (s.culmFields w).n
    then (s.culmInFlight w op ecc).culmDisagree w op (s.culmFields w) e else s.culmInFlight w op ecc := by
  rw [← State.culmInFlight_prot s w op ecc, State.culmInFlight, State.culmAt, ← s.culmErrors_tensorScale w op ecc]
  rfl

/-- A Culm operation leaves the frame as it is. -/
theorem State.startCulm_frame (s : State) (w : SWord) (op : Nat) (dis : Option Nat) (ecc : List BurstEvent) :
    (s.startCulm w op dis ecc).eng.frame = s.eng.frame := by
  cases dis with
  | none => rw [State.startCulm_agreeing, State.culmInFlight_frame]
  | some e =>
    rw [State.startCulm_disagreeing, apply_ite (fun t : State => t.eng.frame)]
    simp only [State.culmDisagree, State.later_frame, State.culmInFlight_frame, ite_self]

theorem State.culmWord_of_mayIssue {dis : Option Nat} (h : (s.atWord w).MayIssue w 3 op State.culmCheck) :
    s.culmWord w op dis ecc = ((s.atWord w).startCulm w op dis ecc).reads :=
  State.issue_of_mayIssue h (State.startCulm_frame ..)

/-- The six Culm words are the operation of their OP (R331). -/
theorem exec_culmWords (s : State) (w : SWord) (dis : Option Nat) (ecc : List BurstEvent) : ∀ q ∈ [(1, Instr.opt w dis ecc), (2, Instr.amax w dis ecc),
      (3, Instr.count w dis ecc), (4, Instr.culmAdd w dis ecc), (5, Instr.quant w dis ecc), (6, Instr.dequant w dis ecc)],
    exec q.2 s = .next (s.culmWord w q.1 dis ecc) := by
  simp only [List.forall_mem_cons]
  exact ⟨rfl, rfl, rfl, rfl, rfl, rfl, fun _ h => absurd h List.not_mem_nil⟩

/-- Settles O13: a Culm word that is free to issue is `startCulm` at its issue, which brings the operation into flight (`startCulm_agreeing`) and in Guarded mode
lets a disagreement fall due (`startCulm_disagreeing`). The errors of its bursts leave the source tile's scale and the frame as they were at issue
(`culmErrors_tensorScale`, `culmInFlight_culmInfo`). -/
theorem culmWords : Obligations.CulmWords := by
  intro s w dis ecc q hq u a raw b bursts writes v c x hmay
  have hexec : exec q.2 s = .next (u.startCulm w q.1 dis ecc).reads :=
    (exec_culmWords s w dis ecc q hq).trans (congrArg Host.Outcome.next (State.culmWord_of_mayIssue hmay))
  have hfly : u.culmInFlight w q.1 ecc = x := rfl
  refine ⟨fun hd => ?agrees, fun e hd hp hn => ?disagrees, fun e hd hg => ?unguarded⟩
  case agrees =>
    rw [hexec, hd, State.startCulm_agreeing, hfly]
  case disagrees =>
    rw [hexec, hd, State.startCulm_disagreeing, if_pos ⟨hp, hn⟩, State.culmDisagree, State.culmInFlight_culmInfo, hfly]
    rfl
  case unguarded =>
    have hout : ¬ (u.prot = 1 ∧ e < (u.culmFields w).n) := fun h => hg.elim (· h.1) (Nat.not_le.2 h.2)
    rw [hexec, hd, State.startCulm_disagreeing, if_neg hout, hfly]

end Sys2Proof.Machine
end

section
/-!
SUPPORT. Event words where they are free to issue (R86, R409, R412), and the theorem that settles O7.
-/
namespace Sys2Proof.Machine

variable {s : State} {w : SWord}

/-- A wait word that is free to be examined takes effect at its stamp, whatever else holds the counter there. -/
theorem State.issueWait_of_mayWait {kind op : Nat} {check : State → WordCtx → RawWord → List Finding} {effect : State → State}
    (h : (s.atWait w).MayWait w kind op check) : s.issueWait w kind op check effect = effect (s.atWait w) := by
  obtain ⟨hissuing, hcount, hdie, hfind⟩ := h
  have hfree : ((s.atWait w).issuing && (s.atWait w).eng.frame.count == w.stamp.toNat && (s.atWait w).runsOn w.die) = true := by
    rw [hissuing, hcount, hdie, beq_self_eq_true]
    rfl
  refine (if_pos hfree).trans ?_
  dsimp only
  rw [← State.atWait, hfind]

/-- Settles O7: a signal and a no-operation word issue as any word that is free to (`issue_of_mayIssue`), a wait word is examined at its stamp
(`issueWait_of_mayWait`) and holds the counter where its wait is not met. -/
theorem eventWords : Obligations.EventWords := by
  intro s w u e
  refine ⟨fun h => ?signal, fun h => ?noOperation, fun h => ⟨fun hmet => ?met, fun hmet => ?unmet⟩⟩
  case signal => exact congrArg Host.Outcome.next (State.issue_of_mayIssue h (State.later_frame ..))
  case noOperation => exact congrArg Host.Outcome.next (State.issue_of_mayIssue h rfl)
  case met => exact congrArg Host.Outcome.next ((State.issueWait_of_mayWait h).trans (if_pos hmet))
  case unmet => exact congrArg Host.Outcome.next ((State.issueWait_of_mayWait h).trans (if_neg (ne_true_of_eq_false hmet)))

end Sys2Proof.Machine
end

section
/-!
SUPPORT. The links of the PCI Express ports (R385, R671), and the theorem that settles O40.
-/
namespace Sys2Proof.Machine

/-- A port whose link is down: no link to read, the configuration of reset, and no descriptor that has been fetched (R385). -/
def State.linkless (s : State) (n : Nat) : State := ((s.wrP (Pg.pcie n) Reg.PCIE_LINK_STAT 0).setPci n PciPort.fresh).discardFetched n

/-- A link that goes down sets INT_STAT bit 1 when it was up (R385). -/
theorem State.pcieDown_eq (s : State) (n : Nat) : s.pcieDown n =
    if s.fldP (Pg.pcie n) Reg.PCIE_LINK_STAT 21 21 = 1 then (s.linkless n).setInt (Pg.pcie n) 1 else s.linkless n :=
  if_congr beq_iff_eq rfl rfl

/-- Settles O40: the two ways in which a link goes down are `pcieDown_eq`, and a link that may rise, or is up, takes what the command brings. -/
theorem pciePorts : Obligations.PciePorts := by
  intro s t port u p d down lo
  have hdown : u.pcieDown port = down := State.pcieDown_eq u port
  refine ⟨congrArg Host.Outcome.next hdown, ?perst, rfl, fun hrise speed width cfg => ?up, fun hup l1 l0p => ?power⟩
  case perst =>
    rw [← hdown]
    rfl
  case up => exact congrArg Host.Outcome.next (if_pos hrise)
  case power => exact congrArg Host.Outcome.next (if_pos hup)

end Sys2Proof.Machine
end

section
/-!
SUPPORT. Writes of the ring registers (R398, R399, R401), the fetching of descriptors and the writing of completions, and the theorem that settles O41.
-/
namespace Sys2Proof.Machine

variable {s : State} {port ring o : Nat} {v : Word}

theorem pageOf_pcie {n o : Nat} (hn : n < 2) (ho : o < 0x1000) : pageOf ((Pg.pcie n).base + o) = some (Pg.pcie n, o) := by
  have hb : (Pg.pcie n).base + o = 0x400000 + n * 0x1000 + o := rfl
  have hd : (0x400000 + n * 0x1000 + o) / 0x1000 = 0x400 + n := by omega
  have hm : (0x400000 + n * 0x1000 + o) % 0x1000 = o := by omega
  rw [hb, pageOf]
  simp (disch := omega) only [hd, hm, if_pos, if_neg, Nat.add_sub_cancel_left]

/-- An accepted write of a block-specific register of a PCIE page reaches the page's rule. -/
theorem State.busWrite_pcie (ha : s.Accepts port ((Pg.pcie port).base + o)) (hp : port < 2) (h1 : 0x40 ≤ o) (h2 : o < 0x1000) :
    s.busWrite (.port port) ((Pg.pcie port).base + o) v .free = (s.answered.pcieWrite (.port port) port o v).reported port := by
  rw [State.busWrite_accepted ha, State.writeWord_page (pageOf_pcie hp h2) h1]
  rfl

/-- What a write does to the ring register at offset o of ring 0, for the ring of a number. -/
def State.ringWrite (s : State) (port ring o : Nat) (v : Word) : State :=
  if o = Reg.PCIE_SQq_CFG then s.ringCfg port ring false v
  else if o = Reg.PCIE_CQq_CFG then s.ringCfg port ring true v
  else if o = Reg.PCIE_SQq_BASE_LO ∨ o = Reg.PCIE_SQq_BASE_HI then s.ringBase port ring false o v
  else if o = Reg.PCIE_CQq_BASE_LO ∨ o = Reg.PCIE_CQq_BASE_HI then s.ringBase port ring true o v
  else if o = Reg.PCIE_SQq_TAIL then s.ringTail port ring v
  else s.plainWrite (Pg.pcie port) (ringReg o ring) v

/-- The rule of a PCIE page finds the ring and its register in the offset. -/
theorem State.pcieWrite_ringReg (s : State) (via : Via) (port : Nat) (v : Word) (hr : ring < 16) (h1 : 0x100 ≤ o) (h2 : o < 0x140) :
    s.pcieWrite via port (ringReg o ring) v = s.ringWrite port ring o v := by
  have hne : ringReg o ring ≠ Reg.PCIE_HO_CMD := by simp only [ringReg, Reg.PCIE_HO_CMD]; omega
  have hin : 0x100 ≤ ringReg o ring ∧ ringReg o ring < 0x500 := by simp only [ringReg]; omega
  have hring : (ringReg o ring - 0x100) / 64 = ring := by simp only [ringReg]; omega
  have hreg : 0x100 + (ringReg o ring - 0x100) % 64 = o := by simp only [ringReg]; omega
  rw [State.pcieWrite, if_neg hne, if_pos hin]
  dsimp only
  rw [hring, hreg, State.ringWrite]

/-- An accepted write of a ring register. -/
theorem State.busWrite_ringReg (ha : s.Accepts port ((Pg.pcie port).base + ringReg o ring)) (hp : port < 2) (hr : ring < 16) (h1 : 0x100 ≤ o) (h2 : o < 0x140) :
    s.busWrite (.port port) ((Pg.pcie port).base + ringReg o ring) v .free = (s.answered.ringWrite port ring o v).reported port := by
  have hlo : 0x40 ≤ ringReg o ring := by simp only [ringReg]; omega
  have hhi : ringReg o ring < 0x1000 := by simp only [ringReg]; omega
  rw [State.busWrite_pcie ha hp hlo hhi, State.pcieWrite_ringReg _ _ _ _ hr h1 h2]

theorem exec_ringEnable_of_accepts {t : Nat} {port : Fin 2} {ring : Fin 16} {cq : Bool}
    (ha : (s.atTime t).Accepts port ((Pg.pcie port).base + ringReg (if cq then Reg.PCIE_CQq_CFG else Reg.PCIE_SQq_CFG) ring)) (v : Word) :
    exec (.ringEnable t port ring cq v) s = .next (((s.atTime t).answered.ringCfg port ring cq v).reported port) := by
  cases cq with
  | false => exact congrArg Host.Outcome.next (State.busWrite_ringReg (o := Reg.PCIE_SQq_CFG) ha port.isLt ring.isLt (by decide) (by decide))
  | true => exact congrArg Host.Outcome.next (State.busWrite_ringReg (o := Reg.PCIE_CQq_CFG) ha port.isLt ring.isLt (by decide) (by decide))

@[simp] theorem State.ringTail_resp (s : State) (port ring : Nat) (v : Word) : (s.ringTail port ring v).resp = s.resp := by simp [State.ringTail]

theorem exec_sqTailWrite_of_accepts {t : Nat} {port : Fin 2} {ring : Fin 16}
    (ha : (s.atTime t).Accepts port ((Pg.pcie port).base + ringReg Reg.PCIE_SQq_TAIL ring)) (v : Word) :
    exec (.sqTailWrite t port ring v) s = .next ((s.atTime t).answered.ringTail port ring v) := by
  have hw := State.busWrite_ringReg (v := v) (o := Reg.PCIE_SQq_TAIL) ha port.isLt ring.isLt (by decide) (by decide)
  exact congrArg Host.Outcome.next (hw.trans (State.reported_of_done (State.ringTail_resp ..) port))

/-- CQq_HEAD has no bit that LOCK guards. -/
theorem rowOf_cqHead : ∀ ring : Fin 16, ∃ r, rowOf .pcie (ringReg Reg.PCIE_CQq_HEAD ring) = some r ∧ r.rl = 0 := by
  have h : ∀ ring : Fin 16, (rowOf .pcie (ringReg Reg.PCIE_CQq_HEAD ring)).any (fun r => r.rl == 0) = true := by decide
  intro ring
  obtain ⟨r, hr, h0⟩ := Option.any_eq_true _ _ |>.1 (h ring)
  exact ⟨r, hr, eq_of_beq h0⟩

theorem exec_cqHeadWrite_of_accepts {t : Nat} {port : Fin 2} {ring : Fin 16}
    (ha : (s.atTime t).Accepts port ((Pg.pcie port).base + ringReg Reg.PCIE_CQq_HEAD ring)) (v : Word) :
    exec (.cqHeadWrite t port ring v) s = .next ((s.atTime t).answered.coded (Pg.pcie port) (ringReg Reg.PCIE_CQq_HEAD ring) v) := by
  obtain ⟨r, hr, h0⟩ := rowOf_cqHead ring
  have hfree : (s.atTime t).answered.Unlocked (Pg.pcie port) (ringReg Reg.PCIE_CQq_HEAD ring) := fun r' hr' =>
    .inl (by rw [show r' = r from Option.some.inj (hr'.symm.trans hr), h0])
  have hw := State.busWrite_ringReg (v := v) (o := Reg.PCIE_CQq_HEAD) ha port.isLt ring.isLt (by decide) (by decide)
  refine congrArg Host.Outcome.next (hw.trans ((congrArg (State.reported · port) ?_).trans (State.reported_of_done rfl port)))
  exact State.plainWrite_coded hr hfree

/-- Settles O41: each accepted write of a ring register is its rule (`busWrite_ringReg`), a ring that may fetch takes its entry, and the oldest held completion is
dropped or written by the state of its link. -/
theorem rings : Obligations.Rings := by
  intro s t port ring u p cfg
  refine ⟨fun cq v ha => ?enable, fun v ha => exec_sqTailWrite_of_accepts ha v, fun v ha => exec_cqHeadWrite_of_accepts ha v, fun bytes hf => ?fetch,
    fun c rest hheld => ⟨fun hdown => ?dropped, fun hup hroom => ?written⟩⟩
  case enable =>
    intro was bad w
    rw [exec_ringEnable_of_accepts ha]
    refine ⟨fun hbad => ?refused, fun hgood hoff => ?off, fun hgood hon => ?on⟩
    case refused => exact congrArg Host.Outcome.next (congrArg (State.reported · port) (if_pos hbad))
    case off =>
      have hcfg : u.answered.ringCfg port ring cq v = w := (if_neg hgood).trans (if_pos hoff)
      rw [hcfg, State.reported_of_done (s := w) rfl]
    case on =>
      have hcfg : u.answered.ringCfg port ring cq v = _ := (if_neg hgood).trans (if_neg hon)
      refine congrArg Host.Outcome.next ((congrArg (State.reported · port) hcfg).trans (State.reported_of_done ?_ port))
      cases cq <;> rfl
  case fetch => exact congrArg Host.Outcome.next (if_pos hf)
  case dropped =>
    refine congrArg Host.Outcome.next ?_
    rw [← State.atTime, State.writeCompletion, hheld]
    exact if_pos (by rw [hdown]; rfl)
  case written =>
    refine congrArg Host.Outcome.next ?_
    rw [← State.atTime, State.writeCompletion, hheld]
    exact (if_neg (by rw [hup]; decide)).trans (if_pos hroom)

end Sys2Proof.Machine
end

section
/-!
SUPPORT. Descriptors that start (R400, R406, R408, R682), and the theorems that settle O42 and O43.
-/
namespace Sys2Proof.Machine

variable {s : State} {d : Desc}

/-- A descriptor that starts is handled by the rule of its kind, and reserved descriptors behind it are swept. -/
theorem State.consider_of_starts {port ring kind : Nat} {bad : Desc → Bool} (h : s.Starts port ring kind bad d) (go : State → Desc → State) :
    s.consider port ring kind bad go = (go s d).sweepRing port ring 32 := by
  obtain ⟨hfront, hseen, hgood, hmet⟩ := h
  simp only [State.consider, hfront, hseen, hgood, hmet, Bool.false_eq_true, if_false, if_true]

/-- Settles O42: each of the three starts (`consider_of_starts`), and a DMA goes by its ranges. -/
theorem simpleDescriptors : Obligations.SimpleDescriptors := by
  intro s t port ring d u
  refine ⟨fun h => congrArg Host.Outcome.next (State.consider_of_starts h _), fun h => congrArg Host.Outcome.next (State.consider_of_starts h _), fun h => ?dma⟩
  case dma =>
    intro src dst len
    have hexec {v : State} (hv : _ = v) : exec (.dma t port ring) s = .next (v.sweepRing port ring 32) :=
      congrArg Host.Outcome.next ((State.consider_of_starts h _).trans (congrArg (State.sweepRing · port ring 32) hv))
    refine ⟨fun hpair => hexec ?populated, fun a hpair => hexec ?unpopulated⟩
    case populated | unpopulated =>
      dsimp only
      rw [hpair]

/-- A descriptor of the present epoch goes on (R509). -/
theorem State.epochThen_of_present (h1 : behind (s.epochDist d.epoch) = false) (h2 : ahead (s.epochDist d.epoch) = false) (go : State → Desc → State) :
    s.epochThen d go = go s d := by
  simp only [State.epochThen, h1, h2, Bool.false_eq_true, if_false]

/-- A FRAME_RUN of the present epoch that starts while no run is active goes through the checks of its slot. -/
theorem exec_frameRun_of_starts {t : Nat} {port : Fin 2} {ring : Fin 16} (h : (s.atTime t).Starts port ring 1 (fun _ => false) d)
    (hrun : (s.atTime t).host.run = none) (hgood : d.runBad = false) (h1 : behind ((s.atTime t).epochDist d.epoch) = false)
    (h2 : ahead ((s.atTime t).epochDist d.epoch) = false) :
    exec (.frameRun t port ring) s = .next (((s.atTime t).startRun d).sweepRing port ring 32) := by
  refine congrArg Host.Outcome.next ((State.consider_of_starts h _).trans (congrArg (State.sweepRing · port ring 32) ?_))
  simp only [hrun, hgood, State.epochThen_of_present h1 h2, Option.isSome_none, Bool.false_eq_true, if_false]

section
variable {x : Slot} (hgo : s.fldP Pg.trade Reg.TRADE_STAT 0 0 ≠ 1) (hx : s.slot? (d.field 0x18 1) = some x)
include hgo

/-- A FRAME_RUN of an empty slot (R682). -/
theorem State.startRun_of_empty (hx : s.slot? (d.field 0x18 1) = none) : s.startRun d = s.turnAway d (errCode .SLOT_NOT_RUNNING .hub) := by
  rw [State.startRun, if_neg hgo, Desc.runSlot, hx]

include hx

/-- A FRAME_RUN beyond the frames of its slot's image (R682). -/
theorem State.startRun_of_beyond (hn : x.frameCount ≤ d.field 0x1C 4) : s.startRun d = s.turnAway d (errCode .SLOT_NOT_RUNNING .hub) := by
  rw [State.startRun, if_neg hgo, Desc.runSlot, hx]
  exact if_pos hn

variable (hn : d.field 0x1C 4 < x.frameCount)
include hn

/-- A FRAME_RUN of a slot that refuses frame runs (R682). -/
theorem State.startRun_of_refusing (hr : x.refuses ≠ 0) : s.startRun d = s.turnAway d x.refuses := by
  rw [State.startRun, if_neg hgo, Desc.runSlot, hx]
  exact (if_neg (Nat.not_le.2 hn)).trans (if_pos hr)

variable (hr : x.refuses = 0)
include hr

/-- A FRAME_RUN of another epoch than its slot's (R682). -/
theorem State.startRun_of_otherEpoch (he : d.epoch ≠ x.epoch) : s.startRun d = s.turnAway d (errCode .EPOCH_MISMATCH .coll) := by
  rw [State.startRun, if_neg hgo, Desc.runSlot, hx]
  exact (if_neg (Nat.not_le.2 hn)).trans ((if_neg (not_not_intro hr)).trans (if_pos he))

/-- A FRAME_RUN that passes its checks becomes the active run, for which nothing is fetched yet (R83, R406). -/
theorem State.startRun_of_good (he : d.epoch = x.epoch) (hb : d.field 0x24 4 ≤ x.seqBound) :
    let v := s.startNow d
    let w := v.setHost { v.host with run := some ⟨d, d.field 0x18 1, d.field 0x1C 4, d.field 0x20 4, 0, false, 0⟩ }
    s.startRun d = (w.setFrame { w.eng.frame with nextFetched := List.replicate 4 false, fetchError := none }).setP Pg.hub Reg.HUB_FRAME_STAT 5 5 1 := by
  rw [State.startRun, if_neg hgo, Desc.runSlot, hx]
  exact (if_neg (Nat.not_le.2 hn)).trans ((if_neg (not_not_intro hr)).trans ((if_neg (not_not_intro he)).trans (if_neg (Nat.not_lt.2 hb))))

end

/-- Settles O43: the run comes to the checks of its slot (`exec_frameRun_of_starts`), of which the first that fails turns it away. -/
theorem frameRunDescriptor : Obligations.FrameRunDescriptor := by
  intro s t port ring d u now stopped h hrun hgood h1 h2
  have hexec {v : State} (hv : u.startRun d = v) : now v := (exec_frameRun_of_starts h hrun hgood h1 h2).trans (hv ▸ rfl)
  refine ⟨fun hs => hexec (if_pos hs), fun hgo hx => hexec (State.startRun_of_empty hgo hx), fun x hgo hx => ⟨fun hn => ?beyond, fun hn hr => ?refusing,
    fun hn hr he => ?otherEpoch, fun hn hr he hb => ?good⟩⟩
  case beyond => exact hexec (State.startRun_of_beyond hgo hx hn)
  case refusing => exact hexec (State.startRun_of_refusing hgo hx hn hr)
  case otherEpoch => exact hexec (State.startRun_of_otherEpoch hgo hx hn hr he)
  case good => exact hexec (State.startRun_of_good hgo hx hn hr he hb)

end Sys2Proof.Machine
end

section
/-!
SUPPORT. Writes of the event counters (R411) and the handover of ownership (R392 to R394), and the theorem that settles O48.
-/
namespace Sys2Proof.Machine

variable {s : State} {port : Nat} {v : Word}

/-- No page lies in the two windows of the event counters. -/
theorem pageOf_events {off : Nat} (h : 0x410000 ≤ off) (h' : off < 0x424000) : pageOf off = none := by
  simp (disch := omega) only [pageOf, if_pos, if_neg]

/-- The counter and the adding register of an event lie in their windows. -/
theorem windowOf_events {c : Nat} (hc : c < 4096) :
    windowOf (0x410000 + 4 * c) = some (.events, 4 * c) ∧ windowOf (0x420000 + 4 * c) = some (.eventAdd, 4 * c) :=
  ⟨windowOf_of_mem (w := (0x410000, 0x4000, .events)) (by decide) (by simp only; omega),
    windowOf_of_mem (w := (0x420000, 0x4000, .eventAdd)) (by decide) (by simp only; omega)⟩

/-- A signal adds to its counter modulo 2^32. -/
theorem State.signal_toNat (s : State) (c : Nat) (v : Word) : s.signal c v.toNat = s.wr (0x410000 + 4 * c) (s.rd (0x410000 + 4 * c) + v) := by
  rw [State.signal, State.event, BitVec.ofNat_add, BitVec.ofNat_toNat, BitVec.ofNat_toNat, BitVec.setWidth_eq, BitVec.setWidth_eq]

theorem exec_eventCounterWrite_of_accepts {t : Nat} {port : Fin 2} {c : Fin 4096} (ha : (s.atTime t).Accepts port (0x410000 + 4 * c)) (v : Word) :
    exec (.eventCounterWrite t port c v) s = .next (((s.atTime t).answered.wr (0x410000 + 4 * c) v).wake.reported port) := by
  obtain ⟨hwin, -⟩ := windowOf_events c.isLt
  exact congrArg Host.Outcome.next (State.busWrite_window ha (pageOf_events (by omega) (by omega)) hwin)

theorem exec_eventCounterAdd_of_accepts {t : Nat} {port : Fin 2} {c : Fin 4096} (ha : (s.atTime t).Accepts port (0x420000 + 4 * c)) (v : Word) :
    exec (.eventCounterAdd t port c v) s =
      .next (((s.atTime t).answered.wr (0x410000 + 4 * c) ((s.atTime t).rd (0x410000 + 4 * c) + v)).wake.reported port) := by
  obtain ⟨-, hwin⟩ := windowOf_events c.isLt
  have hadd : (s.atTime t).answered.windowWrite .eventAdd (0x420000 + 4 * c) (4 * c) v
      = ((s.atTime t).answered.wr (0x410000 + 4 * c) ((s.atTime t).rd (0x410000 + 4 * c) + v)).wake := by
    rw [← State.answered_rd, ← State.signal_toNat, State.windowWrite, Nat.mul_div_cancel_left _ (by decide)]
  refine congrArg Host.Outcome.next ((State.busWrite_window ha (pageOf_events (by omega) (by omega)) hwin).trans ?_)
  rw [hadd]

/-- The standby port may write the handover command of its own page (R391). -/
theorem standbyMay_handover (port : Nat) : standbyMay port ((Pg.pcie port).base + Reg.PCIE_HO_CMD) = true := by
  simp [standbyMay]

@[simp] theorem State.handoverGo_resp (s : State) (n : Nat) (byOwner : Bool) (v : Word) : (s.handoverGo n byOwner v).resp = s.resp := by
  simp [State.handoverGo]

/-- An allowed write of the handover command is its rule, which answers no error. -/
theorem exec_handoverGo_of_allowed {t : Nat} {port : Fin 2} (hc : (s.atTime t).boot.phase.commandable = true)
    (hd : (s.atTime t).regDenial (.port port) ((Pg.pcie port).base + Reg.PCIE_HO_CMD) = none) (v : Word) :
    exec (.handoverGo t port v) s = .next ((s.atTime t).answered.handoverGo port (port.val == (s.atTime t).owner) v) := by
  have hw := State.busWrite_allowed (v := v) (f := .free) hc (.inr (standbyMay_handover port)) hd
  rw [State.writeWord_page (pageOf_pcie port.isLt (by decide)) (by decide)] at hw
  have hrule : (s.atTime t).answered.pageWrite (.port port) (Pg.pcie port) Reg.PCIE_HO_CMD v .free
      = (s.atTime t).answered.handoverGo port (port.val == (s.atTime t).owner) v := rfl
  have hresp : ((s.atTime t).answered.handoverGo port (port.val == (s.atTime t).owner) v).resp = .done := State.handoverGo_resp ..
  exact congrArg Host.Outcome.next (hw.trans (State.reported_of_done hresp port))

/-- Settles O48: an accepted write of an event window is its rule, an allowed one of the handover command too (`exec_handoverGo_of_allowed`), and a verification
ends by its record. -/
theorem eventsAndHandover : Obligations.EventsAndHandover := by
  intro s t port v u p
  refine ⟨fun c => ⟨fun ha => exec_eventCounterWrite_of_accepts ha v, fun ha => exec_eventCounterAdd_of_accepts ha v⟩,
    fun hc hd hgo => ⟨fun howner h1 h2 => ?begins, fun hbusy => ?busy⟩, fun hverify => ⟨fun hgood => ?accepted, fun hbad => ?failed⟩⟩
  case begins =>
    refine (exec_handoverGo_of_allowed hc hd v).trans (congrArg Host.Outcome.next ((if_neg (by rw [hgo]; decide)).trans (if_neg ?_)))
    rw [beq_iff_eq]
    rintro (h | h | h)
    exacts [howner h, h1 h, h2 h]
  case busy =>
    exact (exec_handoverGo_of_allowed hc hd v).trans (congrArg Host.Outcome.next ((if_neg (by rw [hgo]; decide)).trans (if_pos (by rwa [beq_iff_eq]))))
  case accepted => exact congrArg Host.Outcome.next ((if_neg (not_not_intro hverify)).trans (if_pos hgood))
  case failed => exact congrArg Host.Outcome.next ((if_neg (not_not_intro hverify)).trans (if_neg (ne_true_of_eq_false hbad)))

end Sys2Proof.Machine
end

section
/-!
SUPPORT. Accesses of BAR2, BAR4 and configuration space (R384, R386, R387, R391), and the theorem that settles O47.
-/
namespace Sys2Proof.Machine

variable {s : State} {port a n : Nat} {l : List Byte}

/-! ## BAR2 -/

/-- An access within one granule is one piece. -/
theorem piecesOf_granule (hn : n ≠ 0) (hg : a % 2048 + n ≤ 2048) : piecesOf a n = [(0, n)] := by
  have hone : (a % 2048 + n - 1) / 2048 + 1 = 1 := by omega
  have hlen : min (a + n) (a / 2048 * 2048 + (0 + 1) * 2048) - a = n := by omega
  rw [piecesOf, if_neg hn, hone]
  simp only [List.range_one, List.map_cons, List.map_nil, if_true, hlen, Nat.sub_self]

/-- An access that nothing denies reaches no unpopulated byte. -/
theorem State.unpopulated_of_undenied {me : Page} {info cls : Nat} {write : Bool} (h : s.denial me info cls a n write = none) : unpopulated a n = none := by
  cases hu : unpopulated a n with
  | none => rfl
  | some x =>
    rw [State.denial, hu] at h
    cases h

/-- A piece that nothing denies and no error meets is read. -/
theorem State.readPiece_of_undenied {me : Page} {info cls : Nat} (hr : isRegs a = false) (hd : s.denial me info cls a n false = none) (aged : Bool) :
    s.readPiece me info cls a n aged none
      = (((s.servedBurst a n cls false aged).fetchBytes a n).1, ((s.servedBurst a n cls false aged).fetchBytes a n).2, none) := by
  rw [State.readPiece, if_neg (ne_true_of_eq_false hr), hd]
  rfl

/-- A piece that nothing denies and no error meets is written. -/
theorem State.writePiece_of_undenied {me : Page} {info cls : Nat} (hr : isRegs a = false) (hd : s.denial me info cls a l.length true = none) (aged : Bool) :
    s.writePiece me info cls a l aged none = (((s.servedBurst a l.length cls true aged).servedPart a l.length cls).placeBytes a l, none) := by
  rw [State.writePiece, if_neg (ne_true_of_eq_false hr), hd]
  rfl

/-- A read through BAR2 within one granule answers the bytes there (R387). -/
theorem State.windowAccess_read (hn : n ≠ 0) (hg : a % 2048 + n ≤ 2048) (hr : isRegs a = false) (hd : s.denial (Pg.pcie port) 0 2 a n false = none) :
    let r := (s.servedBurst a n 2 false false).fetchBytes a n
    s.windowAccess port a n none [] = { r.2 with resp := .bytes r.1 } := by
  have hpiece := State.readPiece_of_undenied hr hd false
  simp only [State.windowAccess, if_neg hn, State.unpopulated_of_undenied hd, hr, Option.isSome_none, hd, piecesOf_granule hn hg, Bool.false_eq_true, false_and,
    if_false, List.zipIdx_cons, List.zipIdx_nil, State.windowRead, Nat.add_zero, burstEvent, List.find?_nil, Option.map_none, hpiece, List.nil_append]

/-- A write through BAR2 within one granule places its bytes (R387). -/
theorem State.windowAccess_write (hl : l ≠ []) (hg : a % 2048 + l.length ≤ 2048) (hr : isRegs a = false)
    (hd : s.denial (Pg.pcie port) 0 2 a l.length true = none) : s.windowAccess port a l.length (some l) []
      = { ((s.servedBurst a l.length 2 true false).servedPart a l.length 2).placeBytes a l with resp := .done } := by
  have hn : l.length ≠ 0 := fun h => hl (List.length_eq_zero_iff.1 h)
  have hpiece := State.writePiece_of_undenied hr hd false
  simp only [State.windowAccess, if_neg hn, State.unpopulated_of_undenied hd, hr, Option.isSome_some, hd, piecesOf_granule hn hg, Bool.false_eq_true, false_and,
    if_false, List.zipIdx_cons, List.zipIdx_nil, State.windowStore, Nat.add_zero, burstEvent, List.find?_nil, Option.map_none, List.drop_zero, List.take_length,
    hpiece]

/-! ## BAR4 -/

/-- Bytes taken from a number make it again, modulo what they hold. -/
theorem leNat_leBytes (n v : Nat) : leNat (leBytes n v) = v % 256 ^ n := by
  induction n generalizing v with
  | zero => rw [Nat.pow_zero, Nat.mod_one]; rfl
  | succ n ih => rw [leBytes, leNat, ih, BitVec.toNat_ofNat, Nat.pow_succ' (m := 256), Nat.mod_mul]

/-- The bytes of a word written over a whole word. -/
theorem overWord_leBytes (was v : Word) (o : Nat) : overWord was o o (leBytes 4 v.toNat) = v := by
  have hbytes : ((List.range 4).map fun k => if o ≤ o + k ∧ o + k < o + (leBytes 4 v.toNat).length then (leBytes 4 v.toNat).getD (o + k - o) 0
      else leByte was.toNat k) = leBytes 4 v.toNat := by
    refine List.ext_getElem (by simp [leBytes_length]) fun k h1 h2 => ?_
    have hin : o ≤ o + k ∧ o + k < o + (leBytes 4 v.toNat).length := ⟨Nat.le_add_right .., Nat.add_lt_add_left h2 o⟩
    rw [List.getElem_map, List.getElem_range, if_pos hin, Nat.add_sub_cancel_left, List.getD_eq_getElem _ _ h2]
  have hword : v.toNat % 256 ^ 4 = v.toNat := Nat.mod_eq_of_lt v.isLt
  rw [overWord, hbytes, leNat_leBytes, hword, BitVec.ofNat_toNat, BitVec.setWidth_eq]

/-- A write of four bytes at a word of the MSI-X table reaches that word alone (R386). -/
theorem msixWords_reached {i : Nat} (hi : i < 256) :
    ((List.range (4 / 4 + 2)).map fun k => 4 * i / 4 + k).filter (fun j => decide (j < msixWords) && decide (4 * j < 4 * i + 4)) = [i] := by
  have h0 : decide (i < msixWords) = true := decide_eq_true hi
  have h1 : decide (4 * (i + 1) < 4 * i + 4) = false := decide_eq_false (by omega)
  have h2 : decide (4 * (i + 2) < 4 * i + 4) = false := decide_eq_false (by omega)
  rw [Nat.mul_div_cancel_left _ (by decide)]
  simp [List.range_succ, List.filter, h0, h1, h2]

/-- A write of a word of the MSI-X table (R386). -/
theorem State.bar4Access_word (s : State) (port : Nat) {i : Nat} (hi : i < 256) (v : Word) :
    s.bar4Access port (4 * i) 4 (some (leBytes 4 v.toNat)) = { (s.setPci port ((s.pci port).setWord i v)).msixFlush port with resp := .done } := by
  simp only [State.bar4Access, leBytes_length, msixWords_reached hi, List.foldl_cons, List.foldl_nil, overWord_leBytes]

/-! ## Configuration space -/

/-- A read of configuration space draws the values that the spec leaves open (R384). -/
theorem State.configAccess_read (h : s.boot.phase = .ready ∨ s.boot.phase = .recovery) (off : Nat) : s.configAccess port off n none =
    { s with free := s.free + 1, resp := .bytes ((List.range n).map fun i => s.configByte port s.free (off + i)) } := by
  have hready : ¬(s.boot.phase ≠ .ready ∧ s.boot.phase ≠ .recovery) := by tauto
  exact if_neg hready

/-! ## The command -/

/-- The bytes that an access covers: those that a write brings, or as many as a read asks for. -/
def accessBytes (len : Nat) : Option (List Byte) → Nat
  | some l => l.length
  | none => len

section
variable {t len : Nat} {port : Fin 2} {off : BitVec 40} {data : Option (List Byte)} (hc : (s.atTime t).boot.phase.commandable = true)
include hc

/-- An access within a space of a commandable module goes on to the rule of the space. -/
theorem State.access_reached {x : HostSpace} {n : Nat} (hn : off.toNat + n ≤ (s.atTime t).spaceBytes port x) :
    ¬((!(s.atTime t).boot.phase.commandable) = true ∨ (s.atTime t).spaceBytes port x < off.toNat + n) := by
  rw [hc]
  exact not_or.2 ⟨by decide, Nat.not_lt.2 hn⟩

theorem exec_hostWindowAccess_config (hn : off.toNat + accessBytes len data ≤ 0x1000) :
    exec (.hostWindowAccess t port .config off len data []) s = .next ((s.atTime t).configAccess port off.toNat (accessBytes len data) data) := by
  cases data <;> exact congrArg Host.Outcome.next (if_neg (State.access_reached (x := .config) hc hn))

theorem exec_hostWindowAccess_bar4 (hn : off.toNat + accessBytes len data ≤ 0x10000) :
    exec (.hostWindowAccess t port .bar4 off len data []) s = .next ((s.atTime t).bar4Access port off.toNat (accessBytes len data) data) := by
  cases data <;> exact congrArg Host.Outcome.next (if_neg (State.access_reached (x := .bar4) hc hn))

variable (hn : off.toNat + accessBytes len data ≤ (s.atTime t).spaceBytes port .bar2)
include hn

/-- BAR2 of the standby port takes no access (R391). -/
theorem exec_hostWindowAccess_standby (ho : port.val ≠ (s.atTime t).owner) :
    exec (.hostWindowAccess t port .bar2 off len data []) s = .next ((s.atTime t).standbyReject port) := by
  cases data <;> exact congrArg Host.Outcome.next ((if_neg (State.access_reached hc hn)).trans (if_pos ho))

/-- BAR2 of the owner port is the device address window, unless the module is in recovery (R387, R641). -/
theorem exec_hostWindowAccess_owner (ho : port.val = (s.atTime t).owner) (hr : inRecovery (s.atTime t) = false) {v : State}
    (hv : (s.atTime t).windowAccess port ((s.atTime t).num64 (Pg.pcie port) Reg.PCIE_WIN_BASE_LO + off.toNat) (accessBytes len data) data [] = v)
    (herr : v.resp.status = .successful) : exec (.hostWindowAccess t port .bar2 off len data []) s = .next v := by
  have hwindow : exec (.hostWindowAccess t port .bar2 off len data []) s = .next ((if inRecovery (s.atTime t) = true then
      (s.atTime t).stagingAccess port off.toNat (accessBytes len data) data else (s.atTime t).windowAccess port
        ((s.atTime t).num64 (Pg.pcie port) Reg.PCIE_WIN_BASE_LO + off.toNat) (accessBytes len data) data []).reported port) := by
    cases data <;> exact congrArg Host.Outcome.next ((if_neg (State.access_reached hc hn)).trans (if_neg (not_not_intro ho)))
  rw [hwindow, if_neg (ne_true_of_eq_false hr), hv, State.reported, herr]

end

/-- The identity of the function in configuration space: its vendor and device, and its class (R384). -/
theorem State.configByte_identity (s : State) (port k : Nat) : (List.range 4).map (s.configByte port k) = [0xC7, 0x1E, 0x34, 0x57]
    ∧ (List.range 3).map (fun i => s.configByte port k (9 + i)) = [0, 0, 0x12] :=
  ⟨rfl, rfl⟩

/-- Settles O47: an access comes to the rule of its space (`exec_hostWindowAccess_owner` and the three beside it), and one of BAR2 within a granule is one piece. -/
theorem hostWindow : Obligations.HostWindow := by
  intro s t port off len l u a access hc
  refine ⟨fun ho => ⟨fun hn => ?standbyRead, fun hn => ?standbyWrite⟩, fun ho hr ha => ⟨fun hn h0 hg hd => ?read, fun hn h0 hg hd => ?write⟩,
    fun hn => exec_hostWindowAccess_bar4 (data := none) hc hn, fun i v hoff => ?word, fun hn h1 h2 => ?retry, fun hn h => ?config, u.configByte_identity port⟩
  case standbyRead => exact exec_hostWindowAccess_standby (data := none) hc hn ho
  case standbyWrite => exact exec_hostWindowAccess_standby (data := some l) hc hn ho
  case read => exact exec_hostWindowAccess_owner (data := none) hc hn ho hr (State.windowAccess_read h0 hg ha hd) rfl
  case write => exact exec_hostWindowAccess_owner (data := some l) hc hn ho hr (State.windowAccess_write h0 hg ha hd) rfl
  case word =>
    have hn : off.toNat + accessBytes len (some (leBytes 4 v.toNat)) ≤ 0x10000 := by
      rw [accessBytes, leBytes_length]
      omega
    rw [← State.bar4Access_word u port i.isLt v, ← hoff]
    exact exec_hostWindowAccess_bar4 hc hn
  case retry => exact (exec_hostWindowAccess_config (data := none) hc hn).trans (congrArg Host.Outcome.next (if_pos ⟨h1, h2⟩))
  case config => exact (exec_hostWindowAccess_config (data := none) hc hn).trans (congrArg Host.Outcome.next (State.configAccess_read h _))

end Sys2Proof.Machine
end

section
/-!
SUPPORT. Routing of the oldest cell at the switch (R436, R438, R439), and the theorem that settles O27; and a credit stall whose message waits for its masked
vector (R416, R448), which refutes O28.
-/
namespace Sys2Proof.Machine

variable {s : State} {a : Arrived} {t : Nat}

/-! ## Routing -/

/-- The oldest cell at the switch that is no LINK cell leaves it and is routed (R438). -/
theorem exec_cellForward_of_find (h : (s.atTime t).fab.inbox.find? (fun b => b.cell.typ != 0xD) = some a) :
    exec (.cellForward t) s = .next (((s.atTime t).setFab { (s.atTime t).fab with inbox := (s.atTime t).fab.inbox.erase a }).routeCell a) := by
  refine congrArg Host.Outcome.next ?_
  rw [← State.atTime, h]

theorem State.routeCell_illTyped (h : a.cell.wellTyped = false) : s.routeCell a = (s.bump Pg.rte Reg.RTE_BAD_TYPE_CNT 1).releaseCell a :=
  if_pos (by rw [h]; rfl)

theorem State.routeCell_unicast (hw : a.cell.wellTyped = true) (hd : a.direct = none) (hm : a.cell.mc = false) : s.routeCell a = s.routeUnicast a := by
  simp only [State.routeCell, hw, hd, hm, Bool.not_true, Bool.false_eq_true, if_false]

theorem State.routeUnicast_here (hv : s.nodeValid = true) (hd : a.cell.dst = s.node) : s.routeUnicast a = s.deliverHere a := if_pos ⟨hv, hd⟩

/-- A unicast cell for another node goes by the entry of its node: nowhere, to the primary port, to the alternative, or it is dropped (R439). -/
theorem State.routeUnicast_away (h : ¬(s.nodeValid = true ∧ a.cell.dst = s.node)) : s.routeUnicast a =
    if (!bit (s.routeOf a.cell.dst) 31) = true then (s.bump Pg.rte Reg.RTE_NOROUTE_CNT 1).releaseCell a
    else if s.portUp (bits (s.routeOf a.cell.dst) 4 0) = true then s.queueOn a (bits (s.routeOf a.cell.dst) 4 0)
    else if bit (s.routeOf a.cell.dst) 30 = true ∧ s.portUp (bits (s.routeOf a.cell.dst) 12 8) = true then s.queueOn a (bits (s.routeOf a.cell.dst) 12 8)
    else s.downDrop a (bits (s.routeOf a.cell.dst) 4 0) := if_neg h

/-- Settles O27: the cell is routed in the state without it (`exec_cellForward_of_find`), by its type, its node and the entry of its node
(`routeUnicast_away`). -/
theorem cellsRouted : Obligations.CellsRouted := by
  intro s t a u v e pri alt now unicast away hfind
  have hexec {x : State} (h : v.routeCell a = x) : now x := (exec_cellForward_of_find hfind).trans (congrArg Host.Outcome.next h)
  have hunicast {x : State} (hu : unicast) (h : v.routeUnicast a = x) : now x := by
    obtain ⟨hw, hd, hm⟩ := hu
    exact hexec ((State.routeCell_unicast hw hd hm).trans h)
  have haway {x : State} (ha : away) (h : _ = x) : now x := hunicast ha.1 ((State.routeUnicast_away (s := v) ha.2).trans h)
  refine ⟨fun hbad => hexec (State.routeCell_illTyped hbad), fun hu hv hd => hunicast hu (State.routeUnicast_here (s := v) hv hd), fun ha hr => haway ha ?unrouted,
    fun ha hr hp => haway ha ?primary, fun ha hr hp he hq => haway ha ?alternative, fun ha hr hp hq => haway ha ?dropped, fun out h0 => if_pos h0,
    fun out h0 => if_neg h0⟩
  case unrouted => exact if_pos (by rw [Bool.not_eq_true']; exact hr)
  all_goals have hrouted : ¬(!bit e 31) = true := by rw [hr]; decide
  case primary => exact (if_neg hrouted).trans (if_pos hp)
  all_goals have hdown : ¬u.portUp pri = true := ne_true_of_eq_false hp
  case alternative => exact (if_neg hrouted).trans ((if_neg hdown).trans (if_pos ⟨he, hq⟩))
  case dropped => exact (if_neg hrouted).trans ((if_neg hdown).trans (if_neg hq))

/-! ## A stalled class whose message waits -/

/-- A cell of class 2 that has waited at port 23 without credit since cycle 0. -/
def stalledCell : Arrived := ⟨0, 24, 2, 0, none, Cell.blank 1 7 []⟩

/-- Port 23 holds that cell at cycle 2^30, its page's interrupt for errors is enabled, and MSI-X is on at the owner port, whose function may not send. -/
def stalledState : State :=
  let s := State.reset.wr ((Pg.fab 23).base + Reg.INT_EN) 1
  let s := s.setPort 23 { s.port 23 with queue := [stalledCell] }
  { s.setPci s.owner { PciPort.fresh with cfg := { PciPort.fresh.cfg with msix := true } } with wall := 2 ^ 30 }

/-- Refutes O28: the statement says that CREDIT_STALL leaves the host side as it was. The raised error sets bit 0 of the port's INT_STAT (R23), and its message
(R416) waits in the pending bits of a masked vector, which are part of the host side: in `stalledState` vector 0 of the owner port waits after the command and
not before. -/
theorem not_cellsAgeAndStall : ¬ Obligations.CellsAgeAndStall := by
  intro h
  obtain ⟨-, hframe, -⟩ := h stalledState 0
  obtain ⟨y, hy, -, -, hhost, -⟩ := hframe 23
  have heq : y = (stalledState.atTime 0).stalls 23 := Host.Outcome.next.inj (hy.symm.trans rfl)
  rw [heq] at hhost
  have hwaits : ((stalledState.atTime 0).stalls 23).pci (stalledState.atTime 0).owner ≠ (stalledState.atTime 0).pci (stalledState.atTime 0).owner := by
    decide +kernel
  exact hwaits (congrArg (fun x : HostSide => x.pci.getD (stalledState.atTime 0).owner PciPort.fresh) hhost)

end Sys2Proof.Machine
end

section
/-!
SUPPORT. SEND, RECV, CSTART and CWAIT where they are free to issue (R450, R451, R454, R486, R487), and the theorem that settles O14.
-/
namespace Sys2Proof.Machine

variable {s : State} {w : SWord}

/-- A word that is free to issue takes effect, and what operations in flight read in its cycle follows where the effect lets the frame issue on. -/
theorem State.issue_effect {kind op info : Nat} {blame : State → Blame} {check : State → WordCtx → RawWord → List Finding} {effect : State → State}
    (h : (s.atWord w).MayIssue w kind op check) :
    s.issue w kind op info blame check effect = if (effect (s.atWord w)).issuing then (effect (s.atWord w)).reads else effect (s.atWord w) := by
  obtain ⟨hcan, hdie, hfind⟩ := h
  have hfree : ((s.atWord w).canIssue w.stamp.toNat && (s.atWord w).runsOn w.die) = true := by rw [hcan, hdie]; rfl
  refine (if_pos hfree).trans ?_
  dsimp only
  rw [← State.atWord, hfind]

/-- Settles O14: a SEND or CSTART that is free to issue is its effect at issue, which a full store may end in an abort (`issue_effect`), and a RECV or CWAIT is
examined at its stamp (`issueWait_of_mayWait`). -/
theorem fabricWords : Obligations.FabricWords := by
  intro s w u a st x t n on
  have hsend {z : State} (hmay : u.MayIssue w 6 1 State.fabricCheck) (hz : u.sendWord w = z) : exec (.send w) s = on z.settle := by
    subst hz
    exact congrArg Host.Outcome.next (State.issue_effect hmay)
  have hcstart {z : State} (hmay : u.MayIssue w 6 0x10 State.fabricCheck) (hz : u.cstart w = z) : exec (.cstart w) s = on z.settle := by
    subst hz
    exact congrArg Host.Outcome.next (State.issue_effect hmay)
  refine ⟨fun hmay => ⟨fun hroom hlive => hsend hmay ?sent, fun hfull => hsend hmay (if_pos hfull)⟩, fun hmay => ⟨fun hhas => ?present, fun hhas => ?late⟩,
    fun hmay => ?begun, fun hmay => ⟨fun hmet => ?met, fun hmet => ?unmet⟩⟩
  case sent => exact (if_neg (Nat.not_lt.2 hroom)).trans (if_neg (ne_true_of_eq_false hlive))
  case present => exact congrArg Host.Outcome.next ((State.issueWait_of_mayWait hmay).trans (if_pos hhas))
  case late => exact congrArg Host.Outcome.next ((State.issueWait_of_mayWait hmay).trans (if_neg (ne_true_of_eq_false hhas)))
  case begun =>
    intro c b hserves hroom
    have hserved : ¬(!u.tableServes b) = true := by
      rw [hserves]
      decide
    exact hcstart hmay ((if_neg hserved).trans (if_neg (Nat.not_lt.2 hroom)))
  case met => exact congrArg Host.Outcome.next ((State.issueWait_of_mayWait hmay).trans (if_pos hmet))
  case unmet => exact congrArg Host.Outcome.next ((State.issueWait_of_mayWait hmay).trans (if_neg (ne_true_of_eq_false hmet)))

end Sys2Proof.Machine
end

section
/-!
SUPPORT. Cells that a stream receives (R455, R511), its ACK timer, ACKs and re-sends (R456 to R458), and the theorems that settle O15 and O16.
-/
namespace Sys2Proof.Machine

variable {s v : State} {c : Cell} {a : Arrived} {t : Nat}

/-! ## DATA cells -/

/-- The oldest delivered DATA cell is taken and tested (R455). -/
theorem exec_data_of_taken {errs : List AccessErr} (h : (s.atFacing errs t).takeHere 1 = some (a, v)) :
    exec (.data t errs) s = .next (v.takeData a.cell).wake := by
  refine congrArg Host.Outcome.next ?_
  rw [← State.atFacing, h]

theorem State.takeData_stale (h : behind (s.epochDist c.epoch) = true) : s.takeData c = s.staleCell (c.ctx % 256) none := if_pos h

theorem State.takeData_early (hb : behind (s.epochDist c.epoch) = false) (ha : ahead (s.epochDist c.epoch) = true) :
    s.takeData c = s.bump Pg.coll Reg.COLL_EARLY_CNT 1 := (if_neg (ne_true_of_eq_false hb)).trans (if_pos ha)

/-- The pairing by which a DATA cell came is the one that a stream is bound to (R455). -/
def RecvStream.Binds (x : RecvStream) (c : Cell) : Prop := x.bound = true ∧ x.src = c.src ∧ x.sstream = c.ctx / 256

theorem RecvStream.binds_iff (x : RecvStream) (c : Cell) : x.Binds c ↔ (x.bound && x.src == c.src && x.sstream == c.ctx / 256) = true := by
  simp only [RecvStream.Binds, Bool.and_eq_true, beq_iff_eq, and_assoc]

/-- Where a stream keeps the cell of a number: its place in the ring (R454). -/
def RecvStream.place (x : RecvStream) (st n : Nat) : Nat := spadBase (st / 64) + x.base + 64 * (n % ringCells x.log)

/-- A new cell of a stream is made present once its place in the ring takes it (R454, R455). -/
def State.ringStore (s : State) (c : Cell) (n : Nat) : State × Option Nat → State
  | (z, some _) => z
  | (z, none) =>
    let st := c.ctx % 256
    let x := s.recvStream st
    let z := z.write (x.place st n) c.payload
    let y := z.setRecv st { x with present := n :: x.present, fresh := x.fresh + 1, since := some (x.since.getD z.wall) }
    if 32 ≤ x.fresh + 1 then y.sendAck st else y

/-- What becomes of a good DATA cell of a bound stream, by its cell number and by what the write of its place in the ring answers (R455). -/
def State.takeNumbered (s : State) (c : Cell) (i : Int) (r : State × Option Nat) : State :=
  let x := s.recvStream (c.ctx % 256)
  if i < x.c ∨ i.toNat < x.p ∨ x.present.contains i.toNat = true then s.dupData (c.ctx % 256)
  else if x.c + ringCells x.log ≤ i.toNat then s.bump Pg.rte Reg.RTE_WIN_DROP_CNT 1
  else s.ringStore c i.toNat r

section
variable (hb : behind (s.epochDist c.epoch) = false) (ha : ahead (s.epochDist c.epoch) = false)
include hb ha

theorem State.takeData_spoiled (hg : c.good = false) : s.takeData c = s.bump Pg.rte Reg.RTE_CRC_DROP_CNT 1 :=
  (if_neg (ne_true_of_eq_false hb)).trans <| (if_neg (ne_true_of_eq_false ha)).trans (if_pos (by rw [hg]; rfl))

variable (hg : c.good = true)
include hg

theorem State.takeData_unbound (ho : ¬(s.recvStream (c.ctx % 256)).Binds c) : s.takeData c = s.bump Pg.rte Reg.RTE_UNBOUND_DROP_CNT 1 := by
  rw [RecvStream.binds_iff, Bool.not_eq_true] at ho
  exact (if_neg (ne_true_of_eq_false hb)).trans <| (if_neg (ne_true_of_eq_false ha)).trans <| (if_neg (by rw [hg]; decide)).trans (if_pos (by rw [ho]; rfl))

/-- The kernel would evaluate the cell's number and the write where it compares terms that hold them, so both are made opaque by their equations. -/
theorem State.takeData_numbered {i : Int} {r : State × Option Nat} (ho : (s.recvStream (c.ctx % 256)).Binds c)
    (hi : unwrap (s.recvStream (c.ctx % 256)).c c.seq = i)
    (hr : s.writeTo Pg.rte (c.ctx % 256 * 2 ^ 24) ((s.recvStream (c.ctx % 256)).place (c.ctx % 256) i.toNat) 64 1 = r) :
    s.takeData c = s.takeNumbered c i r := by
  rw [RecvStream.binds_iff] at ho
  unfold State.takeData
  extract_lets st x d j n at_
  have hj : j = i := hi
  clear_value j
  subst hj
  have hwrite : s.writeTo Pg.rte (st * 2 ^ 24) at_ 64 1 = r := hr
  rw [if_neg (ne_true_of_eq_false hb), if_neg (ne_true_of_eq_false ha), if_neg (by rw [hg]; decide), if_neg (by rw [ho]; decide), hwrite]
  rcases r with ⟨z, _ | code⟩ <;> rfl

end

/-- Settles O15: the oldest delivered DATA cell is taken (`exec_data_of_taken`) and meets the tests of R455 in order; a good one of a bound stream goes by its
cell number (`takeData_numbered`). -/
theorem streamData : Obligations.StreamData := by
  intro s t errs a v u c st x d i n current ours htaken
  have hexec {y : State} (h : v.takeData c = y) : exec (.data t errs) s = .next y.wake := h ▸ exec_data_of_taken htaken
  have hnumbered {r : State × Option Nat} {y : State} (hcur : current) (hg : c.good = true) (ho : ours)
      (hr : v.writeTo Pg.rte (st * 2 ^ 24) (x.place st n) 64 1 = r) (h : v.takeNumbered c i r = y) : exec (.data t errs) s = .next y.wake :=
    hexec ((State.takeData_numbered hcur.1 hcur.2 hg ho rfl hr).trans h)
  refine ⟨fun hb => hexec (State.takeData_stale hb), fun hb ha => hexec (State.takeData_early hb ha),
    fun ⟨hb, ha⟩ hg => hexec (State.takeData_spoiled hb ha hg), fun ⟨hb, ha⟩ hg ho => hexec (State.takeData_unbound hb ha hg ho),
    fun hcur hg ho hold => hnumbered hcur hg ho rfl (if_pos ?duplicate), fun hcur hg ho hi hp hn hwin => hnumbered hcur hg ho rfl ?beyond,
    fun hcur hg ho hi hp hn hwin => ?within⟩
  case duplicate => rwa [List.contains_iff_mem]
  all_goals
    have hnew : ¬(i < x.c ∨ n < x.p ∨ x.present.contains n = true) := by
      rw [List.contains_iff_mem]
      exact not_or.2 ⟨not_lt.2 hi, not_or.2 ⟨not_lt.2 hp, hn⟩⟩
  case beyond => exact (if_neg hnew).trans (if_pos hwin)
  case within =>
    intro at_ z
    have hstore (r : State × Option Nat) : v.takeNumbered c i r = v.ringStore c n r := (if_neg hnew).trans (if_neg (Nat.not_le.2 hwin))
    exact ⟨fun hw => hnumbered hcur hg ho hw (hstore _), fun code hw => hnumbered hcur hg ho hw (hstore _)⟩

/-! ## ACKs and re-sends -/

/-- The sent cells of a stream, up to BURST of them, go again, 5 in 4 cycles (R458). -/
def State.resendCells (s : State) (st : Nat) : State :=
  let x := s.sendStream st
  let l := (x.cells.filter fun z => z.sent.isSome).take s.retryBurst
  (l.zipIdx.foldl (fun v z => v.sendCellAt st z.1.n (v.wall + 4 * z.2 / 5) true) (s.setSend st { x with timer := s.dueAgain x.timer })).bump Pg.rte
    Reg.RTE_RESEND_CNT l.length

/-- A stream whose oldest cell has come due sends again, or fails after RTE_RETRY.MAX times (R458). -/
theorem State.streamDue_of_due {st k : Nat} {y : SendCell} {r : List SendCell} (hc : (s.sendStream st).cells = y :: r) (hs : y.sent = some k)
    (hd : k + s.rtoOf (s.sendStream st).timer ≤ s.wall) :
    s.streamDue st = if s.retryMax ≤ (s.sendStream st).timer.retries then s.streamFail st else s.resendCells st := by
  unfold State.streamDue
  dsimp only
  split
  next h => exact absurd (hc.symm.trans h) (List.cons_ne_nil _ _)
  next h =>
    obtain ⟨rfl, -⟩ := List.cons.inj (hc.symm.trans h)
    rw [hs]
    exact if_neg (Nat.not_lt.2 hd)

/-- The oldest delivered ACK is taken once it passes its CRC (R437, R457). -/
theorem exec_ack_of_taken (h : (s.atTime t).takeHere 2 = some (a, v)) (hg : a.cell.good = true) : exec (.ack t) s = .next (v.takeAck a) :=
  congrArg Host.Outcome.next (State.onCell_good h hg State.takeAck)

/-- Settles O16: the ACK timer and an ACK are their rules where their conditions hold, and a stream whose oldest cell comes due sends again or fails
(`streamDue_of_due`). -/
theorem streamAcks : Obligations.StreamAcks := by
  intro s t st u
  refine ⟨fun k hk hdue => ?timer, fun a v htaken => ?ack, fun y r k => ?resend⟩
  case timer =>
    refine congrArg Host.Outcome.next ?_
    rw [← State.atTime, hk]
    exact if_pos hdue
  case ack =>
    intro c x hg hb hd hs
    have hbound : (x.bound && x.dst == c.src && x.dstream == c.ctx % 256) = true := by
      simp only [hb, hd, hs, beq_self_eq_true, Bool.and_self]
    exact (exec_ack_of_taken htaken hg).trans (congrArg Host.Outcome.next (if_neg (by rw [hbound]; decide)))
  case resend =>
    intro x hcells hsent hdue
    have hexec : exec (.resendTimeout t st) s = .next (if u.retryMax ≤ x.timer.retries then u.streamFail st else u.resendCells st) :=
      congrArg Host.Outcome.next (State.streamDue_of_due hcells hsent hdue)
    exact ⟨fun hmax => hexec.trans (congrArg Host.Outcome.next (if_pos hmax)),
      fun hmax => hexec.trans (congrArg Host.Outcome.next (if_neg (Nat.not_le.2 hmax)))⟩

end Sys2Proof.Machine
end

section
/-!
SUPPORT. Echoes (R101, R463) and management messages (R465): accepted writes of their command registers, the cells that answer, and the theorems that settle O17
and O18.
-/
namespace Sys2Proof.Machine

variable {s : State} {o t : Nat} {v : Word}

/-! ## Commands of the RTE page -/

/-- An accepted write of a block-specific register of the RTE page whose rule answers no error is that rule. -/
theorem exec_rteWrite_of_accepts {port : Fin 2} {i : Instr} (hi : exec i s = .next ((s.atTime t).busWrite (.port port) (Pg.rte.base + o) v .free))
    (ha : (s.atTime t).Accepts port (Pg.rte.base + o)) (hp : pageOf (Pg.rte.base + o) = some (Pg.rte, o)) (ho : 0x40 ≤ o)
    {w : State} (hw : (s.atTime t).answered.rteWrite o v = w) (hr : w.resp = .done) : exec i s = .next w := by
  have hrule : (s.atTime t).busWrite (.port port) (Pg.rte.base + o) v .free = w.reported port := by
    rw [State.busWrite_accepted ha, State.writeWord_page hp ho, ← hw]
    rfl
  rw [hi, hrule, State.reported_of_done hr]

theorem exec_echoGo_of_accepts {port : Fin 2} (ha : (s.atTime t).Accepts port (Pg.rte.base + Reg.RTE_ECHO_CMD)) :
    exec (.echoGo t port v) s = .next ((s.atTime t).answered.echoGo v.toNat) :=
  exec_rteWrite_of_accepts rfl ha (by decide) (by decide) rfl (State.echoGo_resp ..)

theorem exec_mgmtGo_of_accepts {port : Fin 2} (ha : (s.atTime t).Accepts port (Pg.rte.base + Reg.RTE_MGMT_CMD)) :
    exec (.mgmtGo t port v) s = .next ((s.atTime t).answered.mgmtGo v.toNat) :=
  exec_rteWrite_of_accepts rfl ha (by decide) (by decide) rfl (State.mgmtGo_resp ..)

theorem exec_mgmtPop_of_accepts {port : Fin 2} (ha : (s.atTime t).Accepts port (Pg.rte.base + Reg.RTE_MGMT_POP)) :
    exec (.mgmtPop t port v) s = .next ((s.atTime t).answered.mgmtPop v.toNat) :=
  exec_rteWrite_of_accepts rfl ha (by decide) (by decide) rfl (State.mgmtPop_resp ..)

/-! ## Echoes -/

/-- The response of the outstanding echo ends it. -/
theorem State.echoTake_of_outstanding {a : Arrived} {e : Echo} (he : s.fab.echo = some e) (hn : a.cell.ctx = e.num) :
    let fix := a.at_ - e.at_ - leAt a.cell.payload 12 4
    let x := s.echoEnd (2 ^ 31 + fix % 2 ^ 24)
    s.echoTake a = if e.setDelay ∧ e.target = x.fldP Pg.hub Reg.HUB_TICK_CFG 31 16 ∧ fix / 2 < x.frameLen / 2 then
      x.setP Pg.hub Reg.HUB_TICK_DELAY 23 0 (fix / 2) else x := by
  unfold State.echoTake
  rw [he]
  exact if_neg (not_not_intro hn)

/-- Settles O17: an accepted write of RTE_ECHO_CMD is its rule (`exec_echoGo_of_accepts`), and a good request or response is what the cell does (`onCell_good`),
the response of the outstanding echo ending it (`echoTake_of_outstanding`). -/
theorem echoes : Obligations.Echoes := by
  intro s t u
  refine ⟨fun port v ha => ⟨fun hgo hidle => ?begins, fun hnot => ?nothing⟩, fun a v htaken hg => ?answered, fun a v e htaken hg he hn => ?ends,
    fun e he hdue => ?timeout⟩
  case begins =>
    have hgoes : ¬((!bit v.toNat 31) = true ∨ u.answered.fab.echo.isSome = true) := by
      rw [hgo, show u.answered.fab.echo = none from hidle]
      decide
    exact (exec_echoGo_of_accepts ha).trans (congrArg Host.Outcome.next (if_neg hgoes))
  case nothing =>
    have hstays : (!bit v.toNat 31) = true ∨ u.answered.fab.echo.isSome = true := hnot.imp_left fun h => by rw [h]; rfl
    exact (exec_echoGo_of_accepts ha).trans (congrArg Host.Outcome.next (if_pos hstays))
  case answered => exact congrArg Host.Outcome.next (State.onCell_good htaken hg State.echoAnswer)
  case ends =>
    exact congrArg Host.Outcome.next ((State.onCell_good htaken hg State.echoTake).trans (State.echoTake_of_outstanding he hn))
  case timeout =>
    refine congrArg Host.Outcome.next ?_
    rw [← State.atTime, he]
    exact if_pos hdue

/-! ## Management messages -/

/-- Settles O18: accepted writes of RTE_MGMT_CMD and RTE_MGMT_POP are their rules, and a good message enters the mailbox while it holds fewer than eight. -/
theorem managementMessages : Obligations.ManagementMessages := by
  intro s t u
  refine ⟨fun port v ha hgo => ?leaves, fun a v htaken hg => ⟨fun hfull => ?dropped, fun hroom => ?enters⟩,
    fun port v ha hpop => ⟨fun hheld => ?popped, fun hempty => ?empty⟩⟩
  case leaves => exact (exec_mgmtGo_of_accepts ha).trans (congrArg Host.Outcome.next (if_neg (by rw [hgo]; decide)))
  case dropped => exact congrArg Host.Outcome.next ((State.onCell_good htaken hg State.mgmtTake).trans (if_pos hfull))
  case enters => exact congrArg Host.Outcome.next ((State.onCell_good htaken hg State.mgmtTake).trans (if_neg (Nat.not_le.2 hroom)))
  case popped =>
    have hpops : ¬((!bit v.toNat 0) = true ∨ u.fldP Pg.rte Reg.RTE_MGMT_STAT 3 0 = 0) := by
      rw [hpop]
      exact not_or.2 ⟨by decide, hheld⟩
    exact (exec_mgmtPop_of_accepts ha).trans (congrArg Host.Outcome.next (if_neg hpops))
  case empty => exact (exec_mgmtPop_of_accepts ha).trans (congrArg Host.Outcome.next (if_pos (.inr hempty)))

end Sys2Proof.Machine
end

section
/-!
SUPPORT. The optical ports: blocks received (R425, R426, R444, R616) and sent (R445, R461), wavelengths, training and LINK cells (R427 to R431), lasers (R421, R432)
and the engines' sideband (R374, R376, R467), and the theorems that settle O23 to O26.
-/
namespace Sys2Proof.Machine

variable {s : State} {p : Nat}

/-! ## Blocks -/

/-- A port that is off or down, or whose engine is isolated, takes nothing. -/
theorem State.takeBlock_shut {moved : Bool} {errs : List Nat} {ctrl : Nat} {cells : List (List Byte)}
    (h : s.isolated p = true ∨ (s.port p).line = .off ∨ (s.port p).line = .down) : s.takeBlock p moved errs ctrl cells = s := by
  by_cases hiso : s.isolated p = true
  · exact if_pos hiso
  · have hline : (s.port p).line = .off ∨ (s.port p).line = .down := h.resolve_left hiso
    have hret : (s.port p).line ≠ .retention := by rcases hline with h | h <;> rw [h] <;> decide
    exact (if_neg hiso).trans ((if_neg hret).trans (if_pos hline))

/-- A block is spoiled when a lane has more symbol errors than the code corrects (R426). -/
theorem exists_symbolErrors_iff (errs : List Nat) : (errs.any fun e => decide (rsCorrects < e)) = true ↔ ∃ e ∈ errs, 15 < e :=
  List.any_eq_true.trans (exists_congr fun _ => and_congr_right' decide_eq_true_iff)

/-- Settles O23: a port that takes nothing is `takeBlock_shut`; on any other the block goes by the port's line and by whether a lane is beyond correction
(`exists_symbolErrors_iff`). -/
theorem blockReception : Obligations.BlockReception := by
  intro s t port moved errs ctrl cells u x pg c req spoiled map v now
  have hexec {y : State} (h : u.takeBlock port moved errs c cells = y) : now y := congrArg Host.Outcome.next h
  have hspoiled : (errs.any fun e => decide (rsCorrects < e)) = true ↔ spoiled := exists_symbolErrors_iff errs
  refine ⟨fun hshut => hexec (State.takeBlock_shut hshut), fun hiso hline => ⟨fun hs => hexec ?heldSpoiled, fun hs => hexec ?heldWake⟩,
    fun hiso hline => ⟨fun hs => ⟨fun h2 => hexec ?trains, fun h2 => hexec ?counts⟩, fun hs => hexec ?taken⟩⟩
  all_goals have hopen : ¬u.isolated port = true := ne_true_of_eq_false hiso
  case heldSpoiled => exact (if_neg hopen).trans ((if_pos hline).trans (if_pos (hspoiled.2 hs)))
  case heldWake => exact (if_neg hopen).trans ((if_pos hline).trans (if_neg (hspoiled.not.2 hs)))
  all_goals
    have hret : x.line ≠ .retention := by rcases hline with h | h | h <;> rw [h] <;> decide
    have hdark : ¬(x.line = .off ∨ x.line = .down) := by rcases hline with h | h | h <;> rw [h] <;> decide
    refine (if_neg hopen).trans ((if_neg hret).trans ((if_neg hdark).trans ?_))
  case trains => exact (if_pos (hspoiled.2 hs)).trans (if_pos h2)
  case counts => exact (if_pos (hspoiled.2 hs)).trans (if_neg (Nat.not_le.2 h2))
  case taken => exact if_neg (hspoiled.not.2 hs)

/-- Settles O24: the port's state, 1 to 3 or any other, is the one condition of `sendBlock`. -/
theorem blockTransmission : Obligations.BlockTransmission := by
  intro s t port u pg code
  refine ⟨fun hdark => ?silent, fun hlit => ?sends⟩
  case silent =>
    have hcode : ¬(code = 1 ∨ code = 2 ∨ code = 3) := by omega
    exact congrArg Host.Outcome.next (if_neg hcode)
  case sends => exact congrArg Host.Outcome.next (if_pos hlit)

/-! ## The life of a port -/

/-- Settles O25: a declared wavelength meets each condition of `wlFail`, a training port locks, a LINK cell that has come in is consumed by the port's line and
width, and an up port's timer has run out. -/
theorem portLife : Obligations.PortLife := by
  intro s t port u pg x
  refine ⟨fun wl lock hline hgood hcause => ?wavelength, fun lock far rtt htraining => ?training, fun a hfind => ?link, fun hup hdue => ?timer⟩
  case wavelength =>
    have hcause' : (b2n lock == 1 || (u.fldP pg Reg.FAB_CFG 15 8 != 0 && x.window == u.wall / 2 ^ 20
        && decide (256 * u.fldP pg Reg.FAB_CFG 15 8 ≤ x.csym.getD wl 0))) = true := by
      rcases hcause with h | ⟨h0, hwin, hcount⟩
      · rw [h]
        rfl
      · simp only [Bool.or_eq_true, Bool.and_eq_true, bne_iff_ne, beq_iff_eq, decide_eq_true_eq]
        exact .inr ⟨⟨h0, hwin⟩, hcount⟩
    have hused : (!bit x.rxFailed wl) = true := by rw [hgood]; rfl
    exact congrArg Host.Outcome.next (if_pos ⟨hline, wl.isLt, hused, hcause'⟩)
  case training =>
    have hrtt : rtt.toNat % 65536 = rtt.toNat := Nat.mod_eq_of_lt rtt.isLt
    have hlock : u.portLock port lock.toNat far.toNat rtt.toNat = _ := if_neg (not_not_intro htraining)
    rw [hrtt] at hlock
    exact congrArg Host.Outcome.next hlock
  case link =>
    have hexec {y : State} (h : u.linkTake port = y) : exec (.link t port) s = .next y := congrArg Host.Outcome.next h
    refine ⟨fun hline hal hw => hexec ?sameWidth, fun hline hal hw => hexec ?otherWidth, fun h => hexec ?known⟩
    all_goals
      unfold State.linkTake
      rw [hfind]
    case sameWidth => exact (if_pos ⟨hline, hal⟩).trans (if_pos (by rw [hw, Bool.not_not]))
    case otherWidth => exact (if_pos ⟨hline, hal⟩).trans (if_neg (by rw [hw]; exact Bool.not_ne_self _))
    case known => exact if_neg fun ⟨hline, hal⟩ => h.elim (absurd hline) fun hfresh => absurd hal (ne_true_of_eq_false hfresh)
  case timer => exact congrArg Host.Outcome.next (if_pos ⟨hup, hdue⟩)

/-! ## Lasers and the sideband -/

/-- The registers that an engine writes are its temperature and its nine receive powers (R467). -/
theorem sidebandReg_iff (o : Nat) : sidebandReg o = true ↔ o = Reg.FAB_SB_TEMP ∨ ∃ k < 9, o = Reg.FAB_SB_RXPWRW + 4 * k := by
  simp only [sidebandReg, Bool.or_eq_true, Bool.and_eq_true, beq_iff_eq, decide_eq_true_eq]
  rw [Reg.FAB_SB_RXPWRW]
  refine or_congr_right ⟨fun ⟨⟨h1, h2⟩, h3⟩ => ⟨(o - 0x810) / 4, by omega, by omega⟩, ?_⟩
  rintro ⟨k, hk, rfl⟩
  omega

/-- The registers that an engine writes lie in its sideband window (R467). -/
theorem sidebandReg_ge {o : Nat} (h : sidebandReg o = true) : Reg.FAB_SB_TEMP ≤ o := by
  rcases (sidebandReg_iff o).1 h with rfl | ⟨k, -, rfl⟩
  · exact le_rfl
  · exact Nat.le_add_right_of_le (by decide)

/-- Settles O26: both laser commands are a fold over the source's ports, and an engine's write goes by its offset (`sidebandReg_iff`, `sidebandReg_ge`). -/
theorem lasersAndSideband : Obligations.LasersAndSideband := by
  intro s
  refine ⟨fun t source => ⟨rfl, rfl⟩, fun port off v => ⟨fun hiso => congrArg Host.Outcome.next (if_pos hiso), fun hiso hlow => ?outside,
    fun hiso hnamed => ?written, fun hin hother => ?elsewhere⟩⟩
  case outside => exact congrArg Host.Outcome.next ((if_neg (ne_true_of_eq_false hiso)).trans (if_pos hlow))
  case written =>
    have hreg : sidebandReg off.toNat = true := (sidebandReg_iff _).2 hnamed
    exact congrArg Host.Outcome.next ((if_neg (ne_true_of_eq_false hiso)).trans ((if_neg (Nat.not_lt.2 (sidebandReg_ge hreg))).trans (if_pos hreg)))
  case elsewhere =>
    have hreg : ¬sidebandReg off.toNat = true := (sidebandReg_iff _).not.2 hother
    refine congrArg Host.Outcome.next ?_
    by_cases hiso : s.begin.isolated port = true
    · exact if_pos hiso
    · exact (if_neg hiso).trans ((if_neg (Nat.not_lt.2 hin)).trans (if_neg hreg))

end Sys2Proof.Machine
end

section
/-!
SUPPORT. Collectives: fingerprints (R493 to R496), cells of segments (R497, R500, R511, R513), CACKs, re-sends and delivered segments (R501 to R503), timeouts and
CABTs (R504, R505), and the theorems that settle O19 to O22. What the model holds of one run of a collective on this module, an `Inst`, is called its run.
-/
namespace Sys2Proof.Machine

variable {s v : State} {a : Arrived} {c : Cell} {n t : Nat} {l : Leg} {i : Inst} {e : Fin 4096}

/-- The oldest delivered cell of a collective is handled by its entry and its leg (R474, R492). -/
theorem State.onColl_of_collCell {typ : Nat} {f : Cell → Bool} (h : s.CollCell typ f a v n l) (g : State → Arrived → Nat → Leg → State) :
    s.onColl typ f g = g v a n l := by
  obtain ⟨htaken, hgood, rfl, hvalid, hid, hleg⟩ := h
  refine (State.onCell_good htaken hgood _).trans ?_
  simp only [hvalid, hid, hleg, and_self, if_true]

/-! ## Fingerprints -/

/-- A fingerprint of a contributor that its run has not had yet. -/
theorem State.takeFp_of_new (hi : v.inst? n = some i) (hfp : (i.leg l).fp = none) :
    v.takeFp a n l = let r := v.cack (i.setLeg { i.leg l with fp := some (a.cell.payload.take 32) }) l
      r.1.touched r.2 := by
  simp only [State.takeFp, hi, hfp, Option.isNone_none, if_true]

theorem exec_cfpr_of_contributor (h : (s.atTime t).CollCell 3 (fun _ => false) a v n l) (hl : l ≠ .parent) :
    exec (.cfpr t) s = .next (v.takeFp a n l) :=
  congrArg Host.Outcome.next ((State.onColl_of_collCell h _).trans (if_neg hl))

theorem exec_cfpr_of_agreed (h : (s.atTime t).CollCell 3 (fun _ => false) a v n .parent) (hb : bit (leAt a.cell.payload 0x20 1) 0 = true) :
    exec (.cfpr t) s = .next (v.takeAgreed a n .parent) :=
  congrArg Host.Outcome.next ((State.onColl_of_collCell h _).trans ((if_pos rfl).trans (if_pos hb)))

/-- A run whose parent's fingerprint agrees: it is agreed, and its children get the fingerprint (R495). -/
def State.passAgreed (s : State) (i : Inst) (fp : List Byte) : State :=
  let j := { i with agreed := true, ref := some (i.ref.getD fp) }
  let q := j.legs.foldl (fun (x : State × Inst) y => match y.leg with
    | .child _ => x.1.sendFp x.2 y.leg
    | _ => x) (s, j)
  q.1.touched q.2

/-- The AGREED fingerprint is compared with the member's own once it has been acknowledged (R494, R495). -/
theorem State.takeAgreed_of_waiting (hi : v.inst? n = some i) (hn : i.inst = cellInst a.cell) (ha : i.agreed = false) :
    let fp := a.cell.payload.take 32
    let r := v.cack (i.setLeg { i.leg l with fp := some fp }) l
    v.takeAgreed a n l = if r.2.member.isSome ∧ !fpAgree fp (r.1.ownFp r.2) then
        (r.1.putInst r.2).collAbort r.2 .FP_MISMATCH (some (leAt fp 0x14 2)) fp none
      else r.1.passAgreed r.2 fp := by
  unfold State.takeAgreed
  rw [hi]
  exact (if_neg (not_not_intro hn)).trans (if_neg (ne_true_of_eq_false ha))

/-- Settles O19: the cell is handled by its leg (`onColl_of_collCell`), a contributor's by `takeFp_of_new` and the parent's by `takeAgreed_of_waiting`; an
acceptance goes by the free slots. -/
theorem collectiveAgreement : Obligations.CollectiveAgreement := by
  intro s t u
  refine ⟨fun a v n l i hcell hi => ⟨fun hl hfp => ?contributor, fun hl hb hn ha => ?parent⟩, fun e errs i => ?accept⟩
  case contributor => exact (exec_cfpr_of_contributor hcell hl).trans (congrArg Host.Outcome.next (State.takeFp_of_new hi hfp))
  case parent =>
    subst hl
    have hexec := (exec_cfpr_of_agreed hcell hb).trans (congrArg Host.Outcome.next (State.takeAgreed_of_waiting hi hn ha))
    refine ⟨fun ⟨hm, hd⟩ => hexec.trans (congrArg Host.Outcome.next (if_pos ⟨hm, ?_⟩)), fun h => hexec.trans (congrArg Host.Outcome.next (if_neg ?_))⟩
    · rw [hd]
      rfl
    · rintro ⟨hm, hd⟩
      rcases h with h | h
      · rw [h] at hm
        cases hm
      · rw [h] at hd
        cases hd
  case accept =>
    intro w hi hnot href
    have hopen : ¬(i.accepted = true ∨ i.ref.isNone = true) := by
      rw [hnot, Option.isNone_eq_false_iff.2 href]
      decide
    have hexec : exec (.fingerprintAccept t e errs) s = .next (if w.slotsUsed + i.w ≤ 8192 then
          State.shareAbort ((w.putInst { i with accepted := true }).touchEntry e)
        else if i.waited = true then w else (w.putInst { i with waited := true }).bump Pg.coll Reg.COLL_SLOT_WAIT_CNT 1) := by
      refine congrArg Host.Outcome.next ?_
      rw [← State.atFacing, hi]
      exact if_neg hopen
    exact ⟨fun hroom => hexec.trans (congrArg Host.Outcome.next (if_pos hroom)),
      fun hfull hw => hexec.trans (congrArg Host.Outcome.next ((if_neg (Nat.not_le.2 hfull)).trans (if_neg (ne_true_of_eq_false hw)))),
      fun hfull hw => hexec.trans (congrArg Host.Outcome.next ((if_neg (Nat.not_le.2 hfull)).trans (if_pos hw)))⟩

/-! ## Cells of segments -/

theorem State.accepting_of_accepted (hi : v.inst? n = some i) (ha : i.accepted = true) (hn : i.inst = cellInst a.cell) (f : State → Inst → State) :
    v.accepting a n l f = f v i := by
  simp only [State.accepting, hi, ha, hn, and_self, if_true]

/-- A cell of no run, active or ended, is early. -/
theorem State.accepting_of_none (hi : v.inst? n = none) (hlate : v.lateCell n (cellInst a.cell) l true = none) (f : State → Inst → State) :
    v.accepting a n l f = v.bump Pg.coll Reg.COLL_EARLY_CNT 1 := by
  simp only [State.accepting, hi, hlate, Option.getD_none]

/-- The epoch of a cell lets its run take it (R511): the present one where a member here is due what it brings, and the run's own at a pure adder. -/
def State.EpochAdmits (s : State) (c : Cell) (i : Inst) (delivers : Bool) : Prop :=
  if (s.collEntry i.entry).isMember = true then delivers = true → behind (s.epochDist c.epoch) = false ∧ ahead (s.epochDist c.epoch) = false
  else c.epoch = i.epoch

theorem State.EpochAdmits.of_member {delivers : Bool} (hm : (s.collEntry i.entry).isMember = true)
    (h : delivers = true → behind (s.epochDist c.epoch) = false ∧ ahead (s.epochDist c.epoch) = false) : s.EpochAdmits c i delivers := (if_pos hm).mpr h

theorem State.EpochAdmits.of_adder {delivers : Bool} (hm : (s.collEntry i.entry).isMember = false) (h : c.epoch = i.epoch) : s.EpochAdmits c i delivers :=
  (if_neg (ne_true_of_eq_false hm)).mpr h

theorem State.epochGate_of_admits {delivers : Bool} (h : s.EpochAdmits c i delivers) (f : State → State) : s.epochGate c i delivers f = f s := by
  unfold State.EpochAdmits at h
  unfold State.epochGate
  split at h
  case isTrue hmember =>
    rw [if_pos hmember]
    cases delivers with
    | false => rfl
    | true => simp only [h rfl, Bool.not_true, Bool.false_eq_true, if_false]
  case isFalse hadder => rw [if_neg hadder, if_pos h]

/-- The run of an entry takes a cell: it is accepted, the cell's, and of an epoch that it takes, and the cell lies in the vector. -/
structure State.TakesCell (v : State) (c : Cell) (n : Nat) (i : Inst) (delivers : Bool) : Prop where
  found : v.inst? n = some i
  accepted : i.accepted = true
  named : i.inst = cellInst c
  epoch : v.EpochAdmits c i delivers
  seg : cellSeg c < v.segCount i
  cell : cellNum c < v.segCells i (cellSeg c)

/-- A cell that its run takes passes the tests of R496 and R511. -/
theorem State.accepting_of_takesCell {delivers : Bool} {f : State → Inst → State} {g : State → State} (h : v.TakesCell a.cell n i delivers)
    (hf : f v i = v.epochGate a.cell i delivers g) : v.accepting a n l f = g v :=
  (State.accepting_of_accepted h.found h.accepted h.named f).trans (hf.trans (State.epochGate_of_admits h.epoch g))

theorem exec_cup_of_takesCell {dis : Bool} {errs : List AccessErr} (h : (s.atFacing errs t).CollCell 4 (fun _ => false) a v n l)
    (ht : v.TakesCell a.cell n i (v.collEntry n).ring) (hl : (v.collEntry n).ring = true ∨ (v.expected i (cellSeg a.cell)).contains l = true) :
    exec (.cup t dis errs) s = .next (v.takeCell i l a.cell (v.collEntry n).ring dis).wake := by
  refine congrArg (fun x : State => Host.Outcome.next x.wake) ((State.onColl_of_collCell h _).trans ?_)
  refine (State.accepting_of_takesCell ht rfl).trans ?_
  exact if_pos ⟨ht.seg, ht.cell, hl⟩

theorem exec_cup_of_early {dis : Bool} {errs : List AccessErr} (h : (s.atFacing errs t).CollCell 4 (fun _ => false) a v n l) (hi : v.inst? n = none)
    (hlate : v.lateCell n (cellInst a.cell) l true = none) : exec (.cup t dis errs) s = .next (v.bump Pg.coll Reg.COLL_EARLY_CNT 1).wake :=
  congrArg (fun x : State => Host.Outcome.next x.wake) ((State.onColl_of_collCell h _).trans (State.accepting_of_none hi hlate _))

theorem exec_cdn_of_takesCell {errs : List AccessErr} (h : (s.atFacing errs t).CollCell 5 (fun _ => false) a v n .parent) (ht : v.TakesCell a.cell n i true) :
    exec (.cdn t errs) s = .next (v.takeCell i .parent a.cell true false).wake := by
  refine congrArg (fun x : State => Host.Outcome.next x.wake) ((State.onColl_of_collCell h _).trans ((if_neg (not_not_intro rfl)).trans ?_))
  refine (State.accepting_of_takesCell ht rfl).trans ?_
  exact if_pos ⟨ht.seg, ht.cell⟩

/-- A cell of a segment already released, or one already taken. -/
def Inst.HasCell (i : Inst) (l : Leg) (c : Cell) (down : Bool) : Prop :=
  cellSeg c < i.release ∨ ((if down then (i.seg (cellSeg c)).down else (i.seg (cellSeg c)).up).any fun p => p.leg == l && p.cell == cellNum c) = true

section
variable {down dis : Bool}

theorem State.takeCell_of_hasCell (h : i.HasCell l c down) : s.takeCell i l c down dis = s.dupCell i l := if_pos h

variable (h : ¬i.HasCell l c down)
include h

theorem State.takeCell_of_beyond (hw : i.release + i.w ≤ cellSeg c) : s.takeCell i l c down dis = s.bump Pg.coll Reg.COLL_EARLY_CNT 1 :=
  (if_neg h).trans (if_pos hw)

/-- A cell within the window joins its segment: the last of its leg's part completes the part, and a whole downward part is the result, or on a ring the cells
in order (R497, R500). -/
theorem State.takeCell_of_within (hw : cellSeg c < i.release + i.w) :
    let p := s.takePiece i l c down
    let q := if p.2 then s.legDone p.1 l (cellSeg c) else (s, p.1)
    let g := q.2.seg (cellSeg c)
    let j := if p.2 = true ∧ down = true then
        q.2.setSeg (if (q.1.collEntry i.entry).ring then { g with down := inOrder g.down } else { g with res := some (inOrder g.down) })
      else q.2
    s.takeCell i l c down dis = if dis = true ∧ q.1.prot = 1 ∧ (!down) = true ∧ q.1.complete j (j.seg (cellSeg c)) = true then
        (q.1.putInst j).collAbort j .ADDER_MISMATCH (some q.1.node) (q.1.ownFp j) (some (cellSeg c))
      else q.1.touched j := by
  intro p q g j
  refine (if_neg h).trans ((if_neg (Nat.not_le.2 hw)).trans ?_)
  have hj : (if down = true ∧ p.2 = true ∧ (!(q.1.collEntry i.entry).ring) = true then q.2.setSeg { g with res := some (inOrder g.down) }
      else if down = true ∧ p.2 = true then q.2.setSeg { g with down := inOrder g.down } else q.2) = j := by
    by_cases hwhole : down = true ∧ p.2 = true
    · refine Eq.trans ?_ (if_pos hwhole.symm).symm
      cases (q.1.collEntry i.entry).ring with
      | false => exact if_pos ⟨hwhole.1, hwhole.2, rfl⟩
      | true => exact (if_neg fun ⟨_, _, hring⟩ => nomatch hring).trans (if_pos hwhole)
    · exact (if_neg fun ⟨hdown, hfull, _⟩ => hwhole ⟨hdown, hfull⟩).trans ((if_neg hwhole).trans (if_neg fun hpart => hwhole hpart.symm).symm)
  rw [← hj]

end

/-- Settles O20: a cell that its run takes comes to its segment (`exec_cup_of_takesCell`, `exec_cdn_of_takesCell`), where it is a duplicate, beyond the window
or taken (`takeCell_of_within`). That the contribution which completes a segment raises its ADDER_MISMATCH is the model's choice (log entry 94). -/
theorem collectiveCells : Obligations.CollectiveCells := by
  intro s t dis errs a v n l u c current
  refine ⟨fun i hcell hi ha hn hseg hnum => ⟨fun hring hexp hepoch => ?tree, fun hring hmember hepoch => ?ring⟩,
    fun hcell hi hlate => exec_cup_of_early hcell hi hlate, fun i hcell hi ha hn hepoch hseg hnum => ?down, fun i down => ?taken⟩
  case tree =>
    have hadmits : v.EpochAdmits c i (v.collEntry n).ring := by
      rw [hring]
      exact hepoch.elim (.of_member · nofun) fun ⟨hm, he⟩ => .of_adder hm he
    rw [← hring]
    exact exec_cup_of_takesCell hcell ⟨hi, ha, hn, hadmits, hseg, hnum⟩ (.inr hexp)
  case ring =>
    rw [← hring]
    exact exec_cup_of_takesCell hcell ⟨hi, ha, hn, .of_member hmember fun _ => hepoch, hseg, hnum⟩ (.inl hring)
  case down =>
    have hadmits : v.EpochAdmits c i true := hepoch.elim (fun ⟨hm, he⟩ => .of_member hm fun _ => he) fun ⟨hm, he⟩ => .of_adder hm he
    exact exec_cdn_of_takesCell hcell ⟨hi, ha, hn, hadmits, hseg, hnum⟩
  case taken =>
    intro g taken
    have hnew (hr : i.release ≤ cellSeg c) (ht : taken = false) : ¬i.HasCell l c down := not_or.2 ⟨Nat.not_lt.2 hr, ne_true_of_eq_false ht⟩
    refine ⟨State.takeCell_of_hasCell, fun hr ht hw => State.takeCell_of_beyond (hnew hr ht) hw, fun hr ht hw => ?within⟩
    intro p q h j bad
    have htake := State.takeCell_of_within (s := v) (dis := dis) (hnew hr ht) hw
    have hbad : bad ↔ (dis = true ∧ q.1.prot = 1 ∧ (!down) = true ∧ q.1.complete j (j.seg (cellSeg c)) = true) := by
      rw [Bool.not_eq_true']
    exact ⟨rfl, fun hb => htake.trans (if_neg (hbad.not.1 hb)), fun hb => htake.trans (if_pos (hbad.1 hb))⟩

/-! ## CACKs -/

/-- A CACK comes from the far end of a direction in which the module sends (R502). -/
theorem exec_cack_of_ours {errs : List AccessErr} (h : (s.atFacing errs t).CollCell 6 (fun c => !cellTop c) a v n l)
    (hours : (l = .parent ∨ l = .next) ∧ cellTop a.cell = false ∨ (∃ p, l = .child p) ∧ cellTop a.cell = true) :
    exec (.cack t errs) s = .next (v.takeCack a n l).wake := by
  refine congrArg (fun x : State => Host.Outcome.next x.wake) ((State.onColl_of_collCell h _).trans (if_pos ?_))
  rcases hours with ⟨rfl | rfl, htop⟩ | ⟨⟨p, rfl⟩, htop⟩
  case inr => exact htop
  all_goals
    show (!cellTop a.cell) = true
    rw [htop]
    rfl

theorem exec_cackTimer_of_due {leg : LegName} {k : Nat} (hi : (s.atTime t).inst? e = some i) (hk : (i.leg (legOf leg)).since = some k)
    (hdue : k + 256 ≤ (s.atTime t).wall) :
    exec (.cackTimer t e leg) s = .next (((s.atTime t).cack i (legOf leg)).1.putInst ((s.atTime t).cack i (legOf leg)).2) := by
  refine congrArg Host.Outcome.next ?_
  rw [← State.atTime, hi]
  dsimp only
  rw [hk]
  exact if_pos hdue

/-! ## Re-sends -/

/-- The node at the far end of a leg (R503). -/
def State.farEnd (s : State) (i : Inst) (l : Leg) : Nat :=
  let c := s.collEntry i.entry
  match l with
  | .parent => s.fldP (Pg.fab c.parent) Reg.FAB_NBR 31 16
  | .child p => s.fldP (Pg.fab p) Reg.FAB_NBR 31 16
  | .next => c.next
  | _ => c.prev

/-- The units that a leg has sent within the window, up to BURST of them, go again (R503). -/
def State.resendUnits (s : State) (i : Inst) (l : Leg) : State :=
  let x := i.leg l
  let go := (x.sent.filter fun z => decide (z.num < ((x.rel + i.w : Nat) : Int))).take s.retryBurst
  let y := go.foldl (fun (y : State × Nat) z => ((y.1.resendUnit i l z).1, y.2 + (y.1.resendUnit i l z).2)) (s, 0)
  let v := y.1.bump Pg.coll Reg.COLL_RESEND_CNT y.2
  v.putInst (i.setLeg { x with sent := x.sent.map fun z => if go.any (fun m => m.num == z.num) then { z with at_ := v.wall, resent := true } else z,
                               timer := v.dueAgain x.timer })

/-- A leg whose oldest unit has come due sends again, or fails after RTE_RETRY.MAX times (R503). -/
theorem State.legDue_of_due {q : SentSeg} {r : List SentSeg} (hsent : (i.leg l).sent = q :: r) (hdue : q.at_ + s.rtoOf (i.leg l).timer ≤ s.wall) :
    s.legDue i l = if s.retryMax ≤ (i.leg l).timer.retries then s.collAbort i .LEG_FAIL (some (s.farEnd i l)) [] none else s.resendUnits i l := by
  unfold State.legDue
  dsimp only
  split
  next h => exact absurd (hsent.symm.trans h) (List.cons_ne_nil _ _)
  next h =>
    obtain ⟨rfl, -⟩ := List.cons.inj (hsent.symm.trans h)
    exact if_neg (Nat.not_lt.2 hdue)

/-! ## Delivered segments -/

/-- What becomes of a run whose segment n is to be visible in DST, by what the write of its bytes answers (R501). -/
def Inst.segEnds (i : Inst) (m : Member) (n : Nat) (d : Nat × List Byte) (entry : Nat) : State × Option Nat → State
  | (z, some code) => State.shareAbort ((z.putInst { i with failed := some (code, n) }).touchEntry entry)
  | (z, none) =>
    let g := i.seg n
    let flags := (g.res.getD []).countP fun p => p.flag
    let v := (z.store d.1 d.2).bump Pg.coll Reg.COLL_FLAG_CNT flags
    let j := { i.setSeg { g with dlv := .written } with written := i.written + 1, flag := i.flag || flags != 0 }
    let v := if v.whole j then v.finishColl j m 0 else v
    State.shareAbort ((v.putInst j).touchEntry entry)

theorem State.segWritten_of_pending {m : Member} {entry : Nat} {r : State × Option Nat} (hi : s.inst? entry = some i) (hm : i.member = some m)
    (hp : (i.seg n).dlv = .pending)
    (hw : s.writeTo Pg.coll (i.id * 65536) (s.delivery i m (i.seg n)).1 (s.delivery i m (i.seg n)).2.length 1 = r) :
    s.segWritten entry n = i.segEnds m n (s.delivery i m (i.seg n)) entry r := by
  unfold State.segWritten
  split
  next h => cases hi.symm.trans h
  next h =>
    obtain rfl := Option.some.inj (hi.symm.trans h)
    split
    next h => cases hm.symm.trans h
    next h =>
      obtain rfl := Option.some.inj (hm.symm.trans h)
      refine (if_neg (not_not_intro hp)).trans ?_
      generalize s.delivery i m (i.seg n) = d at hw ⊢
      obtain ⟨at_, l⟩ := d
      dsimp only at hw ⊢
      rw [hw]
      rcases r with ⟨z, _ | code⟩ <;> rfl

/-- Settles O21: a CACK of the active run is taken on a leg on which the module sends (`exec_cack_of_ours`), a leg that comes due sends again or fails
(`legDue_of_due`), and a pending segment goes by what its write answers (`segWritten_of_pending`). That a write which fails makes the run failed, with its code, is
the model's choice (log entry 56). -/
theorem collectiveAcks : Obligations.CollectiveAcks := by
  intro s t u
  refine ⟨fun errs a v n l i hcell hi hn hs hours => ?cack, fun e leg i k => exec_cackTimer_of_due, fun e leg i q r hi => ?resend, fun errs e n i m => ?written⟩
  case cack =>
    intro x hit tm
    refine (exec_cack_of_ours hcell hours).trans (congrArg (fun y : State => Host.Outcome.next y.wake) ?_)
    have hgoes : ¬(i.inst ≠ cellInst a.cell ∨ (!x.sends) = true) := by
      rw [hs]
      exact not_or.2 ⟨not_not_intro hn, by decide⟩
    unfold State.takeCack
    rw [hi]
    exact if_neg hgoes
  case resend =>
    intro x hsent hdue
    have hleg := State.legDue_of_due hsent hdue
    refine ⟨congrArg Host.Outcome.next ?_, fun hmax => hleg.trans (if_pos hmax), fun hmax => hleg.trans (if_neg (Nat.not_le.2 hmax))⟩
    rw [← State.atTime, hi]
  case written =>
    intro y hi hm hp g d flags z
    have hexec {r : State × Option Nat} (hw : y.writeTo Pg.coll (i.id * 65536) d.1 d.2.length 1 = r) :
        exec (.segmentWritten t e n errs) s = .next (i.segEnds m n d e r).wake :=
      congrArg (fun x : State => Host.Outcome.next x.wake) (State.segWritten_of_pending hi hm hp hw)
    exact ⟨fun hw => by simpa only [Inst.segEnds] using hexec hw, fun code hw => by simpa only [Inst.segEnds] using hexec hw⟩

/-! ## Aborts -/

theorem exec_collTimeout_of_due (hi : (s.atTime t).inst? e = some i)
    (hdue : i.active + 2 ^ (s.atTime t).fldP Pg.coll Reg.COLL_CFG 4 0 ≤ (s.atTime t).wall) :
    exec (.collTimeout t e) s = .next (State.shareAbort ((s.atTime t).collAbort i .TIMEOUT none [] none).touchFresh) := by
  refine congrArg Host.Outcome.next ?_
  rw [← State.atTime, hi]
  exact if_pos hdue

/-- The run that a CABT names aborts with what the cell says, and its legs get CABTs but the one by which the cell came (R505). -/
def State.abortOf (s : State) (i : Inst) (pl : List Byte) (l : Leg) : State :=
  let code := leAt pl 0 2
  let x := s.abortInst i code (leAt pl 2 2) (if bit (leAt pl 6 1) 0 then some (leAt pl 4 2) else none) ((pl.drop 0x10).take 32) (some l) none
  if stopError code then x.stopJob code else x

theorem State.takeAbort_of_active (hi : v.inst? n = some i) (hn : i.inst = cellInst a.cell) :
    let x := v.abortOf i a.cell.payload l
    v.takeAbort a n l = if v.ofFrame i then x.abortFrame (leAt a.cell.payload 0 2) else x := by
  unfold State.takeAbort
  rw [hi]
  refine (if_neg (not_not_intro hn)).trans ?_
  cases v.ofFrame i <;> rfl

/-- Settles O22: the run has timed out (`exec_collTimeout_of_due`) or is the one that the CABT names (`takeAbort_of_active`); the second sending is the command's
own rule. -/
theorem collectiveAborts : Obligations.CollectiveAborts := by
  intro s t u
  refine ⟨fun e i => exec_collTimeout_of_due, fun a v n l i hcell hi hn => ?cabt, rfl⟩
  case cabt =>
    exact congrArg (fun x : State => Host.Outcome.next (State.shareAbort x.touchFresh)) ((State.onColl_of_collCell hcell _).trans (State.takeAbort_of_active hi hn))

end Sys2Proof.Machine
end

section
/-!
SUPPORT. A COLLECTIVE of the present epoch as it stands where no access meets an error, and of an epoch that has passed where one does, which refutes O45.
-/
namespace Sys2Proof.Machine

/-- A broadcast of one FP32 element by this module alone, of epoch 200, in ring 0 of port 0. -/
def lateDesc : Desc := ⟨0, 0, 0, 0, leBytes 24 (4 + 200 * 2 ^ 16) ++ leBytes 8 (4 * 2 ^ 16) ++ leBytes 8 1 ++ leBytes 8 (spadBase 0) ++ leBytes 8 (spadBase 0)
  ++ leBytes 8 1⟩

/-- An accepted run of such a broadcast, of epoch 0, from stack 0. -/
def soloInst (x : Starter) : Inst :=
  { entry := 0, id := 0, cseq := 0, op := 4, sfmt := 0, count := 1, epoch := 0, srank := 0, w := 1, ref := none,
    member := some { starter := x, src := 0, dst := spadBase 0, dfmt := 0, mode := 0, store := [], ready := 0, taken := 0, entered := false },
    accepted := true, waited := false, agreed := false, legs := [], segs := [], release := 0, written := 0, flag := false, active := 0, aborted := false,
    failed := none }

/-- An image frame in which a descriptor's run of collective 0 enters the adder at cycle 1, while a failed one of a schedule word waits for its entry, and in which
COLL_EPOCH becomes 200 at cycle 2. No rule sets such an effect on COLL_EPOCH, but the statement speaks of every state. -/
def epochState : State :=
  let s := [(0x610000, (0xE0000000 : Word)), ((Pg.d2d 0).base + Reg.BLK_STAT, 0), (0x310000 + 4 * 160, 0x80000000), (0x310000 + 4 * 207, 0x80000000),
    ((Pg.pcie 0).base + ringReg Reg.PCIE_CQq_CFG 0, 0xC0000006)].foldl (fun (s : State) q => s.wr q.1 q.2) State.reset
  { s with
    boot := { s.boot with phase := .ready }, fog := []
    eng := { s.eng with frame := { s.eng.frame with kind := .image }, due := [⟨1, .enter 0 0 1⟩, ⟨2, .count32 (Pg.coll.base + Reg.COLL_EPOCH) 200⟩] }
    coll := { s.coll with insts := [soloInst (.descriptor ⟨0, 0, 0, 0, []⟩)], waiting := [{ soloInst (.word 0 0) with failed := some (errCode .MEM_UE .memc, 0) }] }
    host := { s.host with rings := s.host.rings.set 0 ⟨[lateDesc], []⟩ } }

/-- An uncorrectable error of the read of stack 0 at address 0. -/
def sourceErr : List AccessErr := [⟨0, false, .ue false⟩]

/-- A descriptor of an epoch that has passed does not start (R509). -/
theorem State.epochThen_of_behind {s : State} {d : Desc} (h : behind (s.epochDist d.epoch) = true) (go : State → Desc → State) :
    s.epochThen d go = s.turnAway d (errCode .EPOCH_STALE .coll) := if_pos h

theorem epochState_starts : (epochState.atFacing sourceErr 4).Starts 0 0 4 (epochState.atFacing sourceErr 4).collBad lateDesc :=
  ⟨by decide +kernel, by decide +kernel, by decide +kernel, by decide +kernel⟩

/-- Refutes O45: the statement says the present epoch of the state in which no access meets an error (`State.atTime`), while a COLLECTIVE or CHECKPOINT starts in
the one in which its `errs` are met (`State.atFacing`), and COLL_EPOCH may differ between them. In `epochState` with `sourceErr` the read of that run's source
fails, the run ends, the one that waited aborts the frame, and what was due at cycle 2 is dropped: COLL_EPOCH is 200 without the error and 0 with it. The
COLLECTIVE of epoch 200 is turned away as behind (R509) and leaves no job, where the statement has one. -/
theorem not_longDescriptors : ¬ Obligations.LongDescriptors := by
  intro h
  obtain ⟨hcoll, -⟩ := h epochState 4 0 0 lateDesc
  have hclaim := hcoll sourceErr epochState_starts ⟨by decide +kernel, by decide +kernel⟩ (by decide +kernel) (by decide +kernel)
  have hbehind : behind ((epochState.atFacing sourceErr 4).epochDist lateDesc.epoch) = true := by decide +kernel
  have hexec : exec (.collective 4 0 0 sourceErr) epochState
      = .next (((epochState.atFacing sourceErr 4).turnAway lateDesc (errCode .EPOCH_STALE .coll)).sweepRing 0 0 32).wake :=
    congrArg (fun x : State => Host.Outcome.next x.wake) ((State.consider_of_starts epochState_starts _).trans
      (congrArg (State.sweepRing · 0 0 32) (State.epochThen_of_behind hbehind _)))
  have hjobs := congrArg (fun x : State => x.host.jobs.length) (Host.Outcome.next.inj (hexec.symm.trans hclaim))
  exact absurd hjobs (by decide +kernel)

end Sys2Proof.Machine
end

section
/-!
SUPPORT. SLOT descriptors that start (R407, R519, R520), and the theorem that settles O44.
-/
namespace Sys2Proof.Machine

variable {s : State} {t : Nat} {port : Fin 2} {ring : Fin 16} {d : Desc}

/-- A SLOT descriptor that starts is handled by the rule of its operation. -/
theorem State.considerSlot_of_starts {port ring op : Nat} (h : s.Starts port ring 2 Desc.slotBad d) (hop : d.field 0x18 1 = op)
    (go : State → Desc → State) : s.considerSlot port ring op go = (go s d).sweepRing port ring 32 := by
  have hgo := State.consider_of_starts h go
  obtain ⟨hfront, -⟩ := h
  rw [State.considerSlot, hfront]
  exact (if_pos hop).trans hgo

/-- What a LOAD of an empty slot does once the reads of its image have answered: the code of the read that failed, or the checks of admission (R96). -/
def State.loadEnds (d : Desc) : State × Option Nat → State
  | (z, some code) => z.atOnce d code 0
  | (z, none) =>
    let x := z.header (d.field 0x19 1) (d.field 0x20 8)
    match z.admission x with
    | some f => (z.admitError f).1.atOnce d (z.admitError f).2 0
    | none => ({ z with slots := z.slots ++ [x] } : State).atOnce d 0 0

theorem State.loadEnds_of_unread {r : State × Option Nat} {code : Nat} (h : r.2 = some code) : State.loadEnds d r = r.1.atOnce d code 0 := by
  obtain ⟨z, answer⟩ := r
  subst h
  rfl

section
variable {r : State × Option Nat} (h : r.2 = none)
include h

theorem State.loadEnds_of_refused {f : AdmitFail} (hf : r.1.admission (r.1.header (d.field 0x19 1) (d.field 0x20 8)) = some f) :
    State.loadEnds d r = (r.1.admitError f).1.atOnce d (r.1.admitError f).2 0 := by
  obtain ⟨z, answer⟩ := r
  subst h
  dsimp only [State.loadEnds] at hf ⊢
  rw [hf]

theorem State.loadEnds_of_admitted (ha : r.1.admission (r.1.header (d.field 0x19 1) (d.field 0x20 8)) = none) :
    State.loadEnds d r = ({ r.1 with slots := r.1.slots ++ [r.1.header (d.field 0x19 1) (d.field 0x20 8)] } : State).atOnce d 0 0 := by
  obtain ⟨z, answer⟩ := r
  subst h
  dsimp only [State.loadEnds] at ha ⊢
  rw [ha]

end

/-- A LOAD that starts goes by whether its slot is resident, and then by its image (R519). -/
theorem exec_load_of_starts {errs : List AccessErr} (h : (s.atFacing errs t).Starts port ring 2 Desc.slotBad d) (hop : d.field 0x18 1 = 0) :
    let y := s.atFacing errs t
    exec (.load t port ring errs) s = .next ((if (y.slot? (d.field 0x19 1)).isSome then y.atOnce d (errCode .SLOT_BUSY .hub) 0
      else State.loadEnds d (y.readSlotImage d (d.field 0x20 8))).sweepRing port ring 32) := by
  intro y
  refine congrArg Host.Outcome.next ((State.considerSlot_of_starts h hop _).trans (congrArg (State.sweepRing · port ring 32) (if_congr Iff.rfl rfl ?_)))
  dsimp only [Desc.slotNum]
  generalize (s.atFacing errs t).readSlotImage d (d.field 0x20 8) = r
  obtain ⟨z, _ | code⟩ := r
  case none =>
    dsimp only
    cases ha : z.admission (z.header (d.field 0x19 1) (d.field 0x20 8)) with
    | none => rw [State.loadEnds_of_admitted (r := (z, none)) rfl ha]
    | some f => rw [State.loadEnds_of_refused (r := (z, none)) rfl ha]
  case some => rfl

/-- A SWITCH that starts while none is pending and no run issues goes by its slot (R520). -/
theorem exec_switch_of_starts (h : (s.atTime t).Starts port ring 2 Desc.slotBad d) (hop : d.field 0x18 1 = 1)
    (hnone : (s.atTime t).host.switching = none) (hrun : ∀ r, (s.atTime t).host.run = some r → r.issuing = false) :
    let u := s.atTime t
    let v := u.startNow d
    exec (.switch t port ring) s = .next ((if (u.slot? (d.field 0x19 1)).isNone then u.atOnce d (errCode .SLOT_EMPTY .hub) 0
      else if u.running = some (d.field 0x19 1) then u.atOnce d 0 0
      else v.setHost { v.host with switching := some ⟨d, d.field 0x19 1, none, false, 0⟩ }).sweepRing port ring 32) := by
  intro u v
  have hfree : ¬(u.host.switching.isSome ∨ u.host.run.any fun r => r.issuing) := by
    rw [hnone, Option.any_eq_true]
    rintro (hsome | ⟨r, hr, hissues⟩)
    · cases hsome
    · exact Bool.false_ne_true ((hrun r hr).symm.trans hissues)
  exact congrArg Host.Outcome.next ((State.considerSlot_of_starts h hop _).trans (congrArg (State.sweepRing · port ring 32) (if_neg hfree)))

/-- An UNLOAD that starts goes by its slot and by what holds it (R407, R519). -/
theorem exec_unload_of_starts (h : (s.atTime t).Starts port ring 2 Desc.slotBad d) (hop : d.field 0x18 1 = 2) :
    let u := s.atTime t
    let n := d.field 0x19 1
    exec (.unload t port ring) s = .next ((if (u.slot? n).isNone then u.atOnce d (errCode .SLOT_EMPTY .hub) 0
      else if u.slotHeld n then u.atOnce d (errCode .SLOT_BUSY .hub) 0
      else ({ u with slots := u.slots.filter fun x => x.num != n } : State).atOnce d 0 0).sweepRing port ring 32) :=
  congrArg Host.Outcome.next (State.considerSlot_of_starts h hop _)

/-- Settles O44: each operation goes by its slot (`exec_load_of_starts`, `exec_switch_of_starts`, `exec_unload_of_starts`), and a LOAD of an empty one by what
the reads of its image answer (`State.loadEnds`). That a LOAD whose image cannot be read completes with the read's code is the model's choice (log entry 92), and
that SLOT_BUSY, SLOT_EMPTY and the errors of admission complete a descriptor that has started is its deduction (log entry 54). -/
theorem slotDescriptors : Obligations.SlotDescriptors := by
  intro s t port ring d u n done
  have hfull (h : (u.slot? n).isSome = true) : ¬(u.slot? n).isNone = true := Bool.eq_false_iff.1 (Option.isNone_eq_false_iff.2 h)
  refine ⟨fun errs => ?load, fun hstarts => ⟨fun hop hnone hrun => ?switch, fun hop => ?unload⟩⟩
  case load =>
    intro y hstarts hop
    have hexec := exec_load_of_starts hstarts hop
    refine ⟨fun hbusy => by rw [hexec, if_pos hbusy], fun hempty => ?_⟩
    intro r x
    have hread {w : State} (hw : State.loadEnds d r = w) : exec (.load t port ring errs) s = done w := by
      rw [hexec, if_neg (Option.not_isSome_iff_eq_none.2 hempty), hw]
    exact ⟨fun code hcode => hread (State.loadEnds_of_unread hcode), fun hr hadmit => hread (State.loadEnds_of_admitted hr hadmit),
      fun f hr hf => hread (State.loadEnds_of_refused hr hf)⟩
  case switch =>
    have hexec := exec_switch_of_starts hstarts hop hnone hrun
    refine ⟨fun hempty => ?_, fun hresident hruns => ?_, fun hresident hother => ?_⟩
    · rw [hexec, if_pos (Option.isNone_iff_eq_none.2 hempty)]
    · rw [hexec, if_neg (hfull hresident), if_pos hruns]
    · rw [hexec, if_neg (hfull hresident), if_neg hother]
  case unload =>
    have hexec := exec_unload_of_starts hstarts hop
    refine ⟨fun hempty => ?_, fun hresident hheld => ?_, fun hresident hfree => ?_⟩
    · rw [hexec, if_pos (Option.isNone_iff_eq_none.2 hempty)]
    · rw [hexec, if_neg (hfull hresident), if_pos hheld]
    · rw [hexec, if_neg (hfull hresident), if_neg (Bool.eq_false_iff.1 hfree)]

end Sys2Proof.Machine
end

section
/-!
SUPPORT. Register commands and events of the Granary (R556 to R558, R567) and Seed sets (R583), and the theorem that settles O56.
-/
namespace Sys2Proof.Machine

variable {s : State} {t op gen len : Nat} {port : Fin 2}

/-! ## Register commands of the Granary (R567) -/

/-- PIN, UNPIN or DELETE written while no command runs: the command is taken with the generation named. -/
theorem State.grnCommand_of_idle (h1 : 1 ≤ op) (h3 : op ≤ 3) (h : s.grn.command = none) :
    s.grnCommand op = (s.setGrn { s.grn with command := some (op, s.num64 Pg.grn Reg.GRN_CMD_GEN_LO) }).wrP Pg.grn Reg.GRN_CMD_STAT 0x80000000 := by
  have htakes : ¬(s.grn.command.isSome = true ∨ op = 0 ∨ 3 < op) := by
    rw [h]
    rintro (hsome | h0 | h4)
    · cases hsome
    · omega
    · omega
  exact if_neg htakes

theorem State.grnCommand_of_busy (h : s.grn.command ≠ none) (op : Nat) : s.grnCommand op = s := if_pos (.inl (Option.isSome_iff_ne_none.2 h))

theorem State.grnCommand_resp (s : State) (op : Nat) : (s.grnCommand op).resp = s.resp := by simp [State.grnCommand]

/-- An accepted write of GRN_CMD is its command. -/
theorem State.pagePortWrite_grnCmd (ha : (s.atTime t).Accepts port (Pg.grn.base + Reg.GRN_CMD)) (v : Word) :
    s.pagePortWrite t port Pg.grn Reg.GRN_CMD v = (s.atTime t).answered.grnCommand (fld v 31 28) := by
  have hw : s.pagePortWrite t port Pg.grn Reg.GRN_CMD v = ((s.atTime t).answered.grnCommand (fld v 31 28)).reported port := by
    rw [State.pagePortWrite, State.portWrite, ← State.atTime, State.busWrite_accepted ha,
      State.writeWord_page (p := Pg.grn) (o := Reg.GRN_CMD) (by decide) (by decide)]
    rfl
  rw [hw]
  exact State.reported_of_done (State.grnCommand_resp ..) _

/-- A register command of the Granary that ends with an error, captured in the GRN page. -/
def State.commandFails (s : State) (c : Cause) : State × Nat := (s.raise Pg.grn c none 0xFF000000, errCode c .grn)

theorem State.runCommand_degraded (h : 3 ≤ s.grn.failures) : s.runCommand op gen = s.commandFails .GRN_DEGRADED := if_pos h

theorem State.runCommand_notOn (h : s.grn.failures < 3) (hoff : s.domainOn 202 = false) : s.runCommand op gen = s.commandFails .GRN_NOT_ON :=
  (if_neg (Nat.not_le.2 h)).trans (if_pos (by rw [hoff]; rfl))

section
variable (h : s.grn.failures < 3) (hon : s.domainOn 202 = true)
include h hon

theorem State.runCommand_noGen (hnone : s.grn.find gen = none) : s.runCommand op gen = s.commandFails .GRN_NO_GEN := by
  rw [State.runCommand, if_neg (Nat.not_le.2 h), if_neg (by rw [hon]; decide), hnone]
  rfl

/-- A command that neither failed dies nor the Granary's power state refuses, on a committed generation. -/
theorem State.runCommand_found {x : Generation} (hx : s.grn.find gen = some x) :
    s.runCommand op gen = if op = 1 then (s.setGrn (s.grn.update gen fun y => { y with pinned := true }), 0)
      else if op = 2 then (s.setGrn (s.grn.update gen fun y => { y with pinned := false }), 0)
      else if x.pinned = true then s.commandFails .GRN_PINNED
      else (s.setGrn (s.grn.drop gen), 0) := by
  rw [State.runCommand, if_neg (Nat.not_le.2 h), if_neg (by rw [hon]; decide), hx]
  rfl

end

/-- The end of a register command: it waits no longer, GRN_CMD_STAT holds its result, and the page's interrupt sets. -/
def State.commandEnds (r : State × Nat) : State :=
  ((r.1.setGrn { r.1.grn with command := none }).wrP Pg.grn Reg.GRN_CMD_STAT (BitVec.ofNat 32 (2 ^ 30 + r.2))).setInt Pg.grn 4

theorem exec_grnCommandEnd_of_waiting (hc : (s.atTime t).grn.command = some (op, gen)) (hrun : (s.atTime t).grn.run = none) :
    exec (.grnCommandEnd t) s = .next (State.commandEnds ((s.atTime t).runCommand op gen)) := by
  refine congrArg Host.Outcome.next ?_
  rw [← State.atTime, hc]
  exact if_neg (by rw [hrun]; decide)

/-! ## Scrub, bad blocks and wear (R556 to R558) -/

/-- A bad block of a die that works, while the Granary is on. -/
theorem State.blockBad_of_working {d : FlashDie} {n : Nat} (hd : s.grn.dies[n]? = some d) (hgood : d.failed = false) (hon : s.domainOn 202 = true) :
    s.blockBad n =
    if d.spare = 0 then (s.setGrn { s.grn with dies := s.grn.dies.set n { d with bad := d.bad + 1 } }).flashFail n
    else s.setGrn { s.grn with dies := s.grn.dies.set n { d with bad := d.bad + 1, spare := d.spare - 1 } } := by
  rw [State.blockBad, hd]
  exact if_neg (by rw [hgood, hon]; decide)

/-- Scrub reads a block of a die that works while the Granary is on, scrub is enabled and no command runs. -/
theorem exec_scrub_of_runs {die : Fin 8} {d : FlashDie} (hd : (s.atTime t).grn.dies[die.val]? = some d) (hgood : d.failed = false)
    (hruns : (s.atTime t).scrubRuns = true) (rewrite last : Bool) (rebuilt : Nat) :
    let v := (s.atTime t).bump Pg.grn Reg.GRN_REBUILD_CNT rebuilt
    let w := if rewrite = true ∨ rebuilt ≠ 0 then v.bump Pg.grn Reg.GRN_RELOC_CNT 1 else v
    exec (.scrub t die rewrite rebuilt last) s =
      .next (if last = true then (w.setGrn { w.grn with starting := false }).bump Pg.grn Reg.GRN_SCRUB_PASS_CNT 1 else w) :=
  congrArg Host.Outcome.next (if_pos ⟨hruns, by rw [← State.atTime, hd, Option.elim_some, hgood]; rfl⟩)

theorem State.scrubRuns_of (hon : s.domainOn 202 = true) (hcfg : s.fldP Pg.grn Reg.GRN_CFG 0 0 = 1) (hrun : s.grn.run = none) (hcmd : s.grn.command = none) :
    s.scrubRuns = true := by
  rw [State.scrubRuns, hon, hcfg, hrun, hcmd]
  rfl

theorem exec_scrubLate_of_on (hon : (s.atTime t).domainOn 202 = true) :
    let u := s.atTime t
    exec (.scrubLate t) s = .next (if u.fldP Pg.grn Reg.GRN_STAT 24 24 = 1 then u else (u.setP Pg.grn Reg.GRN_STAT 24 24 1).setInt Pg.grn 3) := by
  have hlate : ((s.atTime t).fldP Pg.grn Reg.GRN_STAT 24 24 = 1 ∨ (!(s.atTime t).domainOn 202) = true) ↔ (s.atTime t).fldP Pg.grn Reg.GRN_STAT 24 24 = 1 := by
    rw [hon]
    exact or_iff_left Bool.false_ne_true
  exact congrArg Host.Outcome.next (if_congr hlate rfl rfl)

/-- A wear move of a die whose counts are far apart, once the scrub that follows the return of power has ended. -/
theorem exec_wearMove_of_apart {die : Fin 8} {d : FlashDie} {hi lo : BitVec 16} (hd : (s.atTime t).grn.dies[die.val]? = some d)
    (hon : (s.atTime t).domainOn 202 = true) (hapart : lo.toNat + 256 < hi.toNat) (hstart : (s.atTime t).grn.starting = false) :
    let u := s.atTime t
    exec (.wearMove t die hi lo) s = .next (u.setGrn { u.grn with dies := u.grn.dies.set die { d with hi := hi.toNat, lo := lo.toNat } }) := by
  refine congrArg Host.Outcome.next ?_
  rw [← State.atTime, hd]
  exact if_pos ⟨hapart, hon, by rw [hstart]; rfl⟩

/-! ## Seed sets (R583) -/

/-- An accepted write of TRADE_SEED_CMD is its command. -/
theorem State.busWrite_seedCmd (ha : s.Accepts port (Pg.trade.base + Reg.TRADE_SEED_CMD)) (v : Word) :
    s.busWrite (.port port) (Pg.trade.base + Reg.TRADE_SEED_CMD) v .free = (s.answered.seedCommand (fld v 31 28) (fld v 20 0)).reported port := by
  rw [State.busWrite_accepted ha, State.writeWord_page (p := Pg.trade) (o := Reg.TRADE_SEED_CMD) (by decide) (by decide)]
  rfl

/-- LOAD: the package that the read answers is copied, and none where it fails. -/
theorem State.seedCommand_load (s : State) (len : Nat) :
    let at_ := s.num64 Pg.trade Reg.TRADE_SEED_ADDR_LO
    let r := s.takeRead Pg.trade 0 2 at_ len
    s.seedCommand 1 len = ({ r.1 with seed := some ⟨if r.2 = none then r.1.bytesAt at_ len else [], 0, 0, List.replicate 4 0, List.replicate 4 0⟩ } : State).wrP
      Pg.trade Reg.TRADE_SEED_STAT 0x20000000 := by
  intro at_ r
  have hload : s.seedCommand 1 len = ({ r.1 with seed := some ⟨if r.2.isSome then [] else r.1.bytesAt at_ len, 0, 0, List.replicate 4 0, List.replicate 4 0⟩ }
      : State).wrP Pg.trade Reg.TRADE_SEED_STAT 0x20000000 := rfl
  rw [hload]
  cases r.2 <;> rfl

/-- The word that commands a LOAD of a length. -/
theorem seedLoadWord_fields (len : BitVec 21) :
    fld (BitVec.ofNat 32 (0x10000000 + len.toNat)) 31 28 = 1 ∧ fld (BitVec.ofNat 32 (0x10000000 + len.toNat)) 20 0 = len.toNat := by
  have hlen := len.isLt
  rw [fld, fld, BitVec.toNat_ofNat, bits, bits]
  omega

theorem exec_seedLoad_of_accepts {errs : List AccessErr} (ha : (s.atFacing errs t).Accepts port (Pg.trade.base + Reg.TRADE_SEED_CMD)) (len : BitVec 21) :
    exec (.seedLoad t port len errs) s = .next (((s.atFacing errs t).answered.seedCommand 1 len.toNat).reported port) := by
  obtain ⟨hop, hlen⟩ := seedLoadWord_fields len
  have hw := State.busWrite_seedCmd ha (BitVec.ofNat 32 (0x10000000 + len.toNat))
  rw [hop, hlen] at hw
  exact congrArg Host.Outcome.next hw

theorem exec_seedCancel_of_accepts (ha : (s.atTime t).Accepts port (Pg.trade.base + Reg.TRADE_SEED_CMD)) :
    exec (.seedCancel t port) s = .next (({ (s.atTime t).answered with seed := none } : State).setP Pg.trade Reg.TRADE_SEED_STAT 31 29 0) :=
  congrArg Host.Outcome.next ((State.busWrite_seedCmd ha 0x20000000).trans (State.reported_of_done rfl _))

/-- The verification of a Seed set that was copied ends by its layout and its signature. -/
theorem exec_seedVerifyDone_of_copied {x : SeedSet} (hx : (s.atTime t).seed = some x) (hstat : (s.atTime t).fldP Pg.trade Reg.TRADE_SEED_STAT 31 29 = 1) :
    let u := s.atTime t
    exec (.seedVerifyDone t) s = .next (if x.layoutOk = true ∧ u.seedSigned x = true then
        (u.setP Pg.trade Reg.TRADE_SEED_STAT 31 29 2).wrP Pg.trade Reg.TRADE_SEED_ID (BitVec.ofNat 32 x.id)
      else ((({ u with seed := none } : State).setP Pg.trade Reg.TRADE_SEED_STAT 31 29 5).raise Pg.trade .SEED_AUTH none x.id).bump Pg.sec
        Reg.SEC_AUTH_FAIL_CNT 1) := by
  refine congrArg Host.Outcome.next ?_
  rw [← State.atTime, hx]
  exact if_neg (not_not_intro hstat)

/-- Settles O56: an accepted command is its rule (`pagePortWrite_grnCmd`, `exec_seedLoad_of_accepts`), a register command that waits ends with what
`runCommand` answers (`exec_grnCommandEnd_of_waiting`), and each event is its rule where its conditions hold. That a wear move waits for the scrub which follows
the return of power, and that the last block of a pass ends that scrub, is the model's deduction (log entry 97); that the erase counts are as the move finds
them (log entry 30), and that a Seed package is read in class 2 (log entry 68), are its choices. -/
theorem granaryAndSeeds : Obligations.GranaryAndSeeds := by
  intro s t port u a
  refine ⟨fun ha => ⟨fun hidle => ?taken, fun hbusy => ?ignored⟩, fun op gen hc hrun => ?ends, fun n d hd hgood hon => ⟨?scrub, ?spare, ?noSpare, ?wear⟩,
    exec_scrubLate_of_on, fun len errs => ?load, exec_seedCancel_of_accepts, fun x hx hstat => ⟨fun hlayout hsigned => ?ready, fun hbad => ?discarded⟩⟩
  case taken =>
    have htaken {op : Nat} {v : Word} (hop : fld v 31 28 = op) (h1 : 1 ≤ op) (h3 : op ≤ 3) :
        s.pagePortWrite t port Pg.grn Reg.GRN_CMD v
          = (a.setGrn { a.grn with command := some (op, a.num64 Pg.grn Reg.GRN_CMD_GEN_LO) }).wrP Pg.grn Reg.GRN_CMD_STAT 0x80000000 := by
      rw [State.pagePortWrite_grnCmd ha, hop]
      exact State.grnCommand_of_idle h1 h3 hidle
    exact ⟨congrArg Host.Outcome.next (htaken rfl (by decide) (by decide)), congrArg Host.Outcome.next (htaken rfl (by decide) (by decide)),
      congrArg Host.Outcome.next (htaken rfl (by decide) (by decide))⟩
  case ignored =>
    have hignored (v : Word) : s.pagePortWrite t port Pg.grn Reg.GRN_CMD v = a :=
      (State.pagePortWrite_grnCmd ha v).trans (State.grnCommand_of_busy (s := a) hbusy _)
    exact ⟨congrArg Host.Outcome.next (hignored _), congrArg Host.Outcome.next (hignored _), congrArg Host.Outcome.next (hignored _)⟩
  case ends =>
    intro ends
    have hends {v : State} {code : Nat} (hr : u.runCommand op gen = (v, code)) : exec (.grnCommandEnd t) s = ends v code := by
      rw [exec_grnCommandEnd_of_waiting hc hrun, hr]
      rfl
    refine ⟨fun h => hends (State.runCommand_degraded h), fun h hoff => hends (State.runCommand_notOn h hoff), fun h hon hnone => ?_, fun x h hon hx => ?_⟩
    · exact hends (State.runCommand_noGen h hon hnone)
    · have hfound := State.runCommand_found (op := op) h hon hx
      refine ⟨?_, ?_, fun hop hpin => ?_, fun hop hpin => ?_⟩
      · rintro rfl
        exact hends hfound
      · rintro rfl
        exact hends hfound
      · subst hop
        exact hends (hfound.trans (if_pos hpin))
      · subst hop
        exact hends (hfound.trans (if_neg (Bool.eq_false_iff.1 hpin)))
  case scrub => exact fun rewrite last rebuilt hcfg hrun hcmd => exec_scrub_of_runs hd hgood (State.scrubRuns_of hon hcfg hrun hcmd) rewrite last rebuilt
  case spare => exact fun hspare => congrArg Host.Outcome.next ((State.blockBad_of_working hd hgood hon).trans (if_neg hspare))
  case noSpare => exact fun hspare => congrArg Host.Outcome.next ((State.blockBad_of_working hd hgood hon).trans (if_pos hspare))
  case wear => exact fun hi lo hapart hstart => exec_wearMove_of_apart hd hon hapart hstart
  case load =>
    intro y ha at_ r package
    rw [exec_seedLoad_of_accepts ha, State.seedCommand_load]
    rfl
  case ready => rw [exec_seedVerifyDone_of_copied hx hstat, if_pos ⟨hlayout, hsigned⟩]
  case discarded =>
    have hunfit : ¬(x.layoutOk = true ∧ u.seedSigned x = true) := by
      rintro ⟨hlayout, hsigned⟩
      rcases hbad with h | h
      · exact Bool.false_ne_true (h.symm.trans hlayout)
      · exact Bool.false_ne_true (h.symm.trans hsigned)
    rw [exec_seedVerifyDone_of_copied hx hstat, if_neg hunfit]

end Sys2Proof.Machine
end

section
/-!
SUPPORT. A step of the block, and resets (R669 to R672): what power-up, the removal of VIN and MOD_RESET_N leave, and the theorems that settle O1, O2, O33
and O34.
-/
namespace Sys2Proof.Machine

/-- Settles O1: with a command in front of the queue a step is that command's meaning by definition. -/
theorem stepRunsFront : Obligations.StepRunsFront := fun _ _ _ => rfl

/-- Settles O2: with an empty queue `step` answers the state itself, which is the model's choice (log entry 1). -/
theorem emptyQueueIdles : Obligations.EmptyQueueIdles := by
  intro s hq
  rw [step, hq]

variable {s : State} {off : Nat}

/-! ## Power -/

/-- Of the Granary's generations the committed ones are left. -/
theorem Granary.kept_committed {g : Granary} {x : Option Generation} {y : Generation} (hx : x ∈ g.kept.dir) (hy : x = some y) : y.committed = true := by
  obtain ⟨z, -, hz⟩ := List.mem_map.1 hx
  exact (Option.filter_eq_some_iff.1 (hz.trans hy)).2

/-- Without power every register is at its reset value. -/
theorem State.rd_unpowered (s : State) (p : Phase) (off : Nat) : (s.unpowered p).rd off = regReset off := rfl

/-- The state that POWER_UP finds before it samples the straps. -/
def State.poweredUp (s : State) (t : Nat) (nodeboot release puf : Bool) : State :=
  let u := ({ s.begin with wall := max s.wall t } : State).unpowered (if release then .settling else .held)
  { u with sec := { u.sec with seeded := puf }, boot := { u.boot with nodeboot := nodeboot } }

theorem State.rd_poweredUp (s : State) (t : Nat) (nodeboot release puf : Bool) (off : Nat) :
    (s.poweredUp t nodeboot release puf).rd off = regReset off := rfl

theorem exec_powerUp (s : State) (t : Nat) (settle : Fin 8) (nodeboot release puf : Bool) :
    exec (.powerUp t settle nodeboot release puf) s = .next ((s.poweredUp t nodeboot release puf).strapSettle settle) := rfl

/-- The straps set SETTLE and leave every other register. -/
theorem State.settle_strapSettle (h : Regs.wf s = true) (n : Fin 8) : (s.strapSettle n).fldP Pg.clk Reg.CLK_STAT 2 0 = n :=
  (State.fldP_setP_same h _ _ (by decide)).trans (Nat.mod_eq_of_lt n.isLt)

theorem State.rd_strapSettle_other (h : Regs.wf s = true) (n : Nat) (hoff : off ≠ Pg.clk.base + Reg.CLK_STAT) : (s.strapSettle n).rd off = s.rd off :=
  State.rd_wrP_other h _ hoff

/-- Settles O33: power-up samples the straps in a state without power (`State.poweredUp`), and the removal of VIN leaves such a state. What `regReset` gives for
a register whose reset value the spec leaves to the module or to chance is the model's choice (log entry 4). -/
theorem coldReset : Obligations.ColdReset := by
  intro s t settle nodeboot release puf blank
  let x := s.poweredUp t nodeboot release puf
  have hwf : Regs.wf x = true := rfl
  have hgrn {g : Granary} : ∀ y, y ∈ g.kept.dir → ∀ z, y = some z → z.committed = true := fun _ hy _ hz => Granary.kept_committed hy hz
  have htime : Keeps s (s.atTime t) := State.passTime_keeps (State.begin_keeps (Keeps.refl s))
  have hup : blank (x.strapSettle settle) := ⟨rfl, rfl, rfl, rfl, rfl, rfl, rfl, rfl, rfl, rfl, rfl, hgrn, rfl, rfl⟩
  have hgone : blank ((s.atTime t).unpowered .dead) := ⟨rfl, rfl, rfl, rfl, rfl, rfl, rfl, rfl, rfl, rfl, rfl, hgrn, htime.pending, htime.stepping⟩
  refine ⟨⟨x.strapSettle settle, exec_powerUp .., hup, rfl, rfl, rfl, ?_, fun off hoff => ?_⟩,
    (s.atTime t).unpowered .dead, rfl, hgone, rfl, fun off => ?_⟩
  · exact State.settle_strapSettle hwf settle
  · exact (State.rd_strapSettle_other hwf settle hoff).trans (State.rd_poweredUp ..)
  · exact State.rd_unpowered ..

/-! ## MOD_RESET_N and the rails (R669, R670) -/

/-- The state that MOD_RESET_N leaves of one whose rails have gone. -/
def State.modReset (s : State) : State :=
  { s with regs := s.regs.filter fun q => modResetKeeps q.1, eng := Engines.fresh, pwr := Power.fresh,
           stb := { s.stb with truths := List.replicate 64 false, caps := [] } }

theorem exec_modResetAssert_of_alive {t : Nat} (h : (s.atTime t).boot.phase ≠ .dead) :
    exec (.modResetAssert t) s = .next (s.atTime t).dropRails.modReset := congrArg Host.Outcome.next (if_neg h)

/-- What MOD_RESET_N keeps, the loss of the rails keeps. -/
theorem stubbleKeeps_of_modResetKeeps (h : modResetKeeps off = true) : stubbleKeeps off = true := by
  have htrip : Pg.stb.base + Reg.STB_LAST_TRIP = 0x200058 := rfl
  simp only [modResetKeeps, stubbleKeeps, Bool.or_eq_true, Bool.and_eq_true, beq_iff_eq, decide_eq_true_eq, htrip] at *
  omega

/-- A register that the loss of the rails keeps is as the abort of the frame leaves it. -/
theorem State.rd_dropRails_kept (h : Regs.wf (s.abortFrame 0) = true) (hk : stubbleKeeps off = true) : s.dropRails.rd off = (s.abortFrame 0).rd off :=
  Sparse.get_filter (p := fun q => stubbleKeeps q.1) (fun _ => hk) rfl h

theorem State.dropRails_regs_wf (h : Regs.wf (s.abortFrame 0) = true) : Regs.wf s.dropRails = true := Sparse.filter_wf _ h

theorem State.rd_modReset_kept (h : Regs.wf s = true) (hk : modResetKeeps off = true) : s.modReset.rd off = s.rd off :=
  Sparse.get_filter (p := fun q => modResetKeeps q.1) (fun _ => hk) rfl h

theorem State.rd_modReset_lost (s : State) (hk : modResetKeeps off = false) : s.modReset.rd off = regReset off := by
  refine Sparse.get_of_forall_ne fun q hq ho => ?_
  rw [← ho, (List.mem_filter.1 hq).2] at hk
  exact Bool.false_ne_true hk.symm

/-- Settles O34: MOD_RESET_N leaves what `State.modReset` gives of a module without rails, and each later step of the bring-up is its rule where its condition
holds. -/
theorem bringUpSteps : Obligations.BringUpSteps := by
  intro s t u
  refine ⟨fun halive hs => ?reset, fun settle nodeboot hheld => congrArg Host.Outcome.next (if_pos hheld),
    fun hsettling => congrArg Host.Outcome.next (if_pos hsettling), fun vin hlocked hvin => congrArg Host.Outcome.next (if_pos ⟨hlocked, hvin, rfl⟩)⟩
  case reset =>
    obtain ⟨hr, -⟩ := (State.abortFrame_keeps (code := 0) (Keeps.refl u)).sound hs
    refine ⟨u.dropRails.modReset, exec_modResetAssert_of_alive halive, rfl, rfl, rfl, rfl, rfl, rfl, rfl, rfl, fun off hoff => ?_, fun off hoff => ?_⟩
    · exact State.rd_modReset_lost _ hoff
    · calc u.dropRails.modReset.rd off = u.dropRails.rd off := State.rd_modReset_kept (State.dropRails_regs_wf hr) hoff
        _ = (u.abortFrame 0).rd off := State.rd_dropRails_kept hr (stubbleKeeps_of_modResetKeeps hoff)

end Sys2Proof.Machine
end

section
/-!
SUPPORT. The loss of the input and of the reference (R597 to R599, R661), and the theorem that settles O37.
-/
namespace Sys2Proof.Machine

variable {s : State} {t : Nat}

/-- VIN falls while the module is powered: the rails go, and the bring-up waits as it does once the PLLs have locked. -/
theorem exec_vinLow_of_commandable (h : (s.atTime t).boot.phase.commandable = true) :
    let u := s.atTime t
    let v := u.dropRails.wrP Pg.clk Reg.CLK_STAT (u.rdP Pg.clk Reg.CLK_STAT &&& 0x78000007)
    exec (.vinLow t) s = .next (((List.range 27).foldl (fun v n => v.setP Pg.clk (Reg.CLK_PLLn_STAT + 4 * n) 31 30
      (u.fldP Pg.clk (Reg.CLK_PLLn_STAT + 4 * n) 31 30)) v).setPhase .locked) := congrArg Host.Outcome.next (if_pos h)

/-- What the loss of the reference does to a PLL: it coasts, and where its own loss is the cause it counts it. -/
def State.coastPll (pll : Option (Fin 27)) (s : State) (n : Nat) : State :=
  let o := Reg.CLK_PLLn_STAT + 4 * n
  let w := s.setP Pg.clk o 31 30 1
  if pll.map (fun k => k.val) = some n then w.setP Pg.clk o 7 0 (min 255 (w.fldP Pg.clk o 7 0 + 1)) else w

/-- The loss of the reference up to the PLLs (R598). -/
def State.loseReference (u : State) (pll : Option (Fin 27)) : State :=
  let v := (u.setP Pg.clk Reg.CLK_STAT 27 27 1).abortFrame (errCode .REF_LOST .clk)
  let v := v.raise Pg.clk .REF_LOST none (pll.elim 0xFF fun n => n.val)
  let v := (List.range 24).foldl (fun v p => (v.setPort p { v.port p with line := if (v.port p).line = .off then .off else .down }).portSync p) v
  ((((v.pcieDown 0).pcieDown 1).setP Pg.clk Reg.CLK_STAT 31 28 9).bump Pg.clk Reg.CLK_REF_LOST_CNT 1).set64 Pg.clk Reg.CLK_LOST_FRAME_LO
    (u.setP Pg.clk Reg.CLK_STAT 27 27 1).frameNum

theorem exec_refLost_of_steady {pll : Option (Fin 27)} (hphase : (s.atTime t).boot.phase.commandable = true ∨ (s.atTime t).boot.phase = .locked)
    (hcoast : (s.atTime t).pwr.coast = none) :
    let v := (List.range 27).foldl (State.coastPll pll) ((s.atTime t).loseReference pll)
    exec (.refLost t pll) s = .next ((v.setPwr { v.pwr with coast := some v.wall }).setInt Pg.clk 1) := by
  have hsteady : ((s.atTime t).boot.phase.commandable = true ∨ (s.atTime t).boot.phase = .locked) ∧ (s.atTime t).pwr.coast.isNone = true :=
    ⟨hphase, Option.isNone_iff_eq_none.2 hcoast⟩
  refine (congrArg Host.Outcome.next (if_pos hsteady)).trans ?_
  cases pll with
  | none => rfl
  | some k =>
    have hmine : State.coastPll (some k) = fun v n =>
        let w := v.setP Pg.clk (Reg.CLK_PLLn_STAT + 4 * n) 31 30 1
        if (k.val == n) = true then w.setP Pg.clk (Reg.CLK_PLLn_STAT + 4 * n) 7 0 (min 255 (w.fldP Pg.clk (Reg.CLK_PLLn_STAT + 4 * n) 7 0 + 1)) else w := by
      funext v n
      exact if_congr (by simp) rfl rfl
    rw [hmine]
    rfl

/-- The state of every PLL set (R594). -/
def State.setPlls (s : State) (v : Nat) : State := (List.range 27).foldl (fun s n => s.setP Pg.clk (Reg.CLK_PLLn_STAT + 4 * n) 31 30 v) s

/-- The reference returns: the coast ends with its length counted, and the PLLs lock again (R599). -/
def State.relocked (u : State) (began : Nat) : State :=
  let v := ((u.setP Pg.clk Reg.CLK_STAT 30 27 12).bump Pg.clk Reg.CLK_COAST_US ((u.wall - began) / 2000)).setPlls 2
  (v.setPwr { v.pwr with coast := none }).setInt Pg.clk 2

theorem State.foldl_boot {α : Type} {f : State → α → State} (hf : ∀ t x, (f t x).boot = t.boot) (l : List α) (s : State) :
    (l.foldl f s).boot = s.boot :=
  List.foldlRecOn (motive := fun t => t.boot = s.boot) l f rfl fun t ht x _ => (hf t x).trans ht

@[simp] theorem State.setInt_boot (s : State) (p : Page) (n : Nat) : (s.setInt p n).boot = s.boot := by
  obtain ⟨_, _, _, _, h⟩ := State.setInt_reports (Reports.refl s) p n
  rw [h]

theorem State.setPlls_boot (s : State) (v : Nat) : (s.setPlls v).boot = s.boot := by
  rw [State.setPlls, State.foldl_boot]
  exact fun _ _ => rfl

theorem State.relocked_boot (u : State) (began : Nat) : (u.relocked began).boot = u.boot := by
  rw [State.relocked, State.setInt_boot, State.setPwr_boot]
  exact State.setPlls_boot _ _

theorem exec_referenceRelock_of_coasting {began : Nat} (h : (s.atTime t).pwr.coast = some began) :
    let v := (s.atTime t).relocked began
    exec (.referenceRelock t) s = .next (if (s.atTime t).boot.phase = .ready then
      let w := (List.range 24).foldl (fun w p => if (w.port p).line = .down then w.portTrain p else w) v
      let w := (List.range domainCount).foldl (fun w n => if w.domainOn n then w.setDom n 19 16 4 else w) w
      w.setFrame { w.eng.frame with kind := .none } else v) := by
  intro v
  have hv : v.boot = (s.atTime t).boot := State.relocked_boot _ _
  rw [← hv]
  refine congrArg Host.Outcome.next ?_
  rw [← State.atTime, h]
  rfl

/-- Settles O37: each event is its rule where its conditions hold (`exec_vinLow_of_commandable`, `exec_refLost_of_steady`,
`exec_referenceRelock_of_coasting`). That VIN low leaves the bring-up at step 3 of R670 is the model's deduction (log entry 43). -/
theorem inputAndReferenceLosses : Obligations.InputAndReferenceLosses := by
  intro s t u
  refine ⟨exec_vinLow_of_commandable, fun pll hphase hcoast => exec_refLost_of_steady hphase hcoast, fun began hcoast => ?back⟩
  case back =>
    have hexec := exec_referenceRelock_of_coasting hcoast
    exact ⟨fun hphase => hexec.trans (congrArg _ (if_neg hphase)), fun hphase => hexec.trans (congrArg _ (if_pos hphase))⟩

end Sys2Proof.Machine
end

section
/-!
SUPPORT. Entries and exits of power domains (R605 to R613), and the theorem that settles O38.
-/
namespace Sys2Proof.Machine

variable {s : State} {t : Nat} {dom : Fin 211} {x : Transit}

theorem exec_powerEntryComplete_of_over (hx : (s.atTime t).transit? dom = some x) (hstop : x.stop ≤ (s.atTime t).wall) (htarget : x.target ≠ 2) :
    exec (.powerEntryComplete t dom) s = .next ((s.atTime t).endEntry x) := by
  refine congrArg Host.Outcome.next ?_
  rw [← State.atTime, hx]
  exact if_pos ⟨htarget, hstop⟩

theorem exec_powerExitComplete_of_over (hx : (s.atTime t).transit? dom = some x) (hstop : x.stop ≤ (s.atTime t).wall) (htarget : x.target = 2)
    (ecc kat : Bool) (lanes : List (Bool × Fin 1632)) :
    exec (.powerExitComplete t dom ecc kat lanes) s = .next ((s.atTime t).endExit x ecc kat (lanes.map fun l => (b2n l.1, l.2.val))) := by
  refine congrArg Host.Outcome.next ?_
  rw [← State.atTime, hx]
  exact if_pos ⟨htarget, hstop⟩

/-- A domain whose exit has ended, before its block's start work: its registers are restored, and its clock is divided by 16 (R605, R613). -/
def State.restarts (s : State) (n : Nat) (ecc : Bool) : State :=
  let v := ((s.dropTransit n).restoreDomain n ecc).setDom n 19 16 4
  v.setPwr { v.pwr with holds := (n, 0) :: v.pwr.holds.filter fun q => q.1 != n }

/-! ## The start work of each kind of domain -/

section
variable {ecc kat : Bool} {lanes : List (Nat × Nat)}

/-- Tiller groups, scratchpads and the slices of a switch have no start work. -/
theorem State.endExit_plain (h : x.dom < 84 ∨ (172 ≤ x.dom ∧ x.dom < 176) ∨ (203 ≤ x.dom ∧ x.dom < 207)) :
    s.endExit x ecc kat lanes = s.restarts x.dom ecc := by
  simp (disch := omega) only [State.endExit, if_neg]
  rfl

theorem State.endExit_engine (h84 : 84 ≤ x.dom) (h160 : x.dom < 160) {p : Page} (hp : (domainInfo x.dom).owner = some p) :
    s.endExit x ecc kat lanes = (s.restarts x.dom ecc).seedEngine p kat := by
  simp only [State.endExit, if_pos (And.intro h84 h160), hp]
  rfl

theorem State.endExit_stack (h160 : 160 ≤ x.dom) (h172 : x.dom < 172) :
    s.endExit x ecc kat lanes = if x.from_ = 0 then (s.restarts x.dom ecc).applyStackRepairs (x.dom - 160) else s.restarts x.dom ecc := by
  simp (disch := omega) only [State.endExit, if_neg (show ¬(84 ≤ x.dom ∧ x.dom < 160) by omega), if_pos (And.intro h160 h172)]
  rfl

section
variable (h176 : 176 ≤ x.dom) (h200 : x.dom < 200)
include h176 h200

theorem State.endExit_port_off (hoff : x.from_ = 0) : s.endExit x ecc kat lanes = (s.restarts x.dom ecc).portTrain (x.dom - 176) := by
  simp (disch := omega) only [State.endExit, if_pos, if_neg]
  rfl

theorem State.endExit_port_retained (hoff : x.from_ ≠ 0) :
    let v := s.restarts x.dom ecc
    let p := x.dom - 176
    let k := goodWl (v.port p).rxFailed
    s.endExit x ecc kat lanes = (v.setPort p { v.port p with
      line := if (v.port p).wide = true ∧ 8 ≤ k then .full else if 4 ≤ k then .half else .down }).portSync p := by
  simp (disch := omega) only [State.endExit, if_pos (And.intro h176 h200), if_neg]
  rfl

end

theorem State.endExit_pcie (h200 : 200 ≤ x.dom) (h202 : x.dom < 202) :
    s.endExit x ecc kat lanes = if ecc = true then (s.restarts x.dom ecc).setPci (x.dom - 200) PciPort.fresh else s.restarts x.dom ecc := by
  simp (disch := omega) only [State.endExit, if_pos (And.intro h200 h202), if_neg]
  rfl

theorem State.endExit_granary (h : x.dom = 202) :
    let v := s.restarts x.dom ecc
    s.endExit x ecc kat lanes = v.setGrn { v.grn with
      dir := if x.from_ = 0 then v.grn.dir.map (fun g => g.filter Generation.committed) else v.grn.dir, starting := true } := by
  simp (disch := omega) only [State.endExit, if_pos h, if_neg]
  rfl

theorem State.endExit_link (h : 207 ≤ x.dom) :
    s.endExit x ecc kat lanes = if x.from_ = 0 then ((s.restarts x.dom ecc).linkTrainStart (x.dom - 207)).linkTrainEnd (x.dom - 207) lanes
      else s.restarts x.dom ecc := by
  simp (disch := omega) only [State.endExit, if_pos h, if_neg]
  rfl

end

/-- Settles O38: an entry that is over ends by `endEntry`, and an exit by the start work of its kind of domain (the lemmas `State.endExit_…`) on the
state that `State.restarts` gives. That a divider's interval stands in for a frame only while none has started is the model's deduction (log entry 61), and so is
the start-up scrub that the Granary begins (log entry 97). -/
theorem powerDomains : Obligations.PowerDomains := by
  intro s t dom x u n
  refine ⟨fun hx hstop => ⟨fun htarget => exec_powerEntryComplete_of_over hx hstop htarget, fun htarget ecc kat lanes => ?exit⟩,
    fun hkind hready hphase => congrArg Host.Outcome.next (if_pos ⟨hkind, hready, hphase⟩)⟩
  case exit =>
    intro v w
    have hexit {z : State} (hz : u.endExit x ecc kat (lanes.map fun l => (b2n l.1, l.2.val)) = z) :
        exec (.powerExitComplete t dom ecc kat lanes) s = .next z := by
      rw [exec_powerExitComplete_of_over hx hstop htarget, hz]
    refine ⟨fun h => hexit (State.endExit_plain h), fun p h84 h160 hp => hexit (State.endExit_engine h84 h160 hp),
      fun h160 h172 => hexit (State.endExit_stack h160 h172), fun h176 h200 hoff => hexit (State.endExit_port_off h176 h200 hoff),
      fun h176 h200 hon => hexit (State.endExit_port_retained h176 h200 hon), fun h200 h202 => hexit (State.endExit_pcie h200 h202),
      fun h => hexit (State.endExit_granary h), fun h hon => ?_, fun h hoff => ?_⟩
    · exact hexit ((State.endExit_link h).trans (if_neg hon))
    · exact hexit ((State.endExit_link h).trans (if_pos hoff))

end Sys2Proof.Machine
end

section
/-!
SUPPORT. Samples, stuck and chattering conditions, rail faults and beats of the Stubble (R615 to R624, R378), and the theorem that settles O39.
-/
namespace Sys2Proof.Machine

variable {s : State} {t : Nat}

/-! ## Samples -/

/-- The state after an analog sample's inputs, TMAX and input power, before the conditions follow. -/
def State.inputsSampled (s : State) (vals : List (Option Int)) : State :=
  let v := (List.range 0x24).foldl (fun v i => v.setInput i (vals.getD i none)) s
  let logs := ((List.range 5).filter v.inputValid).map v.inputVal
  (v.setInput 0x28 (logs.head?.map fun x => logs.tail.foldl max x)).samplePower

/-- TMAX has reached 125 degrees (R624), in quarters of a degree. -/
def State.LogicHot (s : State) : Prop := s.inputValid 0x28 = true ∧ 500 ≤ s.inputVal 0x28

/-- The die log that reads TMAX. -/
def State.hottest (s : State) : Nat := ((List.range 5).find? fun i => s.inputValid i && s.inputVal i == s.inputVal 0x28).getD 0x28

/-- A sample's inputs taken, either the module trips or the conditions on analog inputs follow, and the rules. -/
def State.actOnSample (w : State) : State :=
  if w.inputValid 0x28 && decide (500 ≤ w.inputVal 0x28) then
    let y := w.raise Pg.stb .LOGIC_HOT none (stbInfo 0x28 0xFF 0xFF false)
    y.trip 2 w.hottest (unsigned 16 (y.inputVal w.hottest))
  else
    let on := (List.range 64).filter fun c => bit (w.rd (condWord c)).toNat 31 && !isDigital (fld (w.rd (condWord c)) 7 0)
    (on.foldl State.evalCond w).runRules

/-- An analog sample by its two stages. -/
theorem State.analogSample_eq (s : State) (vals : List (Option Int)) : s.analogSample vals = (s.inputsSampled vals).actOnSample := by
  dsimp only [State.analogSample, State.inputsSampled]
  generalize (List.range 0x24).foldl (fun v i => v.setInput i (vals.getD i none)) s = v
  generalize ((List.range 5).filter v.inputValid).map v.inputVal = logs
  cases logs with
  | nil => rfl
  | cons x r => rfl

theorem State.logicHot_iff (w : State) : (w.inputValid 0x28 && decide (500 ≤ w.inputVal 0x28)) = true ↔ w.LogicHot := by
  rw [Bool.and_eq_true, decide_eq_true_eq]
  rfl

theorem exec_stubbleAnalogSample_of_runs (h : (s.atTime t).stubbleRuns = true) (vals : List (Option Int)) :
    exec (.stubbleAnalogSample t vals) s = .next ((s.atTime t).analogSample vals) := congrArg Host.Outcome.next (if_pos h)

theorem exec_stubbleDigitalSample_of_runs (h : (s.atTime t).stubbleRuns = true) (wake flow : Bool) :
    exec (.stubbleDigitalSample t wake flow) s = .next ((s.atTime t).digitalSample wake flow) := congrArg Host.Outcome.next (if_pos h)

/-! ## Conditions (R618, R619) -/

section
variable {c : Fin 64}

/-- A condition has been asserted for its STUCK_T and is not yet marked. -/
theorem exec_inputStuck_of_asserted
    (hlimit : fld ((s.atTime t).rd (condWord c + 12)) 31 16 ≠ 0) (hon : bit ((s.atTime t).rd (condStat c)).toNat 31 = true)
    (hnew : bit ((s.atTime t).rd (condStat c)).toNat 30 = false)
    (hlong : ((s.atTime t).condState c).since + fld ((s.atTime t).rd (condWord c + 12)) 31 16 * stubbleMs ≤ (s.atTime t).wall) :
    exec (.inputStuck t c) s = .next (let v := (s.atTime t).wr (condStat c) (setFld ((s.atTime t).rd (condStat c)) 30 30 1)
      (v.raise Pg.stb .INPUT_STUCK none (stbInfo (fld (v.rd (condWord c)) 7 0) c 0xFF false)).setInt Pg.stb 2) :=
  congrArg Host.Outcome.next (if_pos ⟨hlimit, hon, by rw [← State.atTime, hnew]; rfl, hlong⟩)

theorem exec_holdoffExpiry_of_over {e : Nat} (hheld : ((s.atTime t).condState c).held = some e) (hover : e ≤ (s.atTime t).wall) :
    exec (.holdoffExpiry t c) s = .next (let v := (s.atTime t).wr (condStat c) (setFld ((s.atTime t).rd (condStat c)) 28 28 0)
      v.setCond c { v.condState c with held := none, trues := 0, falses := 0, times := [] }) := by
  refine congrArg Host.Outcome.next ?_
  rw [← State.atTime, hheld]
  exact if_pos hover

end

/-- Settles O39: while the Stubble runs a sample is its rule (`State.analogSample_eq`), and each other event is its rule where its
conditions hold; a millisecond of Stubble time is `stubbleMs`. That INPUT_RANGE is raised once for each stay outside the range is the model's deduction (log
entry 95). -/
theorem stubbleSamples : Obligations.StubbleSamples := by
  intro s t u
  refine ⟨fun hruns vals => ?analog, exec_stubbleDigitalSample_of_runs, fun c => ?stuck, fun c e hheld hover => exec_holdoffExpiry_of_over hheld hover,
    fun i mv hserves => congrArg Host.Outcome.next (if_pos hserves), fun hbeats => congrArg Host.Outcome.next (if_pos hbeats)⟩
  case analog =>
    intro v logs w on hot src
    have hexec := exec_stubbleAnalogSample_of_runs hruns vals
    rw [State.analogSample_eq] at hexec
    exact ⟨fun hcool => hexec.trans (congrArg _ (if_neg (mt w.logicHot_iff.1 hcool))),
      fun hhot => hexec.trans (congrArg _ (if_pos (w.logicHot_iff.2 hhot)))⟩
  case stuck =>
    have hms : stubbleMs = 2000000 := rfl
    intro st limit hlimit hon hnew hlong
    exact exec_inputStuck_of_asserted hlimit hon hnew (by rw [hms]; exact hlong)

end Sys2Proof.Machine
end

section
/-!
SUPPORT. The ROM's order and the hub controller's start (R639, R641, R655, R670), and the theorem that settles O35.
-/
namespace Sys2Proof.Machine

variable {s : State} {t : Nat} {f : BootFinds} {cold : Bool}

/-! ## The end of bring-up (R655, R670 step 7) -/

/-- Domains, repair map, links and stacks come up. -/
def State.stacksUp (s : State) (cold : Bool) (f : BootFinds) : State :=
  let s := (((List.range domainCount).foldl (fun s n => s.setDom n 31 30 2) s).loadMap f).mapTillers
  let s := (List.range 4).foldl (fun s n =>
    (s.linkTrainStart n).linkTrainEnd n ((f.lanes.filter fun l => l.1.val == n).map fun l => (b2n l.2.1, l.2.2.val))) s
  let s := (List.range 12).foldl State.mapStack s
  (List.range 12).foldl (fun (s : State) k =>
    if cold then s.selfTest k ((f.sensors.filter fun q => q.1.val == k).map fun q => q.2.val) else s) s

/-- Ports, the Granary, the engines' generators and the rule table come up. -/
def State.controllersUp (s : State) (cold : Bool) (f : BootFinds) : State :=
  let s := if s.pwr.coast.isNone then (List.range 24).foldl State.portTrain s else s
  ((s.startGranary cold f).seedAll f).loadRules

/-- The pages that no debug unlock opens are locked. -/
def State.locksUp (s : State) : State :=
  let scope := s.fldP Pg.sec Reg.SEC_DBG_STAT 3 0
  let lock := fun (s : State) (p : Page) => s.setP p Reg.LOCK 0 0 1
  let s := if bit scope 0 then s else (List.range 4).foldl (fun s d => lock s (Pg.dras d)) s
  let s := if bit scope 1 then s else lock s Pg.stb
  if bit scope 2 then s else lock s Pg.pwr

/-- READY sets, or waits for entropy. -/
def State.readyOrWaiting (s : State) : State := if s.entropyFailed then s.setPhase .powered else s.setReady

theorem State.bringUp_eq (s : State) (cold : Bool) (f : BootFinds) :
    s.bringUp cold f = ((s.stacksUp cold f).controllersUp cold f).locksUp.readyOrWaiting := rfl

section
variable {b : State} (h : Keeps b s)
include h

theorem State.stacksUp_keeps : Keeps b (s.stacksUp cold f) := by
  have hmap : Keeps b (((List.range domainCount).foldl (fun s n => s.setDom n 31 30 2) s).loadMap f).mapTillers :=
    State.mapTillers_keeps (State.loadMap_keeps (h.foldl fun _ _ ht => State.setDom_keeps ht))
  exact Keeps.foldl (Keeps.foldl (Keeps.foldl hmap fun _ _ ht => State.linkTrainEnd_keeps (State.linkTrainStart_keeps ht))
    fun _ _ ht => State.mapStack_keeps ht) fun _ _ ht => Keeps.ite (State.selfTest_keeps ht) ht

theorem State.controllersUp_keeps : Keeps b (s.controllersUp cold f) :=
  State.loadRules_keeps (State.seedAll_keeps (State.startGranary_keeps (Keeps.ite (h.foldl fun _ _ ht => State.portTrain_keeps ht) h)))

theorem State.locksUp_keeps : Keeps b s.locksUp := by
  have hlock {c : Prop} [Decidable c] {s : State} (hs : Keeps b s) (p : Page) : Keeps b (if c then s else s.setP p Reg.LOCK 0 0 1) :=
    Keeps.ite hs (State.setP_keeps hs)
  exact hlock (hlock (Keeps.ite h (h.foldl fun _ _ ht => State.setP_keeps ht)) Pg.stb) Pg.pwr

end

/-- The entropy source's state is no matter of READY. -/
theorem State.entropyFailed_setReady (h : Regs.wf s = true) : s.setReady.entropyFailed = s.entropyFailed := by
  have hrd : s.setReady.rd (Pg.sec.base + Reg.SEC_STAT) = s.rd (Pg.sec.base + Reg.SEC_STAT) :=
    (State.rd_setInt_other (s := (s.setPhase .ready).setP Pg.hub Reg.BLK_STAT 0 0 1) (State.setP_regs_wf h _ _ _ _) 3 (by decide) (by decide)).trans
      (State.rd_wrP_other (s := s.setPhase .ready) h _ (by decide))
  exact congrArg (fun w => fld w 29 29 == 1) hrd

theorem State.ready_setReady (h : Regs.wf s = true) : s.setReady.fldP Pg.hub Reg.BLK_STAT 0 0 = 1 := by
  have hrd : s.setReady.rd (Pg.hub.base + Reg.BLK_STAT) = ((s.setPhase .ready).setP Pg.hub Reg.BLK_STAT 0 0 1).rd (Pg.hub.base + Reg.BLK_STAT) :=
    State.rd_setInt_other (State.setP_regs_wf (s := s.setPhase .ready) h _ _ _ _) 3 (by decide) (by decide)
  exact (congrArg (fld · 0 0) hrd).trans (State.fldP_setP_same (s := s.setPhase .ready) h _ 1 (by decide))

theorem State.phase_readyOrWaiting (h : Regs.wf s = true) :
    s.readyOrWaiting.boot.phase = if s.readyOrWaiting.entropyFailed then .powered else .ready := by
  unfold State.readyOrWaiting
  cases hf : s.entropyFailed with
  | true => exact (if_pos hf).symm
  | false =>
    have hsame : s.setReady.entropyFailed = false := (State.entropyFailed_setReady h).trans hf
    exact (congrArg Boot.phase (State.setInt_boot ..)).trans (if_neg (Bool.eq_false_iff.1 hsame)).symm

theorem State.ready_readyOrWaiting (h : Regs.wf s = true) (hf : s.readyOrWaiting.entropyFailed = false) :
    s.readyOrWaiting.fldP Pg.hub Reg.BLK_STAT 0 0 = 1 := by
  unfold State.readyOrWaiting at hf ⊢
  cases hs : s.entropyFailed with
  | true =>
    rw [hs] at hf
    exact absurd (hs.symm.trans hf) (by decide)
  | false => exact State.ready_setReady h

/-! ## A copy that runs (R639 step 6) -/

/-- The state in which the hub controller starts on a copy. -/
def State.copyStarts (s : State) (second : Bool) : State :=
  let x := s.sec
  let c := if second then x.b else x.a
  let s := s.setSec { x with running := some second, bootCnt := x.bootCnt + 1, pendingDebug := none }
  let s := s.setP Pg.hub Reg.BLK_STAT 2 1 (2 * b2n second + 1)
  let s := s.wrP Pg.hub Reg.HUB_CTLR_VER (BitVec.ofNat 32 c.two.version)
  let s := s.setP Pg.sec Reg.SEC_BOOT_STAT 31 28 3
  match x.pendingDebug with
  | some k => ((s.setP Pg.sec Reg.SEC_DBG_STAT 31 31 1).setP Pg.sec Reg.SEC_DBG_STAT 3 0 k).setInt Pg.sec 3
  | none => s

theorem State.runCopy_eq (s : State) (second cold : Bool) (f : BootFinds) : s.runCopy second cold f = (s.copyStarts second).bringUp cold f := rfl

theorem State.copyStarts_keeps {b : State} (h : Keeps b s) (second : Bool) : Keeps b (s.copyStarts second) := by
  unfold State.copyStarts
  have hplain {v w c : Nat} {y : Word} {x : Security} : Keeps b ((((s.setSec x).setP Pg.hub v 2 1 w).wrP Pg.hub c y).setP Pg.sec Reg.SEC_BOOT_STAT 31 28 3) :=
    State.setP_keeps (State.wrP_keeps (State.setP_keeps (State.setSec_keeps h)))
  dsimp only
  split
  · exact State.setInt_keeps (State.setP_keeps (State.setP_keeps hplain))
  · exact hplain

theorem State.runCopy_outcome (hs : s.Sound) (second cold : Bool) (f : BootFinds) :
    let y := s.runCopy second cold f
    y.boot.phase = (if y.entropyFailed then .powered else .ready) ∧ (y.entropyFailed = false → y.fldP Pg.hub Reg.BLK_STAT 0 0 = 1) := by
  let w := (((s.copyStarts second).stacksUp cold f).controllersUp cold f).locksUp
  have hw : Keeps s w := State.locksUp_keeps (State.controllersUp_keeps (State.stacksUp_keeps (State.copyStarts_keeps (Keeps.refl s) second)))
  obtain ⟨hr, -⟩ := hw.sound hs
  have hy : s.runCopy second cold f = w.readyOrWaiting := (State.runCopy_eq ..).trans (State.bringUp_eq ..)
  rw [hy]
  exact ⟨State.phase_readyOrWaiting hr, State.ready_readyOrWaiting hr⟩

/-! ## The ROM (R639) -/

theorem exec_boot_of_stopped (hphase : (s.atTime t).boot.phase = .powered) (hstopped : (s.atTime t).fldP Pg.hub Reg.BLK_STAT 1 1 = 0) (f : BootFinds) :
    exec (.boot t f) s = .next ((s.atTime t).bootRun (!(s.atTime t).boot.warm) f) := congrArg Host.Outcome.next (if_pos ⟨hphase, hstopped⟩)

theorem State.bootRun_badChain (hchain : f.chain = false) : s.bootRun cold f = (s.raise Pg.sec .BOOT_AUTH none 0).authFailed.haltBoot 1 :=
  if_pos (by rw [hchain]; rfl)

theorem State.bootRun_noSeed (hchain : f.chain = true) (hseed : s.sec.seeded = false) : s.bootRun cold f = s.haltBoot 2 :=
  (if_neg (by rw [hchain]; decide)).trans (if_pos (by rw [hseed]; rfl))

/-- The module's identity stands: UNIQUE and, where the source works, ENT_OK set, and the nonces are drawn (R639 step 2). -/
def State.identified (s : State) : State :=
  let y := s.setP Pg.sec Reg.SEC_STAT 31 31 1
  (((if y.entropyFailed then y else y.setP Pg.sec Reg.SEC_STAT 30 30 1).newSecNonce).newHoNonce 0).newHoNonce 1

/-- The ROM's choice of a copy: the preferred one, else the other, else recovery (R639 steps 4 to 6, R641). -/
def State.chooseCopy (s : State) (cold : Bool) (f : BootFinds) : State :=
  let k := s.sec.copyCause s.sec.prefB f
  if k = 0 then s.runCopy s.sec.prefB cold f
  else
    let x := s.copyFails s.sec.prefB k
    let j := x.sec.copyCause (!s.sec.prefB) f
    if j = 0 then x.runCopy (!s.sec.prefB) cold f
    else ((x.copyFails (!s.sec.prefB) j).raise Pg.sec (if k = 3 then .ROLLBACK else .BOOT_AUTH) none k).recover

theorem State.bootRun_identified (hchain : f.chain = true) (hseed : s.sec.seeded = true) : s.bootRun cold f =
    if !f.rpa then (s.identified.raise Pg.sec .ROLLBACK none 0).haltBoot 3
    else if cold ∧ s.identified.boot.nodeboot then s.identified.recover
    else s.identified.chooseCopy cold f :=
  (if_neg (by rw [hchain]; decide)).trans (if_neg (by rw [hseed]; decide))

section
variable (hchain : f.chain = true) (hseed : s.sec.seeded = true)
include hchain hseed

theorem State.bootRun_badRpa (hrpa : f.rpa = false) : s.bootRun cold f = (s.identified.raise Pg.sec .ROLLBACK none 0).haltBoot 3 :=
  (State.bootRun_identified hchain hseed).trans (if_pos (by rw [hrpa]; rfl))

theorem State.bootRun_strapped (hrpa : f.rpa = true) (hcold : cold = true) (hstrap : s.identified.boot.nodeboot = true) :
    s.bootRun cold f = s.identified.recover :=
  (State.bootRun_identified hchain hseed).trans ((if_neg (by rw [hrpa]; decide)).trans (if_pos ⟨hcold, hstrap⟩))

theorem State.bootRun_chooses (hrpa : f.rpa = true) (hfree : cold = false ∨ s.identified.boot.nodeboot = false) :
    s.bootRun cold f = s.identified.chooseCopy cold f := by
  have hno : ¬(cold = true ∧ s.identified.boot.nodeboot = true) := by
    rintro ⟨hcold, hstrap⟩
    rcases hfree with h | h
    · exact Bool.false_ne_true (h.symm.trans hcold)
    · exact Bool.false_ne_true (h.symm.trans hstrap)
  exact (State.bootRun_identified hchain hseed).trans ((if_neg (by rw [hrpa]; decide)).trans (if_neg hno))

end

/-- Settles O35: the ROM's order goes by what it finds (the lemmas `State.bootRun_…` and `State.chooseCopy`), and a copy that runs ends in READY or waits for
entropy (`State.runCopy_outcome`). That one command is the whole boot, with READY at its end or left to the entropy test, is the model's choice (log
entry 37), and that a failing chain is counted once is its deduction (log entry 44). -/
theorem bootRuns : Obligations.BootRuns := by
  intro s t f u cold
  refine ⟨fun hphase hstopped => ?rom, fun z second c hz => State.runCopy_outcome hz second c f⟩
  have hboot {z : State} (hz : u.bootRun cold f = z) : exec (.boot t f) s = .next z := by
    rw [exec_boot_of_stopped hphase hstopped, hz]
  refine ⟨fun hchain => hboot (State.bootRun_badChain hchain), fun hchain hseed => hboot (State.bootRun_noSeed hchain hseed), fun hchain hseed => ?_⟩
  intro y v
  refine ⟨fun hrpa => hboot (State.bootRun_badRpa hchain hseed hrpa), fun hrpa hcold hstrap => hboot (State.bootRun_strapped hchain hseed hrpa hcold hstrap),
    fun hrpa hfree => ?_⟩
  intro a x b
  have hchoice : u.bootRun cold f = v.chooseCopy cold f := State.bootRun_chooses hchain hseed hrpa hfree
  exact ⟨fun ha => hboot (hchoice.trans (if_pos ha)), fun ha hb => hboot (hchoice.trans ((if_neg ha).trans (if_pos hb))),
    fun ha hb => hboot (hchoice.trans ((if_neg ha).trans (if_neg hb)))⟩

end Sys2Proof.Machine
end

section
/-!
SUPPORT. Requests and clears by register (R171, R350, R430, R538, R575, R577, R599, R603, R616, R619), and the theorem that settles O53.
-/
namespace Sys2Proof.Machine

variable {s : State} {t : Nat} {port : Fin 2} {p : Page} {q o : Nat} {v : Word}

/-! ## Accepted writes of a page's registers -/

/-- An accepted write of a block-specific register is its page's rule. -/
theorem State.busWrite_ruled (ha : s.Accepts q (p.base + o)) (hp : pageOf (p.base + o) = some (p, o)) (ho : 0x40 ≤ o) :
    s.busWrite (.port q) (p.base + o) v .free = (s.answered.pageWrite (.port q) p o v .free).reported q := by
  rw [State.busWrite_accepted ha, State.writeWord_page hp ho]

/-- The access codes alone, for a register that has a row and that LOCK does not hold. -/
theorem State.plainWrite_answered (hl : s.Unlocked p o) (hr : (rowOf p.kind o).isSome = true) : s.answered.plainWrite p o v = s.answered.coded p o v := by
  obtain ⟨r, hr⟩ := Option.isSome_iff_exists.1 hr
  exact State.plainWrite_coded hr hl.answered

/-- An accepted write of a register whose rule is its access codes. -/
theorem State.busWrite_coded (ha : s.Accepts q (p.base + o)) (hl : s.Unlocked p o) (hp : pageOf (p.base + o) = some (p, o)) (ho : 0x40 ≤ o)
    (hr : (rowOf p.kind o).isSome = true) (hrule : s.answered.pageWrite (.port q) p o v .free = s.answered.plainWrite p o v) :
    s.busWrite (.port q) (p.base + o) v .free = s.answered.coded p o v := by
  rw [State.busWrite_ruled ha hp ho, hrule, State.plainWrite_answered hl hr]
  exact State.reported_of_done rfl _

/-! ## Settings that are clears or requests -/

/-- CLK_STAT's REF_LOST clears unless the module coasts (R599). -/
theorem State.busWrite_clkStat (ha : s.Accepts q (Pg.clk.base + Reg.CLK_STAT)) (hl : s.Unlocked Pg.clk Reg.CLK_STAT) :
    s.busWrite (.port q) (Pg.clk.base + Reg.CLK_STAT) v .free =
      if s.fldP Pg.clk Reg.CLK_STAT 28 28 = 1 then s.answered else s.answered.coded Pg.clk Reg.CLK_STAT v := by
  have hrule : s.answered.pageWrite (.port q) Pg.clk Reg.CLK_STAT v .free =
      if s.fldP Pg.clk Reg.CLK_STAT 28 28 = 1 then s.answered else s.answered.plainWrite Pg.clk Reg.CLK_STAT v :=
    if_congr (and_iff_right rfl) rfl rfl
  rw [State.busWrite_ruled ha (by decide) (by decide), hrule, State.plainWrite_answered hl (by decide)]
  split <;> exact State.reported_of_done rfl _

theorem pageOf_tlr {d n o : Nat} (hd : d < 4) (hn : n < 84) (ho : o < 0x1000) : pageOf ((Pg.tlr d n).base + o) = some (Pg.tlr d n, o) := by
  have hb : (Pg.tlr d n).base + o = 0x1000000 + d * 0x800000 + 0x10000 + n * 0x1000 + o := rfl
  have hm : (0x1000000 + d * 0x800000 + 0x10000 + n * 0x1000 + o) % 0x1000 = o := by omega
  have hdie : (0x1000000 + d * 0x800000 + 0x10000 + n * 0x1000 + o - 0x1000000) / 0x800000 = d := by omega
  have hpg : (0x1000000 + d * 0x800000 + 0x10000 + n * 0x1000 + o - 0x1000000) % 0x800000 / 0x1000 = 0x10 + n := by omega
  rw [hb, pageOf]
  simp (disch := omega) only [hm, hdie, hpg, if_pos, if_neg, Nat.add_sub_cancel_left]

theorem pageOf_culm {d n o : Nat} (hd : d < 4) (hn : n < 3) (ho : o < 0x1000) : pageOf ((Pg.culm d n).base + o) = some (Pg.culm d n, o) := by
  have hb : (Pg.culm d n).base + o = 0x1000000 + d * 0x800000 + 0xC0000 + n * 0x1000 + o := rfl
  have hm : (0x1000000 + d * 0x800000 + 0xC0000 + n * 0x1000 + o) % 0x1000 = o := by omega
  have hdie : (0x1000000 + d * 0x800000 + 0xC0000 + n * 0x1000 + o - 0x1000000) / 0x800000 = d := by omega
  have hpg : (0x1000000 + d * 0x800000 + 0xC0000 + n * 0x1000 + o - 0x1000000) % 0x800000 / 0x1000 = 0xC0 + n := by omega
  rw [hb, pageOf]
  simp (disch := omega) only [hm, hdie, hpg, if_pos, if_neg, Nat.add_sub_cancel_left]

/-- A Tiller that serves takes a retirement (R171). -/
theorem State.busWrite_tlrMap {d n : Nat} (hd : d < 4) (hn : n < 84) (ha : s.Accepts q ((Pg.tlr d n).base + Reg.TLR_MAP))
    (hl : s.Unlocked (Pg.tlr d n) Reg.TLR_MAP) (hserves : s.tlrMap d n 31 30 ≠ 3) :
    s.busWrite (.port q) ((Pg.tlr d n).base + Reg.TLR_MAP) v .free = s.answered.coded (Pg.tlr d n) Reg.TLR_MAP v :=
  State.busWrite_coded ha hl (pageOf_tlr hd hn (by decide)) (by decide) (by decide : (rowOf PageKind.tlr Reg.TLR_MAP).isSome = true)
    (if_neg fun h => hserves h.2)

theorem fld_or_retrain (w : Word) : fld (w ||| 0x40000000) 30 30 = 1 := by
  have hbit : (fld (w ||| 0x40000000) 30 30).testBit 0 = true := by
    rw [testBit_fld, BitVec.toNat_or, Nat.testBit_or, show (0x40000000 : Word).toNat.testBit (30 + 0) = true by decide, Bool.or_true]
    rfl
  have hlt := fld_bit_lt (w ||| 0x40000000) 30
  rw [Nat.testBit_zero, decide_eq_true_eq] at hbit
  omega

/-- RETRAIN trains a port that is not isolated (R430). -/
theorem State.busWrite_retrain {f : Nat} (hf : f < 24) (ha : s.Accepts q ((Pg.fab f).base + Reg.FAB_CFG)) (hl : s.Unlocked (Pg.fab f) Reg.FAB_CFG)
    (w : Word) :
    let x := s.answered.coded (Pg.fab f) Reg.FAB_CFG (w ||| 0x40000000)
    s.busWrite (.port q) ((Pg.fab f).base + Reg.FAB_CFG) (w ||| 0x40000000) .free =
      if x.portCode f = 5 then x.setP (Pg.fab f) Reg.FAB_CFG 30 30 0 else x.portTrain f := by
  intro x
  have hx : s.answered.plainWrite (Pg.fab f) Reg.FAB_CFG (w ||| 0x40000000) = x :=
    State.plainWrite_answered hl (by decide : (rowOf PageKind.fab Reg.FAB_CFG).isSome = true)
  have hrule : s.answered.pageWrite (.port q) (Pg.fab f) Reg.FAB_CFG (w ||| 0x40000000) .free =
      if x.portCode f = 5 then x.setP (Pg.fab f) Reg.FAB_CFG 30 30 0 else x.portTrain f := by
    rw [← hx]
    exact if_pos (fld_or_retrain w)
  rw [State.busWrite_ruled ha (pageOf_fab hf (by decide)) (by decide), hrule]
  split
  · exact State.reported_of_done rfl _
  · exact State.reported_of_done ((State.portTrain_resp ..).trans rfl) _

/-- The ports of a mask send REQ 0xE in their next blocks (R616). -/
theorem State.busWrite_linkWake (ha : s.Accepts q (Pg.stb.base + Reg.STB_LINK_WAKE)) (mask : BitVec 24) :
    s.busWrite (.port q) (Pg.stb.base + Reg.STB_LINK_WAKE) (BitVec.ofNat 32 mask.toNat) .free =
      (List.range 24).foldl (fun (s : State) p => if bit mask.toNat p then s.setPort p { s.port p with wake := 1024 } else s)
        (s.answered.wrP Pg.stb Reg.STB_LINK_WAKE (s.rdP Pg.stb Reg.STB_LINK_WAKE ||| BitVec.ofNat 32 mask.toNat)) := by
  have hmask : (BitVec.ofNat 32 mask.toNat).toNat = mask.toNat := by
    have := mask.isLt
    rw [BitVec.toNat_ofNat]
    omega
  have hrule : s.answered.pageWrite (.port q) Pg.stb Reg.STB_LINK_WAKE (BitVec.ofNat 32 mask.toNat) .free
      = s.answered.sendWakes (BitVec.ofNat 32 mask.toNat).toNat := rfl
  rw [State.busWrite_ruled ha (by decide) (by decide), hrule, hmask, State.reported_of_done (by rw [State.sendWakes_resp]; rfl), State.sendWakes,
    Nat.mod_eq_of_lt mask.isLt]
  rfl

/-! ## The domain window (R603) -/

/-- No page lies in the Stubble's windows and in the domain window. -/
theorem pageOf_stubbleWindows {off : Nat} (h : 0x210000 ≤ off ∧ off < 0x215000 ∨ 0x310000 ≤ off ∧ off < 0x311000) : pageOf off = none := by
  simp (disch := omega) only [pageOf, if_pos, if_neg]

theorem pageOf_domOff {n : Nat} (hn : n < 211) : pageOf (domOff n) = none := pageOf_stubbleWindows (by unfold domOff; omega)

theorem pageOf_condStat {c : Nat} (hc : c < 64) : pageOf (condStat c) = none := pageOf_stubbleWindows (by unfold condStat; omega)

theorem windowOf_domOff {n : Nat} (hn : n < 211) : windowOf (domOff n) = some (.domains, 4 * n) :=
  windowOf_of_mem (w := (0x310000, 844, .domains)) (by decide) (by simp only; omega)

theorem windowOf_condStat {c : Nat} (hc : c < 64) : windowOf (condStat c) = some (.stbCondStat, 4 * c) :=
  windowOf_of_mem (w := (0x212000, 0x100, .stbCondStat)) (by decide) (by simp only; omega)

/-- A mask that spares a field sees nothing of its change. -/
theorem setFld_and_of_zeros {w m : Word} {hi lo x : Nat} (h : ∀ i, lo ≤ i → i < lo + (hi + 1 - lo) → m.toNat.testBit i = false) :
    setFld w hi lo x &&& m = w &&& m := by
  refine BitVec.eq_of_toNat_eq (Nat.eq_of_testBit_eq fun i => ?_)
  rw [BitVec.toNat_and, BitVec.toNat_and, Nat.testBit_and, Nat.testBit_and, testBit_setFld]
  by_cases hin : lo ≤ i ∧ i < lo + (hi + 1 - lo)
  · rw [h i hin.1 hin.2, Bool.and_false, Bool.and_false]
  · rw [if_neg hin]
    by_cases h32 : i < 32
    · simp [h32]
    · have hw : w.toNat < 2 ^ i := lt_of_lt_of_le w.isLt (Nat.pow_le_pow_right (by decide) (by omega))
      simp [h32, Nat.testBit_lt_two_pow hw]

/-- A word put together again. -/
theorem and_not_or_and (w m : Word) : (w &&& ~~~m) ||| (w &&& m) = w := by
  ext i hi
  simp only [BitVec.getElem_or, BitVec.getElem_and, BitVec.getElem_not]
  cases w[i] <;> cases m[i] <;> rfl

/-- REQ written alone leaves the clock gates and acts as a request (R603). -/
theorem State.domainWrite_req (s : State) (n req : Nat) :
    s.domainWrite (domOff n) n (setFld (s.rd (domOff n)) 29 28 req) = (s.wr (domOff n) (s.rd (domOff n))).requestPower n (req % 4) := by
  have hgates (m : Word) (h28 : m.toNat.testBit 28 = false) (h29 : m.toNat.testBit 29 = false) :
      (s.rd (domOff n) &&& ~~~m) ||| (setFld (s.rd (domOff n)) 29 28 req &&& m) = s.rd (domOff n) := by
    rw [setFld_and_of_zeros, and_not_or_and]
    intro i hlo hhi
    obtain rfl | rfl : i = 28 ∨ i = 29 := by omega
    · exact h28
    · exact h29
  rw [State.domainWrite, fld_setFld_same _ _ (by decide)]
  congr 2
  split
  · exact hgates _ (by decide) (by decide)
  · exact hgates _ (by decide) (by decide)

/-- An accepted write of REQ in a domain's entry is a request to the domain. -/
theorem State.busWrite_domReq {n : Nat} (hn : n < 211) (ha : s.Accepts q (domOff n)) (req : Fin 4) :
    s.busWrite (.port q) (domOff n) (setFld (s.rd (domOff n)) 29 28 req) .free =
      (s.answered.wr (domOff n) (s.rd (domOff n))).requestPower n req := by
  have hrule : s.answered.windowWrite .domains (domOff n) (4 * n) (setFld (s.rd (domOff n)) 29 28 req)
      = (s.answered.wr (domOff n) (s.rd (domOff n))).requestPower n req := by
    have hreq := s.answered.domainWrite_req n req
    rw [Nat.mod_eq_of_lt req.isLt] at hreq
    rw [State.windowWrite, Nat.mul_div_cancel_left n (by decide)]
    exact hreq
  rw [State.busWrite_window ha (pageOf_domOff hn) (windowOf_domOff hn), hrule]
  exact State.reported_of_done (State.requestPower_resp ..) _

section
variable {n : Nat}

theorem State.requestPower_steady (h : s.transit? n = none) {req : Nat} (hreq : req < 3) : s.requestPower n req = s.setDom n 29 28 req := by
  have htransit : (s.setDom n 29 28 req).transit? n = none := h
  rw [State.requestPower, if_neg (by omega)]
  dsimp only
  rw [htransit]

/-- A wake during a transition away from on is marked pending. -/
theorem State.requestPower_pending {x : Transit} (h : s.transit? n = some x) (haway : x.target ≠ 2) :
    s.requestPower n 2 = (s.setDom n 29 28 2).setDom n 27 27 1 := by
  have htransit : (s.setDom n 29 28 2).transit? n = some x := h
  rw [State.requestPower, if_neg (by decide)]
  dsimp only
  rw [htransit]
  exact if_pos ⟨haway, rfl⟩

end

/-- t is u with a domain's entry that reads w, answered. -/
structure State.EntryReads (u t : State) (n : Nat) (w : Word) : Prop where
  sound : t.Sound
  entry : t.rd (domOff n) = w
  other : ∀ o, o ≠ domOff n → t.rd o = u.rd o
  mem : t.mem = u.mem
  pwr : t.pwr = u.pwr
  resp : t.resp = .done

theorem State.entryReads_rewritten (h : s.Sound) (n : Nat) : s.EntryReads (s.answered.wr (domOff n) (s.rd (domOff n))) n (s.rd (domOff n)) := by
  obtain ⟨hr, hm⟩ := h
  exact ⟨⟨State.wr_regs_wf hr _ _, hm⟩, State.rd_wr_same hr _ _, fun o ho => State.rd_wr_other hr _ ho, rfl, rfl, rfl⟩

theorem State.EntryReads.setDom {u : State} {n : Nat} {w : Word} (h : u.EntryReads s n w) (hi lo x : Nat) :
    u.EntryReads (s.setDom n hi lo x) n (setFld w hi lo x) := by
  obtain ⟨⟨hr, hm⟩, hentry, hother, hmem, hpwr, hresp⟩ := h
  refine ⟨⟨State.wr_regs_wf hr _ _, hm⟩, ?_, fun o ho => ?_, hmem, hpwr, hresp⟩
  · rw [State.setDom, State.rd_wr_same hr, hentry]
  · exact (State.rd_wr_other hr _ ho).trans (hother o ho)

/-! ## The read of a condition's status (R619) -/

theorem State.busRead_condStat {c : Nat} (hc : c < 64) (hphase : s.boot.phase.commandable = true) (hd : s.regDenial (.port q) (condStat c) = none) :
    s.busRead (.port q) (condStat c) =
      { (if q = s.owner then s.wr (condStat c) (setFld (s.rd (condStat c)) 29 29 0) else s) with resp := .word (s.rd (condStat c)) } := by
  have hread : s.readWord (.port q) (condStat c) =
      (s.rd (condStat c), if q = s.owner then s.wr (condStat c) (setFld (s.rd (condStat c)) 29 29 0) else s) := by
    simp only [State.readWord, pageOf_condStat hc, windowOf_condStat hc, State.byOwner, beq_iff_eq]
  rw [State.busRead_accepted hphase hd, hread]

/-! ## Statistics rings (R350) -/

section
variable {d : Nat}

/-- An accepted write of a statistics ring's control register is its rule. -/
theorem State.busWrite_ringCtrl (hd : d < 4) (ha : s.Accepts q ((Pg.culm d 0).base + Reg.CULM_RING_CTRL)) :
    s.busWrite (.port q) ((Pg.culm d 0).base + Reg.CULM_RING_CTRL) v .free = (s.answered.ringControl d v).reported q :=
  State.busWrite_ruled ha (pageOf_culm hd (by decide) (by decide)) (by decide)

theorem State.ringControl_off (h : fld v 0 0 = 0) : s.ringControl d v = s.setP (Pg.culm d 0) Reg.CULM_RING_CTRL 0 0 0 := if_pos h

/-- EN with the header in a stack that answers zeroes WR and DROP of the header. -/
theorem State.ringControl_on (h : fld v 0 0 = 1) {n b z : Nat} (hstack : regionOf (s.ringHeader d) = some (.stack n, b, z))
    (hdeny : (s.setP (Pg.culm d 0) Reg.CULM_RING_CTRL 0 0 1).denial (Pg.culm d 0) ((s.setP (Pg.culm d 0) Reg.CULM_RING_CTRL 0 0 1).culmInfo 0) 2
      (s.ringHeader d + 0x10) 24 true = none) :
    let w := s.setP (Pg.culm d 0) Reg.CULM_RING_CTRL 0 0 1
    let y := ((w.served (s.ringHeader d) 16 2 false).placeBytes (s.ringHeader d + 0x10) (leBytes 8 0)).servedWrite (s.ringHeader d + 0x10) 8 2
    s.ringControl d v = (y.placeBytes (s.ringHeader d + 0x20) (leBytes 8 0)).servedWrite (s.ringHeader d + 0x20) 8 2 := by
  have hoff : ¬fld v 0 0 = 0 := by omega
  simp only [State.ringControl, hoff, hstack, hdeny, if_false, Bool.not_true, Bool.false_eq_true]

end

/-- Settles O53: each accepted write is the rule of its register or window (the lemmas `State.busWrite_…`), and the owner's read of a condition's status
clears CHATTER. That the header accesses of a ring count in class 2, and a write of part of an ECC word as two slots, are the model's deductions (log entries 64
and 76). -/
theorem controlsAndClears : Obligations.ControlsAndClears := by
  intro s t port u a ok
  refine ⟨fun ⟨ha, hl⟩ => ?stop, fun ⟨ha, hl⟩ => congrArg Host.Outcome.next (State.busWrite_clkStat ha hl), fun ⟨ha, hl⟩ => ?test,
    fun ⟨ha, hl⟩ => ?clear,
    fun die n ⟨ha, hl⟩ hserves => congrArg Host.Outcome.next (State.busWrite_tlrMap die.isLt n.isLt ha hl hserves),
    fun f ⟨ha, hl⟩ => congrArg Host.Outcome.next (State.busWrite_retrain f.isLt ha hl _),
    fun mask ha => congrArg Host.Outcome.next (State.busWrite_linkWake ha mask), fun dom req ha hs => ?request, fun c hphase hd => ?status,
    fun die v ha => ?ring⟩
  case stop => exact congrArg Host.Outcome.next (State.busWrite_coded ha hl (by decide) (by decide) (by decide) rfl)
  case test => exact congrArg Host.Outcome.next (State.busWrite_coded ha hl (by decide) (by decide) (by decide) rfl)
  case clear => exact congrArg Host.Outcome.next (State.busWrite_coded ha hl (by decide) (by decide) (by decide) rfl)
  case request =>
    have hexec : exec (.pwrReq t port dom req) s = .next ((a.wr (domOff dom) (u.rd (domOff dom))).requestPower dom req) :=
      congrArg Host.Outcome.next (State.busWrite_domReq dom.isLt ha req)
    have hreads := State.entryReads_rewritten hs dom
    have htransit : (a.wr (domOff dom) (u.rd (domOff dom))).transit? dom = u.transit? dom := rfl
    refine ⟨fun hsteady hlt => ?_, fun x hx haway htwo => ?_⟩
    · rw [State.requestPower_steady (htransit.trans hsteady) hlt] at hexec
      obtain ⟨hsound, hentry, hother, hmem, hpwr, hresp⟩ := hreads.setDom 29 28 req
      exact ⟨_, hexec, hsound, hentry, hother, hmem, hpwr, hresp⟩
    · rw [htwo, State.requestPower_pending (htransit.trans hx) haway] at hexec
      obtain ⟨hsound, hentry, hother, hmem, hpwr, -⟩ := (hreads.setDom 29 28 2).setDom 27 27 1
      exact ⟨_, hexec, hsound, hentry, hother, hmem, hpwr⟩
  case status => exact congrArg Host.Outcome.next (State.busRead_condStat c.isLt hphase hd)
  case ring =>
    have hexec : exec (.statRingEnable t port die v) s = .next ((a.ringControl die v).reported port) :=
      congrArg Host.Outcome.next (State.busWrite_ringCtrl die.isLt ha)
    refine ⟨fun hoff => ?_, fun n b z hon hstack => ?_⟩
    · rw [hexec, State.ringControl_off hoff]
      exact congrArg Host.Outcome.next (State.reported_of_done rfl _)
    · intro w hdeny y
      rw [hexec, State.ringControl_on hon (s := a) hstack hdeny]
      rfl

end Sys2Proof.Machine
end

section
/-!
SUPPORT. Commands of the security controller, entropy, reports and certificates (R642 to R655), and the theorem that settles O57.
-/
namespace Sys2Proof.Machine

variable {s : State} {t op len : Nat} {port : Fin 2} {c : SecCmd}

/-! ## The command register (R642 to R650) -/

/-- A command written while none runs is taken with the record and the nonce as they stand. -/
theorem State.secCommand_of_idle (h1 : 1 ≤ op) (h5 : op ≤ 5) (h : s.sec.cmd = none) : s.secCommand op len =
    (s.setSec { s.sec with cmd := some ⟨op, len, s.rdBytes (Pg.sec.base + 0x800) 64, s.rdBytes (Pg.sec.base + Reg.SEC_NONCEn) 8⟩ }).wrP Pg.sec
      Reg.SEC_CMD_STAT 0x80000000 := by
  have htakes : ¬(s.sec.cmd.isSome = true ∨ op = 0 ∨ 5 < op) := by
    rw [h]
    rintro (hsome | h0 | h6)
    · cases hsome
    · omega
    · omega
  exact if_neg htakes

theorem State.secCommand_of_busy (h : s.sec.cmd ≠ none) (op len : Nat) : s.secCommand op len = s := if_pos (.inl (Option.isSome_iff_ne_none.2 h))

theorem State.secCommand_resp (s : State) (op len : Nat) : (s.secCommand op len).resp = s.resp := by
  unfold State.secCommand
  split <;> rfl

/-- An accepted write of SEC_CMD is its command. -/
theorem State.pagePortWrite_secCmd (ha : (s.atTime t).Accepts port (Pg.sec.base + Reg.SEC_CMD)) (v : Word) :
    s.pagePortWrite t port Pg.sec Reg.SEC_CMD v = (s.atTime t).answered.secCommand (fld v 31 28) (fld v 24 0) := by
  have hrule : (s.atTime t).answered.pageWrite (.port port) Pg.sec Reg.SEC_CMD v .free = (s.atTime t).answered.secCommand (fld v 31 28) (fld v 24 0) := rfl
  rw [State.pagePortWrite, State.portWrite, ← State.atTime, State.busWrite_ruled ha (by decide) (by decide), hrule]
  exact State.reported_of_done (State.secCommand_resp ..) _

/-- The word that commands an FW_UPDATE of a length. -/
theorem fwUpdateWord_fields (len : BitVec 25) :
    fld (BitVec.ofNat 32 (0x10000000 + len.toNat)) 31 28 = 1 ∧ fld (BitVec.ofNat 32 (0x10000000 + len.toNat)) 24 0 = len.toNat := by
  have hlen := len.isLt
  rw [fld, fld, BitVec.toNat_ofNat, bits, bits]
  omega

/-! ## The end of a command -/

/-- A command ends: it runs no longer, KEY and DEBUG_UNLOCK take a fresh nonce, SEC_CMD_STAT holds the result, and the page's interrupt sets. -/
def State.secEnds (c : SecCmd) (r : State × Nat) : State :=
  let v := r.1.setSec { r.1.sec with cmd := none }
  let v := if c.op = 3 ∨ c.op = 4 then v.newSecNonce else v
  (v.wrP Pg.sec Reg.SEC_CMD_STAT (BitVec.ofNat 32 (2 ^ 30 + r.2))).setInt Pg.sec 1

theorem State.secEnds_plain (h3 : c.op ≠ 3) (h4 : c.op ≠ 4) (r : State × Nat) : State.secEnds c r =
    ((r.1.setSec { r.1.sec with cmd := none }).wrP Pg.sec Reg.SEC_CMD_STAT (BitVec.ofNat 32 (2 ^ 30 + r.2))).setInt Pg.sec 1 := by
  have hplain : ¬(c.op = 3 ∨ c.op = 4) := by
    rintro (h | h)
    · exact h3 h
    · exact h4 h
  rw [State.secEnds, if_neg hplain]

theorem State.secEnds_renewing (h : c.op = 3 ∨ c.op = 4) (r : State × Nat) : State.secEnds c r =
    ((r.1.setSec { r.1.sec with cmd := none }).newSecNonce.wrP Pg.sec Reg.SEC_CMD_STAT (BitVec.ofNat 32 (2 ^ 30 + r.2))).setInt Pg.sec 1 := by
  rw [State.secEnds, if_pos h]

/-- The end of a command that has set the security controller's state. -/
theorem State.secEnds_plain_setSec (h3 : c.op ≠ 3) (h4 : c.op ≠ 4) (s : State) (x : Security) (code : Nat) : State.secEnds c (s.setSec x, code) =
    ((s.setSec { x with cmd := none }).wrP Pg.sec Reg.SEC_CMD_STAT (BitVec.ofNat 32 (2 ^ 30 + code))).setInt Pg.sec 1 :=
  State.secEnds_plain h3 h4 _

theorem State.secEnds_renewing_setSec (h : c.op = 3 ∨ c.op = 4) (s : State) (x : Security) (code : Nat) : State.secEnds c (s.setSec x, code) =
    ((s.setSec { x with cmd := none }).newSecNonce.wrP Pg.sec Reg.SEC_CMD_STAT (BitVec.ofNat 32 (2 ^ 30 + code))).setInt Pg.sec 1 :=
  State.secEnds_renewing h _

theorem exec_secCommandEnd_of_runs {errs : List AccessErr} (hc : (s.atFacing errs t).sec.cmd = some c)
    (hready : c.op = 1 → (s.atFacing errs t).grnIdle = true) :
    exec (.secCommandEnd t errs) s = .next (State.secEnds c ((s.atFacing errs t).runSec c)) := by
  have hgo : ¬(c.op = 1 ∧ (!(s.atFacing errs t).grnIdle) = true) := by
    rintro ⟨h1, hbusy⟩
    rw [hready h1] at hbusy
    exact Bool.false_ne_true hbusy
  refine congrArg Host.Outcome.next ?_
  rw [← State.atFacing, hc]
  exact if_neg hgo

theorem State.runSec_cancel (h : c.op = 5) : s.runSec c = (s.setSec { s.sec with pendingDebug := none }, 0) := if_pos h

section
variable (hon : s.domainOn 202 = true)
include hon

/-- With the Granary on every command but DEBUG_CANCEL goes by its operation. -/
theorem State.runSec_of_on (h5 : c.op ≠ 5) : s.runSec c =
    if c.op = 1 then s.fwUpdate c.len else if c.op = 2 then (s.commitFw, 0) else if c.op = 3 then s.keyCommand c else s.debugCommand c :=
  (if_neg h5).trans (if_neg (by rw [hon]; decide))

theorem State.runSec_fwUpdate (h : c.op = 1) : s.runSec c = s.fwUpdate c.len := by
  rw [State.runSec_of_on hon (by omega), if_pos h]

theorem State.runSec_commit (h : c.op = 2) {second : Bool} (hrun : s.sec.running = some second) :
    let x := s.sec
    let f := if second = true then x.b else x.a
    s.runSec c = (s.setSec { x with ctr1 := max x.ctr1 f.one.svn, ctr2 := max x.ctr2 f.two.svn }, 0) := by
  rw [State.runSec_of_on hon (by omega), if_neg (by omega), if_pos h, State.commitFw, hrun]

theorem State.runSec_key (h : c.op = 3) : s.runSec c = s.keyCommand c := by
  rw [State.runSec_of_on hon (by omega), if_neg (by omega), if_neg (by omega), if_pos h]

theorem State.runSec_debug (h : c.op = 4) : s.runSec c = s.debugCommand c := by
  rw [State.runSec_of_on hon (by omega), if_neg (by omega), if_neg (by omega), if_neg (by omega)]

/-- A key record or a token that is refused raises DEBUG_AUTH and is counted. -/
theorem State.runSec_refused (h : c.op = 3 ∧ s.keyGood c = false ∨ c.op = 4 ∧ s.tokenGood c = false) :
    s.runSec c = ((s.raise Pg.sec .DEBUG_AUTH none 0).bump Pg.sec Reg.SEC_AUTH_FAIL_CNT 1, errCode .DEBUG_AUTH .sec) := by
  rcases h with ⟨hop, hbad⟩ | ⟨hop, hbad⟩
  · exact (State.runSec_key hon hop).trans (if_neg (Bool.eq_false_iff.1 hbad))
  · exact (State.runSec_debug hon hop).trans (if_neg (Bool.eq_false_iff.1 hbad))

end

/-! ## FW_UPDATE outside recovery (R642) -/

/-- What FW_UPDATE does once the read of its bundle has answered. -/
def State.updateFrom (at_ len : Nat) (r : State × Option Nat) : State × Nat :=
  match r with
  | (z, some code) => (z, code)
  | (z, none) =>
    match z.readBundle (z.bytesAt at_ len) with
    | .error 3 => z.secRefuse .ROLLBACK 3
    | .error e => z.secRefuse .BOOT_AUTH e
    | .ok f =>
      if z.sec.running = some true then (z.setSec { z.sec with a := f, prefB := false }, 0) else (z.setSec { z.sec with b := f, prefB := true }, 0)

theorem State.fwUpdate_eq (hlen : len ≤ 16777216) (hrec : inRecovery s = false) :
    let at_ := s.num64 Pg.sec Reg.SEC_ARG_LO
    s.fwUpdate len = State.updateFrom at_ len (s.takeRead Pg.sec 0 2 at_ len) := by
  intro at_
  rw [State.fwUpdate, if_neg (Nat.not_lt.2 hlen)]
  simp only [hrec, Bool.false_eq_true, if_false]
  rfl

theorem State.updateFrom_unread {at_ code : Nat} {r : State × Option Nat} (h : r.2 = some code) : State.updateFrom at_ len r = (r.1, code) := by
  obtain ⟨z, answer⟩ := r
  subst h
  rfl

theorem State.updateFrom_read {at_ : Nat} {r : State × Option Nat} {f : FwCopy} (h : r.2 = none) (hf : r.1.readBundle (r.1.bytesAt at_ len) = .ok f) :
    let y := r.1.sec
    State.updateFrom at_ len r =
      (r.1.setSec (if y.running = some true then { y with a := f, prefB := false } else { y with b := f, prefB := true }), 0) := by
  obtain ⟨z, answer⟩ := r
  subst h
  dsimp only [State.updateFrom] at hf ⊢
  rw [hf]
  dsimp only
  split <;> rfl

/-! ## Entropy (R655) -/

/-- The source passes while nothing waits for it and the module does not wait for READY. -/
theorem exec_entropyTestPass_of_nothing (hseed : (s.atTime t).sec.seeding = []) (hnonce : (s.atTime t).sec.nonceDue = false)
    (hho : (s.atTime t).sec.hoNonceDue = []) (hphase : (s.atTime t).boot.phase ≠ .powered) :
    let u := s.atTime t
    exec (.entropyTestPass t) s = .next ((u.setP Pg.sec Reg.SEC_STAT 30 29 2).setSec { u.sec with fails := 0 }) := by
  intro u
  have hback : u.entropyBack = (u.setP Pg.sec Reg.SEC_STAT 30 29 2).setSec { u.sec with fails := 0 } := by
    unfold State.entropyBack
    dsimp only
    rw [hseed, hnonce, hho]
    rfl
  refine congrArg Host.Outcome.next ?_
  rw [← State.atTime, hback]
  exact if_neg fun h => hphase h.1

/-! ## Reports and certificates (R653, R654) -/

theorem exec_getReport_of_askable {src : Fin 3} (hask : (s.atTime t).askable src = true) (hid : (s.atTime t).identity = true) (nonce : Vector Byte 32) :
    let u := s.atTime t
    exec (.getReport t src nonce) s = .next (u.setSec { u.sec with requests := u.sec.requests ++ [⟨src, nonce.toList, u.wall, none⟩] }) :=
  congrArg Host.Outcome.next ((if_neg (by rw [← State.atTime, hask]; decide)).trans (if_neg (by rw [← State.atTime, hid]; decide)))

theorem exec_getCerts_of_askable {src : Fin 3} {off n : BitVec 32} (hask : s.begin.askable src = true) (hid : s.begin.identity = true)
    (hn : n.toNat ≤ 65536) (hnone : s.begin.sec.requests = []) :
    exec (.getCerts src off n) s = .next { s.begin with resp := .bytes (certBytes off.toNat n.toNat) } := by
  have hfits : ¬((!s.begin.identity) = true ∨ 65536 < n.toNat) := by
    rw [hid]
    rintro (h | h)
    · exact Bool.false_ne_true h
    · omega
  refine congrArg Host.Outcome.next ((if_neg (by rw [hask]; decide)).trans ((if_neg hfits).trans (if_pos ?_)))
  rw [hnone]
  rfl

theorem exec_reportReady_of_snapshot {r : ReportReq} {rest : List ReportReq} {body : List Byte} (hr : (s.atTime t).sec.requests = r :: rest)
    (hsnap : r.snap = some body) (hnonce : r.nonce ≠ []) (hworks : (s.atTime t).entropyFailed = false) :
    let u := s.atTime t
    exec (.reportReady t) s =
      .next { (u.setSec { u.sec with requests := rest }).bump Pg.sec Reg.SEC_REPORT_CNT 1 with resp := .bytes (body ++ Config.deviceSign body) } := by
  refine congrArg Host.Outcome.next ?_
  rw [← State.atTime, hr]
  dsimp only
  rw [hsnap]
  exact (if_neg (mt List.isEmpty_iff.1 hnonce)).trans (if_neg (Bool.eq_false_iff.1 hworks))

/-- What the mailbox answers to DOE Discovery at an index: vendor, type and the next index (R654). -/
def doeAnswer (n : Nat) : List Byte :=
  match doeObjects[n]? with
  | some (v, k) => leBytes 2 v ++ leBytes 1 k ++ leBytes 1 (if n + 1 < doeObjects.length then n + 1 else 0)
  | none => leBytes 2 0xFFFF ++ leBytes 2 0

theorem exec_doeDiscovery_of_askable (hask : s.begin.askable port = true) (index : BitVec 8) :
    exec (.doeDiscovery port index) s = .next { s.begin with resp := .bytes (doeAnswer index.toNat) } := by
  refine congrArg Host.Outcome.next ((if_pos hask).trans ?_)
  unfold doeAnswer
  generalize doeObjects[index.toNat]? = entry
  cases entry with
  | none => rfl
  | some q => rfl

theorem doeAnswer_beyond {n : Nat} (h : 4 ≤ n) : doeAnswer n = [0xFF, 0xFF, 0, 0] := by
  rw [doeAnswer, List.getElem?_eq_none (show doeObjects.length ≤ n from h)]
  rfl

/-- Settles O57: an accepted command is taken or ignored by `secCommand`, one that runs ends with what `runSec` answers (`State.secEnds`), and each event is its
rule where its conditions hold. The answers of DOE Discovery are what the model presumes (log entry 33); that certificates are answered at once, or in the
order of the requests (log entry 32), and that bundles are read in class 2 (log entry 68), are its choices. -/
theorem securityAndAttestation : Obligations.SecurityAndAttestation := by
  intro s t port u a
  refine ⟨fun ha => ?commands, fun errs c => ?ends, rfl, fun hseed hnonce hho hphase => exec_entropyTestPass_of_nothing hseed hnonce hho hphase,
    fun src nonce hask hid => exec_getReport_of_askable hask hid nonce, fun src off len => ?certs, fun hcoast => congrArg Host.Outcome.next (if_pos hcoast),
    fun r rest body hr hsnap hnonce hworks => exec_reportReady_of_snapshot hr hsnap hnonce hworks, fun index => ?discovery⟩
  case commands =>
    intro taken len
    obtain ⟨hfw, hlen⟩ := fwUpdateWord_fields len
    refine ⟨fun hidle => ?_, fun hbusy i hi => ?_⟩
    · have htaken {v : Word} {op n : Nat} (hop : fld v 31 28 = op) (hn : fld v 24 0 = n) (h1 : 1 ≤ op) (h5 : op ≤ 5) :
          Host.Outcome.next (s.pagePortWrite t port Pg.sec Reg.SEC_CMD v) = taken op n := by
        rw [State.pagePortWrite_secCmd ha, hop, hn, State.secCommand_of_idle (s := (s.atTime t).answered) h1 h5 hidle]
      exact ⟨htaken hfw hlen (by decide) (by decide), htaken rfl rfl (by decide) (by decide), htaken rfl rfl (by decide) (by decide),
        htaken rfl rfl (by decide) (by decide), htaken rfl rfl (by decide) (by decide)⟩
    · have hignored (v : Word) : s.pagePortWrite t port Pg.sec Reg.SEC_CMD v = a := by
        rw [State.pagePortWrite_secCmd ha, State.secCommand_of_busy (s := (s.atTime t).answered) hbusy]
      simp only [List.mem_cons, List.not_mem_nil, or_false] at hi
      rcases hi with rfl | rfl | rfl | rfl | rfl <;> exact congrArg Host.Outcome.next (hignored _)
  case ends =>
    intro u hc hon ends x refused counted
    have hends {r : State × Nat} (hready : c.op = 1 → u.grnIdle = true) (hr : u.runSec c = r) :
        exec (.secCommandEnd t errs) s = .next (State.secEnds c r) := by
      rw [exec_secCommandEnd_of_runs hc hready, hr]
    have hplain {z : State} {x : Security} {code : Nat} (hready : c.op = 1 → u.grnIdle = true) (h3 : c.op ≠ 3) (h4 : c.op ≠ 4)
        (hr : u.runSec c = (z.setSec x, code)) : exec (.secCommandEnd t errs) s = ends (z.setSec { x with cmd := none }) code :=
      (hends hready hr).trans (congrArg Host.Outcome.next (State.secEnds_plain_setSec h3 h4 z x code))
    have hrenews {z : State} {x : Security} {code : Nat} (h : c.op = 3 ∨ c.op = 4) (hr : u.runSec c = (z.setSec x, code)) :
        exec (.secCommandEnd t errs) s = ends (z.setSec { x with cmd := none }).newSecNonce code :=
      (hends (by omega) hr).trans (congrArg Host.Outcome.next (State.secEnds_renewing_setSec h z x code))
    refine ⟨fun hop => ?_, fun second hop hrun => ?_, fun hop hgood => ?_, fun hop hgood => ?_, fun hbad => ?_, fun f hop hidle hlen hrec => ?_⟩
    -- Each end is stated by what the command did before it is compared with the statement's: unified with it, the present state is unfolded.
    · have hend := hplain (by omega) (by omega) (by omega) (State.runSec_cancel hop)
      exact hend
    · have hend := hplain (by omega) (by omega) (by omega) (State.runSec_commit hon hop hrun)
      exact hend
    · have hend := hrenews (.inl hop) ((State.runSec_key hon hop).trans (if_pos hgood))
      exact hend
    · have hend := hrenews (.inr hop) ((State.runSec_debug hon hop).trans (if_pos hgood))
      exact hend
    · rw [hends (by omega) (State.runSec_refused hon hbad), State.secEnds_renewing (by omega)]
    · intro at_ r y
      have hupdate : u.runSec c = State.updateFrom at_ c.len r := (State.runSec_fwUpdate hon hop).trans (State.fwUpdate_eq hlen hrec)
      refine ⟨fun code hcode => ?_, fun hread hf => ?_⟩
      · rw [hends (fun _ => hidle) (hupdate.trans (State.updateFrom_unread hcode)), State.secEnds_plain (by omega) (by omega)]
      · refine (hplain (fun _ => hidle) (by omega) (by omega) (hupdate.trans (State.updateFrom_read hread hf))).trans ?_
        congr 2
        split <;> rfl
  case certs =>
    intro b answer hask hid hn hnone
    exact exec_getCerts_of_askable hask hid hn hnone
  case discovery =>
    intro b answer hask
    have hanswer : doeAnswer index.toNat = answer := by
      dsimp only [answer]
      generalize index.toNat = n
      match n with
      | 0 => rfl
      | 1 => rfl
      | 2 => rfl
      | 3 => rfl
      | n + 4 => exact doeAnswer_beyond (by omega)
    rw [exec_doeDiscovery_of_askable hask, hanswer]

end Sys2Proof.Machine
end

section
/-!
SUPPORT. The I3C target, MCTP and the test access port (R675 to R680), and the theorem that settles O58.
-/
namespace Sys2Proof.Machine

variable {s : State} {t : Nat}

/-! ## The I3C target (R675) -/

theorem exec_i3cEntdaa_of_unaddressed (hok : s.begin.pwrOk = true) (hnone : s.begin.tap.i3c = none) (addr : BitVec 7) :
    exec (.i3cEntdaa addr) s =
      .next { s.begin.setTap { s.begin.tap with i3c := some addr.toNat } with resp := .bytes provisionalId } :=
  congrArg Host.Outcome.next (if_pos ⟨hok, Option.isNone_iff_eq_none.2 hnone⟩)

theorem exec_i3cEntdaa_of_addressed {d : Nat} (hd : s.begin.tap.i3c = some d) (addr : BitVec 7) : exec (.i3cEntdaa addr) s = .next s.begin := by
  refine congrArg Host.Outcome.next (if_neg ?_)
  rintro ⟨-, hnone⟩
  rw [hd] at hnone
  cases hnone

theorem exec_i3cSetdasa_of_unaddressed (hok : s.begin.pwrOk = true) (hnone : s.begin.tap.i3c = none) (static addr : BitVec 7) :
    exec (.i3cSetdasa static addr) s =
      .next (if static = 0x3A then { s.begin.setTap { s.begin.tap with i3c := some addr.toNat } with resp := .done } else s.begin) := by
  have hfree : (s.begin.pwrOk = true ∧ s.begin.tap.i3c.isNone = true ∧ static = 0x3A) ↔ static = 0x3A :=
    ⟨fun h => h.2.2, fun h => ⟨hok, Option.isNone_iff_eq_none.2 hnone, h⟩⟩
  exact congrArg Host.Outcome.next (if_congr hfree rfl rfl)

theorem exec_mctpControl_of_addressed (hok : s.begin.pwrOk = true) {d : Nat} (hd : s.begin.tap.i3c = some d) (c : BitVec 8) (l : List Byte) :
    let b := s.begin
    exec (.mctpControl c l) s = .next { b.setTap { b.tap with eid := (mctpAnswer b.tap.eid (Config.freeNat 0) c.toNat l).2 } with
      resp := .bytes (mctpAnswer b.tap.eid (Config.freeNat 0) c.toNat l).1 } :=
  congrArg Host.Outcome.next (if_pos ⟨hok, Option.isSome_iff_exists.2 ⟨d, hd⟩⟩)

/-! ## READ32 (R676) -/

/-- A read for a block changes no more than the latch. -/
theorem State.readWord_inside (s : State) (p : Page) (off : Nat) : ∃ l, (s.readWord (.inside p) off).2 = { s with latch := l } := by
  unfold State.readWord
  dsimp only
  split
  · split
    · exact ⟨_, rfl⟩
    · split <;> exact ⟨s.latch, rfl⟩
  · split <;> exact ⟨s.latch, rfl⟩

theorem State.readWords_sec (s : State) (off n : Nat) : (s.readWords off n).2.1.sec = s.sec := by
  induction n generalizing s off with
  | zero => rfl
  | succ n ih =>
    rw [State.readWords]
    split
    · rfl
    · obtain ⟨l, hl⟩ := s.readWord_inside Pg.sec off
      exact (ih _ _).trans (congrArg (·.sec) hl)

theorem exec_read32_of_addressed (hok : (s.atTime t).pwrOk = true) {d : Nat} (hd : (s.atTime t).tap.i3c = some d) {count : BitVec 16}
    (h1 : 1 ≤ count.toNat) (h64 : count.toNat ≤ 64) (hnone : (s.atTime t).sec.requests = []) (off : BitVec 32) :
    let r := (s.atTime t).readWords off.toNat count.toNat
    exec (.read32 t off count) s =
      .next { r.2.1 with resp := .bytes (if r.2.2 = 0 then r.1 else leBytes 1 0x10 ++ leBytes 1 0 ++ leBytes 2 r.2.2) } := by
  intro r
  have hanswers : ¬((!(s.atTime t).pwrOk) = true ∨ (s.atTime t).tap.i3c.isNone = true) := by
    rw [hok, hd]
    exact fun h => h.elim Bool.false_ne_true Bool.false_ne_true
  have hlen : ¬(count.toNat = 0 ∨ 64 < count.toNat) := by omega
  have hempty : r.2.1.sec.requests.isEmpty = true := by
    rw [State.readWords_sec, hnone]
    rfl
  exact congrArg Host.Outcome.next ((if_neg hanswers).trans ((if_neg hlen).trans (if_pos hempty)))

/-! ## Instructions of the test access port (R677, R678, R680) -/

theorem State.selectIr_of_ok (h : s.begin.pwrOk = true) (code : Nat) : s.selectIr code = s.begin.setIr code := if_pos h

theorem State.takePins_of_ok (h : s.begin.pwrOk = true) (code : Nat) :
    s.takePins code = { s.begin.setIr code with boot := { s.begin.boot with pinsTaken := true } } := if_pos h

theorem exec_idcode_of_ok (h : s.begin.pwrOk = true) :
    exec .idcode s = .next { s.begin.setIr 2 with resp := .word (if s.steppingB = true then 0x157349CB else 0x057349CB) } := by
  refine congrArg Host.Outcome.next ?_
  rw [State.selectIr_of_ok h]
  exact if_pos h

/-! ## The data register of REGACC (R679) -/

/-- The bits of REGACC that an access leaves: the direction and the offset. -/
def regaccKept (dr : BitVec 64) : BitVec 64 := dr &&& 0x80FFFFFF00000000

/-- The same bits as the number that the access puts the answer to. -/
def regaccKeptNat (dr : BitVec 64) : Nat := dr.toNat / 2 ^ 32 % 2 ^ 24 * 2 ^ 32 + dr.toNat / 2 ^ 63 * 2 ^ 63

/-- The bits of the mask: the offset's and the direction's. -/
theorem regaccMask_bit {i : Nat} (hi : i < 64) :
    (0x80FFFFFF00000000 : BitVec 64).getLsbD i = (decide (32 ≤ i ∧ i < 56) || decide (i = 63)) := by
  have h : ∀ i : Fin 64, (0x80FFFFFF00000000 : BitVec 64).getLsbD i = (decide (32 ≤ i.val ∧ i.val < 56) || decide (i.val = 63)) := by decide
  exact h ⟨i, hi⟩

theorem ofNat_regaccKeptNat (dr : BitVec 64) : BitVec.ofNat 64 (regaccKeptNat dr) = regaccKept dr := by
  have hsum : regaccKeptNat dr = 2 ^ 63 * (dr.toNat / 2 ^ 63) + 2 ^ 32 * (dr.toNat / 2 ^ 32 % 2 ^ 24) := by
    unfold regaccKeptNat
    omega
  refine BitVec.eq_of_getLsbD_eq fun i hi => ?_
  rw [regaccKept, BitVec.getLsbD_ofNat, BitVec.getLsbD_and, regaccMask_bit hi, hsum, Nat.testBit_two_pow_mul_add _ (by omega), Nat.testBit_two_pow_mul,
    Nat.testBit_mod_two_pow, Nat.testBit_div_two_pow, Nat.testBit_div_two_pow, BitVec.testBit_toNat, BitVec.testBit_toNat]
  by_cases h63 : i < 63
  · by_cases h32 : 32 ≤ i
    · simp [h63, h32, hi, show ¬i = 63 by omega, show i - 32 < 24 ↔ i < 56 by omega, Bool.and_comm]
    · simp [h63, h32, show ¬i = 63 by omega]
  · obtain rfl : i = 63 := by omega
    simp

/-- What has no low bit meets no word. -/
theorem and_word_eq_zero {k : BitVec 64} (hk : ∀ i < 32, k.getLsbD i = false) {low : Nat} (hlow : low < 2 ^ 32) : k &&& BitVec.ofNat 64 low = 0 := by
  refine BitVec.eq_of_getLsbD_eq fun i hi => ?_
  rw [BitVec.getLsbD_and, BitVec.getLsbD_ofNat]
  by_cases h32 : i < 32
  · simp [hk i h32]
  · simp [Nat.testBit_lt_two_pow (lt_of_lt_of_le hlow (Nat.pow_le_pow_right (by decide) (Nat.not_lt.1 h32)))]

theorem regaccKept_low (dr : BitVec 64) {i : Nat} (hi : i < 32) : (regaccKept dr).getLsbD i = false := by
  rw [regaccKept, BitVec.getLsbD_and, regaccMask_bit (by omega)]
  simp [show ¬32 ≤ i by omega, show ¬i = 63 by omega]

section
variable (dr : BitVec 64) {low : Nat} (hlow : low < 2 ^ 32)
include hlow

/-- The register after an access that is answered. -/
theorem ofNat_regaccAnswered : BitVec.ofNat 64 (regaccKeptNat dr + low) = regaccKept dr ||| BitVec.ofNat 64 low := by
  rw [BitVec.ofNat_add, ofNat_regaccKeptNat]
  exact BitVec.add_eq_or_of_and_eq_zero _ _ (and_word_eq_zero (fun i hi => regaccKept_low dr hi) hlow)

/-- The register after an access that fails: ERR sets. -/
theorem ofNat_regaccFailed : BitVec.ofNat 64 (regaccKeptNat dr + 2 ^ 62 + low) = regaccKept dr ||| 0x4000000000000000 ||| BitVec.ofNat 64 low := by
  have herr : regaccKept dr &&& 0x4000000000000000 = 0 := (BitVec.and_assoc ..).trans BitVec.and_zero
  have hbit : ∀ i : Fin 32, (0x4000000000000000 : BitVec 64).getLsbD i = false := by decide
  have hfree : ∀ i < 32, (regaccKept dr ||| 0x4000000000000000).getLsbD i = false := fun i hi => by
    rw [BitVec.getLsbD_or, regaccKept_low dr hi, hbit ⟨i, hi⟩, Bool.or_false]
  rw [BitVec.ofNat_add, BitVec.ofNat_add, ofNat_regaccKeptNat]
  calc regaccKept dr + 0x4000000000000000 + BitVec.ofNat 64 low
      = (regaccKept dr ||| 0x4000000000000000) + BitVec.ofNat 64 low := congrArg (· + _) (BitVec.add_eq_or_of_and_eq_zero _ _ herr)
    _ = regaccKept dr ||| 0x4000000000000000 ||| BitVec.ofNat 64 low := BitVec.add_eq_or_of_and_eq_zero _ _ (and_word_eq_zero hfree hlow)

end

theorem ofNat_lowWord (dr : BitVec 64) : BitVec.ofNat 64 (dr.toNat % 2 ^ 32) = dr &&& 0xFFFFFFFF := by
  have hmask : (0xFFFFFFFF : BitVec 64).toNat = 2 ^ 32 - 1 := rfl
  refine BitVec.eq_of_toNat_eq ?_
  rw [BitVec.toNat_and, hmask, Nat.and_two_pow_sub_one_eq_mod, BitVec.toNat_ofNat]
  omega

/-- The direction is the register's top bit. -/
theorem regaccWrites_iff (dr : BitVec 64) : dr.toNat / 2 ^ 63 = 1 ↔ dr.getLsbD 63 = true := by
  have hlt := dr.isLt
  rw [← BitVec.testBit_toNat, Nat.testBit_eq_decide_div_mod_eq, decide_eq_true_eq]
  omega

/-! ## Accesses by REGACC (R679) -/

theorem State.regaccAfter_word {dr : BitVec 64} {w : Word} (h : s.resp = .word w) :
    s.regaccAfter dr = s.setTap { s.tap with regacc := regaccKept dr ||| w.setWidth 64 } := by
  have hword : BitVec.ofNat 64 (regaccKeptNat dr + w.toNat) = regaccKept dr ||| w.setWidth 64 := by
    rw [ofNat_regaccAnswered dr w.isLt, BitVec.ofNat_toNat]
  rw [State.regaccAfter, h, ← hword]
  rfl

theorem State.regaccAfter_done {dr : BitVec 64} (h : s.resp = .done) :
    s.regaccAfter dr = s.setTap { s.tap with regacc := regaccKept dr ||| (dr &&& 0xFFFFFFFF) } := by
  have hword : BitVec.ofNat 64 (regaccKeptNat dr + dr.toNat % 2 ^ 32) = regaccKept dr ||| (dr &&& 0xFFFFFFFF) := by
    rw [ofNat_regaccAnswered dr (Nat.mod_lt _ (by decide)), ofNat_lowWord]
  rw [State.regaccAfter, h, ← hword]
  rfl

theorem State.regaccAfter_failedWrite {dr : BitVec 64} {c : Nat} (hw : dr.getLsbD 63 = true) (h : s.resp = .error c) :
    s.regaccAfter dr = s.setTap { s.tap with regacc := regaccKept dr ||| 0x4000000000000000 ||| (dr &&& 0xFFFFFFFF) } := by
  have hword : BitVec.ofNat 64 (regaccKeptNat dr + 2 ^ 62 + dr.toNat % 2 ^ 32) = regaccKept dr ||| 0x4000000000000000 ||| (dr &&& 0xFFFFFFFF) := by
    rw [ofNat_regaccFailed dr (Nat.mod_lt _ (by decide)), ofNat_lowWord]
  rw [State.regaccAfter, h, ← hword]
  exact if_pos ((regaccWrites_iff dr).2 hw)

/-- The register offset that REGACC names, in bytes. -/
def regaccOff (dr : BitVec 64) : Nat := dr.toNat / 2 ^ 32 % 2 ^ 24 * 4

section
variable {dr : BitVec 64} (hok : (s.atTime t).pwrOk = true)
include hok

theorem exec_regacc_write (hw : dr.getLsbD 63 = true) :
    exec (.regacc t dr) s = .next ((((s.atTime t).setIr 0x40).busWrite .tap (regaccOff dr) (dr.setWidth 32) .free).regaccAfter dr) := by
  refine congrArg Host.Outcome.next ((if_neg (by rw [← State.atTime, hok]; decide)).trans ?_)
  dsimp only
  rw [if_pos ((regaccWrites_iff dr).2 hw), BitVec.ofNat_toNat]
  rfl

theorem exec_regacc_read (hr : dr.getLsbD 63 = false) :
    exec (.regacc t dr) s = .next ((((s.atTime t).setIr 0x40).busRead .tap (regaccOff dr)).regaccAfter dr) := by
  refine congrArg Host.Outcome.next ((if_neg (by rw [← State.atTime, hok]; decide)).trans ?_)
  dsimp only
  rw [if_neg (mt (regaccWrites_iff dr).1 (Bool.eq_false_iff.1 hr))]
  rfl

end

/-- Settles O58: each request and instruction is its rule while PWR_OK is asserted, a block's reads keep what the security controller holds
(`State.readWords_sec`), and REGACC's register holds the answer beside the bits it keeps (`State.regaccAfter_done` and the lemmas beside it). The answers of
ENTDAA, SETDASA and MCTP are what the model presumes (log entry 34); that READ32 captures no error (log entry 35), when the test access port
works and what REGACC returns (log entry 36), are its deductions. -/
theorem managementAndTestPort : Obligations.ManagementAndTestPort := by
  intro s b hok
  refine ⟨fun hnone addr => ⟨exec_i3cEntdaa_of_unaddressed hok hnone addr, fun static => exec_i3cSetdasa_of_unaddressed hok hnone static addr⟩,
    fun d hd => ⟨exec_i3cEntdaa_of_addressed hd, exec_mctpControl_of_addressed hok hd, fun t off count => ?read⟩,
    ?instructions, fun t dr hphase => ?regacc⟩
  case read =>
    intro u hphase haddress h1 h64 hnone
    exact exec_read32_of_addressed hphase haddress h1 h64 hnone off
  case instructions =>
    intro at_ taken
    have hselect (n : Nat) : Host.Outcome.next (s.selectIr n) = (.next (at_ n) : Host.Outcome State Fault Refusal) :=
      congrArg Host.Outcome.next (State.selectIr_of_ok hok n)
    have htake (n : Nat) : Host.Outcome.next (s.takePins n) = taken n := congrArg Host.Outcome.next (State.takePins_of_ok hok n)
    exact ⟨hselect 2, hselect 1, hselect 0xFF, htake 0, htake 3, htake 4, htake 5, htake 6, exec_idcode_of_ok hok, hselect _⟩
  case regacc =>
    intro u off kept
    refine ⟨fun hw => ?_, fun w hr => ?_⟩
    · intro r after
      have hexec : exec (.regacc t dr) s = .next (r.regaccAfter dr) := exec_regacc_write hphase hw
      exact ⟨fun hdone => hexec.trans (congrArg _ (State.regaccAfter_done hdone)),
        fun c herr => hexec.trans (congrArg _ (State.regaccAfter_failedWrite hw herr))⟩
    · intro r hword
      have hexec : exec (.regacc t dr) s = .next (r.regaccAfter dr) := exec_regacc_read hphase hr
      exact hexec.trans (congrArg _ (State.regaccAfter_word hword))

end Sys2Proof.Machine
end
